-- ==== Sys2Proof/Word.lean ====
section
/-! DEFINITION. The word types of the model and the shape of its sparse tables.
Bit 0 is the least significant bit (R5); every multi-byte structure of the device is little-endian (R6). -/

namespace Sys2Proof

/-- One byte. -/
abbrev Byte := BitVec 8

/-- A 64-bit word: a scalar register (Table 02-1) or a register of the control space (R424). -/
abbrev Word := BitVec 64

/-- A 512-bit vector register or one 64-byte pool line (Table 02-1, R55). -/
abbrev Line := BitVec 512

/-- A string of bytes, lowest address first. -/
abbrev Bytes := List Byte

/-- A sparse table: key and value pairs, keys strictly rising, no value equal to the table's default.
What an unlisted key holds is the default that every reader names (`Tab.get` in Machine/Ops.lean). -/
abbrev Table (α : Type) := List (Nat × α)

end Sys2Proof
end

