-- ==== Sys2Proof/Syntax.lean ====
section
/-! DEFINITION. The commands of the block: one constructor per row of spec/opcode_table.json, with the row's operands.
A row that is a step of the device's own (an instruction that a thread issues, an event, the end of a transfer) takes as
operands the place where it happens and what the outside world or the physics of the parts contributes to it: bytes
received, the outcome of an ECC check. Handles, indices and counts are plain numbers; a number that names nothing makes
the command answer as its chapter says, or leaves the state unchanged (log entry 4). -/

namespace Sys2Proof

/-- Bits of pool lines that have flipped in the stacks, anywhere, up to the read that carries them: line number and bit of the
line's 576 stored bits, 0 to 511 data, 512 to 567 CHECK, 568 to 575 metadata byte 7 (Table 04-9). -/
abbrev Upsets := List (Nat × Nat)

/-- Outcome of an ECC check on the word that a step reads (R150, R177). -/
inductive Ecc where
  | ok | corrected | uncorrectable
  deriving DecidableEq, Repr

/-- Outcome of Bobbin's own checks during a step that uses a queue (R178, Table 06-7): nothing wrong, a duplicated
pointer of the queue differs, the free list differs, a cell word corrected or not. -/
inductive QmCheck where
  | ok | ptrMismatch | freeMismatch | linkCe | cellCe | cellUe
  deriving DecidableEq, Repr

/-- Where an image or a package lies (R89, R450, Table 16-7): host memory through PF 0 of a port, or the pool. -/
inductive ImageSource where
  | host (port : Nat) (addr : Nat)
  | pool (addr : Nat)
  deriving DecidableEq, Repr

/-- The function that a host access names (R286): the port and function number, 0 for PF 0. -/
structure FnRef where
  port : Nat
  fn : Nat
  deriving DecidableEq, Repr

/-- Event kinds of Table 02-3 that PROGRAM_BIND can name, and the others. -/
inductive EvKind where
  | start | queue | packet | reduce | timer | doorbell | yield_ | shuttle
  deriving DecidableEq, Repr

/-- Fault policies of R95. -/
inductive FaultPolicy where
  | keep | recycle | stop
  deriving DecidableEq, Repr

/-- Queue modes of Table 06-2. -/
inductive QMode where
  | hold | overwrite | shed
  deriving DecidableEq, Repr

/-- Arguments of REDUCE_CREATE (Table 05-9). `format` is coded as ET in Table 02-8, `op` as OP in Table 05-1. -/
structure ReduceArgs where
  ctx : Nat
  arrival : Bool
  format : Nat
  op : Nat
  sat : Bool
  rsv : Bool
  contributors : Nat
  result : Nat
  chunks : Nat
  lastLines : Nat
  cq : Nat
  cqPrio : Nat
  chunkItems : Bool
  deriving DecidableEq, Repr

/-- Arguments of CHANNEL_ASSIGN (Table 07-8). `vector = none` is no vector; `cq = 0x3FFF` is none for a tenant. -/
structure ChannelArgs where
  ctx : Nat
  cls : Nat
  engineProducer : Bool
  ringPool : Bool
  base : Nat
  ringLog2 : Nat
  port : Nat
  fn : Nat
  vector : Option Nat
  cq : Nat
  retry : Nat
  deriving DecidableEq, Repr

/-- Answer of the host, or of the pool, to one read of a descriptor or of a beat (R195, R197). -/
inductive ReadResult where
  | data (bytes : Bytes) (poison : Bool)
  | failed
  /-- No answer within the completion timeout. -/
  | timeout
  deriving DecidableEq, Repr

/-- Completion status of a received completion (R195, Table 10-8). -/
inductive CplStatus where
  | sc | ur | ca
  deriving DecidableEq, Repr

/-- What the header of a received completion says of its data: its status, Byte Count and Lower Address. -/
structure CplHead where
  status : CplStatus
  byteCount : Nat
  lowerAddr : Nat
  deriving DecidableEq, Repr

/-- Arguments of WEFT_LISTEN (Table 08-13). -/
structure ListenArgs where
  ctx : Nat
  service : Nat
  portMask : Nat
  cls : Nat
  rxQ : Nat
  reportQ : Nat
  payloadLog2 : Nat
  /-- none: the default of R223. -/
  grantLog2 : Option Nat
  deriving DecidableEq, Repr

/-- Arguments of WEFT_CONNECT (Table 08-13). The peer entry is its address, next hop, VLAN, priority and DSCP (R215). -/
structure PeerAddr where
  ip : BitVec 128
  mac : BitVec 48
  vlan : Option Nat
  prio : Nat
  dscp : Nat
  deriving DecidableEq, Repr

structure ConnectArgs where
  ctx : Nat
  port : Nat
  peer : PeerAddr
  service : Nat
  cls : Nat
  rxQ : Nat
  reportQ : Nat
  payloadLog2 : Nat
  /-- none: the default of R223. -/
  grantLog2 : Option Nat
  ecn : Bool
  deriving DecidableEq, Repr

/-- A received Weft packet after the standard headers: where it came from, the tag, priority and DSCP that it carried, and the Weft
part of the datagram (Tables 08-5 to 08-7) with its trailing CRC-32C. -/
structure WeftPacket where
  port : Nat
  srcIp : BitVec 128
  srcMac : BitVec 48
  vlan : Option Nat
  prio : Nat
  dscp : Nat
  udpSrc : Nat
  ce : Bool
  bytes : Bytes
  deriving DecidableEq, Repr

/-- A frame that the MAC has received (R212): its bytes from the destination MAC address to the byte before the FCS,
whether the FCS and the FEC were good. -/
structure EthFrame where
  port : Nat
  fcsOk : Bool
  bytes : Bytes
  deriving DecidableEq, Repr

/-- Kinds of non-posted requests that a host can send; the port supports memory reads alone (Table 10-1). -/
inductive ReqKind where
  | memoryRead | memoryReadLock | io | atomicOp | deferrableWrite
  deriving DecidableEq, Repr

/-- A non-posted request that a host port has received (R274, R276, R295), with its Relaxed Ordering attribute (R275). -/
structure MemRead where
  port : Nat
  fn : Nat
  bar : Nat
  offset : Nat
  length : Nat
  kind : ReqKind := .memoryRead
  relaxed : Bool := false
  deriving DecidableEq, Repr

/-- A posted request that a host port has received. `unsupported` marks one of a feature that the port lacks (Table 10-1). -/
structure MemWrite where
  port : Nat
  fn : Nat
  bar : Nat
  offset : Nat
  bytes : Bytes
  poisoned : Bool
  unsupported : Bool := false
  deriving DecidableEq, Repr

/-- Link-layer errors of Table 10-8. -/
inductive LinkErr where
  | receiverError | badTlp | badDllp | replayTimeout | replayRollover
  | dataLinkProtocol | flowControlProtocol | receiverOverflow | malformedTlp
  deriving DecidableEq, Repr

/-- Body of a journal record of Table 12-6, with its header fields (Table 12-5). -/
structure SeamRecord where
  resync : Bool
  poison : Bool
  tag : BitVec 11
  jsn : Nat
  target : Word
  aux : Word
  body : Bytes
  deriving DecidableEq, Repr

/-- Header of a received Seam frame (Table 12-3). `crcOk` says whether its CRC-32C matched; `kind` is the KIND field;
`malformed` says that a record in it breaks R332. -/
structure SeamFrame where
  crcOk : Bool
  kind : Nat
  fsn : Nat
  ackJsn : Nat
  malformed : Bool
  deriving DecidableEq, Repr

/-- Received HELLO message (Table 12-4). -/
structure HelloMsg where
  role : Bool
  highest : Nat
  arrange : Nat
  merge : Nat
  stepFsn : Nat
  serial : BitVec 64
  deriving DecidableEq, Repr

/-- Main rails with an undervoltage monitor, and the fall of MAIN_PG (R442). -/
inductive Rail where
  | vcore | vddq | vser09 | vser12 | mainPg
  deriving DecidableEq, Repr

/-- What the time-critical operands of TIME_SET name (R420). -/
inductive TimeMode where
  | free | ptp
  deriving DecidableEq, Repr

/-- One equalisation entry, eight bytes (Table 15-2). -/
abbrev EqEntry := BitVec 64

/-- The commands, one constructor per row of spec/opcode_table.json in the table's order. The thread operand `t` is
8 × engine + thread for a needle thread and 512 for the management engine (R27); `src` is a mailbox source, 0 to 7 for
PF 0 of a port and 8 for the BMC (R412); `ctx` is a tenant ID or 256 for the management context. -/
inductive Instr where
  -- the Nguron instruction set: thread t issues the instruction of that name (R62)
  | alu (t : Nat)
  | pcmp (t : Nat)
  | jalr (t : Nat)
  | addi (t : Nat)
  | andi (t : Nat)
  | ori (t : Nat)
  | xori (t : Nat)
  | slli (t : Nat)
  | srli (t : Nat)
  | srai (t : Nat)
  | movk (t : Nat)
  | peqi (t : Nat)
  | pnei (t : Nat)
  | plti (t : Nat)
  | pgei (t : Nat)
  | pltui (t : Nat)
  | pgeui (t : Nat)
  | ldb (t : Nat)
  | ldh (t : Nat)
  | ldw (t : Nat)
  | ldd (t : Nat)
  | stb (t : Nat)
  | sth (t : Nat)
  | stw (t : Nat)
  | std (t : Nat)
  | vld (t : Nat)
  | vst (t : Nat)
  | rdsp (t : Nat)
  | mfs (t : Nat)
  | srWdt (t : Nat)
  | srKpOpen (t : Nat)
  | srReset (t : Nat)
  | br (t : Nat)
  | fence (t : Nat)
  | yield_ (t : Nat)
  | halt (t : Nat)
  | trap (t : Nat)
  | varith (t : Nat)
  | vcvt (t : Nat)
  | vred (t : Nat)
  | vcmp (t : Nat)
  | vmerge (t : Nat)
  | vmove (t : Nat)
  | nsend (t : Nat)
  | waite (t : Nat)
  | qpush (t : Nat) (chk : QmCheck)
  | qpop (t : Nat) (chk : QmCheck)
  | qpeek (t : Nat) (chk : QmCheck)
  | pld (t : Nat)
  | pldComplete (t : Nat) (k : Nat) (upsets : Upsets)
  | pst (t : Nat)
  | pred (t : Nat)
  | hcopy (t : Nat)
  -- threads, events and programs
  | stallResume (t : Nat) (chk : QmCheck)
  | stall (t : Nat)
  | activation (t : Nat)
  | timer (t : Nat)
  | programLoad (src : Nat) (ctx : Nat) (from_ : ImageSource) (length : Nat) (engines : BitVec 64) (hostData : Option Bytes)
  | programUnload (src : Nat) (program : Nat)
  | programStart (src : Nat) (program engine threads scratch budgetCap faultQueue : Nat) (policy : FaultPolicy)
  | programStop (src : Nat) (inst : Nat)
  | programBind (src : Nat) (inst : Nat) (kind : EvKind) (source : Nat)
  | programUnbind (src : Nat) (inst : Nat) (kind : EvKind) (source : Nat)
  | threadRead (src : Nat) (engine thread : Nat)
  -- the memory pool
  | granuleAssign (src : Nat) (ctx : Nat) (index : Option Nat) (stack : Option Nat) (mirrored : Bool)
  | granuleRelease (src : Nat) (ctx : Nat) (index : Nat)
  | granuleMirror (src : Nat) (ctx : Nat) (index : Nat) (on : Bool)
  | granuleRetire (src : Nat) (granule : Nat)
  | granuleLimit (src : Nat) (tid : Nat) (limit : Nat)
  | grant (src : Nat) (owner : Nat) (index : Nat) (grantee : Nat) (write : Bool)
  | grantRevoke (src : Nat) (grant : Nat)
  | keySet (src : Nat) (slot : Nat) (key : BitVec 512)
  | scrubStart (stack : Nat)
  | scrubComplete (stack : Nat)
  | patrolRead (line : Nat) (upsets : Upsets)
  -- reduce windows
  | reduceCreate (src : Nat) (args : ReduceArgs)
  | reduceDestroy (src : Nat) (window : Nat)
  | reduceReset (src : Nat) (window : Nat)
  | ruQuota (src : Nat) (ctx : Nat) (unit : Option Nat) (slices : Nat)
  | contributionAccept (k : Nat) (ecc : Ecc)
  | chunkComplete (window chunk : Nat) (ecc : List (Nat × Ecc))
  | completionItemLink (window chunk : Nat)
  -- Bobbin
  | queueCreate (src : Nat) (ctx : Nat) (mode : Nat) (limit : Nat) (mirrored : Bool)
  | queueDestroy (src : Nat) (queue : Nat)
  | queueFlush (src : Nat) (queue : Nat)
  | flush (queue : Nat)
  | queueSet (src : Nat) (queue : Nat) (mode : Nat) (limit : Nat)
  | queueOpen (src : Nat) (queue : Nat) (sender : Nat) (sendLimit : Nat)
  | queueClose (src : Nat) (queue : Nat)
  | openingClose (queue : Nat)
  | qmQuota (src : Nat) (ctx : Nat) (cells queues : Nat)
  | sweepEnd
  | hostPushLink (port : Nat) (chk : QmCheck)
  | pushPageWrite (w : MemWrite)
  -- the Shuttle
  | channelAssign (src : Nat) (args : ChannelArgs)
  | channelRelease (src : Nat) (channel : Nat)
  | channelStop (src : Nat) (channel : Nat)
  | channelLimit (src : Nat) (tid : Nat) (limit : Nat)
  | shChTail (who : FnRef) (channel : Nat) (tail : BitVec 32)
  | pause (who : FnRef) (channel : Nat)
  | resume (who : FnRef) (channel : Nat)
  | skip (who : FnRef) (channel : Nat)
  | paused (channel : Nat)
  | descriptorFetch (channel : Nat) (host : ReadResult)
  | tailBufferWriteThrough (channel : Nat)
  | beatIssue (channel : Nat)
  | beatComplete (channel : Nat) (k : Nat) (host : ReadResult)
  | retry (channel : Nat) (k : Nat)
  | descriptorRetire (channel : Nat)
  -- Ethernet and Weft
  | ethArrange (src : Nat) (arrangement : Nat)
  | weftListen (src : Nat) (args : ListenArgs)
  | weftUnlisten (src : Nat) (listener : Nat)
  | weftConnect (src : Nat) (args : ConnectArgs)
  | weftClose (src : Nat) (conn : Nat)
  | weftMove (src : Nat) (conn : Nat) (port : Nat) (mac : BitVec 48) (vlan : Option Nat)
  | weftLimit (src : Nat) (tid : Nat) (contexts : Nat)
  | frameReceive (frame : EthFrame)
  | frameTransmit (port : Nat)
  | etLink (port : Nat) (up : Bool)
  | send (p : WeftPacket)
  | write (p : WeftPacket)
  | reduce (p : WeftPacket)
  | heldPacketDelivery (conn : Nat) (psn : Nat)
  | ack (p : WeftPacket)
  | nak (p : WeftPacket)
  | credret (p : WeftPacket)
  | connect (p : WeftPacket)
  | accept (p : WeftPacket)
  | reject (p : WeftPacket)
  | close (p : WeftPacket)
  | closeAck (p : WeftPacket)
  | packetTransmit (conn : Nat)
  | creditGrant (conn : Nat)
  | ackTimer (conn : Nat)
  | retransmissionTimeout (conn : Nat) (psn : Nat)
  | heldAckTimer (conn : Nat)
  | connectRetry (conn : Nat)
  | closingTimeout (conn : Nat)
  | closedHoldExpiry (conn : Nat)
  | idleReclaim (conn : Nat)
  | reclaimRepeat (conn : Nat)
  | rateStep (conn : Nat)
  -- service classes
  | scAdmit (src : Nat) (port fn rate depth : Nat)
  | scShare (src : Nat) (tid : Nat) (weight : Nat)
  | scClassWeights (src : Nat) (sc1 sc2 sc3 : Nat)
  | schedulingEpoch
  | clearMax (port : Nat)
  -- host ports
  | memoryRead (r : MemRead) (upsets : Upsets) (latencyNs : Option Nat)
  | memoryWrite (w : MemWrite)
  | expansionRomRead (port : Nat) (offset length : Nat)
  | configurationRequest (who : FnRef) (offset : Nat) (write : Option (BitVec 32))
  | completion (port : Nat) (fn : Nat) (tag : Nat) (head : CplHead) (bytes : Bytes) (poisoned : Bool)
  | completionTimeout (port : Nat) (tag : Nat)
  | quarantineEnd (port : Nat) (tag : Nat)
  | powerstateWrite (port : Nat) (d3hot : Bool)
  | powerstateStepEnd (port : Nat)
  | l1Idle (port : Nat)
  | l0pNarrow (port : Nat)
  | perstAssert (port : Nat)
  | perstDeassert (port : Nat)
  | hotReset (port : Nat)
  | linkUp (port : Nat) (speed width : Nat) (flit reversed : Bool)
  | linkDown (port : Nat)
  | partnerDetected (port : Nat)
  | portRelease (src : Nat) (port : Nat)
  | portMerge (src : Nat) (pair : Nat) (on : Bool)
  -- functions, windows and tenants
  | initiateFlr (port fn : Nat)
  | pfFlr (port : Nat)
  | flrComplete (tid : Nat)
  | vfEnableClear (port : Nat)
  | noticePush
  | basting (port : Nat) (second : Bool) (value : Word)
  | fnTack (port : Nat) (value : Word)
  | oldMappingDrained (port fn : Nat)
  | tenantCreate (src : Nat) (cells queues granules channels windows contexts : Option Nat)
  | tenantBind (src : Nat) (tid port : Nat) (vf : Option Nat) (vectors pushClass : Nat) (replace : Option Nat)
  | tenantUnbind (src : Nat) (tid port : Nat)
  | tenantStart (src : Nat) (tid : Nat)
  | tenantFreeze (src : Nat) (tid : Nat)
  | tenantThaw (src : Nat) (tid : Nat)
  | tenantQuiesce (src : Nat) (tid : Nat)
  | tenantRemove (src : Nat) (tid : Nat)
  | tenantSave (src : Nat) (tid : Nat) (port addr length : Nat)
  | tenantRestore (src : Nat) (tid : Nat) (port addr length : Nat) (slots : List Nat) (hostData : Option Bytes)
  | windowAlloc (src : Nat) (ctx : Nat) (port fn : Nat)
  | windowFree (src : Nat) (window : Nat)
  | windowStage (src : Nat) (window : Nat) (entry : BitVec 128)
  | windowTack (src : Nat) (port fn : Nat)
  | windowLimit (src : Nat) (tid : Nat) (limit : Nat)
  | dirtyLogStart (src : Nat) (tid port : Nat) (low span bitmapA bitmapB : Nat)
  | dirtyLogSwap (src : Nat) (tid port : Nat)
  | dirtyLogStop (src : Nat) (tid port : Nat)
  | dirtyLineWrite (tid port : Nat)
  | programDoorbell (who : FnRef) (n : Nat) (value : Word)
  | smVfPairFence (who : FnRef)
  | smPairFence (port : Nat)
  -- pairs
  | pairConfig (src : Nat) (enable role : Bool)
  | pairResync (src : Nat)
  | pairTenant (src : Nat) (tid : Nat)
  | pairUntenant (src : Nat) (tid : Nat)
  | pairShadow (src : Nat) (inst partnerInst : Nat)
  | pairPromote (src : Nat)
  | pairUnfence (src : Nat)
  | partnerReplyTimeout (src : Nat)
  | seamFrame (f : SeamFrame)
  | lineWrite (r : SeamRecord)
  | granuleZero (r : SeamRecord)
  | granuleMap (r : SeamRecord)
  | queueLink (r : SeamRecord)
  | queueUnlink (r : SeamRecord)
  | queueReset (r : SeamRecord)
  | object (r : SeamRecord)
  | thread (r : SeamRecord)
  | scratch (r : SeamRecord)
  | mark (r : SeamRecord)
  | hello (m : HelloMsg)
  | heartbeat (count : Nat) (pairState : Nat)
  | resend (jsn : Nat)
  | failover
  | mapFail (granule : Nat)
  | resync (start : Bool)
  | reply (code status tid : Nat)
  | heartbeatSend
  | heartbeatLost
  | fenceWaitEnd
  | fenceIn (asserted : Bool)
  | settleEnd
  | promoted
  | resyncCopyDone
  | seamStepPass
  | seamStepFail
  | seamRetry
  | seamLinkDown
  -- Thimble
  | sourceRaise (source : Nat) (tag : Option (BitVec 11)) (object index : Nat) (extra : BitVec 40)
  | recordForm
  | historyWrite
  | thTack
  | thSrcCfg (source : Nat) (value : Word)
  | thForce (value : Word)
  | thHistAck (value : Word)
  | faultSeverity (src : Nat) (pairs : List (Nat × Nat))
  | faultAck (src : Nat) (entry : Option Nat) (source : Option Nat)
  -- power, clocks, Stop and wake
  | stopEnter (src : Nat) (mask : BitVec 8) (seamAction : Nat)
  | abortPoint (n : Nat)
  | pointOfNoReturn
  | domainPower (src : Nat) (domain : Nat) (on : Bool)
  | domainSwitchDone (domain : Nat)
  | pwDomainTimeout (domain : Nat)
  | wakeSet (src : Nat) (threshold hyst polarity debounce : Nat) (enable : Bool) (wait : Nat)
  | stopStatsClear (src : Nat)
  | wakeSense (inWakeState : Bool)
  | mainPg
  | wakeWaitTimeout
  | brownout (retentionLost : Bool)
  | devResetN
  | boot (header0 header1 : Bytes) (bankA bankB : Bytes)
  | mgWatchdog
  | pllLock (pll : Nat)
  | ckClkSel (value : Word)
  | ckPllUnlock (pll : Nat)
  | ckFreq (clock : Nat)
  | pwSupplyUv (rail : Rail)
  | pwOvertemp
  | thermtripN
  | mcTrainFail (stack : Nat)
  | zeroFillComplete
  | crystalStop
  | holdover
  -- lanes
  | laneEqWrite (src : Nat) (first : Nat) (entries : List EqEntry)
  | lnLaneCtrl (lane : Nat) (value : Word)
  | lnSlip (lane : Nat) (value : Word)
  | clear (lane : Nat)
  | inject (lane : Nat)
  | prbsLock (lane : Nat)
  | prbsLockLoss (lane : Nat)
  | lnLockLost (lane : Nat)
  -- management
  | managementTick
  | mgMbDoorbell (port : Nat) (src : Nat)
  | mgMbRsp (port : Nat) (src : Nat)
  | hpLateLog (port : Nat)
  | etTxTsId (port : Nat)
  | deviceInfo (src : Nat)
  | deviceReset (src : Nat)
  | flashWrite (src : Nat) (from_ : ImageSource) (length : Nat) (hostData : Option Bytes)
  | keepWrite (src : Nat) (field : Nat) (value : Word) (offset : Nat) (bytes : Bytes)
  | timeSet (src : Nat) (mode : Nat) (port domain : Nat) (step : Option (BitVec 64))
  | queuePush (src : Nat) (queue prio : Nat) (bytes : Bytes)
  | queuePop (src : Nat) (queue : Nat)
  | requestBufferWrite (offset : Nat) (bytes : Bytes)
  | responseBufferRead (offset : Nat) (length : Nat)
  | bmcDoorbell
  | statusRead
  | entdaa (address : Nat)
  | setdasa (address : Nat)
  | rstdaa
  | enec
  | disec
  | getpid
  | getbcr
  | getdcr
  | getstatus
  | getmxds
  | registerWrite (who : FnRef) (offset : Nat) (bytes : Bytes)
  | vaon (above : Bool)
  | mcHot (stack : Nat) (above : Bool) (tempC : Nat)
  | hbmTrained (stack : Nat) (repairedLanes : Nat)
  | lastCellFreed (queue : Nat)
  | flashWriteComplete (ok : Bool)
  | heartbeatMiss
  | pauseQuantaExpiry (port prio : Nat)
  | linkError (port : Nat) (err : LinkErr)
  | partnerL1Request (port : Nat) (l1 : Bool) (width : Option Nat)
  | postedCredit (port : Nat)
  deriving DecidableEq, Repr

end Sys2Proof
end

