-- ==== Sys2Proof/Decode.lean ====
section
/-! DEFINITION. The commands of the block have no machine words: no row of the opcode table gives bits. (The Nguron
instruction words that a thread fetches from its program are decoded in Machine/Nguron.lean.) -/

namespace Sys2Proof

/-- The command that a word spells by the table's bits: none, since no row gives bits. -/
def decodeTableWord (_nbits _w : Nat) : Option Instr := none

end Sys2Proof
end

