-- ==== Sys2Proof/Config.lean ====
section
/-! DEFINITION. What an implementation fixes and the manual leaves open: opaque constants with no body, and the
few figures of Table 00-1 that the model uses. Nothing in Lean can evaluate an opaque constant or prove a value of it. -/

namespace Sys2Proof.Config

/-- The free value number n: the on-die random number generator's draws (R115, R216, R312) and every value the
manual leaves open after a command that completes. Applied to `State.freeCtr`, which each use advances (log entry 2). -/
opaque freeWord : Nat → BitVec 64

/-- Key material of 64 bytes from the random number generator: eight free values from number n on (R115). -/
def drawKey (n : Nat) : BitVec 512 :=
  BitVec.ofNat 512 (((List.range 8).map (fun i => (freeWord (n + i)).toNat * 2 ^ (64 * i))).sum)

/-- The 7 CHECK bytes of a line over its 64 bytes and metadata byte 7 (Table 04-9): the rule gives the code's power and not the
code (log entry 11). -/
opaque eccCheck : BitVec 512 → BitVec 8 → BitVec 56

/-- The DQ pin over which a bit of a line's 576 stored bits travels (R116; the rule does not number the pins). -/
opaque dqPin : Nat → Nat

/-- Whether the code detects an error beyond the ones that R116 names, by the bits that flipped (log entry 11). -/
opaque eccDetects : List Nat → Bool

/-- The SEC-DED code over bits [87:0] of a cell's link entry (Table 06-1; the code is not given, log entry 9). -/
opaque linkCheck : BitVec 88 → BitVec 8

/-- The die stepping, MG_ID.STEPPING (R3): letter in [7:4], digit in [3:0]. -/
opaque stepping : BitVec 8

/-- The Device Serial Number of Table 11-2. -/
opaque serialNumber : BitVec 64

/-- The I3C provisioned ID and the bus, device, speed and status words that GETPID, GETBCR, GETDCR, GETMXDS and
GETSTATUS return (R411 names the commands and not the values). -/
opaque i3cPid : BitVec 48
opaque i3cBcr : BitVec 8
opaque i3cDcr : BitVec 8
opaque i3cMxds : BitVec 16
opaque i3cStatus : Nat → BitVec 16

/-- Whether the ECDSA P-384 seal over the SHA-384 digest of the bytes verifies with the key held in the given slot
block (R84, R408). The model does not compute the curve; the slot's key bytes are the first argument (log entry 8). -/
opaque sealVerifies : List (BitVec 8) → List (BitVec 8) → Bool

/-- What the manual leaves open in the IP header of a sent packet (R214): the hop limit, the IPv4 identification by the Weft part, the
IPv6 flow label by the UDP source port (log entry 78). -/
opaque ipHops : BitVec 8
opaque ipIdent : List (BitVec 8) → BitVec 16
opaque flowLabel : Nat → BitVec 20

/-- The image of a mirrored object in an OBJECT record: R330 says that it is not an interface. -/
opaque objectImage : Nat → Nat → Nat → List (BitVec 8)

/-- The 32 bytes that WT_PEER_DATA shows of a peer entry: address, MAC, VLAN, priority, DSCP, count of users. No layout is given
(R215, log entry 36). -/
opaque peerImage : BitVec 128 → BitVec 48 → Option Nat → Nat → Nat → Nat → BitVec 256

/-- Configuration-space bits whose value the standard, not this manual, gives (R286, R287): port, function, byte offset, and
the value last written there (log entry 13). -/
opaque configBits : Nat → Nat → Nat → BitVec 32 → BitVec 32

end Sys2Proof.Config
end

