-- ==== Sys2Proof/Machine/State.lean ====
section
/-! DEFINITION. The state of the device as plain data: one structure per block of Table 01-1, and the machine's state with
the queue of waiting commands. The default of a field is its value after a device reset; a value that the manual does not
give is 0, empty or false (log entry 3). A context is a number: 0 to 255 a tenant ID, 256 the management context (R13). -/

namespace Sys2Proof.Machine

/-- Why a step stops. No meaning of this model raises one: everything the manual describes is a next state. Safe. -/
inductive Fault where
  deriving DecidableEq, Repr

/-- Why a command has no meaning. -/
inductive Refusal where
  /-- The dispatcher alone answers it, for a command that has no meaning in the model yet. Safe: the machine stops. -/
  | notModelled (mnemonic : String)
  deriving DecidableEq, Repr

/-- What the device sends outside, oldest first in `State.out` (log entry 10). -/
inductive Output where
  /-- A completion for a memory read of a port: Byte Count, Lower Address, data, EP, and its Relaxed Ordering and ID-Based
  Ordering attributes (R275, R276, R278). -/
  | cplData (port fn byteCount lowerAddr : Nat) (bytes : Bytes) (poison relaxed ido : Bool)
  /-- A completion without data: UR or CA (Table 10-8), or a successful configuration write. -/
  | cplStatus (port fn : Nat) (status : CplStatus) (relaxed ido : Bool)
  /-- Configuration Request Retry Status (R261, R307). -/
  | cplRetry (port fn : Nat)
  /-- An error message of a function: 0 ERR_COR, 1 ERR_NONFATAL, 2 ERR_FATAL (R277). -/
  | errorMessage (port fn severity : Nat)
  /-- A posted write of a function, with its attributes (R194, R275). -/
  | hostWrite (port fn : Nat) (addr : Nat) (bytes : Bytes) (poison relaxed ido : Bool)
  /-- A memory read request with its tag (R193). -/
  | hostRead (port fn tag : Nat) (addr len : Nat) (ido : Bool)
  /-- An MSI-X message, which carries no attribute (R275). -/
  | msix (port fn vector : Nat)
  /-- PM_PME message (R264). -/
  | pme (port : Nat)
  /-- An Ethernet frame: of the management engine (R213), or with a Weft packet in it (R214). -/
  | frame (port : Nat) (bytes : Bytes)
  /-- A Seam frame with a control message, 640 bytes (Table 12-3, Table 12-4). -/
  | seamFrame (bytes : Bytes)
  /-- A journal record as it joins the record stream (R330, Table 12-5). -/
  | seamRecord (bytes : Bytes)
  /-- Bytes returned to the BMC, and an in-band interrupt (R411). -/
  | bmc (bytes : Bytes)
  | bmcNack
  | ibi (data : Nat)
  /-- Flash commands of the management engine: bytes written at an offset (R410). -/
  | flashWrite (offset : Nat) (bytes : Bytes)
  /-- Local-fault ordered sets of a port in safe state (Table 13-4). -/
  | localFault (port : Nat)
  deriving DecidableEq, Repr

/-- Thread states of Table 03-2, in the order of their codes. -/
inductive ThreadMode where
  | free | idle | waiting | ready | running | stalled | halted | frozen
  deriving DecidableEq, Repr

/-- A pool load issued and not complete (R63, R82): the vector, the address, the line, its PC, and the registers as they
were when it issued, to which a fault of the load returns the thread. -/
structure Pld where
  vd : Nat
  addr : Word
  ppa : Nat
  pc : Nat
  s : Table Word
  v : Table Line
  p : BitVec 8
  deriving DecidableEq, Repr

/-- The architectural state of one thread (Table 02-1) and what the engine keeps of it (Table 03-10). -/
structure Thread where
  mode : ThreadMode := .free
  faulted : Bool := false
  pc : Nat := 0
  tag : BitVec 11 := 0
  program : Nat := 0
  inst : Nat := 0
  s : Table Word := []
  v : Table Line := []
  p : BitVec 8 := 1
  event : Word := 0
  budget : Nat := 0
  scratchSize : Nat := 0
  scratch : List Host.Cell := []
  /-- Scratch poison marks by 64-byte line (R32). -/
  poison : Table Bool := []
  /-- The state left at a freeze, to which thaw returns (R96). -/
  frozenFrom : Option ThreadMode := none
  /-- A halt, a freeze that waits for the loads that have begun to complete (R51). -/
  haltDue : Bool := false
  freezeDue : Bool := false
  /-- When the present WT stall began, in eighths of a ns (R52). -/
  stalledAt : Option Nat := none
  plds : List Pld := []
  /-- The full epoch against which a stalled PRED was checked (R146). -/
  predEpoch : Option Nat := none
  /-- Deadline of the thread's timer, in eighths of a ns (R78). -/
  timer : Option Nat := none
  /-- The thread's own events not yet delivered: START, TIMER, YIELD (R73, R77). -/
  own : List EvKind := []
  /-- NE_THR_FAULT0 to NE_THR_FAULT4: the latest fault record (Table 03-8). -/
  fault : BitVec 320 := 0
  /-- A START-mode run is in progress on the thread (R73). -/
  run : Bool := false
  /-- The next activation is a start of the program: registers take the values of R29. -/
  fresh : Bool := false
  /-- Scratch lines written since the last activation end, for the mirror engine (Table 12-7). -/
  dirty : List Nat := []
  deriving DecidableEq, Repr

/-- A loaded program (Table 03-5): header fields, code words, data section, and its first block on each engine. -/
structure Program where
  ctx : Nat
  cls : Nat
  startMode : Bool
  code : List (BitVec 32)
  entry : Nat
  scratchMin : Nat
  data : Bytes
  budget : Nat
  stallLimit : Nat
  clusters : Nat
  threadsMax : Nat
  buildId : BitVec 64
  blocks : Table Nat
  deriving DecidableEq, Repr

/-- An instance: a program started on one engine with some of its threads (R90). -/
structure Inst where
  program : Nat
  engine : Nat
  threads : List Nat
  budgetCap : Nat
  faultQueue : Nat
  policy : FaultPolicy
  /-- The binding slot served last (R77). -/
  served : Nat := 0
  /-- The partner's instance whose THREAD records this shadow takes (PAIR_SHADOW). -/
  shadowOf : Option Nat := none
  deriving DecidableEq, Repr

/-- A binding slot in use (R75, R76): pending count, ARG of the latest event, index of the first error gathered. -/
structure Binding where
  kind : EvKind
  source : Nat
  inst : Nat
  count : Nat := 0
  arg : Word := 0
  error : Option Nat := none
  deriving DecidableEq, Repr

/-- Block 8, the needle engines. Threads are numbered 8 × engine + thread; 512 is the management engine (R27). -/
structure NeState where
  threads : Table Thread := []
  programs : Table Program := []
  insts : Table Inst := []
  /-- Keyed 32 × engine + slot. -/
  bindings : Table Binding := []
  /-- Code of the management engine, loaded from the package booted (R408). -/
  mgCode : List (BitVec 32) := []
  deriving DecidableEq, Repr

inductive GranState where
  | free | owned | scrub | retired
  deriving DecidableEq, Repr

/-- Ownership entry of Table 04-4, the pending GRANULE_RETIRE, and an uncorrectable error in the entry (R120). -/
structure Granule where
  st : GranState := .free
  ctx : Nat := 0
  mirrored : Bool := false
  poisoned : Bool := false
  listIndex : Nat := 0
  refs : Nat := 0
  grants : Nat := 0
  ceCount : Nat := 0
  retire : Bool := false
  damaged : Bool := false
  deriving DecidableEq, Repr

/-- A granule list: LIST_BASE and its entries, a hole being none (R101). -/
structure GranList where
  base : Nat := 0
  entries : List (Option Nat) := []
  deriving DecidableEq, Repr

/-- Grant entry of Table 04-6. -/
structure Grant where
  write : Bool
  granule : Nat
  grantee : Nat
  owner : Nat
  deriving DecidableEq, Repr

/-- One HBM stack: MC_STK_STATUS and the scrubber's order and running scrub (R111). -/
structure Stack where
  trained : Bool := false
  hot : Bool := false
  temp : Nat := 0
  repaired : Nat := 0
  order : List Nat := []
  running : Option Nat := none
  deriving DecidableEq, Repr

/-- Blocks 9 and 10 with the pool: the bytes that the stacks hold, which are ciphertext (R114; an unlisted byte is 0), the POISON
mark and the cleared ZERO mark of each line by line number, the bits of a line that have flipped since it was written (R116),
ownership, lists by context, grants, key slots held, stacks. -/
structure MpState where
  pool : List Host.Cell := []
  poison : Table Bool := []
  written : Table Bool := []
  upsets : Table (List Nat) := []
  granules : Table Granule := []
  lists : Table GranList := []
  grants : Table Grant := []
  /-- Array entries of Table 04-3 and grant entries with an error that cannot be corrected (R120). -/
  badList : List Nat := []
  badGrant : List Nat := []
  /-- Key slots held; slot 256 is filled from the random number generator at every device reset (R115). -/
  keys : Table (BitVec 512) := [(256, Config.drawKey 0)]
  stks : Table Stack := []
  deriving DecidableEq, Repr

/-- Reduce window descriptor (Table 05-1). `sticky` holds the sticky bits in the order of the item flags of Table 05-7;
`complete` the chunks completed in the epoch; `abandoned` an ABANDONED item due at thaw: flags, chunks, epoch (R153). -/
structure RWin where
  ctx : Nat
  arrival : Bool
  format : Nat
  op : Nat
  sat : Bool
  rsv : Bool
  contribM1 : Nat
  epoch : Nat
  result : Nat
  chunksM1 : Nat
  lastM1 : Nat
  cq : Nat
  prio : Nat
  chunkItems : Bool
  sticky : BitVec 7 := 0
  complete : List Nat := []
  abandoned : Option (BitVec 7 × Nat × Nat) := none
  deriving DecidableEq, Repr

/-- A staging accumulator (Table 05-4): the exact value, or the current result's bits for the other operations. -/
structure Acc where
  seen : Bool := false
  val : Int := 0
  nan : Bool := false
  pinf : Bool := false
  ninf : Bool := false
  deriving DecidableEq, Repr

inductive ChunkPhase where
  | filling | full | items
  deriving DecidableEq, Repr

/-- An open chunk: its context and its staging (R139). Keyed 65,536 × window + chunk. -/
structure Chunk where
  unit : Nat
  slices : Nat
  onReserve : Bool
  phase : ChunkPhase := .filling
  counts : Table Nat := []
  poison : Table Bool := []
  excess : Table Bool := []
  accs : Table Acc := []
  /-- Flags of the completion item (Table 05-7). -/
  flags : BitVec 7 := 0
  /-- The CHUNK item has linked, the EPOCH item waits (R149). -/
  chunkDone : Bool := false
  deriving DecidableEq, Repr

/-- Where a waiting contribution line came from (Table 05-3). -/
inductive ContribSource where
  | thread (t : Nat)
  | weft (conn psn : Nat)
  | host (port fn : Nat)
  | shuttle (channel : Nat)
  deriving DecidableEq, Repr

/-- A contribution line that waits for its unit, with the full epoch it was checked against (R146). -/
structure Contrib where
  src : ContribSource
  /-- The context tag that its origin gave it (R15). -/
  tag : BitVec 11
  window : Nat
  offset : Nat
  epoch : Nat
  data : Line
  poison : Bool
  deriving DecidableEq, Repr

/-- An ABANDONED item that waits for room in its queue (R149). -/
structure Owed where
  window : Nat
  ctx : Nat
  cq : Nat
  prio : Nat
  bytes : Bytes
  deriving DecidableEq, Repr

/-- Block 11, the reduce units. Quotas are keyed 257 × unit + context (default 48). -/
structure RuState where
  windows : Table RWin := []
  chunks : Table Chunk := []
  waiting : List Contrib := []
  owed : List Owed := []
  quotas : Table Nat := []
  deriving DecidableEq, Repr

/-- A linked item (Table 06-1): bytes, priority, poison, the producer's tag, and the numbers of its cells, from SOI to EOI. -/
structure Item where
  bytes : Bytes
  prio : Nat
  poison : Bool
  tag : BitVec 11
  cells : List Nat
  deriving DecidableEq, Repr

/-- What becomes of an item in progress at its EOI cell: it links, a flush has marked it (R174), or a queue reset has lost it
(R178). -/
inductive ProgFate where
  | link | flushed | lost
  deriving DecidableEq, Repr

/-- An item in progress (R164): the cells that it holds, its producer's tag. -/
structure Prog where
  tag : BitVec 11
  cells : List Nat
  fate : ProgFate := .link
  deriving DecidableEq, Repr

/-- Cells of a queue that are not linked and not yet free: their tag, and the generation under which they were allocated. -/
structure Loose where
  tag : BitVec 11
  gen : Nat
  cells : List Nat
  deriving DecidableEq, Repr

/-- Queue descriptor (Table 06-2) with its items in link order. -/
structure Queue where
  ctx : Nat
  mode : QMode
  limit : Nat
  mirrored : Bool
  openTid : Option Nat := none
  sendLimit : Nat := 0
  /-- QUEUE_CLOSE has taken effect: OPEN is 0 and the set-aside is still held (R168). -/
  closing : Bool := false
  /-- QUEUE_CLOSE waits for the queue's packet boundary. -/
  closeReq : Bool := false
  gen : Nat := 0
  items : List Item := []
  /-- Items in progress, by producer: a Shuttle descriptor, a Weft message (R164). -/
  prog : Table Prog := []
  /-- A flush waits for the queue's packet boundary. -/
  flushReq : Bool := false
  /-- A QUEUE_DESTROY's flush waits; its boundary has passed (R174). -/
  destroyReq : Bool := false
  destroyed : Bool := false
  /-- Cells of flushed items not yet freed (R176). -/
  draining : List Loose := []
  /-- Cells that a sweep is to free (R179). -/
  stale : List Loose := []
  /-- A second mismatch during the sweep: pushes are refused until it ends (R179). -/
  blocked : Bool := false
  displaced : Nat := 0
  refused : Nat := 0
  flushed : Nat := 0
  resetLost : Nat := 0
  deriving DecidableEq, Repr

/-- A host push that waits in a port's push buffer (R163). -/
structure HostPush where
  fn : Nat
  queue : Nat
  prio : Nat
  bytes : Bytes
  poison : Bool
  tag : BitVec 11
  /-- Contribution lines of the port that arrived before it and still wait for their unit (R163). -/
  waits : List Contrib := []
  deriving DecidableEq, Repr

/-- Block 7, Bobbin. Quotas are keyed by context (defaults 4,096 cells and 64 queues). -/
structure QmState where
  /-- The management queue exists from every device reset (R159). -/
  queues : Table Queue := [(0x3FFF, { ctx := 256, mode := .hold, limit := 1024, mirrored := false })]
  cellQuota : Table Nat := []
  queueQuota : Table Nat := []
  /-- The free list (R156): the cells that have been on it before, in its order, behind those never taken; `taken` lists every cell
  ever taken, in rising order (log entry 9). -/
  freed : List Nat := []
  taken : List Nat := []
  /-- The 4 cells kept for queue-reset notices, none where the cell has never been used; the ones of them in use (R182). -/
  kept : List (Option Nat) := [none, none, none, none]
  keptOut : List Nat := []
  /-- Queues being swept, in the order of their resets; none is the free-list rebuild (R178, R179). -/
  sweeps : List (Option Nat) := []
  /-- Push buffers by port, oldest first (R163). -/
  pushes : Table (List HostPush) := []
  deriving DecidableEq, Repr

inductive ChanMode where
  | free | idle | active | pausing | paused | stopping | halted
  deriving DecidableEq, Repr

inductive BeatState where
  | waiting      -- a host read whose answer is due; its tag is held
  | arrived      -- its data is in the read-ahead buffer
  | retry        -- failed, waiting for its back-off
  | done
  | dead         -- failed RETRY + 1 times
  deriving DecidableEq, Repr

/-- A beat of a descriptor (R183, R195): its offset from the lower end of the copy, its failures and retry deadline; the pieces of it in
the read-ahead buffer, by offset in the beat, with their marks; the bytes of it that have gone, in order, to a destination that
takes its bytes in order. -/
structure Beat where
  off : Nat
  len : Nat
  tag : Option Nat := none
  fails : Nat := 0
  st : BeatState := .waiting
  due : Nat := 0
  parts : Table (Bytes × Bool) := []
  put : Nat := 0
  deriving DecidableEq, Repr

/-- A fetched descriptor (R186) in execution: its ring counter and 64 bytes, the length that it moves, the bytes issued
and its beats in order of issue. -/
structure Desc where
  pos : Nat
  bytes : Bytes
  started : Bool := false
  length : Nat := 0
  issued : Nat := 0
  beats : List Beat := []
  poison : Bool := false
  retries : Nat := 0
  descending : Bool := false
  /-- Completion code decided (Table 07-2); 0 while running. -/
  code : Nat := 0
  /-- The item taken from a QUEUE source. -/
  item : Option Item := none
  /-- An item is gathered for a QUEUE destination, with its cells held by Bobbin. -/
  gathers : Bool := false
  /-- Bytes delivered in order and not yet sent, linked or contributed, from offset `bufOff` of the copy: for a HOST
  destination the part of a write up to its payload boundary (R194), for QUEUE the item, for REDUCE the lines. `bufPoison`
  counts the leading bytes that carry poison. -/
  buf : Bytes := []
  bufOff : Nat := 0
  bufPoison : Nat := 0
  /-- Bytes contributed to a REDUCE destination, and the full epoch of a line that waits (R146). -/
  contributed : Nat := 0
  redEpoch : Option Nat := none
  deriving DecidableEq, Repr

/-- A descriptor fetch that has failed so far (R195, R197). -/
structure Fetch where
  pos : Nat
  fails : Nat
  due : Nat
  deriving DecidableEq, Repr

/-- What a channel keeps of its head descriptor while it is paused or halted (R201, R203): failures, by descriptor and offset, of the
beats that waited for a retry; retries spent, poison delivered, its direction, that it has begun, the item taken for it. -/
structure Kept where
  fails : Table Nat := []
  tries : Nat := 0
  poison : Bool := false
  begun : Bool := false
  descending : Bool := false
  item : Option Item := none
  deriving DecidableEq, Repr

/-- A channel: the registers of Tables 07-10 to 07-13 and its descriptors in flight. -/
structure Chan where
  st : ChanMode := .free
  cls : Nat := 0
  ctx : Nat := 0
  engineProd : Bool := false
  ringPool : Bool := false
  base : Nat := 0
  log2 : Nat := 4
  retry : Nat := 3
  port : Nat := 0
  fn : Nat := 0
  cq : Nat := 0x3FFF
  vector : Option Nat := none
  system : Bool := false
  head : BitVec 32 := 0
  tail : BitVec 32 := 0
  progress : Nat := 0
  ownerPause : Bool := false
  freezePause : Bool := false
  haltCause : Nat := 0
  haltIndex : Nat := 0
  /-- The halt is due once every other beat of the descriptor has completed (R197): its cause. -/
  halting : Nat := 0
  stopReq : Bool := false
  fetchErr : Option Fetch := none
  kept : Kept := {}
  fetched : List Desc := []
  tailBuf : List (Nat × Bytes) := []
  /-- The ERROR item of a halt that waits for room in the CQ (Table 06-4), with its descriptor index. -/
  owed : Option (Bytes × Nat) := none
  /-- Slot of the tenant's channel page (R429). -/
  slot : Option Nat := none
  deriving DecidableEq, Repr

/-- Block 6, the Shuttle. -/
structure ShState where
  /-- Channels 1,008 to 1,023 are the system channels, the management context's from every device reset (R184). -/
  chans : Table Chan := (List.range 16).map (fun i => (1008 + i, { st := .idle, ctx := 256, system := true }))
  limits : Table Nat := []
  deriving DecidableEq, Repr

/-- A logical Ethernet port (Table 08-17), the priorities stopped by PFC (8 stands for PAUSE), the frames of Weft that wait for theirs,
each with its priority (R211), frames delivered to the exception queue this tick (R213), the transmit timestamps held (R237), and the
time of the last NAK(NO_CONN). -/
structure EtPort where
  link : Bool := false
  anDone : Bool := false
  fecLock : Bool := false
  paused : List Nat := []
  held : List (Nat × Bytes) := []
  excCount : Nat := 0
  txTs : List (BitVec 64 × BitVec 64) := []
  nakAt : Option Nat := none
  deriving DecidableEq, Repr

/-- Block 12. `queue` is ET_MGT_TXQ. -/
structure EtState where
  arrangement : Nat := 0
  /-- The arrangement has been applied to the lanes and to Bobbin's set-asides (R172, R210). -/
  applied : Bool := false
  ports : Table EtPort := []
  queue : Nat := 0
  deriving DecidableEq, Repr

/-- Peer table entry (R215). -/
structure Peer where
  ip : BitVec 128
  mac : BitVec 48
  vlan : Option Nat
  prio : Nat
  dscp : Nat
  count : Nat
  deriving DecidableEq, Repr

/-- Listener (R217). -/
structure Listener where
  ctx : Nat
  service : Nat
  portMask : Nat
  cls : Nat
  rxQ : Nat
  reportQ : Nat
  plog : Nat
  grantLog : Nat
  deriving DecidableEq, Repr

inductive ConnMode where
  | free | connecting | opened | closing | closed
  deriving DecidableEq, Repr

/-- A message accepted for sending and not yet acknowledged (R233). `kind` is the packet TYPE; `poison` lists the
packets, by index, whose payload includes a marked scratch line; `sent` and `acked` count packets. -/
structure TxMsg where
  num : BitVec 16
  kind : Nat
  defq : Bool
  operand : Word
  bytes : Bytes
  poison : List Nat
  /-- The cells that keep the message for retransmission (R233). -/
  cells : List Nat
  sent : Nat := 0
  acked : Nat := 0
  failed : Bool := false
  deriving DecidableEq, Repr

/-- A packet sent and not acknowledged (R227): its retransmission deadline, none while a HELD ACK stops the timer. -/
structure TxPkt where
  psn : BitVec 24
  msg : BitVec 16
  idx : Nat
  sentAt : Nat
  due : Option Nat
  /-- To be sent again; has been sent more than once (R227). -/
  again : Bool := false
  resent : Bool := false
  sacked : Bool := false
  deriving DecidableEq, Repr

/-- A message being received (R230): the pieces that have arrived by offset; where it is refused, the reason and the detail of its
NAKs. -/
structure RxMsg where
  num : BitVec 16
  kind : Nat
  len : Nat
  defq : Bool
  operand : Word
  poison : Bool := false
  parts : Table Bytes := []
  refused : Option (Nat × Nat) := none
  deriving DecidableEq, Repr

/-- A packet received and above CUM_PSN, or waiting for its target (R226, R228). -/
structure RxPkt where
  psn : BitVec 24
  msg : BitVec 16
  off : Nat
  delivered : Bool
  poison : Bool
  /-- The last journal record of the delivery (R335). -/
  jsn : Nat := 0
  deriving DecidableEq, Repr

/-- Connection context (Table 08-8) and what Weft keeps beside it. Times are in eighths of a ns. -/
structure Conn where
  st : ConnMode := .free
  ctx : Nat := 0
  cls : Nat := 0
  port : Nat := 0
  plog : Nat := 0
  ecn : Bool := false
  miss : Nat := 0
  timeouts : Nat := 0
  peerConn : Nat := 0
  peer : Nat := 0
  grantLog : Nat := 0
  localTag : BitVec 32 := 0
  peerTag : BitVec 32 := 0
  nextPsn : BitVec 24 := 0
  unaPsn : BitVec 24 := 0
  expPsn : BitVec 24 := 0
  nextMsg : BitVec 16 := 0
  ackedMsg : BitVec 16 := 0
  rxQ : Nat := 0
  reportQ : Nat := 0
  txLimit : BitVec 32 := 0
  txIssued : BitVec 32 := 0
  rxLimit : BitVec 32 := 0
  rxCount : BitVec 32 := 0
  udpSrc : Nat := 0
  rto : Nat := 0
  srtt : Nat := 0
  rate : Nat := 0
  staleWin : Nat := 0
  staleEpoch : Nat := 0
  staleValid : Bool := false
  service : Nat := 0
  nonce : BitVec 32 := 0
  firstPsn : BitVec 24 := 0
  tries : Nat := 0
  connectDue : Option Nat := none
  listener : Option Nat := none
  txMsgs : List TxMsg := []
  txPkts : List TxPkt := []
  rxMsgs : List RxMsg := []
  rxPkts : List RxPkt := []
  /-- Number of the next message to link (R231). -/
  nextLink : BitVec 16 := 0
  unacked : Nat := 0
  ackDue : Option Nat := none
  heldDue : Option Nat := none
  ceCount : Nat := 0
  reclaim : Option (BitVec 32) := none
  reclaimDue : Option Nat := none
  lastData : Nat := 0
  closeSent : Bool := false
  closeDue : Option Nat := none
  closeReason : Nat := 0
  closedAt : Nat := 0
  failed : Nat := 0
  lastCut : Nat := 0
  rateDue : Nat := 0
  deriving DecidableEq, Repr

/-- Block 13, Weft. -/
structure WtState where
  conns : Table Conn := []
  peers : Table Peer := []
  listeners : Table Listener := []
  deriving DecidableEq, Repr

/-- A token bucket (R245): tokens in sixty-fourths of a byte, credited up to FCLK cycle `at_`. -/
structure Bucket where
  rate : Nat := 0
  depth : Nat := 1024
  tokens : Nat := 65536
  at_ : Nat := 0
  demoted : Nat := 0
  deriving DecidableEq, Repr

/-- A deficit round-robin (R249): the flow whose turn it is, and the deficit counter of each flow in bytes. -/
structure Round where
  turn : Nat := 0
  deficit : Table Nat := []
  deriving DecidableEq, Repr

/-- A share arbiter: its round among the classes, and within each class among the contexts. -/
structure Shares where
  classes : Round := {}
  within : Table Round := []
  deriving DecidableEq, Repr

/-- Block 5. Buckets are keyed 256 × port + function; tenant weights by context (16, and 64 for the management context); arbiters by
shared point: 0 to 7 the reduce units' inputs, 8 to 23 the Shuttle engines, 24 + p the Weft credit of port p. -/
structure ScState where
  buckets : Table Bucket := []
  w1 : Nat := 8
  w2 : Nat := 4
  w3 : Nat := 1
  weights : Table Nat := []
  shares : Table Shares := []
  deriving DecidableEq, Repr

/-- A set-up change that takes effect at the next scheduling epoch (R171, R140, R254). -/
inductive EpochChange where
  | ruQuota (unit ctx slices : Nat)
  | qmQuota (ctx cells queues : Nat)
  | queueSet (queue : Nat) (mode : QMode) (limit : Nat)
  | setBucket (port fn rate depth : Nat)
  | share (ctx weight : Nat)
  | classWeights (w1 w2 w3 : Nat)
  deriving DecidableEq, Repr

/-- An outstanding host read (R269): the channel, the descriptor's ring counter, the bytes that have come. -/
structure ActiveTag where
  channel : Nat
  fn : Nat
  pos : Nat
  addr : Nat
  len : Nat
  sent : Nat
  got : Nat := 0
  deriving DecidableEq, Repr

inductive PmStep where
  | none | drain | enter | resume
  deriving DecidableEq, Repr

/-- A host port (Tables 10-12, 10-14, HP_PM_STATUS, HP_TAG_STATUS, HP_LATE_LOG). -/
structure HPort where
  link : Bool := false
  flit : Bool := false
  speed : Nat := 0
  width : Nat := 0
  l0pWidth : Nat := 0
  l1 : Bool := false
  /-- The link power state is L1.1, when it is L1 at all (R262). -/
  l11 : Bool := false
  /-- Bytes in the transmit queue while the L0p width is reduced (R262). -/
  txQueued : Nat := 0
  reversed : Bool := false
  perst : Bool := false
  /-- PowerState in effect, the step of a change, the latest value written, the state the change started from. -/
  d3 : Bool := false
  step : PmStep := .none
  latestD3 : Bool := false
  startD3 : Bool := false
  /-- Deadline of the step (Table 10-2). -/
  stepDue : Nat := 0
  d3cold : Bool := false
  wake : Bool := false
  contained : Bool := false
  cause : Nat := 0
  ltssmHeld : Bool := false
  inserted : Bool := false
  /-- A PF FLR runs: PF 0's configuration space is reset at its end (R267). -/
  flr : Bool := false
  active : Table ActiveTag := []
  /-- Quarantined tags: the end of the quarantine and the requester function (R272). -/
  quarantine : Table (Nat × Nat) := []
  /-- Tags that have become free, oldest first, and the lowest tag never issued (R269). -/
  freed : List Nat := []
  fresh : Nat := 0
  /-- Channels with a request that waits for a tag (R270). -/
  tagWait : List Nat := []
  lateLog : List (Nat × Nat) := []
  /-- Device-failed messages that wait for posted credit (R362): functions. -/
  creditWait : List Nat := []
  deriving DecidableEq, Repr

/-- Block 1. `merge` is the merge in effect, one bit per pair. -/
structure HpState where
  ports : Table HPort := []
  merge : BitVec 4 := 0
  deriving DecidableEq, Repr

inductive TenMode where
  | free | bound | running | quiesced | frozen | removed
  deriving DecidableEq, Repr

/-- A binding of a tenant: port, VF, vectors, push class (TENANT_BIND). -/
structure Bind where
  port : Nat
  vf : Nat
  vectors : Nat
  pushClass : Nat
  deriving DecidableEq, Repr

/-- Tenant (R304): state, freeze causes held separately (R280), bindings in port order, limits. -/
structure Tenant where
  st : TenMode := .free
  mgrCause : Bool := false
  containCause : Bool := false
  binds : List Bind := []
  granules : Nat := 512
  windows : Nat := 64
  contexts : Nat := 256
  /-- A TENANT_QUIESCE, a TENANT_SAVE runs for the tenant. -/
  quiescing : Bool := false
  saving : Bool := false
  /-- TENANT_REMOVE waits for the tenant's connections to close (R311). -/
  removing : Bool := false
  /-- The tenant is a shadow of the partner's tenant of the same number, or is enrolled here (R336). -/
  shadow : Bool := false
  enrolled : Bool := false
  deriving DecidableEq, Repr

/-- A window index in use (R294): owner, PORT and FUNCTION, the live and the staged copy of Table 11-6. -/
structure Window where
  ctx : Nat
  port : Nat
  fn : Nat
  live : BitVec 128 := 0
  staged : BitVec 128 := 0
  stagedFlag : Bool := false
  damaged : Bool := false
  /-- Granule that a live GRANT mapping presents (R295), and whether its count in REFS is gone with the granule (R300). -/
  granted : Option Nat := none
  refGone : Bool := false
  deriving DecidableEq, Repr

/-- Tack state of a function (R298, R300): the granules whose REFS fall when the old mapping has drained, the contribution
lines resolved under it that still wait, and a held tack. -/
structure Tack where
  draining : Option (List Nat) := none
  waits : List Contrib := []
  held : Bool := false
  /-- Result of the function's last tack, coded as FN_TACK_STATUS.RESULT. -/
  last : Nat := 0
  deriving DecidableEq, Repr

/-- An FLR quiesce running for a tenant (R307, R308): the functions reset at its end. `disable` marks R309. -/
structure Flr where
  fns : List (Nat × Nat) := []
  disable : List (Nat × Nat) := []
  deriving DecidableEq, Repr

/-- Dirty-page log of a tenant on a port (R316). -/
structure DirtyLog where
  low : Nat
  span : Nat
  bitmapA : Nat
  bitmapB : Nat
  activeB : Bool := false
  overflow : Bool := false
  /-- Lines of the active bitmap changed and not yet written to the host, and the shadow granules that hold the bitmap. -/
  lines : List Nat := []
  granules : List Nat := []
  deriving DecidableEq, Repr

/-- Blocks 2 and 3. Functions are keyed 256 × port + function. `cfg` holds configuration registers by
1,024 × function key + double word; `msix` table entries by 2,048 × function key + vector. -/
structure FnState where
  tenants : Table Tenant := []
  windows : Table Window := []
  tacks : Table Tack := []
  tackResult : Nat := 0
  tackPort : Nat := 0
  tackFn : Nat := 0
  tackIndex : Nat := 0
  tackRefused : Bool := false
  cfg : Table (BitVec 32) := []
  msix : Table (BitVec 128) := []
  pend : Table Bool := []
  notice : Table (BitVec 5) := []
  flrs : Table Flr := []
  /-- Dirty logs keyed 8 × tenant + port. -/
  logs : Table DirtyLog := []
  /-- Notice buffer, oldest first (R318). -/
  notices : List Bytes := []
  /-- Selected object per VF (R430). -/
  objSel : Table Word := []
  /-- The granules that hold the ROM copies once reads are served from the pool (R291); the driver image that flash holds. -/
  romGran : List Nat := []
  rom : Bytes := []
  /-- Manager-port mask and VF BAR2 size in effect (R290). -/
  mgrPorts : BitVec 8 := 1
  bar2Log2 : Nat := 34
  ariMissing : Table Bool := []
  deriving DecidableEq, Repr

inductive PairMode where
  | solo | joining | inSync | unprotected | promoted | fenced
  deriving DecidableEq, Repr

/-- Progress of fencing and promotion (R339, R340). -/
inductive PromoStep where
  | none | fenceWait | settle | promote
  deriving DecidableEq, Repr

/-- A journal record held (Table 12-5): its KIND and the rest. -/
structure JRec where
  kind : Nat
  body : SeamRecord
  deriving DecidableEq, Repr

/-- A PAIR_TENANT or PAIR_UNTENANT that waits for the partner's REPLY (R346): source, command code, TID, deadline, and the
status that has come. -/
structure PairWait where
  src : Nat
  code : Nat
  tid : Nat
  due : Nat
  status : Option Nat := none
  deriving DecidableEq, Repr

/-- Block 14, the Seam link and mirror engine. -/
structure SmState where
  mode : PairMode := .solo
  enable : Bool := false
  role : Bool := false
  fenceOut : Bool := false
  fenceIn : Bool := false
  promo : PromoStep := .none
  promoDue : Nat := 0
  fenceAt : Nat := 0
  hbLost : Bool := false
  hbMiss : Nat := 0
  hbCount : Nat := 0
  hbSendDue : Nat := 0
  hbWinDue : Nat := 0
  linkUp : Bool := false
  step : Nat := 0
  /-- The step being brought up, 0 when none. -/
  trying : Nat := 0
  hello : Bool := false
  helloSent : Bool := false
  partnerHighest : Nat := 0
  conflict : Bool := false
  fecUncorr : Nat := 0
  retryDue : Nat := 0
  passDue : Nat := 0
  rxFsn : Nat := 0
  rxFsnKnown : Bool := false
  txFsn : Nat := 0
  journal : List JRec := []
  jsnSent : Nat := 0
  jsnAcked : Nat := 0
  jsnApplied : Nat := 0
  /-- JSN of the last record made for a write received on each host port (R334). -/
  portJsn : Table Nat := []
  /-- Records are discarded until the first one not applied arrives again (R332). -/
  resending : Bool := false
  badRow : Nat := 0
  scratchHeld : List SeamRecord := []
  /-- The pieces so far of an item whose QUEUE_LINK body takes several records (log entry 80). -/
  linkHeld : Option SeamRecord := none
  /-- Own granule for a partner's granule (R331). -/
  granMap : Table Nat := []
  /-- Objects received from the partner: kind × 65,536 + index to owner and image (Table 12-6). -/
  objects : Table (Nat × Bytes) := []
  /-- Threads of the partner's instances by 8 × instance + thread; items of shadow queues are held in Bobbin. -/
  threads : Table Thread := []
  /-- The partner's IP addresses on which this device answers after a promotion, by logical port (Table 12-7). -/
  addrs : List (Nat × Nat) := []
  markSent : Bool := false
  markApplied : Bool := false
  markJsn : Nat := 0
  /-- Pool lines that the resync stream has still to copy (R343). -/
  copyQ : List Nat := []
  /-- Granules in the resync. -/
  resyncTotal : Nat := 0
  /-- Objects that the resync stream has still to copy: kind and index (Table 12-6). -/
  objQ : List (Nat × Nat) := []
  /-- Objects received from the partner since its MARK begin, by the key of `objects`: what the partner still holds (R344). -/
  seen : List Nat := []
  replies : List PairWait := []
  lanes : Table (BitVec 9) := []
  deriving DecidableEq, Repr

/-- A Thimble record (Table 13-3). -/
structure ThRec where
  source : Nat
  severity : Nat
  safeCause : Bool := false
  forced : Bool := false
  tag : Option (BitVec 11)
  seq : Nat := 0
  object : Nat
  index : Nat
  extra : BitVec 40
  time : Nat
  slow : Nat
  coalesced : Nat := 0
  deriving DecidableEq, Repr

/-- Block 18, Thimble. Severities by source; the default is Table 13-1's. -/
structure ThState where
  live : Table Nat := []
  basted : Table Nat := []
  pending : Table Bool := []
  lastSeq : Table Nat := []
  lowQ : List ThRec := []
  highQ : List ThRec := []
  log : List ThRec := []
  nextSeq : Nat := 0
  logTick : Nat := 0
  safe : Bool := false
  safeSource : Nat := 0
  safeFence : Bool := false
  /-- The CYCLE count at which safe state was entered (R359). -/
  safeAt : Nat := 0
  alert : Bool := false
  /-- Records of CONTAIN and SAFE not yet written to the fault history (R364). -/
  histQ : List ThRec := []
  /-- Raises that reached Thimble this tick, by 512 × source + context (R94, R133, R161, R208, R236, R277). -/
  ticked : Table Nat := []
  deriving DecidableEq, Repr

inductive DomMode where
  | off | on | switchingOn | switchingOff
  deriving DecidableEq, Repr

/-- A power domain (PW_DOM_STATUS). -/
structure Domain where
  st : DomMode := .off
  clamped : Bool := true
  timedOut : Bool := false
  since : Nat := 0
  /-- Mailbox source whose DOMAIN_POWER switches the domain. -/
  src : Option Nat := none
  deriving DecidableEq, Repr

inductive Phase where
  | boot | run | stopEntry
  deriving DecidableEq, Repr

/-- A Stop entry under way (R382): who asked, the mask, the abort points passed, the ports put in electrical idle. -/
structure StopEntry where
  src : Nat
  mask : BitVec 8
  points : Nat
  ports : List Nat := []
  deriving DecidableEq, Repr

/-- Blocks 16 and 17 with the always-on island. -/
structure PwState where
  domains : Table Domain := []
  /-- Domains that wait to be switched on, at most eight at a time being switched (R375). -/
  domQ : List Nat := []
  phase : Phase := .boot
  cause : Nat := 0
  stop : Option StopEntry := none
  /-- Refused or aborted entry to be answered at the next tick: source and DETAIL. -/
  stopAnswer : Option (Nat × Word) := none
  inStop : Bool := false
  ldoLow : Bool := false
  brownout : Bool := false
  wakeLive : Bool := false
  mainEn : Bool := true
  mainPg : Bool := false
  /-- MAIN_EN was asserted for a wake; its deadline (R385). -/
  wakeDue : Option Nat := none
  vaon : Bool := true
  /-- The retention rail fell below 0.5 V: the keep check fails at the next reset (R368). -/
  keepLost : Bool := false
  slowAcc : Nat := 0
  slowValid : Bool := false
  slowRuns : Bool := true
  thermtrip : Bool := false
  /-- A main rail or MAIN_PG has failed: the rails' return is a reset with cause SUPPLY (R442). -/
  supplyLost : Bool := false
  clkPll : Bool := false
  plls : BitVec 12 := 0
  freqMon : BitVec 8 := 0
  zeroFilled : Bool := false
  deriving DecidableEq, Repr

/-- A serial lane (Tables 15-10 to 15-12). -/
structure Lane where
  test : Bool := false
  loop : Nat := 0
  txSleep : Bool := false
  rxSleep : Bool := false
  pattern : Nat := 0
  gen : Bool := false
  check : Bool := false
  invert : Bool := false
  prbsLock : Bool := false
  rxLock : Bool := false
  rxInverted : Bool := false
  slips : Nat := 0
  /-- Bits compared and errors since lock or CLEAR; while the checker counts, `since` is when `bits` was last brought up. -/
  bits : Nat := 0
  errs : Nat := 0
  since : Option Nat := none
  eq : BitVec 64 := 0
  deriving DecidableEq, Repr

/-- Block 15. `rate` is LN_QUAD_CTRL.TEST_RATE and `inEffect` the rate in effect, by quad. -/
structure LnState where
  lanes : Table Lane := []
  rate : Table Nat := []
  inEffect : Table Nat := []
  pll : BitVec 24 := 0
  eqDefault : Bool := false
  eqValid : Bool := false
  /-- Lanes whose entry has been written since the reset: they leave the default entry at their next training (R394). -/
  eqNew : List Nat := []
  deriving DecidableEq, Repr

/-- A mailbox command that answers at a later tick (R412), with what its answer needs. -/
inductive Running where
  | windowTack (p f : Nat)
  | dirtyLogStart (tid p low span a b : Nat)
  | dirtyLogSwap (tid p : Nat)
  | dirtyLogStop (tid p : Nat)
  | tenantFreeze (t : Nat)
  | tenantQuiesce (t : Nat)
  | tenantRemove (t : Nat)
  | tenantSave (t p a n : Nat)
  /-- PAIR_TENANT or PAIR_UNTENANT, which waits for the partner. -/
  | pair
  | domainPower (d : Nat) (on : Bool)
  /-- PROGRAM_LOAD, FLASH_WRITE, TENANT_RESTORE taken up, the host's memory being read (R450). -/
  | fetchProgram (ctx : Nat) (from_ : ImageSource) (n : Nat) (engines : BitVec 64)
  | fetchFlash (from_ : ImageSource) (n : Nat)
  | fetchRestore (t p a n : Nat) (slots : List Nat)
  /-- Answered by FLASH_WRITE_COMPLETE. -/
  | flashWrite
  /-- Answered only when the entry is refused or abandoned. -/
  | stopEnter
  deriving DecidableEq, Repr

/-- A mailbox source (R412): buffers of 4 KiB and the status bits. -/
structure Mbox where
  req : List Host.Cell := []
  rsp : List Host.Cell := []
  pending : Bool := false
  running : Option Running := none
  /-- MG_TICK when the command was taken up. -/
  taken : Nat := 0
  ready : Bool := false
  overrun : Bool := false
  deriving DecidableEq, Repr

/-- Block 19, management engine and mailbox, with the flash. -/
structure MgState where
  tick : Nat := 0
  wdtLeft : Nat := 16
  running : Bool := false
  bank : Bool := false
  fellBack : Bool := false
  recovery : Bool := false
  kpBad : Bool := false
  floor : Nat := 0
  fw : BitVec 64 := 0
  /-- Boot headers and packages in flash. -/
  header0 : Bytes := []
  header1 : Bytes := []
  bankA : Bytes := []
  bankB : Bytes := []
  /-- A flash write under way: source and package (R410). -/
  flash : Option (Nat × Bytes) := none
  /-- Public keys by slot, X then Y (R408). -/
  seals : Table Bytes := []
  boxes : Table Mbox := []
  /-- The mailbox commands that wait for a condition, as (source, command, tick taken up). -/
  kpOpen : Bool := false
  /-- When the latest keep write of the firmware completes (R417, R418). -/
  keepDue : Nat := 0
  i3c : Bool := false
  i3cAddr : Nat := 0
  ibi : Bool := false
  ibiNotify : Bool := false
  deriving DecidableEq, Repr

/-- Time base (R420): the count in units of 1/(8 × 10^12) ns, and Table 16-10. -/
structure TbState where
  acc : Nat := 0
  running : Bool := false
  locked : Bool := false
  estimated : Bool := false
  unknown : Bool := false
  holdover : Bool := false
  uncert : Nat := 0
  adj : Int := 0
  ptp : Bool := false
  ptpPort : Nat := 0
  ptpDomain : Nat := 0
  goodSyncs : Nat := 0
  lastSync : Nat := 0
  deriving DecidableEq, Repr

/-- What a save image carries (R312). Keys, connections and listeners are not in it. -/
structure SavedTenant where
  ten : Tenant := {}
  cells : Nat := 4096
  queues : Nat := 64
  channels : Nat := 4
  weight : Nat := 16
  slices : Table Nat := []
  list : GranList := {}
  windows : List (Nat × Window) := []
  queueTab : Table Queue := []
  chans : Table Chan := []
  programs : Table Program := []
  insts : Table Inst := []
  bindings : Table Binding := []
  threads : Table Thread := []
  rwins : Table RWin := []
  deriving DecidableEq, Repr, Inhabited

/-- The state of the device and the queue of waiting commands. `regs` holds, by PF BAR0 offset, every register that
only stores what is written or counted into it (the default is its reset value); `keep` the keep registers by 64-bit
word. `cycle` counts FCLK cycles and `now` eighths of a ns since the device reset; `freeCtr` counts the free values
used (log entry 2); `saves` the save images written, with what they describe (log entry 12); `epochs` are the changes that wait for the next scheduling epoch. -/
structure State where
  pending : List Instr := []
  cycle : Nat := 0
  now : Nat := 0
  freeCtr : Nat := 8
  out : List Output := []
  saves : List (Bytes × SavedTenant) := []
  regs : Table Word := []
  keep : Table Word := []
  epochs : List EpochChange := []
  ne : NeState := {}
  mp : MpState := {}
  ru : RuState := {}
  qm : QmState := {}
  sh : ShState := {}
  et : EtState := {}
  wt : WtState := {}
  sc : ScState := {}
  hp : HpState := {}
  fn : FnState := {}
  sm : SmState := {}
  th : ThState := {}
  pw : PwState := {}
  ln : LnState := {}
  mg : MgState := {}
  tb : TbState := {}
  deriving DecidableEq, Repr

/-- The machine right after a device reset of a device without kept contents (cause COLD, Table 14-6): every field at its
default. MAIN_EN is asserted and the island waits for MAIN_PG, which is t0 of the power-up order (Table 14-7). -/
def State.reset : State := {}

end Sys2Proof.Machine
end

