-- ==== Sys2Proof/Machine/Base.lean ====
section
/-! DEFINITION. Sparse tables, bits, bytes and checksums: the plain data operations that every block shares. -/

namespace Sys2Proof.Machine

/-- The entry under a key, if one is listed. -/
def Tab.find {α : Type} : Table α → Nat → Option α
  | [], _ => none
  | (k, v) :: t, x => if k = x then some v else Tab.find t x

/-- List a value under a key, keeping the keys in rising order. -/
def Tab.put {α : Type} : Table α → Nat → α → Table α
  | [], x, a => [(x, a)]
  | (k, v) :: t, x, a =>
    if x < k then (x, a) :: (k, v) :: t
    else if x = k then (x, a) :: t
    else (k, v) :: Tab.put t x a

/-- Take a key out of the table. -/
def Tab.del {α : Type} : Table α → Nat → Table α
  | [], _ => []
  | (k, v) :: t, x => if k = x then Tab.del t x else (k, v) :: Tab.del t x

/-- What a key holds, the default when it is not listed. -/
def Tab.get {α : Type} (d : α) (m : Table α) (k : Nat) : α := (Tab.find m k).getD d

/-- Store a value under a key; the default is stored by listing nothing. -/
def Tab.set {α : Type} [DecidableEq α] (d : α) (m : Table α) (k : Nat) (a : α) : Table α :=
  if a = d then Tab.del m k else Tab.put m k a

/-- Keys rise strictly from a lower bound. -/
def Tab.sortedFrom {α : Type} : Nat → Table α → Bool
  | _, [] => true
  | lo, (k, _) :: t => decide (lo ≤ k) && Tab.sortedFrom (k + 1) t

/-- Canonical form: keys strictly rising. -/
def Tab.sorted {α : Type} (m : Table α) : Bool := Tab.sortedFrom 0 m

/-- Canonical form of a table read with a default: keys strictly rising, no entry equal to the default. -/
def Tab.wf {α : Type} [DecidableEq α] (d : α) (m : Table α) : Bool :=
  Tab.sorted m && m.all (fun e => decide (e.2 ≠ d))

/-- Change the value under a key. -/
def Tab.upd {α : Type} [DecidableEq α] (d : α) (m : Table α) (k : Nat) (f : α → α) : Table α :=
  Tab.set d m k (f (Tab.get d m k))

/-- Change a listed entry; nothing when the key is not listed. -/
def Tab.map1 {α : Type} (m : Table α) (k : Nat) (f : α → α) : Table α :=
  match Tab.find m k with
  | some a => Tab.put m k (f a)
  | none => m

/-- Change every listed entry. -/
def Tab.mapAll {α : Type} (f : Nat → α → α) : Table α → Table α
  | [] => []
  | (k, v) :: t => (k, f k v) :: Tab.mapAll f t

/-- Keep the entries that satisfy a test. -/
def Tab.keep {α : Type} (p : Nat → α → Bool) : Table α → Table α
  | [] => []
  | (k, v) :: t => if p k v then (k, v) :: Tab.keep p t else Tab.keep p t

/-- The lowest key from `lo` on, among `n`, that is not listed. -/
def Tab.lowestFree {α : Type} (m : Table α) : Nat → Nat → Option Nat
  | _, 0 => none
  | lo, n + 1 => if (Tab.find m lo).isNone then some lo else Tab.lowestFree m (lo + 1) n

/-- How many listed entries satisfy a test. -/
def Tab.count {α : Type} (p : Nat → α → Bool) (m : Table α) : Nat := (m.filter (fun e => p e.1 e.2)).length

/-- Sum of a measure over the listed entries. -/
def Tab.sum {α : Type} (f : Nat → α → Nat) : Table α → Nat
  | [] => 0
  | (k, v) :: t => f k v + Tab.sum f t

/-- The numbers lo, lo + 1, … , n of them. -/
def upto : Nat → Nat → List Nat
  | _, 0 => []
  | lo, n + 1 => lo :: upto (lo + 1) n

/-- The keys from `lo` on, among `n`, that are not listed. -/
def Tab.freeKeys {α : Type} (m : Table α) (lo n : Nat) : List Nat := (upto lo n).filter (fun k => (Tab.find m k).isNone)

/-- First number from lo on, among n, that satisfies a test. -/
def firstUpto (p : Nat → Bool) : Nat → Nat → Option Nat
  | _, 0 => none
  | lo, n + 1 => if p lo then some lo else firstUpto p (lo + 1) n

/-- A field of n bits from bit lo (R5). -/
def fld (w lo n : Nat) : Nat := (w >>> lo) % 2 ^ n

/-- A one-bit field as a truth value. -/
def bit (w lo : Nat) : Bool := fld w lo 1 == 1

/-- Truth value as a bit. -/
def b2n (b : Bool) : Nat := if b then 1 else 0

/-- Ceiling division. -/
def cdiv (a b : Nat) : Nat := (a + b - 1) / b

/-- Value of a little-endian string of bytes (R6). -/
def le : Bytes → Nat
  | [] => 0
  | b :: t => b.toNat + 256 * le t

/-- The n bytes of a value, lowest first. -/
def toLe : Nat → Nat → Bytes
  | 0, _ => []
  | n + 1, v => BitVec.ofNat 8 v :: toLe n (v / 256)

/-- Value of a big-endian string of bytes (network byte order). -/
def be (b : Bytes) : Nat := le b.reverse

/-- The n bytes of a value, highest first. -/
def toBe (n v : Nat) : Bytes := (toLe n v).reverse

/-- n bytes of a string from an offset. -/
def slice (b : Bytes) (off n : Nat) : Bytes := (b.drop off).take n

/-- Little-endian field of n bytes at an offset. -/
def leAt (b : Bytes) (off n : Nat) : Nat := le (slice b off n)

/-- A string of n equal bytes. -/
def fill (n : Nat) (b : Byte) : Bytes := List.replicate n b

/-- Every byte of the string is zero. -/
def allZero (b : Bytes) : Bool := b.all (fun x => x == 0)

/-- Put bytes over a string from an offset. -/
def overlay (b : Bytes) (off : Nat) (d : Bytes) : Bytes := b.take off ++ d ++ b.drop (off + d.length)

/-- Whether a string of bytes equals another, a byte at a time. -/
def bytesEq (a b : Bytes) : Bool := a == b

/-- Sign extension of an n-bit field to an integer. -/
def signed (w n : Nat) : Int := if w < 2 ^ (n - 1) then (w : Int) else (w : Int) - (2 ^ n : Nat)

/-- An integer as an n-bit field, modulo 2^n. -/
def unsigned (n : Nat) (i : Int) : Nat := (i % (2 ^ n : Nat)).toNat

/-- Saturating increment. -/
def satInc (limit n : Nat) : Nat := if n < limit then n + 1 else n

/-- One bit of a reflected CRC. -/
def crcBit (poly c : Nat) : Nat := if c % 2 = 1 then (c / 2) ^^^ poly else c / 2

/-- One byte of a reflected CRC. -/
def crcByte (poly c : Nat) (b : Byte) : Nat :=
  let x := c ^^^ b.toNat
  let x := crcBit poly (crcBit poly (crcBit poly (crcBit poly x)))
  crcBit poly (crcBit poly (crcBit poly (crcBit poly x)))

def crcRun (poly : Nat) : Nat → Bytes → Nat
  | c, [] => c
  | c, b :: t => crcRun poly (crcByte poly c b) t

/-- CRC-32 with the IEEE 802.3 polynomial (R84, R392, R407, R418). -/
def crc32 (b : Bytes) : Nat := crcRun 0xEDB88320 0xFFFFFFFF b ^^^ 0xFFFFFFFF

/-- CRC-32C of Weft packets and Seam frames (R214, R327). -/
def crc32c (b : Bytes) : Nat := crcRun 0x82F63B78 0xFFFFFFFF b ^^^ 0xFFFFFFFF

/-- One byte of a sparse memory; an unlisted byte is 0. -/
def Mem.byte (m : List Host.Cell) (a : Nat) : Byte := Tab.get (0 : Byte) m a

/-- n bytes of a sparse memory. -/
def Mem.read (m : List Host.Cell) (a n : Nat) : Bytes := (upto a n).map (Mem.byte m)

/-- Write bytes into a sparse memory. -/
def Mem.write : List Host.Cell → Nat → Bytes → List Host.Cell
  | m, _, [] => m
  | m, a, b :: t => Mem.write (Tab.set (0 : Byte) m a b) (a + 1) t

/-- Zero n bytes of a sparse memory from an address. -/
def Mem.clear (m : List Host.Cell) (a n : Nat) : List Host.Cell :=
  Tab.keep (fun k _ => decide (k < a ∨ a + n ≤ k)) m

/-- The canonical form of a sparse memory. -/
abbrev Memory.wf (m : List Host.Cell) : Bool := Tab.wf (0 : Byte) m

/-- The 64 bytes of a line, lowest first. -/
def lineBytes (l : Line) : Bytes := toLe 64 l.toNat

/-- The line that 64 bytes form. -/
def bytesLine (b : Bytes) : Line := BitVec.ofNat 512 (le b)

end Sys2Proof.Machine
end

