-- ==== Sys2Proof/Machine/Regs.lean ====
section
/-! DEFINITION. The addresses of the control space in PF BAR0 (Table 17-1 and the register maps of the chapters) for every
register that only stores: counters and plain RW fields. Their reset values, and the operations that read, write and count. -/

namespace Sys2Proof.Machine

namespace Reg

/-- HP_ (Table 10-11), by port. -/
def hp (p off : Nat) : Nat := 0x080000 + 0x1000 * p + off
def hpLinkCfg (p : Nat) : Nat := hp p 0x08
def hpTagStall (p : Nat) : Nat := hp p 0x28
def hpCplTimeout (p : Nat) : Nat := hp p 0x30
def hpLateCpl (p : Nat) : Nat := hp p 0x38
def hpUnexpCpl (p : Nat) : Nat := hp p 0x48
def hpMalformed (p : Nat) : Nat := hp p 0x50
def hpUr (p : Nat) : Nat := hp p 0x58
def hpCa (p : Nat) : Nat := hp p 0x60
def hpPoisonRx (p : Nat) : Nat := hp p 0x68
def hpFrozenDrop (p : Nat) : Nat := hp p 0x70
def hpCplDiscard (p : Nat) : Nat := hp p 0x78
def hpLinkDowns (p : Nat) : Nat := hp p 0x80
/-- FN_ (Table 11-13). -/
def fnWinSel : Nat := 0x101000
def fnBasteBusy : Nat := 0x101040
def fnWinUr : Nat := 0x101048
def fnFlrCnt : Nat := 0x101050
def fnUnqDisable : Nat := 0x101058
def fnDirtyOor : Nat := 0x101060
def fnNoticeLost : Nat := 0x101068
/-- XB_ (Table 17-2). -/
def xbCe : Nat := 0x200000
def xbUe : Nat := 0x200008
def xbLastUe : Nat := 0x200010
/-- SC_ (Table 09-5). -/
def sc (p off : Nat) : Nat := 0x290000 + 0x100 * p + off
def scPortAdmitted (p : Nat) : Nat := sc p 0x00
def scPortDemoted (p : Nat) : Nat := sc p 0x08
def scLatCfg (p : Nat) : Nat := sc p 0x18
def scLatMax (p : Nat) : Nat := sc p 0x20
def scLatCnt (p : Nat) : Nat := sc p 0x28
def scLatSum (p : Nat) : Nat := sc p 0x30
def scLatOver (p : Nat) : Nat := sc p 0x38
def scSc0Deep (h : Nat) : Nat := 0x2B0000 + 8 * h
/-- SH_ (Table 07-10). -/
def shErrors (c : Nat) : Nat := 0x300038 + 0x40 * c
def shEngBytes (e : Nat) : Nat := 0x310008 + 0x10 * e
def shRetryCnt : Nat := 0x311000
def shHaltCnt : Nat := 0x311008
def shBadDb : Nat := 0x311010
def shFlrDropped : Nat := 0x311018
def shPauseRefused : Nat := 0x311020
/-- QM_ (Table 06-9). -/
def qmQSel : Nat := 0x380010
def qmDisplaced : Nat := 0x380100
def qmRefused : Nat := 0x380108
def qmFlushed : Nat := 0x380110
def qmResetLost : Nat := 0x380118
def qmAbandoned : Nat := 0x380120
def qmAccess : Nat := 0x380128
def qmBadHost : Nat := 0x380130
def qmRsvLow : Nat := 0x380138
/-- NE_ (Table 03-9). -/
def neIssued (e : Nat) : Nat := 0x400008 + 0x400 * e
def neFaultCnt : Nat := 0x410000
def neFaultLost : Nat := 0x410008
def neEvtDropped : Nat := 0x410010
def neEvtSat : Nat := 0x410018
/-- MC_ and MP_ (Table 04-13). -/
def mcCeCnt (k : Nat) : Nat := 0x480008 + 0x100 * k
def mcUeCnt (k : Nat) : Nat := 0x480010 + 0x100 * k
def mcOdecc (k : Nat) : Nat := 0x480018 + 0x100 * k
def mcSc0Slots (k : Nat) : Nat := 0x480020 + 0x100 * k
def mcRefDefer (k : Nat) : Nat := 0x480028 + 0x100 * k
def mpGotSel : Nat := 0x500010
def mpPatrol : Nat := 0x500048
def mpDenied : Nat := 0x500050
def mpScrubbed : Nat := 0x500058
/-- RU_ (Table 05-11). -/
def ruAbsorbed (k : Nat) : Nat := 0x580008 + 0x100 * k
def ruBpCnt (k : Nat) : Nat := 0x580010 + 0x100 * k
def ruChunksDone (k : Nat) : Nat := 0x580018 + 0x100 * k
def ruWinSel : Nat := 0x581000
def ruStale : Nat := 0x581030
def ruExcess : Nat := 0x581038
def ruBadHost : Nat := 0x581040
def ruItemLost : Nat := 0x581048
def ruAbandoned : Nat := 0x581050
def ruAccess : Nat := 0x581058
/-- ET_ (Table 08-15). -/
def etFlow : Nat := 0x600008
def etExcCfg : Nat := 0x600010
def et (p off : Nat) : Nat := 0x601000 + 0x100 * p + off
def etMac (p : Nat) : Nat := et p 0x08
def etIp4 (p : Nat) : Nat := et p 0x10
def etMaxFrame (p : Nat) : Nat := et p 0x18
def etRxFrames (p : Nat) : Nat := et p 0x20
def etTxFrames (p : Nat) : Nat := et p 0x28
def etFcsErr (p : Nat) : Nat := et p 0x30
def etFecCorr (p : Nat) : Nat := et p 0x38
def etFecUncorr (p : Nat) : Nat := et p 0x40
def etDropOther (p : Nat) : Nat := et p 0x48
def etPauseRx (p : Nat) : Nat := et p 0x50
def etExcDrop (p : Nat) : Nat := et p 0x58
def etTsOffset (p : Nat) : Nat := et p 0x60
def etTsLost (p : Nat) : Nat := et p 0x78
def etIp6Lo (p : Nat) : Nat := et p 0x80
def etIp6Hi (p : Nat) : Nat := et p 0x88
/-- WT_ (Table 08-16). -/
def wtCfg : Nat := 0x680000
def wtCfg2 : Nat := 0x680008
def wtConnSel : Nat := 0x680010
def wtPeerSel : Nat := 0x680058
def wtNakNoconn : Nat := 0x680100
def wtNakAccess : Nat := 0x680108
def wtNakStale : Nat := 0x680110
def wtTagMiss : Nat := 0x680118
def wtOow : Nat := 0x680120
def wtReorderDrop : Nat := 0x680128
def wtDup : Nat := 0x680130
def wtMalformed : Nat := 0x680138
def wtBadCrc : Nat := 0x680140
def wtCreditViol : Nat := 0x680148
def wtBadAck : Nat := 0x680150
def wtReject : Nat := 0x680158
def wtRejNoctx : Nat := 0x680160
def wtRetx : Nat := 0x680168
def wtCeRx : Nat := 0x680170
def wtReportLost : Nat := 0x680178
def wtGiveups : Nat := 0x680180
/-- SM_ (Table 12-13). -/
def smJournalBp : Nat := 0x700038
def smResendReq : Nat := 0x700040
def smBadRecord : Nat := 0x700048
def smFrameCrc : Nat := 0x700050
def smHbMiss : Nat := 0x700058
def smFailovers : Nat := 0x700060
def smShadowMiss : Nat := 0x700068
/-- LN_ (Table 15-9). -/
def lnLockLosses (l : Nat) : Nat := 0x780038 + 0x100 * l
def lnCtrlRefused : Nat := 0x789008
/-- CK_ (Table 14-14). -/
def ckUnlocks : Nat := 0x800018
/-- TH_ (Table 13-7). -/
def thCfg : Nat := 0x900008
def thLogSel : Nat := 0x900028
def thLogLost : Nat := 0x900050
def thIntakeLost : Nat := 0x900058
def thNotifyLost : Nat := 0x900060
def thSrcCount (s : Nat) : Nat := 0x910010 + 0x20 * s
/-- MG_ and TB_ (Table 16-9). -/
def mgWdt : Nat := 0x980020
def mgKpLocked : Nat := 0x980028
def mgMbBad : Nat := 0x980030
def tbSteps : Nat := 0xA40018

/-- Reset value of a stored register (the Reset columns of the chapters; 0 where they give none, log entry 3). -/
def reset (off : Nat) : Word :=
  if off = mpPatrol then 24
  else if off = qmRsvLow then 262140
  else if off = etExcCfg then 0x200000000000
  else if off = wtCfg then BitVec.ofNat 64 (16 + 10 * 2 ^ 5 + 7 * 2 ^ 15 + 100 * 2 ^ 19)
  else if off = wtCfg2 then BitVec.ofNat 64 (0x5746 + 2 ^ 16 + 4 * 2 ^ 24)
  else if off = mgWdt then 16
  else if off < 0x088000 ∧ off % 0x1000 = 0x08 ∧ 0x080000 ≤ off then BitVec.ofNat 64 (6 + 10 * 2 ^ 3 + 2 ^ 14)
  else if 0x290000 ≤ off ∧ off < 0x290800 ∧ off % 0x100 = 0x18 then 29
  else if 0x601000 ≤ off ∧ off < 0x602000 ∧ off % 0x100 = 0x18 then 9216
  else 0

end Reg

/-- The content of a stored register. -/
def regGet (s : State) (r : Nat) : Word := Tab.get (Reg.reset r) s.regs r

/-- The content of a stored register as a number. -/
def regNat (s : State) (r : Nat) : Nat := (regGet s r).toNat

/-- Store into a register. -/
def regSet (s : State) (r : Nat) (w : Word) : State := { s with regs := Tab.set (Reg.reset r) s.regs r w }

/-- Add to a 64-bit counter; none wraps within the product's life (R25). -/
def countN (s : State) (r n : Nat) : State := regSet s r (regGet s r + BitVec.ofNat 64 n)

/-- Count one. -/
def count (s : State) (r : Nat) : State := countN s r 1

namespace Keep

/-- Word indices of the keep register map (Table 16-8): offset ÷ 8. -/
def crc : Nat := 1
def resetCause : Nat := 2
def mgrPorts : Nat := 3
def portMerge : Nat := 4
def vfBar2 : Nat := 5
def subsys : Nat := 6
def pair : Nat := 7
def ethArrange : Nat := 8
def wake : Nat := 9
def wakeWait : Nat := 10
def domKeep : Nat := 11
def timeNs : Nat := 14
def timeSlow : Nat := 15
def stopEntries : Nat := 16
def stopRefusals : Nat := 17
def stopAborts : Nat := 18
def stopBy0 : Nat := 19
def stopBy1 : Nat := 20
def stopLast : Nat := 21
def thHead : Nat := 22
def thTotal : Nat := 23
def thHist : Nat := 32
def eq : Nat := 160
def eqCrc : Nat := 256
def user : Nat := 257

/-- Value of a keep word after loss of both VAON and VBAT (R9, Table 16-8). -/
def reset (i : Nat) : Word :=
  if i = 0 then 0x4B500001
  else if i = mgrPorts then 1
  else if i = vfBar2 then 34
  else if i = wake then BitVec.ofNat 64 (36 + 2 * 2 ^ 8 + 2 ^ 12)
  else if i = wakeWait then 100
  else 0

end Keep

/-- A keep word as stored; the KP_CRC word is computed when it is read (R418). -/
def keepGet (s : State) (i : Nat) : Word := Tab.get (Keep.reset i) s.keep i

def keepNat (s : State) (i : Nat) : Nat := (keepGet s i).toNat

/-- Write a keep word; KP_CRC follows in the same transaction (R418). -/
def keepSet (s : State) (i : Nat) (w : Word) : State := { s with keep := Tab.set (Keep.reset i) s.keep i w }

/-- The 4 KiB of the keep registers with the KP_CRC field as zero, and KP_SLOW's word as zero. -/
def keepBytes (s : State) : Bytes :=
  (upto 0 512).flatMap (fun i => toLe 8 (if i = Keep.crc ∨ i = 24 then 0 else keepNat s i))

/-- KP_CRC (R418). -/
def keepCrc (s : State) : Nat := crc32 (keepBytes s)

/-- The equalisation table's 768 bytes (R392). -/
def eqBytes (s : State) : Bytes := (upto Keep.eq 96).flatMap (fun i => toLe 8 (keepNat s i))

end Sys2Proof.Machine
end

