-- ==== Sys2Proof/Machine/Cells.lean ====
section
/-! DEFINITION. Contexts and their tags (R13), and the cells that Bobbin's queues hold: items linked and in progress, the set-aside of an
opening, the return of cells to the free list (R155, R156, R164, R168, R175). -/

namespace Sys2Proof.Machine

/-- The management context (R13). -/
def mgt : Nat := 256

/-- Context tag of a context and a service class (Table 01-3). -/
def mkTag (ctx sc : Nat) : BitVec 11 :=
  BitVec.ofNat 11 (if ctx = mgt then 1024 + sc else 4 * (ctx % 256) + sc)

/-- The context of a tag. -/
def tagCtx (t : BitVec 11) : Nat := if bit t.toNat 10 then mgt else fld t.toNat 2 8

/-- The service class of a tag. -/
def tagSc (t : BitVec 11) : Nat := fld t.toNat 0 2

/-! Queues and their cells -/

/-- The management queue (R159). -/
def mgtQueue : Nat := 0x3FFF

/-- Cells of an item of n bytes (R155). -/
def cellsOf (n : Nat) : Nat := cdiv n 256

def queue? (s : State) (q : Nat) : Option Queue := Tab.find s.qm.queues q

def setQueue (s : State) (q : Nat) (x : Queue) : State :=
  { s with qm := { s.qm with queues := Tab.put s.qm.queues q x } }

/-- An item of the owner's side: its producer is the owner. -/
def ownItem (x : Queue) (i : Item) : Bool := tagCtx i.tag == x.ctx

def itemCells (l : List Item) : Nat := (l.map (fun i => cellsOf i.bytes.length)).sum

/-- Cells of items in progress of the owner's side, of the other. -/
def progCells (x : Queue) (own : Bool) : Nat :=
  Tab.sum (fun _ g => if (tagCtx g.tag == x.ctx) == own then g.cells.length else 0) x.prog

/-- Cells not linked and not yet free of the owner's side, of the other. -/
def looseCells (x : Queue) (own : Bool) (l : List Loose) : Nat :=
  (l.map (fun g => if (tagCtx g.tag == x.ctx) == own then g.cells.length else 0)).sum

/-- CELLS: cells held by items of the owner, linked or in progress (Table 06-2). -/
def qCells (x : Queue) : Nat := itemCells (x.items.filter (ownItem x)) + progCells x true

/-- SEND_CELLS: cells held by items of OPEN_TID. -/
def sendCells (x : Queue) : Nat := itemCells (x.items.filter (fun i => !ownItem x i)) + progCells x false

/-- Cells return: to the tail of the free list, one of the kept cells to those. -/
def giveCells (s : State) (l : List Nat) : State :=
  let back := l.filter (fun c => s.qm.keptOut.contains c)
  { s with qm := { s.qm with
    freed := s.qm.freed ++ l.filter (fun c => !s.qm.keptOut.contains c)
    kept := s.qm.kept ++ back.map some
    keptOut := s.qm.keptOut.filter (fun c => !back.contains c) } }

/-- The set-aside of a closing opening is returned when SEND_CELLS reaches 0 (R168). -/
def settleOpening (x : Queue) : Queue :=
  if x.closing ∧ sendCells x = 0 then { x with openTid := none, sendLimit := 0, closing := false } else x

/-- Producers of items in progress: a channel's descriptor, a message of a connection. -/
def shuttleKey (c pos : Nat) : Nat := 2 ^ 32 * c + pos
def weftKey (c num : Nat) : Nat := 2 ^ 48 + 65536 * c + num

/-- An item in progress goes without linking: its cells are free at once. -/
def dropProg (s : State) (q key : Nat) : State :=
  match queue? s q with
  | none => s
  | some x =>
    match Tab.find x.prog key with
    | none => s
    | some g => giveCells (setQueue s q (settleOpening { x with prog := Tab.del x.prog key })) g.cells

/-- The producer stops before the EOI cell: the item is abandoned (R175). -/
def abandonProg (s : State) (q key : Nat) : State :=
  match queue? s q with
  | none => s
  | some x => if (Tab.find x.prog key).isSome then count (dropProg s q key) Reg.qmAbandoned else s

/-- Every item that the Shuttle has in progress is abandoned: its channels stop at the safe state (R175, R205). -/
def abandonShuttle (s : State) : State :=
  (s.qm.queues.flatMap (fun e => (e.2.prog.filter (fun g => decide (g.1 < weftKey 0 0))).map (fun g => (e.1, g.1)))).foldl
    (fun s e => abandonProg s e.1 e.2) s

end Sys2Proof.Machine
end

