-- ==== Sys2Proof/Machine/Ops.lean ====
section
/-! DEFINITION. The named operations that every block shares: contexts and tags, time, free values, interrupts and notices,
events, the journal, and what Thimble does when a source is raised (freeze, safe state). -/

namespace Sys2Proof.Machine

/-- The answer of every meaning. -/
abbrev Ans := Host.Outcome State Fault Refusal

/-- A command that cannot arise in the present state changes nothing (log entry 4). -/
abbrev idle (s : State) : Ans := .next s

/-! Time -/

/-- Eighths of a ns in one FCLK cycle: 0.625 ns from PLL_F, 2.5 ns on the IRC (Table 14-2). -/
def cycleLen (s : State) : Nat := if s.pw.clkPll then 5 else 20

/-- The cycles in which some request of a port waits for a tag are counted in HP_TAG_STALL (R270). -/
def tagStall (s : State) (n : Nat) : State :=
  s.hp.ports.foldl (fun s e =>
    if e.2.tagWait.any (fun c => let st := (Tab.get {} s.sh.chans c).st; st == .active || st == .stopping || st == .pausing) then
      countN s (Reg.hpTagStall e.1) n else s) s

/-- n FCLK cycles pass: the cycle count, the time, the time base (R420) and the slow counter (R386) move on. -/
def passCycles (s : State) (n : Nat) : State :=
  let d := n * cycleLen s
  let s := tagStall s n
  { s with
    cycle := s.cycle + n
    now := s.now + d
    tb := if s.tb.running then
        { s.tb with acc := ((s.tb.acc : Int) + (d : Int) * (1000000000000 + s.tb.adj)).toNat } else s.tb
    pw := if s.pw.slowRuns then { s.pw with slowAcc := s.pw.slowAcc + d * 32768 } else s.pw }

/-- Time passes until a moment, in whole FCLK cycles; nothing when it has passed. -/
def passTo (s : State) (t : Nat) : State :=
  if t ≤ s.now then s else passCycles s (cdiv (t - s.now) (cycleLen s))

/-- Eighths of a ns in a ns, a microsecond, a millisecond. -/
def ns (n : Nat) : Nat := 8 * n
def us (n : Nat) : Nat := 8000 * n
def ms (n : Nat) : Nat := 8000000 * n

/-- TB_TIME: the time base in ns (R420). -/
def timeNs (s : State) : Nat := s.tb.acc / 8000000000000 % 2 ^ 64

/-- The time base in sixteenths of a ns. -/
def timeFrac (s : State) : Nat := s.tb.acc / 500000000000 % 16

/-- The slow counter, 48 bits (R386). -/
def slowCount (s : State) : Nat := s.pw.slowAcc / 8000000000 % 2 ^ 48

/-- A free value: nothing constrains it (log entry 2). -/
def freeWord (s : State) : Word := Config.freeWord s.freeCtr

/-- Use up a free value. -/
def useFree (s : State) : State := { s with freeCtr := s.freeCtr + 1 }

def useFreeN (s : State) (n : Nat) : State := { s with freeCtr := s.freeCtr + n }

/-- n free bytes. -/
def freeBytes (s : State) (n : Nat) : Bytes := (upto 0 n).map (fun i => BitVec.ofNat 8 (Config.freeWord (s.freeCtr + i)).toNat)

/-- One of the candidates that no rule orders: the k-th free value from here picks it; none when there is none (log entry
66). -/
def oneOf (s : State) (k : Nat) (l : List Nat) : Option Nat := l[(Config.freeWord (s.freeCtr + k)).toNat % l.length]?

/-- n of the candidates, drawn one after the other by the free values from the k-th on. -/
def drawn (s : State) : Nat → Nat → List Nat → List Nat
  | 0, _, _ => []
  | n + 1, k, l =>
    match oneOf s k l with
    | none => []
    | some x => x :: drawn s n (k + 1) (l.erase x)

/-- n of the candidates, in the order of the candidates; all of them when there are not more than n (log entry 66). -/
def someOf (s : State) (n k : Nat) (l : List Nat) : List Nat := l.filter (fun x => (drawn s n k l).contains x)

/-- Something leaves the device (log entry 10). -/
def emit (s : State) (o : Output) : State := { s with out := s.out ++ [o] }

def emitAll (s : State) (o : List Output) : State := { s with out := s.out ++ o }

/-- The lowest number not in use of a numbered space of `total`. While pairing is in effect a device allocates only from its
own half: ROLE 0 below `split`, ROLE 1 from it on (R323, Table 12-1). -/
def lowestInHalf {α : Type} (s : State) (m : Table α) (split total : Nat) : Option Nat :=
  if !s.sm.enable then Tab.lowestFree m 0 total
  else if s.sm.role then Tab.lowestFree m split (total - split)
  else Tab.lowestFree m 0 split

/-! Threads, tenants, ports -/

def thread (s : State) (t : Nat) : Thread := Tab.get {} s.ne.threads t

def setThread (s : State) (t : Nat) (th : Thread) : State :=
  { s with ne := { s.ne with threads := Tab.set {} s.ne.threads t th } }

def tenant (s : State) (tid : Nat) : Tenant := Tab.get {} s.fn.tenants tid

def setTenant (s : State) (tid : Nat) (t : Tenant) : State :=
  { s with fn := { s.fn with tenants := Tab.set {} s.fn.tenants tid t } }

/-- The fabric is quiesced for Stop entry: every tenant and the management context are held (Table 14-9). -/
def fabricHeld (s : State) : Bool :=
  match s.pw.stop with
  | some e => decide (1 ≤ e.points)
  | none => false

/-- The state that decides what a context may do; the management context runs unless the fabric is held. -/
def ctxMode (s : State) (ctx : Nat) : TenMode :=
  let m := if ctx = mgt then .running else (tenant s ctx).st
  if fabricHeld s && m == .running then .frozen else m

def port (s : State) (p : Nat) : HPort := Tab.get {} s.hp.ports p

def setPort (s : State) (p : Nat) (h : HPort) : State :=
  { s with hp := { s.hp with ports := Tab.set {} s.hp.ports p h } }

/-- The upper port of a merged pair (R260). -/
def mergedUpper (s : State) (p : Nat) : Bool := p % 2 == 1 && bit s.hp.merge.toNat (p / 2)

/-- A port in the manager-port mask in effect. -/
def managerPort (s : State) (p : Nat) : Bool := bit s.fn.mgrPorts.toNat p

/-- Key of a function. -/
def fnKey (p f : Nat) : Nat := 256 * p + f

/-- The tenant bound to a VF of a port, with its binding. -/
def boundTo (s : State) (p f : Nat) : Option (Nat × Bind) :=
  (s.fn.tenants.findSome? (fun e =>
    match e.2.binds.find? (fun b => b.port == p && b.vf == f) with
    | some b => some (e.1, b)
    | none => none))

/-! Configuration space registers the device acts on (R286 to R289; places and resets of the standard, log entry 13) -/

namespace Cfg

def command : Nat := 0x04
def pmcsr : Nat := 0x44
def msixCtl : Nat := 0x50
def devCtl : Nat := 0x68
def linkCtl : Nat := 0x70
def devCtl2 : Nat := 0x88
def linkCtl2 : Nat := 0x90
def aerUnc : Nat := 0x104
def aerUncMask : Nat := 0x108
def aerUncSev : Nat := 0x10C
def aerCor : Nat := 0x110
def aerCorMask : Nat := 0x114
def sriovCtl : Nat := 0x158
def numVfs : Nat := 0x160
def sysPage : Nat := 0x170
def l1Ctl1 : Nat := 0x2A8
def dev3Ctl : Nat := 0x2C8

/-- Reset value of the fields of a register that software can write. -/
def reset (off : Nat) : BitVec 32 :=
  if off = devCtl then 0x2810
  else if off = linkCtl2 then 6
  else if off = aerUncMask then 0x00400000
  else if off = aerUncSev then 0x00462030
  else if off = aerCorMask then 0xE000
  else if off = sysPage then 1
  else 0

end Cfg

def cfgKey (p f off : Nat) : Nat := 1024 * fnKey p f + off / 4

/-- The stored fields of a configuration register. -/
def cfgGet (s : State) (p f off : Nat) : BitVec 32 := Tab.get (Cfg.reset (off / 4 * 4)) s.fn.cfg (cfgKey p f off)

def cfgSet (s : State) (p f off : Nat) (w : BitVec 32) : State :=
  { s with fn := { s.fn with cfg := Tab.set (Cfg.reset (off / 4 * 4)) s.fn.cfg (cfgKey p f off) w } }

/-- Return every configuration register of a function to its reset value. -/
def cfgReset (s : State) (p f : Nat) : State :=
  { s with fn := { s.fn with cfg := Tab.keep (fun k _ => k / 1024 != fnKey p f) s.fn.cfg } }

def cfgBit (s : State) (p f off b : Nat) : Bool := bit (cfgGet s p f off).toNat b

/-- A VF that the port presents: VF Enable, NumVFs covering it, and ARI for VF 8 and above (R289). -/
def vfPresented (s : State) (p f : Nat) : Bool :=
  cfgBit s p 0 Cfg.sriovCtl 0 && decide (f ≤ fld (cfgGet s p 0 Cfg.numVfs).toNat 0 16) &&
    (decide (f ≤ 7) || cfgBit s p 0 Cfg.sriovCtl 4)

/-- Max_Payload_Size of PF 0, at most 512 (R194, R276). -/
def maxPayload (s : State) (p : Nat) : Nat := min 512 (128 * 2 ^ fld (cfgGet s p 0 Cfg.devCtl).toNat 5 3)

/-- Max_Read_Request_Size of PF 0, at most 4,096 (R193). -/
def maxReadReq (s : State) (p : Nat) : Nat := min 4096 (128 * 2 ^ fld (cfgGet s p 0 Cfg.devCtl).toNat 12 3)

/-! Interrupts and notices (R302, R303, R264) -/

/-- An MSI-X table entry; at reset the vector is masked (bit 96 of the entry, Vector Control). -/
def msixEntry (s : State) (p f v : Nat) : BitVec 128 :=
  Tab.get (BitVec.ofNat 128 (2 ^ 96)) s.fn.msix (2048 * fnKey p f + v)

def pendGet (s : State) (p f v : Nat) : Bool := Tab.get false s.fn.pend (2048 * fnKey p f + v)

def pendSet (s : State) (p f v : Nat) (b : Bool) : State :=
  { s with fn := { s.fn with pend := Tab.set false s.fn.pend (2048 * fnKey p f + v) b } }

/-- MSI-X is enabled in the function, and neither the function nor the vector is masked. -/
def msixOpen (s : State) (p f v : Nat) : Bool :=
  cfgBit s p f Cfg.msixCtl 31 && !cfgBit s p f Cfg.msixCtl 30 && !bit (msixEntry s p f v).toNat 96

/-- The port sends MSI-X messages: not in containment, D3hot or the step to it (R264, R279, Table 10-2). -/
def portMsgs (s : State) (p : Nat) : Bool :=
  let h := port s p
  h.link && !h.contained && !h.d3 && !(h.step == .enter)

/-- The port issues requests: DRAIN stops them already (Table 10-2). -/
def portSends (s : State) (p : Nat) : Bool := portMsgs s p && !((port s p).step == .drain)

/-- A message that a port in D3hot holds: the first one sets PME_Status and sends PM_PME, or drives WAKE# when the
link is gone, when PME_En is set (R264, R265). -/
def pmeRaise (s : State) (p : Nat) : State :=
  let w := cfgGet s p 0 Cfg.pmcsr
  if (port s p).d3 && bit w.toNat 8 && !bit w.toNat 15 then
    let s := cfgSet s p 0 Cfg.pmcsr (w ||| 0x8000)
    if (port s p).d3cold then setPort s p { port s p with wake := true } else emit s (.pme p)
  else s

/-- A port with something to send leaves L1 (R263). -/
def leaveL1 (s : State) (p : Nat) : State := setPort s p { port s p with l1 := false }

/-- n bytes join the transmit queue of a port: it leaves L1, and under a reduced L0p width it returns to full width once more
than 4 KiB are queued (R262, R263). How much of what was queued before still waits is open (log entry 79). -/
def transmit (s : State) (p n : Nat) : State :=
  let s := leaveL1 s p
  let h := port s p
  if h.l0pWidth = h.width then s
  else
    let q := (freeWord s).toNat % (h.txQueued + 1) + n
    setPort (useFree s) p (if 4096 < q then { h with l0pWidth := h.width, txQueued := 0 } else { h with txQueued := q })

/-- Send an MSI-X message, or hold it in the Pending Bit Array. A message that the function would send raises PME where the port
holds it in D3hot (R264). -/
def sendMsix (s : State) (p f v : Nat) : State :=
  if msixOpen s p f v && !s.th.safe then
    if portMsgs s p then emit (transmit s p 4) (.msix p f v) else pmeRaise (pendSet s p f v true) p
  else pendSet s p f v true

/-- The cause bits of NOTICE (Table 17-3). -/
inductive Cause where
  | failover | safe | freeze | thaw | quiesce
  deriving DecidableEq, Repr

def causeBit : Cause → BitVec 5
  | .failover => 1
  | .safe => 2
  | .freeze => 4
  | .thaw => 8
  | .quiesce => 16

def noticeGet (s : State) (p f : Nat) : BitVec 5 := Tab.get 0 s.fn.notice (fnKey p f)

def noticeSet (s : State) (p f : Nat) (b : BitVec 5) : State :=
  { s with fn := { s.fn with notice := Tab.set 0 s.fn.notice (fnKey p f) b } }

/-- Set a cause in a function's NOTICE register and send its vector 0 when the function has one (R303). -/
def notify (c : Cause) (s : State) (pf : Nat × Nat) : State :=
  let s := noticeSet s pf.1 pf.2 (noticeGet s pf.1 pf.2 ||| causeBit c)
  if pf.2 = 0 || vfPresented s pf.1 pf.2 then sendMsix s pf.1 pf.2 0 else s

/-- The functions of a tenant. -/
def tenantFns (s : State) (tid : Nat) : List (Nat × Nat) := (tenant s tid).binds.map (fun b => (b.port, b.vf))

/-- Set a cause for every function of a tenant. -/
def notifyTenant (c : Cause) (s : State) (tid : Nat) : State := (tenantFns s tid).foldl (notify c) s

/-! Channels, as freeze and safe state reach them -/

def chan (s : State) (c : Nat) : Chan := Tab.get {} s.sh.chans c

/-- A system channel that is not halted, which carries one of the device's own streams; none when every one of them is halted. Which
one carries a stream is open (R184; log entry 77). -/
def systemChan (s : State) : Option Nat := oneOf s 0 ((upto 1008 16).filter (fun c => (chan s c).st != .halted))

/-- A stream moves bytes on a system channel: its engine counts them. -/
def systemMove (s : State) (c n : Nat) : State := countN (useFree s) (Reg.shEngBytes (c % 16)) n

def setChan (s : State) (c : Nat) (ch : Chan) : State :=
  { s with sh := { s.sh with chans := Tab.set {} s.sh.chans c ch } }

/-- A channel with a beat issued and not complete, or with data not yet written (R201). -/
def chanBusy (ch : Chan) : Bool :=
  ch.fetched.any (fun d => !d.buf.isEmpty || d.beats.any (fun b => b.st == .waiting || b.st == .arrived))

/-- The descriptor has a QUEUE or REDUCE side, so that it is never paused part-way (R201). -/
def descSides (d : Desc) : Bool :=
  fld (leAt d.bytes 1 1) 0 4 == 3 || fld (leAt d.bytes 1 1) 4 4 == 3 || fld (leAt d.bytes 1 1) 4 4 == 4

def descWhole (d : Desc) : Bool := d.started && descSides d

/-- Bytes of a descriptor done without a gap, in the copy's direction (R201): for a REDUCE destination the lines contributed before the
first beat that failed, nothing for an item not yet linked, the leading beats otherwise. -/
def descDone (d : Desc) : Nat :=
  let dst := fld (leAt d.bytes 1 1) 4 4
  if dst = 4 then
    match d.beats.find? (fun b => b.st == .dead) with
    | some b => min d.contributed (b.off / 64 * 64)
    | none => d.contributed
  else if dst = 3 then 0
  else ((d.beats.takeWhile (fun b => b.st == .done)).map (fun b => b.len)).sum

def headDone (ch : Chan) : Nat :=
  match ch.fetched with
  | [] => 0
  | d :: _ => descDone d

/-- Key of a beat's failures: its descriptor and its offset. -/
def failKey (pos off : Nat) : Nat := 2 ^ 32 * pos + off

/-- Failures of the beats that wait for a retry, which they keep (R201). -/
def keptFails (ch : Chan) : Table Nat :=
  ch.fetched.foldl (fun m d => (d.beats.filter (fun b => b.st == .retry)).foldl (fun m b => Tab.set 0 m (failKey d.pos b.off) b.fails) m)
    ch.kept.fails

/-- What the channel keeps of its head descriptor when the fetched ones are dropped. -/
def keepHead (ch : Chan) : Kept :=
  let k := { ch.kept with fails := keptFails ch }
  match ch.fetched with
  | [] => k
  | d :: _ =>
    { k with
      tries := max k.tries d.retries, poison := k.poison || d.poison, begun := k.begun || d.started
      descending := d.descending, item := if d.item.isSome then d.item else k.item }

/-- Fetched descriptors are dropped, to be fetched again; PROGRESS keeps the prefix of the head descriptor. -/
def dropFetched (ch : Chan) : Chan := { ch with progress := ch.progress + headDone ch, kept := keepHead ch, fetched := [], halting := 0 }

/-- PAUSE takes effect (R201): PAUSED at once when nothing is outstanding, else PAUSING. -/
def pauseChan (ch : Chan) : Chan :=
  match ch.st with
  | .active =>
    if chanBusy ch || ch.fetched.any descWhole then { ch with st := .pausing }
    else { dropFetched ch with st := .paused }
  | .idle => { ch with st := .paused }
  | _ => ch

/-- The channel runs again from HEAD (R203); one that has not drained goes on. -/
def resumeChan (ch : Chan) : Chan :=
  if ch.st = .pausing then { ch with st := .active }
  else { ch with st := if ch.head = ch.tail then .idle else .active, stopReq := false }

/-- Number of slots of the ring. -/
def ringSlots (ch : Chan) : Nat := 2 ^ ch.log2

/-- HALTED with a cause at HEAD (R197, R205). -/
def haltChan (ch : Chan) (cause : Nat) : Chan :=
  { dropFetched ch with
    st := .halted, haltCause := cause, fetchErr := none, haltIndex := ch.head.toNat % ringSlots ch, stopReq := false }

/-! Freeze and thaw (R96, R201, R279, R305) -/

/-- A thread that has begun nothing enters FROZEN; a WT stall is abandoned (R51, R96). -/
def freezeNow (th : Thread) : Thread :=
  match th.mode with
  | .free => th
  | .frozen => th
  | .stalled => { th with mode := .frozen, frozenFrom := some .running, stalledAt := none }
  | m => { th with mode := .frozen, frozenFrom := some m }

/-- The state of a thread, or under a freeze the one to which thaw returns it (R96), becomes m. -/
def setMode (m : ThreadMode) (th : Thread) : Thread :=
  if th.mode = .frozen then { th with frozenFrom := some m } else { th with mode := m }

/-- A thread that has begun nothing halts, a WT stall abandoned (R51, R361). -/
def haltNow (th : Thread) : Thread :=
  if th.mode = .free then th else { setMode .halted th with stalledAt := none }

/-- The halt and the freeze that waited for the thread's loads take effect (R51). -/
def settleThread (th : Thread) : Thread :=
  if th.plds.isEmpty then
    let h := if th.haltDue then haltNow { th with haltDue := false } else th
    if h.freezeDue then freezeNow { h with freezeDue := false } else h
  else th

/-- A thread enters FROZEN at its instruction boundary: loads that have begun complete first (R51, R96). -/
def freezeThread (th : Thread) : Thread := settleThread { th with freezeDue := th.mode != .free }

/-- A thread halts at its instruction boundary: loads that have begun complete first (R51, R361). -/
def haltThread (th : Thread) : Thread := settleThread { th with haltDue := th.mode != .free }

/-- Thaw returns a thread to the state it left (R96). -/
def thawThread (th : Thread) : Thread :=
  match th.mode, th.frozenFrom with
  | .frozen, some m => { th with mode := m, frozenFrom := none, freezeDue := false }
  | _, _ => { th with freezeDue := false }

/-- Freeze what the blocks hold for a tenant: its threads and its channels. -/
def freezeBlocks (s : State) (tid : Nat) : State :=
  { s with
    ne := { s.ne with threads := Tab.mapAll (fun _ th => if tagCtx th.tag = tid then freezeThread th else th) s.ne.threads }
    sh := { s.sh with chans := Tab.mapAll (fun _ ch => if ch.st != .free && ch.ctx == tid then
        pauseChan { ch with freezePause := true } else ch) s.sh.chans } }

/-- Release what a freeze held: threads return, channels that the owner has not paused run on (R201). -/
def thawBlocks (s : State) (tid : Nat) : State :=
  { s with
    ne := { s.ne with threads := Tab.mapAll (fun _ th => if tagCtx th.tag = tid then thawThread th else th) s.ne.threads }
    sh := { s.sh with chans := Tab.mapAll (fun _ ch => if ch.st != .free && ch.ctx == tid && ch.freezePause then
        (if !ch.ownerPause && (ch.st == .paused || ch.st == .pausing) then
          resumeChan { ch with freezePause := false } else { ch with freezePause := false }) else ch) s.sh.chans } }

/-- A tenant leaves or enters FROZEN as its causes say (R304): a RUNNING tenant with a cause freezes. -/
def freezeIfCause (s : State) (tid : Nat) : State :=
  let t := tenant s tid
  if t.st = .running && (t.mgrCause || t.containCause) then
    notifyTenant .freeze (freezeBlocks (setTenant s tid { t with st := .frozen }) tid) tid
  else s

/-- The last cause gone: a FROZEN tenant runs again. -/
def thawIfFree (s : State) (tid : Nat) : State :=
  let t := tenant s tid
  if t.st = .frozen && !t.mgrCause && !t.containCause then
    notifyTenant .thaw (thawBlocks (setTenant s tid { t with st := .running }) tid) tid
  else s

/-- The manager's freeze cause, from TENANT_FREEZE or Thimble (R356). -/
def freezeByManager (s : State) (tid : Nat) : State :=
  let t := tenant s tid
  if t.st = .free || t.st = .removed then s
  else
    let was := t.mgrCause
    let s := freezeIfCause (setTenant s tid { t with mgrCause := true }) tid
    if was || t.st = .running then s else notifyTenant .freeze s tid

/-- A containment freeze of a tenant (R279, R304). -/
def freezeByPort (s : State) (tid : Nat) : State :=
  let t := tenant s tid
  if t.st = .free || t.st = .removed then s
  else freezeIfCause (setTenant s tid { t with containCause := true }) tid

/-! Events (R75, R76) -/

/-- Add an event to a binding: the pending count saturates at 65,535, which loses the wake-up and nothing else. The ARG is the
latest event's; the first error stays until it is delivered. -/
def bindEvent (b : Binding) (arg : Word) (err : Option Nat) : Binding :=
  { b with count := satInc 65535 b.count, arg := arg, error := if b.error.isSome then b.error else err }

/-- The slot that binds a source. -/
def bindingOf (s : State) (kind : EvKind) (source : Nat) : Option (Nat × Binding) :=
  s.ne.bindings.find? (fun e => e.2.kind == kind && e.2.source == source)

/-- Raise an event of a source; a source with no binding raises nothing. -/
def raiseEvent (s : State) (kind : EvKind) (source : Nat) (arg : Word) (err : Option Nat) : State :=
  match bindingOf s kind source with
  | none => s
  | some (k, b) =>
    let s := if b.count < 65535 then s else count s Reg.neEvtSat
    { s with ne := { s.ne with bindings := Tab.put s.ne.bindings k (bindEvent b arg err) } }

/-! The journal (R329, R330) -/

/-- Records are made only in IN_SYNC and JOINING (R329, R343). -/
def journalling (s : State) : Bool := s.sm.mode == .inSync || s.sm.mode == .joining

def recBytes (r : JRec) : Nat := 32 + 8 * cdiv r.body.body.length 8

def journalBytes (s : State) : Nat := (s.sm.journal.map recBytes).sum

/-- The journal has room for n records of b body bytes in all (R329). -/
def journalRoom (s : State) (n b : Nat) : Bool :=
  decide (s.sm.journal.length + n ≤ 32768) && decide (journalBytes s + 40 * n + b ≤ 4194304)

/-- A record in the record stream: the header of Table 12-5, the body, zero bytes to a multiple of 8 (R6, R330). -/
def recordImage (kind : Nat) (r : SeamRecord) : Bytes :=
  toLe 1 kind ++ toLe 1 (b2n r.poison + 2 * b2n r.resync) ++ toLe 2 r.tag.toNat ++ toLe 4 r.body.length ++ toLe 8 r.jsn ++
    toLe 8 r.target.toNat ++ toLe 8 r.aux.toNat ++ r.body ++ fill (8 * cdiv r.body.length 8 - r.body.length) 0

/-- A Seam frame (Table 12-3): SYNC, KIND, FIRST, FSN, ACK_JSN, the 620-byte body, and the CRC-32C of all before it. -/
def seamFrame (kind first fsn ack : Nat) (body : Bytes) : Bytes :=
  let b := toLe 2 0x53E7 ++ toLe 1 kind ++ toLe 1 0 ++ toLe 2 first ++ toLe 2 fsn ++ toLe 8 ack ++ body ++ fill (620 - body.length) 0
  b ++ toLe 4 (crc32c b)

/-- The body of a control message: CODE at byte 0, its fields from byte 8 (Table 12-4). -/
def controlBody (code : Nat) (ws : List Word) : Bytes := toLe 8 code ++ ws.flatMap (fun w => toLe 8 w.toNat)

/-- A CONTROL frame leaves. The IDLE frames that have gone since the frame before it are free in number (R327; log entry 80). -/
def seamSend (s : State) (code : Nat) (ws : List Word) : State :=
  let n := (s.sm.txFsn + (freeWord s).toNat) % 65536
  useFree (emit { s with sm := { s.sm with txFsn := (n + 1) % 65536 } }
    (.seamFrame (seamFrame 2 0 n s.sm.jsnApplied (controlBody code ws))))

/-- Append a record with the next JSN; in safe state the mirror engine takes no new work (R361). -/
def journalAdd (s : State) (kind : Nat) (tag : BitVec 11) (target aux : Word) (body : Bytes)
    (poison resync : Bool) : State :=
  if journalling s && !s.th.safe then
    let j := s.sm.jsnSent + 1
    let r : SeamRecord := { resync := resync, poison := poison, tag := tag, jsn := j, target := target, aux := aux, body := body }
    let s := { s with sm := { s.sm with jsnSent := j, journal := s.sm.journal ++ [{ kind := kind, body := r }] } }
    if s.sm.linkUp then emit s (.seamRecord (recordImage kind r)) else s
  else s

/-- The records made since a JSN are those of a write that a host port received (R334). -/
def notePort (s : State) (p was : Nat) : State :=
  if was < s.sm.jsnSent then { s with sm := { s.sm with portJsn := Tab.set 0 s.sm.portJsn p s.sm.jsnSent } } else s

/-- The objects of an enrolled tenant are mirrored while the journal runs (R329, R336, Table 12-7). -/
def enrolledCtx (s : State) (ctx : Nat) : Bool := journalling s && decide (ctx < mgt) && (tenant s ctx).enrolled

/-- The OBJECT record of an object as it stands. The image is not an interface. An object has an owner and no class: its tag has SC1
(DESIGN CHOICE, log entry 73). -/
def objectRecord (s : State) (ctx kind index : Nat) (resync : Bool) : State :=
  useFree (journalAdd s 7 (mkTag ctx 1) (BitVec.ofNat 64 (kind + 65536 * index)) 0
    ((Config.objectImage kind index s.freeCtr).take 4096) false resync)

/-- An OBJECT record of an object of an enrolled tenant (Table 12-6, Table 12-7); the class in its tag is a DESIGN CHOICE (log
entry 73). -/
def journalObject (s : State) (ctx kind index : Nat) : State :=
  if ctx < mgt && (tenant s ctx).enrolled then objectRecord s ctx kind index false else s

/-! Thimble: the sources (Table 13-1) and the reaction to a raise (R350 to R361) -/

namespace Src

def hpContained : Nat := 0
def hpInserted : Nat := 1
def hpViolation : Nat := 2
def hpLateCpl : Nat := 3
def hpBufCe : Nat := 4
def hpBufUe : Nat := 5
def fnFlr : Nat := 32
def fnUnquiesced : Nat := 33
def fnAriMissing : Nat := 34
def fnWinUe : Nat := 35
def fnDirtyOor : Nat := 36
def ivTableUe : Nat := 65
def xbPathCe : Nat := 96
def xbPathUe : Nat := 97
def scBoundOver : Nat := 128
def shHalt : Nat := 160
def shDoorbell : Nat := 161
def shBufCe : Nat := 162
def shBufUe : Nat := 163
def qmAccess : Nat := 192
def qmPtrMismatch : Nat := 193
def qmFreeMismatch : Nat := 194
def qmLinkCe : Nat := 195
def qmCellCe : Nat := 196
def qmCellUe : Nat := 197
def neProgFault : Nat := 224
def mcCe : Nat := 256
def mcUe : Nat := 257
def mcHot : Nat := 258
def mcTrainFail : Nat := 259
def mpAccess : Nat := 288
def mpGotUe : Nat := 289
def ruRefused : Nat := 320
def ruStageCe : Nat := 321
def ruStageUe : Nat := 322
def ruWriteFail : Nat := 323
def etLink : Nat := 352
def etFecUncorr : Nat := 353
def wtViolation : Nat := 384
def wtGiveup : Nat := 385
def wtCtxUe : Nat := 387
def smState : Nat := 416
def smFenceIn : Nat := 417
def smJournalBad : Nat := 418
def smMapFail : Nat := 419
def smLink : Nat := 420
def smConflict : Nat := 421
def smBufUe : Nat := 423
def lnLockLost : Nat := 448
def lnEqTable : Nat := 449
def ckPllUnlock : Nat := 480
def ckFreq : Nat := 481
def pwSupplyUv : Nat := 512
def pwDomainTimeout : Nat := 513
def pwOvertemp : Nat := 514
def mgWatchdog : Nat := 576
def mgFlash : Nat := 577
def mgMailbox : Nat := 578
def kpCrc : Nat := 608
def tbUnlock : Nat := 609

/-- Default severities of Table 13-1 by group of 32, in the order of the sources. -/
def table : List (List Nat) :=
  [[2, 2, 1, 1, 1, 2], [1, 2, 2, 3, 1], [1, 2], [1, 2], [2], [1, 1, 1, 2], [1, 2, 3, 1, 1, 2], [1, 1, 2],
   [1, 2, 2, 4], [1, 3], [1, 1, 2, 2], [2, 1], [1, 1, 1, 3], [2, 4, 2, 2, 2, 2, 1, 2], [1, 2], [4, 4],
   [4, 2, 4], [1, 4], [3, 2, 1], [2, 1]]

/-- The default severity of a source in use; none for a reserved number (R349). -/
def default? (n : Nat) : Option Nat :=
  match table[n / 32]? with
  | none => none
  | some g => g[n % 32]?

/-- The number names a source of Table 13-1. -/
def used (n : Nat) : Bool := (default? n).isSome

/-- Floors of R353. -/
def floor (n : Nat) : Nat :=
  if n = smFenceIn || n = ckPllUnlock || n = ckFreq || n = pwSupplyUv || n = pwOvertemp || n = 545 then 4
  else if n = mcTrainFail || n = mpGotUe then 2
  else 0

end Src

/-- What a raise says of the work and the object involved (Table 13-3). -/
structure Raise where
  tag : Option (BitVec 11) := none
  object : Nat := 0
  index : Nat := 0
  extra : BitVec 40 := 0
  forced : Bool := false
  deriving DecidableEq, Repr

/-- The severity tacked for a source. -/
def thTacked (s : State) (n : Nat) : Nat := Tab.get ((Src.default? n).getD 0) s.th.live n

/-- The live severity: the larger of the value tacked and the floor (R353). -/
def thLive (s : State) (n : Nat) : Nat := max (thTacked s n) (Src.floor n)

/-- The functions that get the device-failed message: PF 0 of every port and every VF presented and bound (Table 13-4). -/
def safeFns (s : State) : List (Nat × Nat) :=
  (upto 0 8).flatMap (fun p => if mergedUpper s p then [] else
    (p, 0) :: (s.fn.tenants.flatMap (fun e =>
      (e.2.binds.filter (fun b => b.port == p && vfPresented s p b.vf)).map (fun b => (p, b.vf)))))

/-- The device-failed message of one function: NOTICE gets the safe cause; the message waits for posted credit where it
can be sent, and the port leaves L1 for it (R263); else its pending bit is set and stays set, with PME where D3hot holds it
(R264, R362, Table 13-4). -/
def deviceFailed (s : State) (pf : Nat × Nat) : State :=
  let s := noticeSet s pf.1 pf.2 (noticeGet s pf.1 pf.2 ||| causeBit .safe)
  if msixOpen s pf.1 pf.2 0 then
    if portMsgs s pf.1 then
      let s := leaveL1 s pf.1
      setPort s pf.1 { port s pf.1 with creditWait := (port s pf.1).creditWait ++ [pf.2] }
    else pmeRaise (pendSet s pf.1 pf.2 0 true) pf.1
  else pendSet s pf.1 pf.2 0 true

/-- Number of logical Ethernet ports of an arrangement (Table 08-1). -/
def etPorts (a : Nat) : Nat := 2 * 2 ^ a

/-- The device enters safe state (R359 to R361); a further SAFE raise changes nothing. -/
def enterSafe (s : State) (source : Nat) (fence : Bool) : State :=
  if s.th.safe then
    if !fence && !s.th.safeFence && s.th.safeAt == s.cycle then
      { s with th := { s.th with safeSource := min s.th.safeSource source } }
    else s
  else
    let s := { s with
      th := { s.th with safe := true, safeSource := source, safeFence := fence, safeAt := s.cycle, alert := true }
      ne := { s.ne with threads := Tab.mapAll (fun k th => if k < 512 then haltThread th else th) s.ne.threads }
      sh := { s.sh with chans := Tab.mapAll (fun _ ch => if ch.st = .free then ch else haltChan ch 6) s.sh.chans }
      ln := { s.ln with lanes := Tab.mapAll (fun _ l =>
        if l.test then { l with gen := false, loop := 0, txSleep := true } else l) s.ln.lanes } }
    let s := abandonShuttle s
    let s := (safeFns s).foldl deviceFailed s
    let s := emitAll s ((upto 0 (etPorts s.et.arrangement)).map Output.localFault)
    if s.sm.linkUp then seamSend s 4 [] else s

/-- The record of a raise, as Thimble forms it (Table 13-3); SEQ is given when it takes its place in the log. -/
def thRecord (s : State) (n : Nat) (r : Raise) : ThRec :=
  { source := n, severity := thLive s n, safeCause := thLive s n == 4 && (!s.th.safe || (!s.th.safeFence && s.th.safeAt == s.cycle)), forced := r.forced
    tag := r.tag, object := r.object, index := r.index, extra := r.extra, time := timeNs s, slow := slowCount s }

/-- The two intake queues (R350): a LOG raise that finds its queue full has no record; a raise of NOTIFY and above of a
source that waits is merged into its entry. -/
def thIntake (s : State) (r : ThRec) : State :=
  if r.severity = 1 then
    if s.th.lowQ.length < 64 then { s with th := { s.th with lowQ := s.th.lowQ ++ [r] } }
    else count s Reg.thIntakeLost
  else if s.th.highQ.any (fun q => q.source == r.source) then
    { s with th := { s.th with highQ := s.th.highQ.map (fun q =>
        if q.source = r.source then { q with coalesced := satInc 65535 q.coalesced } else q) } }
  else { s with th := { s.th with highQ := s.th.highQ ++ [r] } }

/-- A source is raised (R349 to R356): the count, the intake, PENDING, the freeze of the tenant named, safe state. -/
def raiseSrc (s : State) (n : Nat) (r : Raise) : State :=
  if Src.used n then
    let sev := thLive s n
    let rec_ := thRecord s n r
    let s := count s (Reg.thSrcCount n)
    if sev = 0 then s
    else
      let s := thIntake s rec_
      let s := if 2 ≤ sev then { s with th := { s.th with pending := Tab.set false s.th.pending n true } } else s
      let s := if 3 ≤ sev then
          match r.tag with
          | some t => if tagCtx t = mgt then s else freezeByManager s (tagCtx t)
          | none => s
        else s
      if 4 ≤ sev then enterSafe s n false else s
  else s

/-- The sources of the Shuttle share one limit (R208). -/
def limitGroup (n : Nat) : Nat := if 160 ≤ n ∧ n ≤ 163 then 160 else n

/-- Raises of a source by a context or port that have reached Thimble in this tick. -/
def ticked (s : State) (n who : Nat) : Nat := Tab.get 0 s.th.ticked (512 * limitGroup n + who)

/-- A rate-limited raise: at most 64 per tenant, or per port, per management tick reach Thimble (R94, R133, R161, R208,
R236, R277). -/
def raiseLimited (s : State) (n who : Nat) (r : Raise) : State :=
  if ticked s n who < 64 then
    raiseSrc { s with th := { s.th with ticked := Tab.upd 0 s.th.ticked (512 * limitGroup n + who) (· + 1) } } n r
  else s

/-- The sources that their chapters limit. -/
def limited (n : Nat) : Bool :=
  [Src.hpViolation, Src.neProgFault, Src.ruRefused, Src.qmAccess, Src.wtViolation, Src.mgMailbox, Src.fnDirtyOor].contains n || limitGroup n == 160

/-- The tenants with a function bound on a port. -/
def boundOn (s : State) (p : Nat) : List Nat :=
  (s.fn.tenants.filter (fun e => e.2.binds.any (fun b => b.port == p))).map (fun e => e.1)

/-- A port enters containment, or meets a further cause: 1 fatal error, 2 fundamental reset, 3 hot reset, 4 surprise
removal (R279). -/
def containPort (s : State) (p cause : Nat) : State :=
  let h := port s p
  let s := setPort s p { h with contained := true, cause := cause }
  let s := if h.contained then s else (boundOn s p).foldl freezeByPort s
  raiseSrc s Src.hpContained { object := 1, index := p, extra := BitVec.ofNat 40 cause }

/-- AER bits of the standard that Table 10-8 names (log entry 13). -/
def aerUr : Nat := 20
def aerCa : Nat := 15
def aerPoisoned : Nat := 12
def aerCplTimeout : Nat := 14
def aerUnexpCpl : Nat := 16
def aerMalformed : Nat := 18
def aerAdvisory : Nat := 13
def aerHeaderOverflow : Nat := 15

/-- The message that a function sends for an error, as Device Control, SERR# Enable and its masks allow: 0 ERR_COR, 1 ERR_NONFATAL,
2 ERR_FATAL (R277; the standard's rules, log entry 13). -/
def errorMessage (s : State) (p f : Nat) (unc : Bool) (b : Nat) : Option Nat :=
  let k := if unc then 1 + b2n (cfgBit s p 0 Cfg.aerUncSev b) else 0
  let enabled := cfgBit s p f Cfg.devCtl k && (!unc || b != aerUr || cfgBit s p f Cfg.devCtl 3)
  if cfgBit s p f (if unc then Cfg.aerUncMask else Cfg.aerCorMask) b || !(enabled || (unc && cfgBit s p f Cfg.command 8)) then none
  else some k

/-- One detection: the status bit, the message, the HP_VIOLATION raise of the port (R277). -/
def aerNote (s : State) (p f : Nat) (unc : Bool) (b : Nat) (tag : Option (BitVec 11)) : State :=
  let off := if unc then Cfg.aerUnc else Cfg.aerCor
  let s := cfgSet s p f off (cfgGet s p f off ||| BitVec.ofNat 32 (2 ^ b))
  let s := match errorMessage s p f unc b with
    | some k => if (port s p).link then emit (transmit s p 0) (.errorMessage p f k) else s
    | none => s
  raiseLimited s Src.hpViolation p { tag := tag, object := 2, index := f + 256 * p, extra := BitVec.ofNat 40 b }

/-- The errors whose TLP header is logged. -/
def logsHeader (b : Nat) : Bool := [aerPoisoned, aerCa, aerUnexpCpl, aerMalformed, aerUr].contains b

/-- A function's header log is full: the status of an error that it logged, not masked, still stands. -/
def headerLogFull (s : State) (p f : Nat) : Bool :=
  (upto 0 32).any (fun b => logsHeader b && cfgBit s p f Cfg.aerUnc b && !cfgBit s p f Cfg.aerUncMask b)

/-- An error reported under AER by a function (R277); one whose header finds the log full is a Header Log Overflow too. An
uncorrectable error that PF 0 marks Fatal contains the port (R279). -/
def aerFor (s : State) (p f : Nat) (unc : Bool) (b : Nat) (tag : Option (BitVec 11)) : State :=
  let full := unc && logsHeader b && !cfgBit s p f Cfg.aerUncMask b && headerLogFull s p f
  let s := aerNote s p f unc b tag
  let s := if full then aerNote s p f false aerHeaderOverflow tag else s
  if unc && cfgBit s p 0 Cfg.aerUncSev b then containPort s p 1 else s

/-- An error of a request that no block has given a context tag. -/
def aer (s : State) (p f : Nat) (unc : Bool) (b : Nat) : State := aerFor s p f unc b none

/-- A request answered or logged as an Unsupported Request (Table 10-8). -/
def unsupported (s : State) (p f : Nat) : State := aer (count s (Reg.hpUr p)) p f true aerUr

/-! Serial lanes (R390, R398) -/

def serialLane (s : State) (l : Nat) : Lane := Tab.get {} s.ln.lanes l

def setSerialLane (s : State) (l : Nat) (x : Lane) : State := { s with ln := { s.ln with lanes := Tab.set {} s.ln.lanes l x } }

/-- The default entry of the equalisation table (R393). -/
def eqDefaultEntry : BitVec 64 := BitVec.ofNat 64 (0xFA * 2 ^ 8 + 49 * 2 ^ 16 + 0xF8 * 2 ^ 24 + 12 * 2 ^ 32 + 32 * 2 ^ 40)

/-- The equalisation entry from which a lane's next training starts (R393, R394). -/
def eqEntry (s : State) (l : Nat) : BitVec 64 := if s.ln.eqDefault && !s.ln.eqNew.contains l then eqDefaultEntry else keepGet s (Keep.eq + l)

/-- Training leaves a lane locked, with coefficients that the partner and the receiver have moved: free values (Table 15-3).
The flags of its entry stay. -/
def adaptLane (s : State) (l : Nat) : State :=
  let w := (freeWord s &&& 0x00FF3F1FFFFFFFFF) ||| (eqEntry s l &&& 0xFF00000000000000)
  useFree (setSerialLane s l { serialLane s l with rxLock := true, eq := w })

def adaptLanes (s : State) (lo n : Nat) : State := (upto lo n).foldl adaptLane s

/-- Lanes whose link is down have no receive lock. -/
def quietLanes (s : State) (lo n : Nat) : State :=
  (upto lo n).foldl (fun s l => setSerialLane s l { serialLane s l with rxLock := false }) s

/-- Some lane of a run has OWNER = 1: its protocol treats it as absent (R398). -/
def anyTest (s : State) (lo n : Nat) : Bool := (upto lo n).any (fun l => (serialLane s l).test)

end Sys2Proof.Machine
end

