-- ==== Sys2Proof/Machine/Arbiter.lean ====
section
/-! DEFINITION. The share arbiter of R249: SC0 first, then deficit round-robin among the classes and, within a class, among the
tenants. It serves the points at which entries wait in State: the reduce units' inputs and the Shuttle engines (Table 09-2). -/

namespace Sys2Proof.Machine

/-- Weight of a class (R249). -/
def classWeight (s : State) (sc : Nat) : Nat := if sc = 1 then s.sc.w1 else if sc = 2 then s.sc.w2 else s.sc.w3

/-- Weight of a tenant: 16, and 64 for the management context, until SC_SHARE sets it. -/
def tenantWeight (s : State) (ctx : Nat) : Nat := Tab.get (if ctx = mgt then 64 else 16) s.sc.weights ctx

/-- Deficit round-robin over flows, each with the bytes at its head, the flow whose turn it is first. A turn ends when the deficit
is short of the head, and the next flow's turn begins with a quantum of weight × 64 bytes. -/
def drrServe (weight : Nat → Nat) : Nat → List (Nat × Nat) → Table Nat → Option Nat × Table Nat
  | _, [], d => (none, d)
  | 0, (k, _) :: _, d => (some k, d)
  | n + 1, (k, len) :: t, d =>
    if len ≤ Tab.get 0 d k then (some k, Tab.set 0 d k (Tab.get 0 d k - len))
    else
      match t ++ [(k, len)] with
      | [] => (none, d)
      | (j, m) :: u => drrServe weight n ((j, m) :: u) (Tab.set 0 d j (Tab.get 0 d j + 64 * weight j))

/-- The flows in order of their turns, from the one whose turn it is. One that has nothing ready gives its turn to the next, which
then begins it (R249). -/
def drr (weight : Nat → Nat) (flows : List (Nat × Nat)) (r : Round) : Option Nat × Round :=
  let order := flows.filter (fun e => decide (r.turn ≤ e.1)) ++ flows.filter (fun e => decide (e.1 < r.turn))
  let d := match order with
    | (k, _) :: _ => if k = r.turn then r.deficit else Tab.set 0 r.deficit k (Tab.get 0 r.deficit k + 64 * weight k)
    | [] => r.deficit
  match drrServe weight (65 * (order.length + 1)) order d with
  | (some k, d) => (some k, { turn := k, deficit := d })
  | (none, d) => (none, { r with deficit := d })

/-- An entry that is ready at a shared point: its tag and its bytes. -/
structure Ready where
  tag : BitVec 11
  len : Nat
  deriving DecidableEq, Repr

/-- The flows of a class among the entries that are ready: each context with the bytes at its head, in rising order. -/
def contextFlows (l : List Ready) (sc : Nat) : List (Nat × Nat) :=
  l.foldl (fun m e => if tagSc e.tag = sc ∧ !(m.any (fun x => x.1 == tagCtx e.tag)) then Tab.put m (tagCtx e.tag) e.len else m) []

/-- The choice within a class, with its bytes. -/
def pickContext (s : State) (a : Shares) (l : List Ready) (sc : Nat) : Option (Nat × Nat × Round) :=
  let flows := contextFlows l sc
  match drr (tenantWeight s) flows (Tab.get {} a.within sc) with
  | (some ctx, r) => some (ctx, (Tab.find flows ctx).getD 0, r)
  | (none, _) => none

/-- An arbiter that serves this entry next, among those that are ready beside it (R248, R249): an entry of SC0 before the others,
which share what it leaves. None when another is to be served first. -/
def serve (s : State) (point : Nat) (e : Ready) (others : List Ready) : Option State :=
  if tagSc e.tag = 0 then some s
  else if others.any (fun o => tagSc o.tag == 0) then none
  else
    let a := Tab.get {} s.sc.shares point
    let l := e :: others
    let picks := [1, 2, 3].filterMap (fun sc => (pickContext s a l sc).map (fun r => (sc, r)))
    match drr (classWeight s) (picks.map (fun p => (p.1, p.2.2.1))) a.classes with
    | (some sc, classes) =>
      (match Tab.find picks sc with
       | some (ctx, _, r) =>
         if sc = tagSc e.tag ∧ ctx = tagCtx e.tag then
           let a : Shares := { classes := classes, within := Tab.set {} a.within sc r }
           some { s with sc := { s.sc with shares := Tab.set {} s.sc.shares point a } }
         else none
       | none => none)
    | (none, _) => none

end Sys2Proof.Machine
end

