-- ==== Sys2Proof/Machine/Formats.lean ====
section
/-! DEFINITION. Element types (Tables 02-8, 02-10): lanes of a vector, exact values of the floating-point formats, rounding
to nearest even once (R42), conversion (R44) and comparison. -/

namespace Sys2Proof.Machine

/-- A floating-point format: exponent bits, fraction bits, whether it has infinities. -/
structure FFmt where
  eb : Nat
  mb : Nat
  hasInf : Bool
  deriving DecidableEq, Repr

/-- The floating-point format of an element type; none for an integer type (Table 02-8). -/
def fmtOf : Nat → Option FFmt
  | 4 => some ⟨8, 23, true⟩
  | 5 => some ⟨8, 7, true⟩
  | 6 => some ⟨5, 10, true⟩
  | 7 => some ⟨4, 3, false⟩
  | 8 => some ⟨5, 2, true⟩
  | _ => none

def fp32 : FFmt := ⟨8, 23, true⟩

/-- Bytes of an element (Table 02-8). -/
def etSize (et : Nat) : Nat :=
  if et = 0 ∨ et = 7 ∨ et = 8 then 1 else if et = 1 ∨ et = 5 ∨ et = 6 then 2 else if et = 2 ∨ et = 4 then 4 else 8

def etFloat (et : Nat) : Bool := (fmtOf et).isSome

/-- Lanes of a 512-bit register. -/
def etLanes (et : Nat) : Nat := 64 / etSize et

/-- Lane i of a vector. -/
def lane (v : Line) (size i : Nat) : Nat := fld v.toNat (8 * size * i) (8 * size)

def lanesOf (v : Line) (et : Nat) : List Nat := (upto 0 (etLanes et)).map (lane v (etSize et))

/-- Lanes packed from the least significant end. -/
def packLanes (size : Nat) : List Nat → Nat
  | [] => 0
  | x :: t => x % 2 ^ (8 * size) + 2 ^ (8 * size) * packLanes size t

def ofLanes (et : Nat) (l : List Nat) : Line := BitVec.ofNat 512 (packLanes (etSize et) l)

/-- An exact value: not a number, an infinity, or (−1)^neg · m · 2^e. -/
inductive FVal where
  | nan
  | inf (neg : Bool)
  | fin (neg : Bool) (m : Nat) (e : Int)
  deriving DecidableEq, Repr

def FFmt.width (f : FFmt) : Nat := 1 + f.eb + f.mb

def FFmt.bias (f : FFmt) : Int := 2 ^ (f.eb - 1) - 1

/-- Exponent of the least significant bit of a subnormal. -/
def FFmt.qmin (f : FFmt) : Int := 1 - f.bias - f.mb

/-- Magnitude bits of the largest finite value (Table 02-10). -/
def FFmt.maxMag (f : FFmt) : Nat := if f.hasInf then (2 ^ f.eb - 1) * 2 ^ f.mb - 1 else 2 ^ (f.eb + f.mb) - 2

/-- The default NaN (Table 02-10). -/
def FFmt.qnan (f : FFmt) : Nat :=
  if f.hasInf then (2 ^ f.eb - 1) * 2 ^ f.mb + 2 ^ (f.mb - 1) else 2 ^ (f.eb + f.mb) - 1

def FFmt.signBit (f : FFmt) (neg : Bool) : Nat := if neg then 2 ^ (f.eb + f.mb) else 0

/-- The exact value of a bit pattern; a signalling NaN is as a quiet one (R42). -/
def decodeF (f : FFmt) (w : Nat) : FVal :=
  let neg := bit w (f.eb + f.mb)
  let ex := fld w f.mb f.eb
  let fr := fld w 0 f.mb
  if f.maxMag < fld w 0 (f.eb + f.mb) then
    if f.hasInf && fr == 0 then .inf neg else .nan
  else if ex = 0 then .fin neg fr f.qmin
  else .fin neg (2 ^ f.mb + fr) (f.qmin + (ex - 1 : Nat))

/-- Divide by 2^k, rounding to nearest, ties to even. -/
def roundShift (m k : Nat) : Nat :=
  let q := m / 2 ^ k
  let r := m % 2 ^ k
  if 2 ^ k < 2 * r ∨ (2 * r = 2 ^ k ∧ q % 2 = 1) then q + 1 else q

/-- Magnitude bits of m · 2^e rounded to nearest even, before the range is looked at. -/
def roundMag (f : FFmt) (m : Nat) (e : Int) : Nat :=
  if m = 0 then 0
  else
    let q := max (e + Nat.log2 m - f.mb) f.qmin
    let n := if q ≤ e then m * 2 ^ (e - q).toNat else roundShift m (q - e).toNat
    (q - f.qmin).toNat * 2 ^ f.mb + n

/-- What a result beyond the largest finite value becomes: with `sat` the largest finite value, else an infinity, and the
default NaN in a format without one (R42, R44). -/
def overflowF (f : FFmt) (sat neg : Bool) : Nat :=
  if sat then f.signBit neg + f.maxMag
  else if f.hasInf then f.signBit neg + (f.maxMag + 1)
  else f.qnan

/-- Round an exact value once to a format. -/
def encodeF (f : FFmt) (sat : Bool) : FVal → Nat
  | .nan => f.qnan
  | .inf neg => overflowF f sat neg
  | .fin neg m e =>
    let w := roundMag f m e
    if f.maxMag < w then overflowF f sat neg else f.signBit neg + w

def FVal.neg : FVal → FVal
  | .nan => .nan
  | .inf s => .inf !s
  | .fin s m e => .fin (!s) m e

/-- A finite value as an integer multiple of 2^q, for q at most its exponent. -/
def finInt (s : Bool) (m : Nat) (e q : Int) : Int :=
  let n : Int := (m * 2 ^ (e - q).toNat : Nat)
  if s then -n else n

/-- Exact sum; ∞ − ∞ is not a number; an exact zero of different signs is +0. -/
def FVal.add : FVal → FVal → FVal
  | .nan, _ => .nan
  | _, .nan => .nan
  | .inf a, .inf b => if a = b then .inf a else .nan
  | .inf a, .fin _ _ _ => .inf a
  | .fin _ _ _, .inf b => .inf b
  | .fin sa ma ea, .fin sb mb eb =>
    if ma = 0 ∧ mb = 0 then .fin (sa && sb) 0 0
    else
      let q := min ea eb
      let t := finInt sa ma ea q + finInt sb mb eb q
      .fin (decide (t < 0)) t.natAbs q

/-- Exact product; 0 × ∞ is not a number. -/
def FVal.mul : FVal → FVal → FVal
  | .nan, _ => .nan
  | _, .nan => .nan
  | .inf a, .inf b => .inf (a != b)
  | .inf a, .fin b m _ => if m = 0 then .nan else .inf (a != b)
  | .fin a m _, .inf b => if m = 0 then .nan else .inf (a != b)
  | .fin a m e, .fin b n g => .fin (a != b) (m * n) (e + g)

/-- Order of bit patterns that are not NaN, with −0 below +0 (R42). -/
def orderKey (f : FFmt) (w : Nat) : Int :=
  let m : Int := (fld w 0 (f.eb + f.mb) : Nat)
  if bit w (f.eb + f.mb) then -m - 1 else m

/-- Order of bit patterns that are not NaN, with −0 equal to +0 (R46). -/
def valueKey (f : FFmt) (w : Nat) : Int :=
  let m : Int := (fld w 0 (f.eb + f.mb) : Nat)
  if bit w (f.eb + f.mb) then -m else m

def isNan (f : FFmt) (w : Nat) : Bool := decodeF f w == .nan

/-- IEEE 754 minimum: a NaN input gives the default NaN. -/
def fmin (f : FFmt) (a b : Nat) : Nat :=
  if isNan f a || isNan f b then f.qnan else if orderKey f b < orderKey f a then b else a

/-- IEEE 754 maximum. -/
def fmax (f : FFmt) (a b : Nat) : Nat :=
  if isNan f a || isNan f b then f.qnan else if orderKey f a < orderKey f b then b else a

/-- Clamp to the signed range of n bits. -/
def clampSigned (n : Nat) (i : Int) : Int :=
  if i < -(2 ^ (n - 1) : Nat) then -(2 ^ (n - 1) : Nat) else if ((2 ^ (n - 1) : Nat) : Int) - 1 < i then
    ((2 ^ (n - 1) : Nat) : Int) - 1 else i

/-- Truncation toward zero, saturated at the signed range of n bits; NaN becomes 0 (R44). -/
def toInt (n : Nat) : FVal → Nat
  | .nan => 0
  | .inf neg => unsigned n (if neg then -(2 ^ (n - 1) : Nat) else ((2 ^ (n - 1) : Nat) : Int) - 1)
  | .fin neg m e =>
    let a : Nat := if 0 ≤ e then m * 2 ^ e.toNat else m / 2 ^ (-e).toNat
    unsigned n (clampSigned n (if neg then -(a : Int) else a))

/-- An integer as an exact value. -/
def ofInt (i : Int) : FVal := .fin (decide (i < 0)) i.natAbs 0

/-- Convert one lane from an element type to another (R44). -/
def convert (src dst : Nat) (sat : Bool) (w : Nat) : Nat :=
  let n := 8 * etSize dst
  match fmtOf src, fmtOf dst with
  | some f, some g => encodeF g sat (decodeF f w)
  | some f, none => toInt n (decodeF f w)
  | none, some g => encodeF g sat (ofInt (signed w (8 * etSize src)))
  | none, none =>
    let i := signed w (8 * etSize src)
    if sat && decide (n < 8 * etSize src) then unsigned n (clampSigned n i) else unsigned n i

end Sys2Proof.Machine
end

