-- ==== Sys2Proof/Machine/Aes.lean ====
section
/-! DEFINITION. AES-256 and AES-256-XTS (R114, after FIPS 197 and IEEE 1619, which the rule names). A block of 16 bytes is a
128-bit value with byte 0 lowest: the bytes 4c to 4c + 3 are column c of the cipher's state, top row first. -/

namespace Sys2Proof.Machine

/-- A block of the cipher. -/
abbrev Block := BitVec 128

/-- A byte substitution table of 256 bytes as one number, entry 0 lowest. -/
abbrev SubTable := Nat

namespace Aes

/-- The S-box of FIPS 197. -/
def sbox : SubTable := 0x16BB54B00F2D99416842E6BF0D89A18CDF2855CEE9871E9B948ED9691198F8E19E1DC186B95735610EF6034866B53E708A8BBD4B1F74DDE8C6B4A61C2E2578BA08AE7A65EAF4566CA94ED58D6D37C8E779E4959162ACD3C25C2406490A3A32E0DB0B5EDE14B8EE4688902A22DC4F816073195D643D7EA7C41744975FEC130CCDD2F3FF1021DAB6BCF5389D928F40A351A89F3C507F02F94585334D43FBAAEFD0CF584C4A39BECB6A5BB1FC20ED00D153842FE329B3D63B52A05A6E1B1A2C830975B227EBE28012079A059618C323C7041531D871F1E5A534CCF73F362693FDB7C072A49CAFA2D4ADF04759FA7DC982CA76ABD7FE2B670130C56F6BF27B777C63

/-- The inverse S-box. -/
def inv : SubTable := 0x7D0C2155631469E126D677BA7E042B17619953833CBBEBC8B0F52AAE4D3BE0A0EF9CC9939F7AE52D0D4AB519A97F51605FEC8027591012B131C7078833A8DD1FF45ACD78FEC0DB9A2079D2C64B3E56FC1BBE18AA0E62B76F89C5291D711AF1476EDF751CE837F9E28535ADE72274AC9673E6B4F0CECFF297EADC674F4111913A6B8A130103BDAFC1020F3FCA8F1E2CD00645B3B80558E4F70AD3BC8C00ABD890849D8DA75746155EDAB9EDFD5048706C92B6655DCC5CA4D41698688664F6F87225D18B6D49A25B76B224D92866A12E084EC3FA420B954CEE3D23C2A632947B54CBE9DEC444438E3487FF2F9B8239E37CFBD7F3819EA340BF38A53630D56A0952

/-- One byte through a table. -/
def sub1 (t : SubTable) (x : Nat) : Nat := (t >>> (8 * (x % 256))) % 256

/-- The first n bytes of a value through a table. -/
def subBytes (t : SubTable) : Nat → Nat → Nat
  | 0, _ => 0
  | n + 1, v => sub1 t v + 256 * subBytes t n (v / 256)

/-- Every byte of a block through a table. -/
def subBlock (t : SubTable) (b : Block) : Block := BitVec.ofNat 128 (subBytes t 16 b.toNat)

/-- The block whose byte i is byte p i of another. -/
def permute (p : List Nat) (b : Block) : Block :=
  BitVec.ofNat 128 (p.foldr (fun i v => b.toNat / 2 ^ (8 * i) % 256 + 256 * v) 0)

/-- ShiftRows: row r of column c comes from column c + r. -/
def shiftRows : Block → Block := permute [0, 5, 10, 15, 4, 9, 14, 3, 8, 13, 2, 7, 12, 1, 6, 11]

def unshiftRows : Block → Block := permute [0, 13, 10, 7, 4, 1, 14, 11, 8, 5, 2, 15, 12, 9, 6, 3]

/-- Every byte times x in the field of the cipher. -/
def xtime (b : Block) : Block :=
  let hi := (b >>> 7) &&& 0x01010101010101010101010101010101
  ((b &&& 0x7F7F7F7F7F7F7F7F7F7F7F7F7F7F7F7F) <<< 1) ^^^ hi ^^^ (hi <<< 1) ^^^ (hi <<< 3) ^^^ (hi <<< 4)

/-- Every column rotated by one row: byte r takes byte r + 1. -/
def rotate (b : Block) : Block :=
  ((b >>> 8) &&& 0x00FFFFFF00FFFFFF00FFFFFF00FFFFFF) ^^^ ((b <<< 24) &&& 0xFF000000FF000000FF000000FF000000)

/-- MixColumns: byte r of a column becomes 2 a(r) + 3 a(r + 1) + a(r + 2) + a(r + 3). -/
def mixColumns (b : Block) : Block :=
  let r := rotate b
  xtime (b ^^^ r) ^^^ r ^^^ rotate r ^^^ rotate (rotate r)

/-- InvMixColumns: the fourth power of MixColumns is the identity. -/
def unmixColumns (b : Block) : Block := mixColumns (mixColumns (mixColumns b))

/-- RotWord on a 32-bit word of the key schedule. -/
def rotWord (w : Nat) : Nat := w / 256 + 2 ^ 24 * (w % 256)

/-- Words of the key schedule of a 256-bit key from word i on, the last eight first; `rcon` is the round constant. -/
def expand : Nat → Nat → Nat → List Nat → List Nat
  | 0, _, _, l => l
  | n + 1, i, rcon, l =>
    let prev := l.headD 0
    let t := if i % 8 = 0 then subBytes sbox 4 (rotWord prev) ^^^ rcon
      else if i % 8 = 4 then subBytes sbox 4 prev else prev
    expand n (i + 1) (if i % 8 = 0 then 2 * rcon else rcon) ((l.getD 7 0 ^^^ t) :: l)

/-- Round keys from the words of the schedule, first word first. -/
def roundKeys : List Nat → List Block
  | a :: b :: c :: d :: t => BitVec.ofNat 128 (a + 2 ^ 32 * b + 2 ^ 64 * c + 2 ^ 96 * d) :: roundKeys t
  | _ => []

/-- The fifteen round keys of a 256-bit key. -/
def schedule (key : BitVec 256) : List Block :=
  roundKeys (expand 52 8 1 (((upto 0 8).map (fun i => key.toNat / 2 ^ (32 * i) % 2 ^ 32)).reverse)).reverse

/-- The rounds after the first key; the last round mixes no columns. -/
def rounds : List Block → Block → Block
  | [], b => b
  | [k], b => shiftRows (subBlock sbox b) ^^^ k
  | k :: ks, b => rounds ks (mixColumns (shiftRows (subBlock sbox b)) ^^^ k)

def unrounds : List Block → Block → Block
  | [], b => b
  | [k], b => subBlock inv (unshiftRows (b ^^^ k))
  | k :: ks, b => subBlock inv (unshiftRows (unmixColumns (unrounds ks b ^^^ k)))

/-- AES encryption of a block under round keys. -/
def cipher (ks : List Block) (b : Block) : Block := rounds ks.tail (b ^^^ ks.headD 0)

def decipher (ks : List Block) (b : Block) : Block := unrounds ks.tail b ^^^ ks.headD 0

end Aes

/-! XTS (IEEE 1619) over a 64-byte line: four blocks, no stealing -/

/-- Multiply a tweak by the primitive element. -/
def tweakNext (t : Block) : Block := (t <<< 1) ^^^ (if t.msb then 0x87 else 0)

/-- The tweaks of the four blocks of a line: Key2 encrypts the line number (R114). -/
def tweaks (key : BitVec 512) (line : Nat) : List Block :=
  let t0 := Aes.cipher (Aes.schedule (BitVec.extractLsb' 256 256 key)) (BitVec.ofNat 128 line)
  let t1 := tweakNext t0
  let t2 := tweakNext t1
  [t0, t1, t2, tweakNext t2]

/-- A line block by block through a function of the block, under its tweaks. -/
def xts (f : Block → Block) (ts : List Block) (l : Line) : Line :=
  BitVec.ofNat 512 (((upto 0 4).map (fun j =>
    (f (BitVec.extractLsb' (128 * j) 128 l ^^^ ts.getD j 0) ^^^ ts.getD j 0).toNat * 2 ^ (128 * j))).sum)

/-- Encrypt the line of a number with Key1 ‖ Key2 of a slot: Key1 encrypts the data, Key2 the tweak. -/
def xtsEncrypt (key : BitVec 512) (line : Nat) (l : Line) : Line :=
  xts (Aes.cipher (Aes.schedule (BitVec.extractLsb' 0 256 key))) (tweaks key line) l

def xtsDecrypt (key : BitVec 512) (line : Nat) (l : Line) : Line :=
  xts (Aes.decipher (Aes.schedule (BitVec.extractLsb' 0 256 key))) (tweaks key line) l

end Sys2Proof.Machine
end

