-- ==== Sys2Proof/Machine/Reply.lean ====
section
/-! DEFINITION. How a mailbox command is answered (R412 to R414, R451): statuses, the packing of results, the response
buffer, and the checks that every command shares. -/

namespace Sys2Proof.Machine

/-- Status codes of Table 16-5. -/
inductive Status where
  | ok | busy | inProgress | noSpace | badArg | denied | notQuiesced | badImage | notFound | frozen | unprotected
  deriving DecidableEq, Repr

def statusCode : Status → Nat
  | .ok => 0
  | .busy => 1
  | .inProgress => 2
  | .noSpace => 3
  | .badArg => 4
  | .denied => 5
  | .notQuiesced => 6
  | .badImage => 7
  | .notFound => 8
  | .frozen => 9
  | .unprotected => 10

/-- An answer: STATUS, DETAIL and the results as (width in bytes, value) in the order of the command's table. -/
structure Reply where
  status : Status
  detail : Word := 0
  results : List (Nat × Nat) := []
  /-- Data bytes, which come last at an 8-byte boundary (R413). -/
  data : Bytes := []
  deriving DecidableEq, Repr

/-- A command's effect with its answer; no answer while the command runs on. -/
abbrev Done := State × Option Reply

def refuse (s : State) (st : Status) : Done := (s, some { status := st })

def done (s : State) : Done := (s, some { status := .ok })

/-- Zero bytes up to a multiple of n. -/
def padTo (n : Nat) (b : Bytes) : Bytes := b ++ fill ((n - b.length % n) % n) 0

/-- Pack fields in order, each aligned to its width (R413). -/
def packFields : List (Nat × Nat) → Bytes → Bytes
  | [], b => b
  | (w, v) :: t, b => packFields t (padTo w b ++ toLe w v)

/-- The payload of a response. -/
def replyPayload (r : Reply) : Bytes :=
  if r.data.isEmpty then padTo 8 (packFields r.results [])
  else padTo 8 (padTo 8 (packFields r.results []) ++ r.data)

def mbox (s : State) (src : Nat) : Mbox := Tab.get {} s.mg.boxes src

def setMbox (s : State) (src : Nat) (m : Mbox) : State :=
  { s with mg := { s.mg with boxes := Tab.set {} s.mg.boxes src m } }

/-- The response as it stands in the buffer: the 64-byte header of Table 16-4, then the payload. SEQ is echoed. -/
def replyBytes (m : Mbox) (code : Nat) (r : Reply) : Bytes :=
  let p := replyPayload r
  toLe 1 code ++ toLe 1 (statusCode r.status) ++ Mem.read m.req 2 2 ++ toLe 4 p.length ++ toLe 8 r.detail.toNat ++
    toLe 8 m.taken ++ fill 40 0 ++ p

/-- A completed command writes its response (MAILBOX_ANSWER, R412); the BMC hears of it in I3C mode (R411). -/
def answer (s : State) (src code : Nat) (r : Reply) : State :=
  let m := mbox s src
  let s := setMbox s src { m with
    rsp := Mem.write (Mem.clear m.rsp 0 4096) 0 (replyBytes m code r), pending := false, running := none, ready := true }
  if src = 8 && s.mg.i3c && s.mg.ibi then emit s (.ibi 2) else s

/-- A source that may command: PF 0 of a manager port, or the BMC (R412). -/
def sourceServed (s : State) (src : Nat) : Bool :=
  src == 8 || (decide (src < 8) && managerPort s src && !mergedUpper s src)

/-- The firmware serves a source: it runs, or the engine is in recovery, the device is not in Stop, and the source has no command
that is still running. -/
def mayRing (s : State) (src : Nat) : Bool :=
  sourceServed s src && (s.mg.running || s.mg.recovery) && !s.pw.inStop && (mbox s src).running.isNone

/-- The firmware takes up the command of a source whose doorbell is pending (R20, R412). -/
def takesUp (s : State) (src : Nat) : Bool := mayRing s src && (mbox s src).pending

/-- The commands that need neither the pool, nor the Ethernet ports, nor the Seam link (R378, log entry 14): service
classes, ports, PAIR_CONFIG, faults, power, lanes and the management commands up to TIME_SET. -/
def needsRun (code : Nat) : Bool :=
  !(decide (0x26 ≤ code ∧ code ≤ 0x2A) || code == 0x3D || decide (0x44 ≤ code ∧ code ≤ 0x4A) ||
    decide (0x50 ≤ code ∧ code ≤ 0x54))

/-- BUSY because PHASE has not reached RUN or the engine is in recovery, the first refusal of R451. In recovery only
DEVICE_INFO and FLASH_WRITE are answered (R409). -/
def notReady (s : State) (code : Nat) : Bool :=
  (s.mg.recovery && !(code == 0x50 || code == 0x52)) || (s.pw.phase == .boot && needsRun code)

/-- A command that has been taken up comes to its end, or goes on as another. -/
def complete (s : State) (src code : Nat) (c : Option Running) (d : State → Done) : State :=
  match d s with
  | (s, some r) => answer s src code r
  | (s, none) => setMbox s src { mbox s src with running := c }

/-- Take a command up for a source and answer it (R412). A source that is not served changes nothing. -/
def takeUp (s : State) (src code : Nat) (c : Option Running) (body : State → Done) : State :=
  if takesUp s src then
    let s := setMbox s src { mbox s src with taken := s.mg.tick, pending := false }
    if notReady s code then answer s src code { status := .busy }
    else
      complete s src code c body
  else s

/-- The refusal of a tenant that a command names: NOT_FOUND for FREE and REMOVED, FROZEN for FROZEN (R90, R109, R152,
R181, R207, R239, R254, R306). The management context is never refused. -/
def ctxRefusal (s : State) (ctx : Nat) : Option Status :=
  if ctx = mgt then none
  else if mgt < ctx then some .badArg
  else
    match (tenant s ctx).st with
    | .free => some .notFound
    | .removed => some .notFound
    | .frozen => some .frozen
    | _ => none

/-- Do a command unless the context it names is refused. -/
def withCtx (s : State) (ctx : Nat) (body : Done) : Done :=
  match ctxRefusal s ctx with
  | some st => refuse s st
  | none => body

/-- A keep write of the firmware is in progress: it takes up to 20 µs (R417, R418, log entry 39). -/
def keepBusy (s : State) : Bool := decide (s.now < s.mg.keepDue)

/-- The firmware opens the keep registers and writes a word (R418). -/
def keepWrite (s : State) (i : Nat) (w : Word) : State :=
  let s := keepSet s i w
  { s with mg := { s.mg with kpOpen := true, keepDue := s.now + us 20 } }

/-- The first refusal of a list of conditions in the order of R451. -/
def firstRefusal : List (Bool × Status) → Option Status
  | [] => none
  | (b, st) :: t => if b then some st else firstRefusal t

/-- Do a command unless one of the conditions refuses it. -/
def guardAll (s : State) (l : List (Bool × Status)) (body : Done) : Done :=
  match firstRefusal l with
  | some st => refuse s st
  | none => body

end Sys2Proof.Machine
end

