-- ==== Sys2Proof/Machine/Pool.lean ====
section
/-! DEFINITION. The memory pool (chapter 04): the access check, reads and writes of lines with poison, ZERO marks, ECC and
the journal, the scrubber, and the granule, grant and key commands. The stacks hold ciphertext (R114). -/

namespace Sys2Proof.Machine

/-- Bytes of a granule (Table 04-1). -/
def granuleBytes : Nat := 2097152

/-- A stack's granules: granule ÷ 16,384 (R99). -/
def stackOf (g : Nat) : Nat := g / 16384

/-- A place in the stacks: the fields of a PPA (Table 04-1). -/
structure PoolPlace where
  byte : Nat
  colLo : Nat
  ch : Nat
  pc : Nat
  ba : Nat
  bg : Nat
  sid : Nat
  colHi : Nat
  row : Nat
  stack : Nat
  deriving DecidableEq, Repr

/-- The controllers' decode of a PPA (R99). -/
def decodePpa (a : Nat) : PoolPlace :=
  { byte := fld a 0 6, colLo := fld a 6 2, ch := fld a 8 4, pc := fld a 12 1, ba := fld a 13 2, bg := fld a 15 2
    sid := fld a 17 2, colHi := fld a 19 2, row := fld a 21 14, stack := fld a 35 3 }

def gran (s : State) (g : Nat) : Granule := Tab.get {} s.mp.granules g

def setGran (s : State) (g : Nat) (e : Granule) : State :=
  { s with mp := { s.mp with granules := Tab.set {} s.mp.granules g e } }

def granList (s : State) (ctx : Nat) : GranList := Tab.get {} s.mp.lists ctx

def setGranList (s : State) (ctx : Nat) (l : GranList) : State :=
  { s with mp := { s.mp with lists := Tab.set {} s.mp.lists ctx l } }

/-- The granule at an index of a context's list: none for a hole and above LIST_LEN (R101). -/
def listAt (s : State) (ctx i : Nat) : Option Nat :=
  match (granList s ctx).entries[i]? with
  | some (some g) => some g
  | _ => none

/-- The array entry of a list's index has an error that cannot be corrected (R120). -/
def listBad (s : State) (ctx i : Nat) : Bool := s.mp.badList.contains ((granList s ctx).base + i)

/-- Granules that a context holds. -/
def granHeld (s : State) (ctx : Nat) : Nat := ((granList s ctx).entries.filter Option.isSome).length

/-- Array entries in use by lists: holes occupy entries too (R101, R126). -/
def listUsed (s : State) : Nat := Tab.sum (fun _ l => l.entries.length) s.mp.lists

def listHoles (s : State) : Nat :=
  Tab.sum (fun _ l => (l.entries.filter Option.isNone).length) s.mp.lists

def stk (s : State) (k : Nat) : Stack := Tab.get {} s.mp.stks k

def setStk (s : State) (k : Nat) (x : Stack) : State :=
  { s with mp := { s.mp with stks := Tab.set {} s.mp.stks k x } }

/-- Granules in a state, in all; a granule that no entry lists is FREE. -/
def granCount (s : State) (st : GranState) : Nat :=
  if st = .free then 131072 - Tab.count (fun _ g => g.st != .free) s.mp.granules
  else Tab.count (fun _ g => g.st == st) s.mp.granules

/-- FREE granules of one stack. -/
def stackFree (s : State) (k : Nat) : Nat :=
  16384 - Tab.count (fun g e => stackOf g == k && e.st != .free) s.mp.granules

/-- The lowest-numbered FREE granule of a stack. -/
def lowestFree (s : State) (k : Nat) : Option Nat :=
  firstUpto (fun g => (gran s g).st == .free) (16384 * k) 16384

/-- The stack with the most FREE granules, the lowest-numbered on a tie (R109). -/
def bestStack (s : State) : Nat :=
  (upto 1 7).foldl (fun b k => if stackFree s b < stackFree s k then k else b) 0

/-! The access check (R104) -/

/-- The forms in which an access reaches the memory protection unit: a TPA, a PPA with a grant number, a PPA alone. -/
inductive PoolAddr where
  | tpa (a : Nat)
  | granted (ppa grant : Nat)
  | ppa (ppa : Nat)
  deriving DecidableEq, Repr

inductive Verdict where
  /-- Allowed at a PPA, under the key of a slot: the owner's (R108). -/
  | allow (ppa slot : Nat)
  /-- A read of a FREE granule by the management context: it reads as zero. -/
  | zero (ppa : Nat)
  /-- Denied; the granule that the address reached, where it reached one. -/
  | deny (g : Option Nat)
  deriving DecidableEq, Repr

/-- The key slot of a granule's entry: its owner's, also for the accesses that were accepted before its release (R110). A RETIRED
granule has no owner, and its lines are under the management context's slot (DESIGN CHOICE, log entry 11). -/
def slotOf (e : Granule) : Nat := if e.st = .owned ∨ e.st = .scrub then e.ctx else mgt

/-- The check for the management context, which uses PPAs. -/
def checkMgt (s : State) (a : Nat) (write : Bool) : Verdict :=
  if 2 ^ 38 ≤ a then .deny none
  else
    let g := a / granuleBytes
    match (gran s g).st with
    | .owned => .allow a (slotOf (gran s g))
    | .retired => .allow a (slotOf (gran s g))
    | .free => if write then .deny (some g) else .zero a
    | .scrub => .deny (some g)

/-- The check of a granule that the tenant must own. An entry that cannot be corrected denies every tenant (R120). -/
def checkOwned (s : State) (ctx g off : Nat) : Verdict :=
  let e := gran s g
  if e.st = .owned ∧ e.ctx = ctx ∧ !e.damaged then .allow (g * granuleBytes + off) ctx else .deny (some g)

/-- The check of a grant; a window's PPA must lie in the grant's granule. -/
def checkGrant (s : State) (ctx n off : Nat) (ppa : Option Nat) (write : Bool) : Verdict :=
  match Tab.find s.mp.grants n with
  | none => .deny none
  | some gr =>
    if gr.grantee ≠ ctx ∨ (write ∧ !gr.write) ∨ s.mp.badGrant.contains n ∨ (gran s gr.granule).damaged then .deny (some gr.granule)
    else
      let slot := slotOf (gran s gr.granule)
      match ppa with
      | none => .allow (gr.granule * granuleBytes + off) slot
      | some a => if a / granuleBytes ≠ gr.granule then .deny (some gr.granule) else .allow a slot

/-- The access check of R104. -/
def check (s : State) (tag : BitVec 11) (addr : PoolAddr) (write : Bool) : Verdict :=
  let ctx := tagCtx tag
  match addr with
  | .tpa a =>
    if ctx = mgt then checkMgt s a write
    else if bit a 38 then checkGrant s ctx (fld a 21 12) (fld a 0 21) none write
    else
      match listAt s ctx (fld a 21 17) with
      | none => .deny none
      | some g => if listBad s ctx (fld a 21 17) then .deny none else checkOwned s ctx g (fld a 0 21)
  | .granted a n => if ctx = mgt then checkMgt s a write else checkGrant s ctx n (fld a 0 21) (some a) write
  | .ppa a => if ctx = mgt then checkMgt s a write else checkOwned s ctx (a / granuleBytes) (fld a 0 21)

/-- A denied access is counted in MP_DENIED and raised as MP_ACCESS (R104). -/
def poolDenied (s : State) (tag : BitVec 11) (g : Option Nat) : State :=
  raiseSrc (count s Reg.mpDenied) Src.mpAccess
    { tag := some tag, object := if g.isSome then 7 else 0, index := g.getD 0 }

/-! Lines: encryption, poison and ECC (R113 to R118) -/

def poisonAt (s : State) (ppa : Nat) : Bool := Tab.get false s.mp.poison (ppa / 64)

/-- A mark is set or cleared in META.POISON; a mark set also sets the granule's POISONED. -/
def setPoison (s : State) (ppa : Nat) (b : Bool) : State :=
  let s := { s with mp := { s.mp with poison := Tab.set false s.mp.poison (ppa / 64) b } }
  if b then setGran s (ppa / granuleBytes) { gran s (ppa / granuleBytes) with poisoned := true } else s

/-- The key of the slot that encrypts a line: its granule's owner's (R104, R108, R114). -/
def lineKey (s : State) (l : Nat) : BitVec 512 := Tab.get 0 s.mp.keys (slotOf (gran s (l / 32768)))

/-- The 64 bytes that the stack holds for a line: ciphertext, but after a scrub. -/
def storedLine (s : State) (l : Nat) : Line := bytesLine (Mem.read s.mp.pool (64 * l) 64)

/-- Metadata byte 7 of a line (Table 04-9). -/
def lineMeta (s : State) (l : Nat) : BitVec 8 :=
  BitVec.ofNat 8 (b2n (Tab.get false s.mp.poison l) + 2 * b2n (!Tab.get false s.mp.written l))

/-- The CHECK bytes of a line, over ciphertext and byte 7, as they were stored. -/
def lineCheck (s : State) (l : Nat) : BitVec 56 := Config.eccCheck (storedLine s l) (lineMeta s l)

/-- The data of a line: decrypted, or zero where META.ZERO is set (R113). -/
def lineData (s : State) (l : Nat) : Bytes :=
  if Tab.get false s.mp.written l then lineBytes (xtsDecrypt (lineKey s l) l (storedLine s l)) else fill 64 0

/-- Lines touched by a span of bytes. -/
def linesOf (ppa n : Nat) : List Nat := if n = 0 then [] else upto (ppa / 64) ((ppa + n - 1) / 64 - ppa / 64 + 1)

/-- Data bytes of the pool. -/
def poolBytes (s : State) (ppa n : Nat) : Bytes := slice ((linesOf ppa n).flatMap (lineData s)) (ppa % 64) n

def poolLine (s : State) (ppa : Nat) : Line := bytesLine (lineData s (ppa / 64))

/-- Some line of the span is poisoned. -/
def spanPoison (s : State) (ppa n : Nat) : Bool := (linesOf ppa n).any (fun l => Tab.get false s.mp.poison l)

/-- Bits of lines flip in the stacks; a bit that flips twice is sound again. -/
def disturb (s : State) (u : Upsets) : State :=
  let one (m : Table (List Nat)) (e : Nat × Nat) : Table (List Nat) :=
    let l := Tab.get [] m e.1
    Tab.set [] m e.1 (if l.contains e.2 then l.erase e.2 else l ++ [e.2])
  { s with mp := { s.mp with upsets := u.foldl one s.mp.upsets } }

/-- What the code makes of the flipped bits of a line (R116): it corrects any error in one 8-bit symbol or on one DQ pin, and
detects any error in two symbols; an error beyond those it may or may not detect. -/
def eccOutcome (bits : List Nat) : Ecc :=
  let symbols := (bits.map (fun b => b / 8)).dedup
  let pins := (bits.map Config.dqPin).dedup
  if bits.isEmpty then .ok
  else if symbols.length ≤ 1 || decide (pins.length ≤ 1) then .corrected
  else if decide (symbols.length ≤ 2) || Config.eccDetects bits then .uncorrectable
  else .ok

/-- The bits that flipped become the line's stored content: data bits, and ZERO of byte 7. -/
def keepUpsets (s : State) (l : Nat) (bits : List Nat) : State :=
  let flip := (bits.filter (fun b => decide (b < 512))).foldl (fun (x : Line) b => x ^^^ BitVec.ofNat 512 (2 ^ b)) 0
  { s with mp := { s.mp with
    pool := if flip = 0 then s.mp.pool else Mem.write s.mp.pool (64 * l) (lineBytes (storedLine s l ^^^ flip))
    written := if bits.contains 569 then Tab.set false s.mp.written l (!Tab.get false s.mp.written l) else s.mp.written } }

/-- A corrected error of a line counts for its granule and its stack (R117, R120). -/
def lineCorrected (s : State) (ppa : Nat) : State :=
  let g := ppa / granuleBytes
  count (setGran s g { gran s g with ceCount := satInc 255 (gran s g).ceCount }) (Reg.mcCeCnt (decodePpa ppa).stack)

/-- An error that cannot be corrected marks the line and counts for its stack. -/
def linePoisoned (s : State) (ppa : Nat) : State := count (setPoison s ppa true) (Reg.mcUeCnt (decodePpa ppa).stack)

/-- The controller reads a line and checks it (R117): corrected data are written back; data that cannot be corrected are kept as
read, with POISON and a fresh CHECK. The stack and channel name the object. -/
def eccRead (s : State) (ppa : Nat) (tag : Option (BitVec 11)) : State :=
  let l := ppa / 64
  let bits := Tab.get [] s.mp.upsets l
  if bits.isEmpty then s
  else
    let a := decodePpa ppa
    let r : Raise := { tag := tag, object := 10, index := 16 * a.stack + a.ch, extra := BitVec.ofNat 40 (64 * l) }
    let s := { s with mp := { s.mp with upsets := Tab.del s.mp.upsets l } }
    match eccOutcome bits with
    | .ok => keepUpsets s l bits
    | .corrected => raiseSrc (lineCorrected s ppa) Src.mcCe r
    | .uncorrectable => raiseSrc (linePoisoned (keepUpsets s l bits) ppa) Src.mcUe r

/-- How many commands of SC0 are queued ahead of one that arrives at its HBM channel: not modelled, and free (log entry 27). -/
def sc0Ahead (s : State) : Nat := (freeWord s).toNat

/-- A command arrives at the channel of its line: one of SC0 that finds two or more ahead is counted (R257). -/
def sc0Arrive (s : State) (tag : BitVec 11) (l : Nat) : State :=
  if tagSc tag = 0 then
    let a := decodePpa (64 * l)
    useFree (if 2 ≤ sc0Ahead s then count s (Reg.scSc0Deep (16 * a.stack + a.ch)) else s)
  else s

/-- An agent with a tag reads a span: every line of it is read and checked. -/
def eccSpan (s : State) (ppa n : Nat) (tag : BitVec 11) : State :=
  (linesOf ppa n).foldl (fun s l => eccRead (sc0Arrive s tag l) (64 * l) (some tag)) s

/-- The MIRRORED flag journals a write while the journal runs (R125). -/
def mirrors (s : State) (ppa : Nat) : Bool :=
  let g := gran s (ppa / granuleBytes)
  g.mirrored && enrolledCtx s g.ctx

/-- LINE_WRITE records of a write: one for each 4,096-byte page that it meets, so that AUX has a bit for each line of the span
(Table 12-6; log entry 80). -/
def lineRecords (ppa n : Nat) : Nat := if n = 0 then 0 else (ppa + n - 1) / 4096 - ppa / 4096 + 1

/-- A write that would need journal records finds room for them, or needs none (R329). -/
def writeRoom (s : State) (ppa n : Nat) : Bool := !mirrors s ppa || journalRoom s (lineRecords ppa n) n

/-- Cycles of journal back-pressure are counted (R329). -/
def journalWait (s : State) : State := count s Reg.smJournalBp

/-- AUX of a LINE_WRITE: bit i marks line i of the span (Table 12-6). -/
def poisonAux (s : State) (ppa n : Nat) : Nat :=
  ((linesOf ppa n).zipIdx.map (fun e => if Tab.get false s.mp.poison e.1 then 2 ^ e.2 else 0)).sum

/-- The write covers the line whole. -/
def wholeLine (ppa n l : Nat) : Bool := decide (ppa ≤ 64 * l ∧ 64 * l + 64 ≤ ppa + n)

/-- The poison mark of one line after a write of the span (R118): a whole-line write replaces it, a partial one keeps it. -/
def writeMark (ppa n : Nat) (poison : Bool) (s : State) (l : Nat) : State :=
  setPoison s (64 * l) (poison || (Tab.get false s.mp.poison l && !wholeLine ppa n l))

/-- One line of a write: its old data with the bytes of the write merged in (R106), encrypted, with ZERO cleared. -/
def writeLine (ppa : Nat) (b : Bytes) (s : State) (l : Nat) : State :=
  let lo := max ppa (64 * l)
  let new := slice b (lo - ppa) (64 * l + 64 - lo)
  let data := if wholeLine ppa b.length l then new else overlay (lineData s l) (lo - 64 * l) new
  { s with mp := { s.mp with
    pool := Mem.write s.mp.pool (64 * l) (lineBytes (xtsEncrypt (lineKey s l) l (bytesLine data)))
    written := Tab.set false s.mp.written l true
    upsets := Tab.del s.mp.upsets l } }

/-- The lines that a write covers in part are read and checked first (R106, R117). -/
def eccMerge (s : State) (ppa n : Nat) (tag : Option (BitVec 11)) : State :=
  ((linesOf ppa n).filter (fun l => !wholeLine ppa n l)).foldl (fun s l => eccRead s (64 * l) tag) s

/-- One page's piece of a written span, as its LINE_WRITE record. The tag is the owner's with SC1 (the class is a DESIGN CHOICE, log
entry 73). -/
def journalPage (ppa : Nat) (b : Bytes) (s : State) (page : Nat) : State :=
  let lo := max ppa (4096 * page)
  let hi := min (ppa + b.length) (4096 * page + 4096)
  journalAdd s 1 (mkTag (gran s (ppa / granuleBytes)).ctx 1) (BitVec.ofNat 64 lo) (BitVec.ofNat 64 (poisonAux s lo (hi - lo)))
    (slice b (lo - ppa) (hi - lo)) (spanPoison s lo (hi - lo)) false

/-- Write bytes to the pool at a PPA within one granule, the check passed: data, ZERO and poison marks, and the journal records of
a mirrored granule (R113, R118, R125). -/
def poolWrite (s : State) (ppa : Nat) (b : Bytes) (poison : Bool) : State :=
  if b.isEmpty then s
  else
    let ls := linesOf ppa b.length
    let s := ls.foldl (writeLine ppa b) s
    let s := ls.foldl (writeMark ppa b.length poison) s
    if mirrors s ppa then (upto (ppa / 4096) (lineRecords ppa b.length)).foldl (journalPage ppa b) s else s

/-- A write of an agent with a tag: lines written in part are read first. -/
def poolStore (s : State) (tag : BitVec 11) (ppa : Nat) (b : Bytes) (poison : Bool) : State :=
  let s := (linesOf ppa b.length).foldl (fun s l => sc0Arrive s tag l) s
  poolWrite (eccMerge s ppa b.length (some tag)) ppa b poison

/-- The resync stream copies lines while the journal has room: each is read when its record is made (R343). -/
def copyLines (c : Nat) (s : State) : List Nat → State
  | [] => { s with sm := { s.sm with copyQ := [] } }
  | l :: t =>
    if journalRoom s 1 64 then
      let s := eccRead s (64 * l) none
      let s := journalAdd s 1 (mkTag (gran s (64 * l / granuleBytes)).ctx 1) (BitVec.ofNat 64 (64 * l))
        (BitVec.ofNat 64 (b2n (poisonAt s (64 * l)))) (poolBytes s (64 * l) 64) (poisonAt s (64 * l)) true
      copyLines c (systemMove s c 64) t
    else { s with sm := { s.sm with copyQ := l :: t } }

/-- The stream runs on a system channel, and waits while there is none (R184); in safe state it stops where it stands (R361). -/
def copyPump (s : State) : State :=
  match systemChan s with
  | some c => if journalling s && !s.th.safe then copyLines c s s.sm.copyQ else s
  | none => s

/-- The written lines of a granule. -/
def granuleLines (s : State) (g : Nat) : List Nat :=
  (s.mp.written.filter (fun e => e.1 / 32768 == g)).map (fun e => e.1)

/-- A GRANULE_MAP record of a granule (Table 12-6). -/
def journalMap (s : State) (g : Nat) (map resync : Bool) : State :=
  journalAdd s 3 (mkTag (gran s g).ctx 1) (BitVec.ofNat 64 (g + 131072 * b2n map))
    (BitVec.ofNat 64 (gran s g).listIndex) [] false resync

/-- The mirror engine brings the partner's copy of a granule into step (R125). -/
def journalCopy (s : State) (g : Nat) : State :=
  if enrolledCtx s (gran s g).ctx then
    let s := journalMap s g true true
    copyPump { s with sm := { s.sm with
      copyQ := s.sm.copyQ ++ granuleLines s g, resyncTotal := s.sm.resyncTotal + 1 } }
  else s

/-! Release and scrub (R110, R111) -/

/-- A context that a command names is FREE or REMOVED; is FROZEN. -/
def ctxMissing (s : State) (ctx : Nat) : Bool :=
  decide (ctx < mgt) && ((tenant s ctx).st == .free || (tenant s ctx).st == .removed)

def ctxFrozen (s : State) (ctx : Nat) : Bool := decide (ctx < mgt) && (tenant s ctx).st == .frozen

/-- The list without its trailing holes (R110). -/
def shrinkList (l : List (Option Nat)) : List (Option Nat) := (l.reverse.dropWhile Option.isNone).reverse

/-- The release point: the entry changes to SCRUB, the list entry becomes a hole, the stack's order takes the granule. -/
def releaseGranule (s : State) (ctx i g : Nat) : State :=
  let s := setGran s g { gran s g with st := .scrub }
  let l := granList s ctx
  let s := setGranList s ctx { l with entries := shrinkList (l.entries.set i none) }
  let k := stackOf g
  setStk s k { stk s k with order := (stk s k).order ++ [g] }

/-- Every access to the granule accepted before the release point has completed: no pool load is outstanding to it. -/
def granuleQuiet (s : State) (g : Nat) : Bool :=
  s.ne.threads.all (fun e => e.2.plds.all (fun p => p.ppa / granuleBytes != g))

/-- SCRUB_START: a stack's scrubber begins the next granule in release order (R111). -/
def execScrubStart (k : Nat) (s : State) : Ans :=
  match (stk s k).running, (stk s k).order with
  | none, g :: t =>
    if granuleQuiet s g then .next (setStk s k { stk s k with running := some g, order := t }) else idle s
  | _, _ => idle s

/-- A granule's lines as the scrub leaves them: zero data, ZERO set, no poison. -/
def zeroGranule (s : State) (g : Nat) : State :=
  { s with mp := { s.mp with
    pool := Mem.clear s.mp.pool (g * granuleBytes) granuleBytes
    poison := Tab.keep (fun l _ => l / 32768 != g) s.mp.poison
    written := Tab.keep (fun l _ => l / 32768 != g) s.mp.written
    upsets := Tab.keep (fun l _ => l / 32768 != g) s.mp.upsets } }

/-- A removed tenant that holds no granule any more: its key slot is zeroed and its TID is FREE (R115, R304). -/
def freeTenant (s : State) (tid : Nat) : State :=
  setTenant { s with mp := { s.mp with keys := Tab.del s.mp.keys tid } } tid {}

/-- The tenant has a granule in scrub. -/
def scrubsLeft (s : State) (ctx : Nat) : Bool := s.mp.granules.any (fun e => e.2.st == .scrub && e.2.ctx == ctx)

/-- SCRUB_COMPLETE: the granule becomes FREE, or RETIRED with a GRANULE_RETIRE pending (Table 04-5); the scrub of a
mirrored granule is one record that zeroes it on the partner (R125), followed by its unmapping. -/
def execScrubComplete (k : Nat) (s : State) : Ans :=
  match (stk s k).running with
  | none => idle s
  | some g =>
    let e := gran s g
    let s := count (zeroGranule s g) Reg.mpScrubbed
    let s := if e.mirrored && enrolledCtx s e.ctx then
        journalMap (journalAdd s 2 (mkTag e.ctx 1) (BitVec.ofNat 64 g) 0 [] false false) g false false else s
    let s := setGran s g { st := if e.retire then .retired else .free, damaged := e.damaged }
    let s := setStk s k { stk s k with running := none }
    if e.ctx < mgt ∧ (tenant s e.ctx).st = .removed ∧ !(tenant s e.ctx).removing ∧ !scrubsLeft s e.ctx then .next (freeTenant s e.ctx) else .next s

/-- PATROL_READ: the scrubber reads one line of an OWNED or RETIRED granule (R119). -/
def execPatrolRead (line : Nat) (u : Upsets) (s : State) : Ans :=
  match (gran s (line / 32768)).st with
  | .owned => .next (eccRead (disturb s u) (64 * line) none)
  | .retired => .next (eccRead (disturb s u) (64 * line) none)
  | _ => idle s

/-! The granule commands (Table 04-7) -/

/-- The list index that GRANULE_ASSIGN takes: the one named, or the lowest hole, or the append (R109). -/
def assignIndex (s : State) (ctx : Nat) : Option Nat → Nat
  | some i => i
  | none => ((granList s ctx).entries.findIdx? Option.isNone).getD (granList s ctx).entries.length

/-- GRANULE_LIMIT of a context; the management context has none. -/
def granLimit (s : State) (ctx : Nat) : Nat := if ctx = mgt then 131072 else (tenant s ctx).granules

/-- Runs of the list array (base and length), in rising order of base. -/
def insertRun (x : Nat × Nat) : List (Nat × Nat) → List (Nat × Nat)
  | [] => [x]
  | y :: t => if x.1 ≤ y.1 then x :: y :: t else y :: insertRun x t

/-- The runs that the lists of the other contexts occupy (R101). -/
def otherRuns (s : State) (ctx : Nat) : List (Nat × Nat) :=
  (s.mp.lists.filter (fun e => e.1 != ctx && !e.2.entries.isEmpty)).foldr (fun e l => insertRun (e.2.base, e.2.entries.length) l) []

/-- Where n entries fit before, between and after the runs: lowest place and number of places of each gap. -/
def gapPlaces (n : Nat) : Nat → List (Nat × Nat) → List (Nat × Nat)
  | at_, [] => [(at_, 131072 + 1 - at_ - n)]
  | at_, r :: t => (at_, r.1 + 1 - at_ - n) :: gapPlaces n (r.1 + r.2) t

/-- The k-th of the places. -/
def nthPlace : Nat → List (Nat × Nat) → Option Nat
  | _, [] => none
  | k, g :: t => if k < g.2 then some (g.1 + k) else nthPlace (k - g.2) t

/-- The management engine moves every list, one after the other from entry 0 (R101). -/
def packLists (at_ : Nat) : Table GranList → Table GranList
  | [] => []
  | (k, l) :: t => (k, { l with base := at_ }) :: packLists (at_ + l.entries.length) t

/-- A list takes one more entry at its end. It moves to a place of the array that is free for it, which a free value picks (log
entry 17); where no gap is long enough, the lists are packed. -/
def growList (s : State) (ctx g : Nat) : State :=
  let l := granList s ctx
  let more := l.entries ++ [some g]
  let places := gapPlaces more.length 0 (otherRuns s ctx)
  match nthPlace ((freeWord s).toNat % (places.map (fun p => p.2)).sum) places with
  | some b => useFree (setGranList s ctx { base := b, entries := more })
  | none =>
    let s := setGranList s ctx { l with entries := more }
    useFree { s with mp := { s.mp with lists := packLists 0 s.mp.lists } }

/-- Give a FREE granule to a list index: a hole, or the end of the list. -/
def assignGranule (s : State) (ctx i g : Nat) (mirrored : Bool) : State :=
  let l := granList s ctx
  let s := setGran s g { gran s g with st := .owned, ctx := ctx, mirrored := mirrored, listIndex := i }
  if i < l.entries.length then setGranList s ctx { l with entries := l.entries.set i (some g) } else growList s ctx g

def doGranuleAssign (s : State) (ctx : Nat) (index stack : Option Nat) (mirrored : Bool) : Done :=
  let i := assignIndex s ctx index
  let len := (granList s ctx).entries.length
  let k := stack.getD (bestStack s)
  let g := lowestFree s k
  guardAll s
    [(ctxMissing s ctx, .notFound), (ctxFrozen s ctx, .frozen),
     (decide (mgt < ctx) || decide (len < i) || (listAt s ctx i).isSome || decide (8 ≤ k), .badArg),
     (g.isNone || decide (granLimit s ctx ≤ granHeld s ctx) || decide (131072 ≤ i) ||
       (i == len && decide (131072 ≤ listUsed s)), .noSpace)]
    (let n := g.getD 0
     let s := assignGranule s ctx i n mirrored
     let s := if mirrored && enrolledCtx s ctx then journalObject (journalMap s n true false) ctx 7 0 else s
     (s, some { status := if mirrored && s.sm.mode != .inSync then .unprotected else .ok
                results := [(4, i), (4, n)] }))

/-- GRANULE_ASSIGN. -/
def cmdGranuleAssign (src ctx : Nat) (index stack : Option Nat) (mirrored : Bool) (s : State) : Ans :=
  .next (takeUp s src 0x08 none
    (fun s => doGranuleAssign s ctx index stack mirrored))

def doGranuleRelease (s : State) (ctx i : Nat) : Done :=
  let g := (listAt s ctx i).getD 0
  guardAll s
    [(ctxMissing s ctx || (listAt s ctx i).isNone, .notFound), (ctxFrozen s ctx, .frozen),
     (decide (0 < (gran s g).refs) || decide (0 < (gran s g).grants), .busy)]
    (done (journalObject (releaseGranule s ctx i g) (if (gran s g).mirrored then ctx else mgt) 7 0))

/-- GRANULE_RELEASE. -/
def cmdGranuleRelease (src ctx i : Nat) (s : State) : Ans :=
  .next (takeUp s src 0x09 none (fun s => doGranuleRelease s ctx i))

def doGranuleMirror (s : State) (ctx i : Nat) (on : Bool) : Done :=
  let g := (listAt s ctx i).getD 0
  guardAll s [(ctxMissing s ctx || (listAt s ctx i).isNone, .notFound), (ctxFrozen s ctx, .frozen)]
    (let was := (gran s g).mirrored
     let s := if was && !on && enrolledCtx s ctx then journalMap s g false false else s
     let s := setGran s g { gran s g with mirrored := on }
     let s := if on && !was then journalCopy s g else s
     (s, some { status := if on && s.sm.mode != .inSync then .unprotected else .ok }))

/-- GRANULE_MIRROR (R125). -/
def cmdGranuleMirror (src ctx i : Nat) (on : Bool) (s : State) : Ans :=
  .next (takeUp s src 0x0A none (fun s => doGranuleMirror s ctx i on))

def doGranuleRetire (s : State) (g : Nat) : Done :=
  let e := gran s g
  guardAll s [(e.st == .retired, .notFound), (decide (131072 ≤ g), .badArg), (e.st == .owned, .busy)]
    (done (setGran s g (if e.st = .scrub then { e with retire := true } else { e with st := .retired })))

/-- GRANULE_RETIRE: now when FREE, at the end of its scrub when in SCRUB (Table 04-5). -/
def cmdGranuleRetire (src g : Nat) (s : State) : Ans :=
  .next (takeUp s src 0x0B none (fun s => doGranuleRetire s g))

def doGranuleLimit (s : State) (tid limit : Nat) : Done :=
  guardAll s [(ctxMissing s tid, .notFound), (ctxFrozen s tid, .frozen),
      (decide (mgt ≤ tid) || decide (131072 < limit), .badArg)]
    (done (journalObject (setTenant s tid { tenant s tid with granules := limit }) tid 1 tid))

/-- GRANULE_LIMIT: a limit below the present count evicts nothing. -/
def cmdGranuleLimit (src tid limit : Nat) (s : State) : Ans :=
  .next (takeUp s src 0x0C none (fun s => doGranuleLimit s tid limit))

def doGrant (s : State) (owner i grantee : Nat) (write : Bool) : Done :=
  let g := (listAt s owner i).getD 0
  let n := oneOf s 0 (Tab.freeKeys s.mp.grants 0 4096)
  guardAll s
    [(ctxMissing s owner || ctxMissing s grantee || (listAt s owner i).isNone, .notFound),
     (ctxFrozen s owner || ctxFrozen s grantee, .frozen),
     (decide (mgt < owner) || decide (mgt ≤ grantee) || grantee == owner || (tenant s grantee).st == .quiesced, .badArg),
     (n.isNone || decide (255 ≤ (gran s g).grants), .noSpace)]
    (let n := n.getD 0
     let s := { s with mp := { s.mp with
       grants := Tab.put s.mp.grants n { write := write, granule := g, grantee := grantee, owner := owner } } }
     let s := setGran s g { gran s g with grants := (gran s g).grants + 1 }
     (useFree s, some { status := .ok, results := [(2, n)] }))

/-- GRANT: an entry not in use names the granule for the grantee (R107, R108). -/
def cmdGrant (src owner i grantee : Nat) (write : Bool) (s : State) : Ans :=
  .next (takeUp s src 0x0D none (fun s => doGrant s owner i grantee write))

/-- VALID of a grant is cleared and the granule's GRANTS falls. -/
def revokeGrant (s : State) (n : Nat) : State :=
  match Tab.find s.mp.grants n with
  | none => s
  | some gr =>
    let s := { s with mp := { s.mp with grants := Tab.del s.mp.grants n } }
    setGran s gr.granule { gran s gr.granule with grants := (gran s gr.granule).grants - 1 }

def doGrantRevoke (s : State) (n : Nat) : Done :=
  match Tab.find s.mp.grants n with
  | none => refuse s .notFound
  | some _ => done (revokeGrant s n)

/-- GRANT_REVOKE (R108): it names no tenant, so that no tenant's state refuses it (R109). -/
def cmdGrantRevoke (src n : Nat) (s : State) : Ans :=
  .next (takeUp s src 0x0E none (fun s => doGrantRevoke s n))

def doKeySet (s : State) (slot : Nat) (key : BitVec 512) : Done :=
  guardAll s
    [(ctxMissing s slot, .notFound), (ctxFrozen s slot, .frozen),
     (decide (mgt < slot) || (BitVec.extractLsb' 0 256 key == BitVec.extractLsb' 256 256 key), .badArg),
     (decide (0 < granHeld s slot) || s.mp.grants.any (fun e => e.2.owner == slot), .busy)]
    (done { s with mp := { s.mp with keys := Tab.put s.mp.keys slot key } })

/-- KEY_SET (R115). Slot n names tenant n (R109). -/
def cmdKeySet (src slot : Nat) (key : BitVec 512) (s : State) : Ans :=
  .next (takeUp s src 0x0F none (fun s => doKeySet s slot key))

/-- A tenant's slot is filled at TENANT_CREATE (R115). -/
def fillKey (s : State) (slot : Nat) : State :=
  { s with freeCtr := s.freeCtr + 8, mp := { s.mp with keys := Tab.put s.mp.keys slot (Config.drawKey s.freeCtr) } }

/-! Registers (Tables 04-4, 04-13) -/

def granCode : GranState → Nat
  | .free => 0
  | .owned => 1
  | .scrub => 2
  | .retired => 3

/-- MP_GOT_DATA: bits [55:0] of an ownership entry. MGT, OWNER and LIST_INDEX are given while OWNED. -/
def gotWord (e : Granule) : Nat :=
  granCode e.st + 2 ^ 12 * b2n e.mirrored + 2 ^ 13 * b2n e.poisoned + 2 ^ 31 * e.refs + 2 ^ 39 * e.grants +
    2 ^ 47 * e.ceCount +
    (if e.st = .owned then 2 ^ 14 * e.listIndex + (if e.ctx = mgt then 8 else 16 * e.ctx) else 0)

/-- MP_KEY_STATUS word i. -/
def keyStatus (s : State) (i : Nat) : Nat :=
  ((upto 0 64).map (fun b => if (Tab.find s.mp.keys (64 * i + b)).isSome then 2 ^ b else 0)).sum

/-- The read-only MP_ and MC_ registers that are computed; none for the others. -/
def readPool (s : State) (off : Nat) : Option Nat :=
  if off = 0x500000 then
    some (granCount s .free + 2 ^ 18 * granCount s .scrub + 2 ^ 36 * granCount s .retired)
  else if off = 0x500008 then some (131072 - listUsed s + 2 ^ 18 * listHoles s)
  else if off = 0x500018 then some (gotWord (gran s (regNat s Reg.mpGotSel)))
  else if 0x500020 ≤ off ∧ off < 0x500048 then some (keyStatus s ((off - 0x500020) / 8))
  else if 0x500100 ≤ off ∧ off < 0x500100 + 0x10 * 257 then
    let t := (off - 0x500100) / 0x10
    if off % 16 = 0 then
      some (granHeld s t + 2 ^ 18 * (if t = mgt then 131072 else (tenant s t).granules) +
        2 ^ 36 * (granList s t).entries.length)
    else some (granList s t).base
  else if 0x480000 ≤ off ∧ off < 0x480800 ∧ off % 0x100 = 0 then
    let x := stk s ((off - 0x480000) / 0x100)
    some (b2n x.trained + 2 * b2n x.hot + 4 * (x.temp % 256) + 2 ^ 10 * (x.repaired % 64))
  else none

end Sys2Proof.Machine
end

