-- ==== Sys2Proof/Machine/Queues.lean ====
section
/-! DEFINITION. Bobbin (chapter 06): room and the division of the free cells, modes, linking and unlinking, flush, send
openings, queue reset and sweeps, the queue commands, and the images of a descriptor. -/

namespace Sys2Proof.Machine

/-- A connection in use. -/
def connLive (c : Conn) : Bool := c.st != .free && c.st != .closed

/-- Credit granted by a connection and not yet used (R173, R220), in cells. -/
def connCredit (c : Conn) : Nat := if connLive c then (c.rxLimit - c.rxCount).toNat else 0

/-- Cells that Bobbin holds against a queue for credit, of the owner's connections, of the sender's (R173). -/
def creditHeld (s : State) (q : Nat) (x : Queue) (own : Bool) : Nat :=
  Tab.sum (fun _ c => if c.rxQ = q ∧ (c.ctx == x.ctx) = own then connCredit c else 0) s.wt.conns

/-- Cells that hold messages for retransmission, of a context (R233). -/
def txCells (s : State) (ctx : Nat) : Nat :=
  Tab.sum (fun _ c => if c.ctx = ctx then (c.txMsgs.map (fun m => m.cells.length)).sum else 0) s.wt.conns

/-- Cells of a context that count against its quota (R164, R169, R173): its items wherever they are held, the credit that its queues
hold, cells not yet freed, its messages kept for retransmission. The management queue counts to no quota. -/
def ctxCells (s : State) (ctx : Nat) : Nat :=
  Tab.sum (fun q x => if x.ctx = ctx ∧ q ≠ mgtQueue then
    qCells x + creditHeld s q x true + looseCells x true x.draining + looseCells x true x.stale else 0) s.qm.queues +
    txCells s ctx

/-- Send set-asides charged to a context's quota. -/
def ctxAside (s : State) (ctx : Nat) : Nat := Tab.sum (fun _ x => if x.ctx = ctx then x.sendLimit else 0) s.qm.queues

/-! The free list (R156, R182; log entry 9) -/

/-- Cells on the free list's chain: those never taken, but for the unnamed ones of the 4 that are kept for notices, and those freed. -/
def chainCells (s : State) : Nat :=
  262144 - s.qm.taken.length - (s.qm.kept.filter Option.isNone).length + s.qm.freed.length

/-- Landing cells of a connection: WRITE and REDUCE packets that wait for their target (R221). -/
def landing (c : Conn) : Nat :=
  (c.rxPkts.map (fun p =>
    match c.rxMsgs.find? (fun m => m.num == p.msg && m.kind != 1) with
    | some m => if p.delivered then 0 else cellsOf (Tab.get [] m.parts p.off).length
    | none => 0)).sum

/-- FREE: cells on the free list that no credit and no landing packet holds (R170, Table 06-10). -/
def freeCells (s : State) : Nat :=
  chainCells s - Tab.sum (fun _ c => if connLive c then connCredit c + landing c else 0) s.wt.conns

/-- The k-th number from a on that a rising list does not hold. -/
def nthUnused : Nat → Nat → List Nat → Nat
  | k, a, [] => a + k
  | k, a, c :: t => if k < c - a then a + k else nthUnused (k - (c - a)) (c + 1) t

/-- A cell joins the cells ever taken, in order. -/
def insertCell (c : Nat) : List Nat → List Nat
  | [] => [c]
  | d :: t => if c ≤ d then c :: d :: t else d :: insertCell c t

/-- A cell that was never taken before: which one the chain gives is open (log entry 9). -/
def freshCell (s : State) : Nat × State :=
  let c := nthUnused ((freeWord s).toNat % (262144 - s.qm.taken.length)) 0 s.qm.taken
  (c, useFree { s with qm := { s.qm with taken := insertCell c s.qm.taken } })

/-- The cell at the head of the free list: freed cells join its tail behind those never taken. -/
def takeCell (s : State) : Nat × State :=
  if s.qm.taken.length + (s.qm.kept.filter Option.isNone).length < 262144 then freshCell s
  else
    match s.qm.freed with
    | c :: t => (c, { s with qm := { s.qm with freed := t } })
    | [] => freshCell s

/-- n cells from the free list, in order. -/
def takeCells : Nat → State → List Nat × State
  | 0, s => ([], s)
  | n + 1, s =>
    let (c, s) := takeCell s
    let (l, s) := takeCells n s
    (c :: l, s)

/-- One of the kept cells is taken for a notice (R182). -/
def takeKept (s : State) : Option (Nat × State) :=
  match s.qm.kept with
  | [] => none
  | k :: t =>
    let (c, s) := match k with
      | some c => (c, s)
      | none => freshCell s
    some (c, { s with qm := { s.qm with kept := t, keptOut := c :: s.qm.keptOut } })

/-- Weft set-aside of one logical port by arrangement (Table 06-6). -/
def portAside (a : Nat) : Nat := if a = 0 then 3907 else if a = 1 then 1954 else if a = 2 then 977 else 489

/-- What a connection holds of its port's set-aside: credit granted, the pieces of SEND messages until they have arrived (R173), and the
landing cells. -/
def connHeld (c : Conn) : Nat :=
  if connLive c then
    connCredit c + landing c + (c.rxMsgs.map (fun m =>
      if m.kind = 1 ∧ Tab.sum (fun _ b => b.length) m.parts < m.len then Tab.sum (fun _ b => cellsOf b.length) m.parts else 0)).sum
  else 0

/-- The set-aside held on a logical Ethernet port. -/
def portHeld (s : State) (p : Nat) : Nat := Tab.sum (fun _ c => if c.port = p then connHeld c else 0) s.wt.conns

def weftAside (s : State) : Nat := if s.et.applied then etPorts s.et.arrangement * portAside s.et.arrangement else 0

/-- Unheld Weft set-asides. -/
def unheldWeft (s : State) : Nat :=
  if s.et.applied then
    ((upto 0 (etPorts s.et.arrangement)).map (fun p => portAside s.et.arrangement - portHeld s p)).sum else 0

/-- Unused send set-asides. -/
def unusedSend (s : State) : Nat :=
  Tab.sum (fun q x => x.sendLimit - sendCells x - creditHeld s q x false - looseCells x false x.stale) s.qm.queues

/-- shared_free of R170; below zero while SC0 and the management context are in the reserve. -/
def sharedFree (s : State) : Int := (freeCells s : Int) - 4096 - unusedSend s - unheldWeft s

def cellQuota (s : State) (ctx : Nat) : Nat := Tab.get 4096 s.qm.cellQuota ctx

def queueQuota (s : State) (ctx : Nat) : Nat := Tab.get 64 s.qm.queueQuota ctx

/-- Queues that a context holds; the management queue is left out (R159). -/
def ctxQueues (s : State) (ctx : Nat) : Nat := Tab.count (fun q x => x.ctx == ctx && q != mgtQueue) s.qm.queues

/-- Allocation is stopped for a free-list rebuild (R178). -/
def allocStop (s : State) : Bool := s.qm.sweeps.any Option.isNone

/-- n cells fit within a context's cell quota, f of its cells having been freed (R164, R169). -/
def withinQuota (s : State) (ctx n f : Nat) : Bool := decide (ctxCells s ctx + ctxAside s ctx + n ≤ cellQuota s ctx + f)

/-- The free cells that a context may take at a class number at least n, f having been freed (R164 condition 3, R170). -/
def poolRoom (s : State) (ctx sc n f : Nat) : Bool :=
  if ctx = mgt ∨ sc = 0 then decide (n ≤ freeCells s + f) else decide ((n : Int) ≤ sharedFree s + f)

/-- Conditions 2 and 3 of R164 for n cells of a context at a class, f cells having been freed for it. -/
def quotaRoom (s : State) (ctx sc n f : Nat) : Bool := withinQuota s ctx n f && poolRoom s ctx sc n f

/-- An owner-side item of n cells has room once f cells of the queue are freed (R164). -/
def ownRoom (s : State) (q : Nat) (x : Queue) (sc n f : Nat) : Bool :=
  decide (qCells x + creditHeld s q x true + n + x.sendLimit ≤ x.limit + f) &&
    (if q = mgtQueue then decide (n ≤ freeCells s + f) else quotaRoom s x.ctx sc n f)

/-- An item of OPEN_TID has room: nothing else is checked. -/
def sendRoom (s : State) (q : Nat) (x : Queue) (n : Nat) : Bool := decide (sendCells x + creditHeld s q x false + n ≤ x.sendLimit)

/-- Owner-side items in the order in which OVERWRITE discards them: lowest priority first, oldest first (R165). -/
def discardOrder (x : Queue) : List Item :=
  (upto 0 8).flatMap (fun p => x.items.filter (fun i => ownItem x i && i.prio == p))

/-- The shortest prefix of the candidates whose discard makes room. -/
def discardFor (room : Nat → Bool) : List Item → Nat → List Item → Option (List Item)
  | [], f, acc => if room f then some acc else none
  | i :: t, f, acc =>
    if room f then some acc else discardFor room t (f + cellsOf i.bytes.length) (acc ++ [i])

/-- The items that a push of n cells discards under the queue's mode: none where the push has no room (R165). -/
def discards (s : State) (q : Nat) (x : Queue) (tag : BitVec 11) (prio n : Nat) : Option (List Item) :=
  if allocStop s ∨ x.blocked then none
  else if tagCtx tag ≠ x.ctx then (if sendRoom s q x n then some [] else none)
  else
    let cand := match x.mode with
      | .hold => []
      | .overwrite => discardOrder x
      | .shed => (discardOrder x).filter (fun i => decide (i.prio < prio))
    discardFor (ownRoom s q x (tagSc tag) n) cand 0 []

/-- The producer may push: the owner, or OPEN_TID while the opening is in force; no tenant reaches the management queue
(R159, R161). A destroyed queue is as one that does not exist (R174). -/
def mayPush (x : Queue) (ctx : Nat) : Bool :=
  !x.destroyed && (ctx == x.ctx || (x.openTid == some ctx && !x.closing))

/-- A refusal for access is counted in QM_ACCESS and raised, at most 64 a tick for a tenant (R161). -/
def qmRefuse (s : State) (q : Nat) (tag : BitVec 11) : State :=
  raiseLimited (count s Reg.qmAccess) Src.qmAccess (tagCtx tag) { tag := some tag, object := 3, index := q }

/-- The lowest free-cell count seen (QM_RSV_LOW). -/
def noteLow (s : State) : State :=
  if freeCells s < regNat s Reg.qmRsvLow then regSet s Reg.qmRsvLow (BitVec.ofNat 64 (freeCells s)) else s

def cap32 (n : Nat) : Nat := min n 4294967295

/-- A record without a body about a mirrored queue; the class in its tag is a DESIGN CHOICE (log entry 73). -/
def journalQueue (s : State) (x : Queue) (kind target aux : Nat) : State :=
  if x.mirrored && enrolledCtx s x.ctx then
    journalAdd s kind (mkTag x.ctx 1) (BitVec.ofNat 64 target) (BitVec.ofNat 64 aux) [] false false
  else s

/-- The QUEUE_LINK records of an item: AUX has the item's length, and an item of more than 4,096 bytes takes further records, a
piece in each (Table 12-6; DEDUCED, log entry 80). -/
def linkRecords (q prio len : Nat) (tag : BitVec 11) (poison resync : Bool) : Nat → Bytes → State → State
  | 0, _, s => s
  | n + 1, b, s =>
    linkRecords q prio len tag poison resync n (b.drop 4096)
      (journalAdd s 4 tag (BitVec.ofNat 64 (q + 2 ^ 14 * prio)) (BitVec.ofNat 64 len) (b.take 4096) poison resync)

/-- The records of an item of a queue; the class in the tag is a DESIGN CHOICE (log entry 73). -/
def journalLink (s : State) (q ctx prio : Nat) (b : Bytes) (poison resync : Bool) : State :=
  linkRecords q prio b.length (mkTag ctx 1) poison resync (cdiv b.length 4096) b s

/-- A mirrored queue's n records find room in the journal, among them those of an item of len bytes (R329). -/
def queueRoom (s : State) (x : Queue) (n len : Nat) : Bool :=
  !(x.mirrored && enrolledCtx s x.ctx) || journalRoom s (n + (len - 1) / 4096) len

/-- Take one item out of a list. -/
def dropItem (l : List Item) (i : Item) : List Item := l.erase i

/-- An item leaves its queue, and its cells return: popped 0, discarded by QPOP 1, displaced 2 (Table 12-6). -/
def unlinkItem (s : State) (q : Nat) (x : Queue) (i : Item) (how : Nat) : State :=
  let x := settleOpening { x with items := dropItem x.items i }
  journalQueue (giveCells (setQueue s q x) i.cells) x 5 (q + 2 ^ 14 * i.prio) how

/-- One displaced item: DISPLACED and QM_DISPLACED (R166). -/
def displaceItem (q : Nat) (s : State) (i : Item) : State :=
  match queue? s q with
  | none => s
  | some x => count (unlinkItem s q { x with displaced := cap32 (x.displaced + 1) } i 2) Reg.qmDisplaced

/-- Link an item into its sublist (R160): the ordering point. -/
def linkCells (s : State) (q prio : Nat) (tag : BitVec 11) (b : Bytes) (poison : Bool) (cells : List Nat) : State :=
  match queue? s q with
  | none => s
  | some x =>
    let i : Item := { bytes := b, prio := prio, poison := poison, tag := tag, cells := cells }
    let s := setQueue s q (settleOpening { x with items := x.items ++ [i] })
    noteLow (if x.mirrored && enrolledCtx s x.ctx then journalLink s q x.ctx prio b poison false else s)

/-- Link an item whose cells are taken as it links. -/
def linkItem (s : State) (q prio : Nat) (tag : BitVec 11) (b : Bytes) (poison : Bool) : State :=
  let r := takeCells (cellsOf b.length) s
  linkCells r.2 q prio tag b poison r.1

/-! Items in progress (R164, R174, R175) -/

/-- n further cells are taken for an item in progress, which begins with its first. -/
def holdCells (s : State) (q key : Nat) (tag : BitVec 11) (n : Nat) : State :=
  match queue? s q with
  | none => s
  | some x =>
    let r := takeCells n s
    let g := (Tab.find x.prog key).getD { tag := tag, cells := [] }
    noteLow (setQueue r.2 q { x with prog := Tab.put x.prog key { g with cells := g.cells ++ r.1 } })

/-- The EOI cell is written: the item links, or is discarded where a flush or a reset of the queue has come since it began. The answer
says whether it linked. -/
def finishProg (s : State) (q key prio : Nat) (b : Bytes) (poison : Bool) : Bool × State :=
  match queue? s q with
  | none => (false, s)
  | some x =>
    match Tab.find x.prog key with
    | none => (false, s)
    | some g =>
      match g.fate with
      | .link => (true, linkCells (setQueue s q { x with prog := Tab.del x.prog key }) q prio g.tag b poison g.cells)
      | .flushed =>
        (false, count (dropProg (setQueue s q { x with flushed := cap32 (x.flushed + 1) }) q key) Reg.qmFlushed)
      | .lost => (false, dropProg s q key)

/-- An item refused and lost by its producer: REFUSED and QM_REFUSED (Table 06-4). -/
def refuseItem (s : State) (q : Nat) : State :=
  match queue? s q with
  | none => s
  | some x => count (setQueue s q { x with refused := cap32 (x.refused + 1) }) Reg.qmRefused

/-- What a push comes to. -/
inductive Push where
  /-- Linked; whether at least one item was displaced for it. -/
  | linked (displaced : Bool)
  | full
  | access
  /-- The journal has no room for the records: the producer waits at its request point (R329). -/
  | wait
  deriving DecidableEq, Repr

/-- One item pushed as one step: access, room, discards and link (R161 to R166). The link raises the QUEUE event. -/
def pushBy (s : State) (q prio : Nat) (tag : BitVec 11) (b : Bytes) (link : State → State) : Push × State :=
  match queue? s q with
  | none => (.access, qmRefuse s q tag)
  | some x =>
    if !mayPush x (tagCtx tag) then (.access, qmRefuse s q tag)
    else
      match discards s q x tag prio (cellsOf b.length) with
      | none => (.full, s)
      | some l =>
        if !queueRoom s x (l.length + 1) b.length then (.wait, journalWait s)
        else
          (.linked !l.isEmpty, raiseEvent (link (l.foldl (displaceItem q) s)) .queue q 0 none)

/-- A push whose cells are taken from the free list. -/
def push (s : State) (q prio : Nat) (tag : BitVec 11) (b : Bytes) (poison : Bool) : Push × State :=
  pushBy s q prio tag b (fun s => linkItem s q prio tag b poison)

/-- A push of an item whose cells pass to the queue, having come back to the free list (R230). -/
def pushCells (s : State) (q prio : Nat) (tag : BitVec 11) (b : Bytes) (poison : Bool) (cells : List Nat) : Push × State :=
  pushBy s q prio tag b (fun s =>
    if cells.length = cellsOf b.length then
      linkCells { s with qm := { s.qm with freed := s.qm.freed.filter (fun c => !cells.contains c) } } q prio tag b poison cells
    else linkItem s q prio tag b poison)

/-- A push of the device's own to the management queue; a refused item is counted in REFUSED. In safe state Bobbin takes no new
work (R361). -/
def pushMgt (s : State) (prio : Nat) (b : Bytes) : Bool × State :=
  if s.th.safe then (false, refuseItem s mgtQueue)
  else match push s mgtQueue prio (mkTag mgt 1) b false with
  | (.linked _, s) => (true, s)
  | (_, s) => (false, refuseItem s mgtQueue)

/-- A queue-reset notice: the kept cells serve it when the pool is exhausted or allocation has stopped (R178, R182). -/
def pushNotice (s : State) (b : Bytes) : State :=
  match queue? s mgtQueue with
  | none => s
  | some x =>
    if allocStop s ∨ freeCells s = 0 then
      if qCells x + creditHeld s mgtQueue x true + 1 ≤ x.limit then
        match takeKept s with
        | some (c, s) => raiseEvent (linkCells s mgtQueue 7 (mkTag mgt 1) b false [c]) .queue mgtQueue 0 none
        | none => refuseItem s mgtQueue
      else refuseItem s mgtQueue
    else (pushMgt s 7 b).2

/-- The head item: the oldest of the highest priority present (R54, R160). -/
def headItem (x : Queue) : Option Item :=
  (upto 0 8).foldl (fun r p =>
    match x.items.find? (fun i => i.prio == p) with
    | some i => some i
    | none => r) none

/-! Queue reset, sweeps and ECC (R177 to R179) -/

/-- Cells of linked items as loose cells. -/
def looseItems (x : Queue) : List Loose := x.items.map (fun i => { tag := i.tag, gen := x.gen, cells := i.cells })

/-- A queue as its reset leaves it: nothing linked or held, GEN advanced, every cell left to the sweep; an item in progress is
lost (R178, R179). -/
def emptied (x : Queue) : Queue :=
  settleOpening { x with
    items := []
    prog := Tab.mapAll (fun _ g => { g with cells := [], fate := .lost }) x.prog
    stale := x.stale ++ looseItems x ++ x.prog.map (fun e => { tag := e.2.tag, gen := x.gen, cells := e.2.cells })
    gen := (x.gen + 1) % 4
    resetLost := cap32 (x.resetLost + x.items.length) }

/-- A queue is reset: emptied, its cells left to the sweep, GEN advanced, the loss counted and reported (R178). -/
def resetQueue (s : State) (q : Nat) : State :=
  match queue? s q with
  | none => s
  | some x =>
    let n := x.items.length
    let s := countN (setQueue s q (emptied x)) Reg.qmResetLost n
    let s := journalQueue s x 6 q 1
    let s := pushNotice s (toLe 8 (q + 2 ^ 32 * (n % 2 ^ 32)) ++ toLe 8 (timeNs s))
    let s := raiseSrc s Src.qmPtrMismatch { tag := some (mkTag x.ctx 1), object := 3, index := q }
    { s with qm := { s.qm with sweeps := s.qm.sweeps ++ [some q] } }

/-- A mismatch on a queue: reset at once, or refused pushes until the sweep that runs for it ends (R179). A sweep that still waits for
another is not running. -/
def mismatch (s : State) (q : Nat) : State :=
  match queue? s q with
  | none => s
  | some x => if s.qm.sweeps.head? = some (some q) then setQueue s q { x with blocked := true } else resetQueue s q

/-- A word of the head item's cells cannot be corrected: the item is poisoned (R177). -/
def poisonHead (x : Queue) : Queue :=
  match headItem x with
  | none => x
  | some i => { x with items := x.items.map (fun j => if j = i then { j with poison := true } else j) }

/-- Bobbin's own checks during a step that uses a queue (R177, R178). -/
def qmChecked (s : State) (q : Nat) (chk : QmCheck) : State :=
  match queue? s q with
  | none => s
  | some x =>
    let r : Raise := { tag := some (mkTag x.ctx 1), object := 3, index := q }
    match chk with
    | .ok => s
    | .ptrMismatch => mismatch s q
    | .freeMismatch =>
      raiseSrc { s with qm := { s.qm with sweeps := s.qm.sweeps ++ [none] } } Src.qmFreeMismatch {}
    | .linkCe => raiseSrc s Src.qmLinkCe r
    | .cellCe => raiseSrc s Src.qmCellCe r
    | .cellUe => raiseSrc (setQueue s q (poisonHead x)) Src.qmCellUe r

/-- SWEEP_END: stale cells return, allocation resumes; a queue with a second mismatch is reset and swept again (R179). -/
def execSweepEnd (s : State) : Ans :=
  match s.qm.sweeps with
  | [] => idle s
  | none :: t => .next { s with qm := { s.qm with sweeps := t } }
  | some q :: t =>
    let s := { s with qm := { s.qm with sweeps := t } }
    match queue? s q with
    | none => .next s
    | some x =>
      let s := setQueue s q (settleOpening { x with stale := x.stale.filter (fun g => g.gen == x.gen), blocked := false })
      let s := giveCells s ((x.stale.filter (fun g => g.gen != x.gen)).flatMap (fun g => g.cells))
      .next (if x.blocked then resetQueue s q else s)

/-! Flush (R174 to R176) -/

/-- The flush of a queue takes effect: every linked item is discarded, items in progress are marked. -/
def flushQueue (s : State) (q : Nat) : State :=
  match queue? s q with
  | none => s
  | some x =>
    let n := x.items.length
    let y := settleOpening { x with
      items := [], flushReq := false, destroyed := x.destroyed || x.destroyReq
      prog := Tab.mapAll (fun _ g => if g.fate = .link then { g with fate := .flushed } else g) x.prog
      draining := x.draining ++ looseItems x
      flushed := cap32 (x.flushed + n) }
    journalQueue (countN (setQueue s q y) Reg.qmFlushed n) x 6 q 0

/-- FLUSH: a requested flush reaches the queue's packet boundary. In safe state it stops where it stands (R361). -/
def execFlush (q : Nat) (s : State) : Ans :=
  match queue? s q with
  | none => idle s
  | some x => if x.flushReq ∧ !s.th.safe then .next (flushQueue s q) else idle s

/-- LAST_CELL_FREED: the cells of a flushed queue are free; a destroyed queue's handle becomes free (R174). -/
def execLastCellFreed (q : Nat) (s : State) : Ans :=
  match queue? s q with
  | none => idle s
  | some x =>
    let s' := giveCells (setQueue s q { x with draining := [] }) (x.draining.flatMap (fun g => g.cells))
    if s.th.safe then idle s
    else if x.destroyed ∧ x.items = [] ∧ x.prog = [] ∧ x.stale = [] ∧ creditHeld s q x true = 0 ∧ creditHeld s q x false = 0 then
      .next { s' with qm := { s'.qm with queues := Tab.del s'.qm.queues q } }
    else if x.draining ≠ [] then .next s' else idle s

/-- Ask for the flush of a queue; with destroy, the queue accepts no new item from the boundary. -/
def requestFlush (s : State) (q : Nat) (destroy : Bool) : State :=
  match queue? s q with
  | none => s
  | some x => setQueue s q { x with flushReq := true, destroyReq := x.destroyReq || destroy }

/-- OPENING_CLOSE: OPEN clears at the packet boundary (R168). -/
def execOpeningClose (q : Nat) (s : State) : Ans :=
  match queue? s q with
  | none => idle s
  | some x =>
    if x.closeReq then .next (setQueue s q (settleOpening { x with closeReq := false, closing := true })) else idle s

/-! The queue commands (Table 06-8) -/

def qmodeOf : Nat → Option QMode
  | 0 => some .hold
  | 1 => some .overwrite
  | 2 => some .shed
  | _ => none

def qmodeCode : QMode → Nat
  | .hold => 0
  | .overwrite => 1
  | .shed => 2

def limitOk (limit : Nat) : Bool := decide (64 ≤ limit) && decide (limit ≤ 262143)

def doQueueCreate (s : State) (ctx mode limit : Nat) (mirrored : Bool) : Done :=
  let q := lowestInHalf s s.qm.queues 8192 16383
  guardAll s
    [(ctxMissing s ctx, .notFound), (ctxFrozen s ctx, .frozen),
     (decide (mgt < ctx) || (qmodeOf mode).isNone || !limitOk limit, .badArg),
     (q.isNone || decide (queueQuota s ctx ≤ ctxQueues s ctx), .noSpace)]
    (let q := q.getD 0
     let s := setQueue s q { ctx := ctx, mode := (qmodeOf mode).getD .hold, limit := limit, mirrored := mirrored }
     let s := if mirrored then journalObject s ctx 2 q else s
     (s, some { status := if mirrored && s.sm.mode != .inSync then .unprotected else .ok, results := [(2, q)] }))

/-- QUEUE_CREATE: the lowest free handle. -/
def cmdQueueCreate (src ctx mode limit : Nat) (mirrored : Bool) (s : State) : Ans :=
  .next (takeUp s src 0x14 none (fun s => doQueueCreate s ctx mode limit mirrored))

/-- A queue command: the handle must name a queue whose owner is neither gone nor frozen. -/
def withQueue (s : State) (q : Nat) (more : Queue → List (Bool × Status)) (body : Queue → Done) : Done :=
  match queue? s q with
  | none => refuse s .notFound
  | some x =>
    guardAll s ([(ctxMissing s x.ctx || x.destroyed || x.destroyReq, .notFound), (ctxFrozen s x.ctx, .frozen)] ++ more x)
      (body x)

/-- A queue that QUEUE_DESTROY finds in use (Table 06-8): a binding source, a reduce CQ, a channel's CQ, a Weft receive
queue or a fault queue. -/
def queueInUse (s : State) (q : Nat) : Bool :=
  (bindingOf s .queue q).isSome || s.ru.windows.any (fun e => e.2.cq == q) ||
    s.sh.chans.any (fun e => e.2.st != .free && e.2.cq == q) ||
    s.wt.conns.any (fun e => e.2.st != .free && e.2.st != .closed && e.2.rxQ == q) ||
    s.wt.listeners.any (fun e => e.2.rxQ == q) || s.ne.insts.any (fun e => e.2.faultQueue == q)

def doQueueDestroy (s : State) (q : Nat) : Done :=
  withQueue s q (fun _ => [(q == mgtQueue, .denied), (queueInUse s q, .busy)])
    (fun x => done (journalObject (requestFlush s q true) (if x.mirrored then x.ctx else mgt) 2 q))

/-- QUEUE_DESTROY. -/
def cmdQueueDestroy (src q : Nat) (s : State) : Ans :=
  .next (takeUp s src 0x15 none (fun s => doQueueDestroy s q))

def doQueueFlush (s : State) (q : Nat) : Done := withQueue s q (fun _ => []) (fun _ => done (requestFlush s q false))

/-- QUEUE_FLUSH. -/
def cmdQueueFlush (src q : Nat) (s : State) : Ans :=
  .next (takeUp s src 0x16 none (fun s => doQueueFlush s q))

/-- A set-up change waits for the next scheduling epoch (R171). -/
def atEpoch (s : State) (c : EpochChange) : State := { s with epochs := s.epochs ++ [c] }

def doQueueSet (s : State) (q mode limit : Nat) : Done :=
  withQueue s q (fun x =>
      [((qmodeOf mode).isNone || !limitOk limit || (decide (0 < x.sendLimit) && decide (limit < x.sendLimit + 64)), .badArg),
       (q == mgtQueue, .denied)])
    (fun _ => done (atEpoch s (.queueSet q ((qmodeOf mode).getD .hold) limit)))

/-- QUEUE_SET: at the next scheduling epoch. -/
def cmdQueueSet (src q mode limit : Nat) (s : State) : Ans :=
  .next (takeUp s src 0x17 none (fun s => doQueueSet s q mode limit))

def doQueueOpen (s : State) (q sender lim : Nat) : Done :=
  match queue? s q with
  | none => refuse s .notFound
  | some x =>
    guardAll s
      [(ctxMissing s x.ctx || x.destroyed || x.destroyReq || ctxMissing s sender, .notFound),
       (ctxFrozen s x.ctx || ctxFrozen s sender, .frozen),
       (decide (mgt ≤ sender) || sender == x.ctx || (tenant s sender).st == .quiesced || decide (lim < 64) ||
         decide (x.limit < lim + 64), .badArg),
       (q == mgtQueue, .denied),
       (!withinQuota s x.ctx lim 0 || decide (sharedFree s < lim), .noSpace),
       (x.openTid.isSome, .busy)]
      (let s := setQueue s q { x with openTid := some sender, sendLimit := lim }
       done (journalObject s (if x.mirrored then x.ctx else mgt) 2 q))

/-- QUEUE_OPEN (R167). -/
def cmdQueueOpen (src q sender lim : Nat) (s : State) : Ans :=
  .next (takeUp s src 0x18 none (fun s => doQueueOpen s q sender lim))

def doQueueClose (s : State) (q : Nat) : Done :=
  match queue? s q with
  | none => refuse s .notFound
  | some x =>
    guardAll s
      [(ctxMissing s x.ctx || x.destroyed || x.destroyReq || x.openTid.isNone || x.closing || x.closeReq, .notFound),
       (ctxFrozen s x.ctx, .frozen)]
      (done (setQueue s q { x with closeReq := true }))

/-- QUEUE_CLOSE: at the queue's next packet boundary (R168). -/
def cmdQueueClose (src q : Nat) (s : State) : Ans :=
  .next (takeUp s src 0x19 none (fun s => doQueueClose s q))

def doQmQuota (s : State) (ctx cells queues : Nat) : Done :=
  guardAll s
    [(ctxMissing s ctx, .notFound), (ctxFrozen s ctx, .frozen),
     (decide (mgt < ctx) || decide (cells < 64) || decide (262144 < cells) || decide (16383 < queues), .badArg)]
    (done (atEpoch s (.qmQuota ctx cells queues)))

/-- QM_QUOTA: at the next scheduling epoch. -/
def cmdQmQuota (src ctx cells queues : Nat) (s : State) : Ans :=
  .next (takeUp s src 0x1A none (fun s => doQmQuota s ctx cells queues))

/-! Registers (Tables 06-2, 06-9) -/

/-- The word of sublist p: HEAD_p, TAIL_p, ITEMS_p. -/
def sublistWord (x : Queue) (p : Nat) : Nat :=
  match x.items.filter (fun i => i.prio == p) with
  | [] => 0
  | i :: t =>
    i.cells.head?.getD 0 + 2 ^ 18 * (t.getLast?.getD i).cells.getLast?.getD 0 + 2 ^ 36 * (t.length + 1)

/-- A cell's entry in the link table (Table 06-1), without its CHECK. -/
structure CellLink where
  next : Nat := 0
  soi : Bool := false
  eoi : Bool := false
  poison : Bool := false
  prio : Nat := 0
  len : Nat := 0
  queue : Nat := 0
  tag : BitVec 11 := 0
  free : Bool := false
  gen : Nat := 0
  deriving DecidableEq, Repr

/-- The entries of one item's cells, the chain going on at `after` (R156). -/
def itemLinks (q : Nat) (x : Queue) (i : Item) (after : Nat) : List (Nat × CellLink) :=
  (i.cells.zipIdx).map (fun e =>
    let first := e.2 == 0
    let last := e.2 + 1 == i.cells.length
    (e.1, { next := if last then after else i.cells.getD (e.2 + 1) 0, soi := first, eoi := last, poison := first && i.poison
            prio := if first then i.prio else 0, len := if first then i.bytes.length else 0, queue := q
            tag := if first then i.tag else 0, gen := x.gen }))

/-- The entries along one sublist; the NEXT of its tail has no meaning. -/
def chainLinks (q : Nat) (x : Queue) : List Item → List (Nat × CellLink)
  | [] => []
  | i :: t => itemLinks q x i ((t.head?.bind (fun j => j.cells.head?)).getD 0) ++ chainLinks q x t

/-- The entries of cells that a queue holds and no sublist chains: items in progress, flushed or stale cells. -/
def looseLinks (q : Nat) (x : Queue) : List (Nat × CellLink) :=
  (x.prog.map (fun e => ({ tag := e.2.tag, gen := x.gen, cells := e.2.cells } : Loose)) ++ x.draining ++ x.stale).flatMap
    (fun g => g.cells.zipIdx.map (fun e =>
      (e.1, { soi := e.2 == 0, queue := q, tag := if e.2 = 0 then g.tag else 0, gen := g.gen })))

/-- The link table's entry of a cell: that of the queue which holds it, or of the free list's chain. What the entry of a cell holds
otherwise (a cell never taken, one that keeps a message for retransmission) the rule does not say. -/
def cellLink (s : State) (c : Nat) : Option CellLink :=
  let all := s.qm.queues.flatMap (fun e =>
    (upto 0 8).flatMap (fun p => chainLinks e.1 e.2 (e.2.items.filter (fun i => i.prio == p))) ++ looseLinks e.1 e.2)
  match all.find? (fun e => e.1 == c) with
  | some e => some e.2
  | none =>
    match s.qm.freed.dropWhile (fun d => d != c) with
    | [] => none
    | _ :: t => some { next := t.head?.getD 0, free := true }

/-- The 96 bits of an entry (Table 06-1). -/
def linkWord (k : CellLink) : Nat :=
  let w := k.next + 2 ^ 18 * b2n k.soi + 2 ^ 19 * b2n k.eoi + 2 ^ 20 * b2n k.poison + 2 ^ 21 * k.prio + 2 ^ 24 * k.len +
    2 ^ 39 * k.queue + 2 ^ 53 * k.tag.toNat + 2 ^ 64 * b2n k.free + 2 ^ 65 * k.gen
  w + 2 ^ 88 * (Config.linkCheck (BitVec.ofNat 88 w)).toNat

/-- A queue's descriptor of 128 bytes (Table 06-2); both copies hold the same. -/
def queueImage (s : State) (q : Nat) (x : Queue) : Bytes :=
  let w0 := 1 + (if x.ctx = mgt then 2 else 4 * x.ctx) + 2 ^ 10 * qmodeCode x.mode +
    2 ^ 12 * b2n (x.openTid.isSome && !x.closing) + 2 ^ 13 * x.openTid.getD 0 + 2 ^ 21 * x.gen + 2 ^ 23 * b2n x.mirrored +
    2 ^ 24 * b2n (s.qm.sweeps.head? == some (some q))
  let ne := ((upto 0 8).map (fun p => if x.items.any (fun i => i.prio == p) then 2 ^ p else 0)).sum
  toLe 4 w0 ++ toLe 4 x.limit ++ toLe 8 (qCells x + 2 ^ 18 * sendCells x + 2 ^ 36 * x.sendLimit) ++
    toLe 4 x.items.length ++ toLe 4 ne ++ (upto 0 8).flatMap (fun p => toLe 8 (sublistWord x p)) ++
    toLe 4 x.displaced ++ toLe 4 x.refused ++ toLe 4 x.flushed ++ toLe 4 x.resetLost ++ fill 24 0

/-- QM_SWEEP: the queue being swept, and the sweeps that wait. -/
def sweepWord (s : State) : Nat :=
  match s.qm.sweeps with
  | [] => 0
  | h :: t => 1 + 2 * h.getD 0 + 2 ^ 15 * (t.length % 1024)

/-- The read-only QM_ registers that are computed. -/
def readQueues (s : State) (off : Nat) : Option Nat :=
  if off = 0x380000 then some (freeCells s + 2 ^ 18 * (sharedFree s).toNat + 2 ^ 36 * b2n (allocStop s))
  else if off = 0x380008 then some (unusedSend s + 2 ^ 18 * unheldWeft s + 2 ^ 36 * weftAside s)
  else if 0x380018 ≤ off ∧ off < 0x380098 then
    match queue? s (fld (regNat s Reg.qmQSel) 0 14) with
    | none => some 0
    | some x => some (leAt (queueImage s (fld (regNat s Reg.qmQSel) 0 14) x) (off - 0x380018) 8)
  else if off = 0x380098 then some s.qm.queues.length
  else if off = 0x3800A0 then some (sweepWord s)
  else if 0x381000 ≤ off ∧ off < 0x381000 + 0x10 * 257 then
    let t := (off - 0x381000) / 0x10
    if off % 16 = 0 then some (ctxCells s t + 2 ^ 18 * (cellQuota s t % 2 ^ 18) + 2 ^ 36 * ctxAside s t)
    else some (ctxQueues s t + 2 ^ 15 * queueQuota s t)
  else none

end Sys2Proof.Machine
end

