-- ==== Sys2Proof/Machine/Reduce.lean ====
section
/-! DEFINITION. Reduce windows (chapter 05): contribution checks, staging and its reserve, accumulation, the single
rounding, completion items, and the reduce commands. -/

namespace Sys2Proof.Machine

def rwin? (s : State) (w : Nat) : Option RWin := Tab.find s.ru.windows w

def setRwin (s : State) (w : Nat) (x : RWin) : State :=
  { s with ru := { s.ru with windows := Tab.put s.ru.windows w x } }

def chunkKey (w c : Nat) : Nat := 65536 * w + c

def chunk? (s : State) (w c : Nat) : Option Chunk := Tab.find s.ru.chunks (chunkKey w c)

def setChunk (s : State) (w c : Nat) (x : Chunk) : State :=
  { s with ru := { s.ru with chunks := Tab.put s.ru.chunks (chunkKey w c) x } }

def delChunk (s : State) (w c : Nat) : State :=
  { s with ru := { s.ru with chunks := Tab.del s.ru.chunks (chunkKey w c) } }

/-- Item flags of Table 05-7. -/
def fPoison : BitVec 7 := 1
def fNan : BitVec 7 := 2
def fOvf : BitVec 7 := 4
def fFovf : BitVec 7 := 8
def fExcess : BitVec 7 := 16
def fWriteFail : BitVec 7 := 32
def fItemLost : BitVec 7 := 64

/-- Address of a byte of the result region: a TPA of the owner, or a PPA of the management context. -/
def resultAddr (x : RWin) (o : Nat) : PoolAddr := if x.ctx = mgt then .ppa (x.result + o) else .tpa (x.result + o)

/-- The granule that holds a chunk; 0 where the owner's list gives none. -/
def chunkGranule (s : State) (x : RWin) (c : Nat) : Nat :=
  let a := x.result + 65536 * c
  if x.ctx = mgt then a / granuleBytes else (listAt s x.ctx (fld a 21 17)).getD 0

/-- The unit of a chunk: that of the stack that holds its granule (R128). -/
def unitOf (s : State) (x : RWin) (c : Nat) : Nat := stackOf (chunkGranule s x c)

/-- Lines of a chunk. -/
def chunkLines (x : RWin) (c : Nat) : Nat := if c = x.chunksM1 then x.lastM1 + 1 else 1024

/-- An offset lies beyond the window's elements (R132). -/
def offRange (x : RWin) (o : Nat) : Bool :=
  decide (x.chunksM1 < o / 65536) || decide (chunkLines x (o / 65536) ≤ o % 65536 / 64)

/-- Slices of an open chunk (Table 05-5). -/
def slicesOf (arrival : Bool) (format op : Nat) : Nat :=
  if arrival then 0
  else if op ≠ 0 then 1
  else
    match format with
    | 4 => 10
    | 5 => 20
    | 6 => 4
    | 8 => 8
    | 7 => 4
    | 0 => 3
    | 1 => 2
    | 2 => 2
    | _ => 2

def winSlices (x : RWin) : Nat := slicesOf x.arrival x.format x.op

/-- The units that hold a chunk of a window. -/
def winUnits (s : State) (x : RWin) : List Nat :=
  (upto 0 8).filter (fun k => (upto 0 (x.chunksM1 + 1)).any (fun c => unitOf s x c == k))

/-- Slices reserved on a unit, by windows that satisfy a test (R141). -/
def rsvSlices (s : State) (k : Nat) (p : RWin → Bool) : Nat :=
  Tab.sum (fun _ x => if x.rsv && p x && (winUnits s x).contains k then winSlices x else 0) s.ru.windows

def rsvContexts (s : State) (k : Nat) : Nat :=
  Tab.count (fun _ x => x.rsv && (winUnits s x).contains k) s.ru.windows

/-- Shared slices held on a unit, by chunks of windows that satisfy a test. -/
def sharedSlices (s : State) (k : Nat) (p : Nat → Bool) : Nat :=
  Tab.sum (fun key c => if c.unit = k ∧ !c.onReserve ∧ p (key / 65536) then c.slices else 0) s.ru.chunks

def freeSlices (s : State) (k : Nat) : Nat := 48 - sharedSlices s k (fun _ => true) - rsvSlices s k (fun _ => true)

def openChunks (s : State) (k : Nat) : Nat := Tab.count (fun _ c => c.unit == k) s.ru.chunks

/-- Free chunk contexts: those neither held nor reserved. -/
def freeContexts (s : State) (k : Nat) : Nat :=
  64 - Tab.count (fun _ c => c.unit == k && !c.onReserve) s.ru.chunks - rsvContexts s k

def winCtx (s : State) (w : Nat) : Nat := ((rwin? s w).map (fun x => x.ctx)).getD mgt

/-- Slices that a context holds on a unit, its reserves among them (R140, R141). -/
def heldSlices (s : State) (k ctx : Nat) : Nat :=
  sharedSlices s k (fun w => winCtx s w == ctx) + rsvSlices s k (fun x => x.ctx == ctx)

def sliceQuota (s : State) (k ctx : Nat) : Nat := Tab.get 48 s.ru.quotas (257 * k + ctx)

/-- The chunk for which a window's reserve on a unit is held: the lowest on the unit not complete in the epoch (R141). -/
def reserveChunk (s : State) (x : RWin) (k : Nat) : Option Nat :=
  firstUpto (fun c => unitOf s x c == k && !x.complete.contains c) 0 (x.chunksM1 + 1)

/-- How a chunk that is not open can open: on the reserve, on shared staging, or not now (R140, R141). -/
def opening (s : State) (w : Nat) (x : RWin) (c : Nat) : Option Chunk :=
  let k := unitOf s x c
  let n := winSlices x
  if x.rsv ∧ reserveChunk s x k = some c ∧
      !(s.ru.chunks.any (fun e => e.1 / 65536 == w && e.2.unit == k && e.2.onReserve)) then
    some { unit := k, slices := n, onReserve := true }
  else if 0 < freeContexts s k ∧ (x.arrival ∨ (n ≤ freeSlices s k ∧ heldSlices s k x.ctx + n ≤ sliceQuota s k x.ctx)) then
    some { unit := k, slices := n, onReserve := false }
  else none

/-! Checks (R133) -/

inductive CRefuse where
  | owner | range | stale
  deriving DecidableEq, Repr

/-- Owner, contributor index, offset, epoch, in this order. The epoch is the 8 bits carried, or none for a host. -/
def contribCheck (s : State) (tag : BitVec 11) (w contributor off : Nat) (epoch8 : Option Nat) : Option CRefuse :=
  match rwin? s w with
  | none => some .owner
  | some x =>
    if x.ctx ≠ tagCtx tag ∨ x.contribM1 < contributor then some .owner
    else if offRange x off then some .range
    else
      match epoch8 with
      | none => none
      | some e => if e % 256 = x.epoch % 256 then none else some .stale

/-- A refusal is counted and raised, at most 64 a tick for a tenant (R133). -/
def contribRefuse (s : State) (tag : BitVec 11) (w : Nat) (r : CRefuse) : State :=
  let s := count s (if r = .stale then Reg.ruStale else Reg.ruAccess)
  raiseLimited s Src.ruRefused (tagCtx tag) { tag := some tag, object := 6, index := w }

/-! Accumulation (R134, R135, R138) -/

/-- Exponent of the least significant bit of an EXACT SUM accumulator (Table 05-4). -/
def lsbExp (format : Nat) : Int :=
  match format with
  | 4 => -149
  | 5 => -149
  | 6 => -24
  | 8 => -24
  | 7 => -9
  | _ => 0

/-- Add one element to an EXACT SUM accumulator (R135). -/
def accSum (format el : Nat) (a : Acc) : Acc :=
  let a := { a with seen := true }
  match fmtOf format with
  | none => { a with val := a.val + signed el (8 * etSize format) }
  | some f =>
    match decodeF f el with
    | .nan => { a with nan := true }
    | .inf neg => if neg then { a with ninf := true } else { a with pinf := true }
    | .fin neg m e => { a with val := a.val + finInt neg m e (lsbExp format) }

/-- One step of an order-independent operation on elements: MIN, MAX, AND, OR, XOR (R131). -/
def elemOp (format op a b : Nat) : Nat :=
  let n := 8 * etSize format
  match op with
  | 1 =>
    (match fmtOf format with
     | some f => fmin f a b
     | none => if signed b n < signed a n then b else a)
  | 2 =>
    (match fmtOf format with
     | some f => fmax f a b
     | none => if signed a n < signed b n then b else a)
  | 3 => a &&& b
  | 4 => a ||| b
  | _ => a ^^^ b

/-- The first element of an operation: a NaN under MIN and MAX becomes the default NaN. -/
def firstElem (format op el : Nat) : Nat := if op = 1 ∨ op = 2 then elemOp format op el el else el

/-- Apply one contribution element to its staging accumulator. -/
def accApply (format op el : Nat) (a : Acc) : Acc :=
  if op = 0 then accSum format el a
  else if a.seen then { a with val := (elemOp format op a.val.toNat el : Nat) }
  else { a with seen := true, val := (firstElem format op el : Nat) }

/-- Apply the elements of a line from element index i on. -/
def accLine (format op : Nat) : Nat → List Nat → Table Acc → Table Acc
  | _, [], m => m
  | i, el :: t, m => accLine format op (i + 1) t (Tab.upd {} m i (accApply format op el))

/-- One element of an ARRIVAL line: written as received first, then combined with the stored value in fp32 (R138). -/
def arriveElem (first : Bool) (op stored el : Nat) : Nat :=
  if first then el
  else if op = 0 then encodeF fp32 false ((decodeF fp32 stored).add (decodeF fp32 el))
  else elemOp 4 op stored el

/-! Rounding (R136) -/

/-- Whether an element is NaN in its format. -/
def elNan (format el : Nat) : Bool :=
  match fmtOf format with
  | none => false
  | some f => isNan f el

/-- ±∞ becomes ± the largest finite value. -/
def satInf (f : FFmt) (el : Nat) : Nat :=
  match decodeF f el with
  | .inf neg => f.signBit neg + f.maxMag
  | _ => el

/-- The result of one element with the flags that it sets. -/
def roundElem (format op : Nat) (sat : Bool) (a : Acc) : Nat × BitVec 7 :=
  match fmtOf format with
  | none =>
    if op = 0 then
      let n := 8 * etSize format
      let v := clampSigned n a.val
      (unsigned n v, if v = a.val then 0 else fOvf)
    else (a.val.toNat, 0)
  | some f =>
    if op = 0 then
      if a.nan ∨ (a.pinf ∧ a.ninf) then (f.qnan, fNan)
      else if a.pinf ∨ a.ninf then (overflowF f sat a.ninf, 0)
      else
        let neg := decide (a.val < 0)
        let ovf := decide (f.maxMag < roundMag f a.val.natAbs (lsbExp format))
        let r := encodeF f sat (.fin neg a.val.natAbs (lsbExp format))
        (r, (if ovf then fFovf else 0) ||| (if isNan f r then fNan else 0))
    else
      let r := if sat ∧ (op = 1 ∨ op = 2) then satInf f a.val.toNat else a.val.toNat
      (r, if isNan f r then fNan else 0)

/-- One rounded result line with its flags. -/
def roundLine (x : RWin) (c : Chunk) (l : Nat) : Line × BitVec 7 :=
  let n := etLanes x.format
  let r := (upto (n * l) n).map (fun i => roundElem x.format x.op x.sat (Tab.get {} c.accs i))
  (ofLanes x.format (r.map (fun e => e.1)), r.foldl (fun f e => f ||| e.2) 0)

/-! Accepting a line (R140, R144, R146, R150) -/

/-- Every line of the chunk has its full count. -/
def chunkFull (x : RWin) (c : Nat) (k : Chunk) : Bool :=
  (upto 0 (chunkLines x c)).all (fun l => Tab.get 0 k.counts l == x.contribM1 + 1)

/-- An excess line: discarded, counted, marked (R144). -/
def excessLine (s : State) (w c l : Nat) (x : RWin) : State :=
  let s := count (setRwin s w { x with sticky := x.sticky ||| fExcess }) Reg.ruExcess
  match chunk? s w c with
  | none => s
  | some k => setChunk s w c { k with excess := Tab.set false k.excess l true, flags := k.flags ||| fExcess }

/-- A sticky bit of the window is set. -/
def stick (s : State) (w : Nat) (f : BitVec 7) : State :=
  match rwin? s w with
  | some x => setRwin s w { x with sticky := x.sticky ||| f }
  | none => s

/-- A result write that the memory protection unit denies (R151). -/
def writeFail (s : State) (w c : Nat) (x : RWin) (g : Option Nat) : State :=
  let tag := mkTag x.ctx 1
  let s := poolDenied s tag g
  let s := match chunk? s w c with
    | some k => setChunk s w c { k with flags := k.flags ||| fWriteFail }
    | none => s
  let s := stick s w fWriteFail
  raiseSrc s Src.ruWriteFail { tag := some tag, object := 6, index := w }

/-- The read-modify-write of an ARRIVAL line (R138, R150). -/
def arriveLine (s : State) (w c : Nat) (x : RWin) (k : Chunk) (o l : Nat) (data : Line) (poison first : Bool) : State :=
  match check s (mkTag x.ctx 1) (resultAddr x o) true with
  | .allow ppa _ =>
    let s := eccSpan s ppa 64 (mkTag x.ctx 1)
    let old := poolLine s ppa
    let els := ((lanesOf old 4).zip (lanesOf data 4)).map (fun e => arriveElem first x.op e.1 e.2)
    let bad := poison || Tab.get false k.poison l || (!first && poisonAt s ppa)
    let f := (if els.any (elNan 4) then fNan else 0) ||| (if bad then fPoison else 0)
    let s := setChunk s w c { k with flags := k.flags ||| f }
    let s := if bad then stick s w fPoison else s
    poolWrite s ppa (lineBytes (ofLanes 4 els)) bad
  | .zero _ => writeFail (setChunk s w c k) w c x none
  | .deny g => writeFail (setChunk s w c k) w c x g

/-- What the presentation of a checked line comes to. -/
inductive Taken where
  | took (s : State)
  | wait (s : State)
  | stale
  deriving Inhabited

/-- A line that has room is accepted: counted, absorbed, applied (R144, R150). An excess line is discarded, and its bytes are not counted
in RU_ABSORBED (DESIGN CHOICE, log entry 76). -/
def applyLine (s : State) (k : Contrib) (x : RWin) (c : Nat) (ch : Chunk) : State :=
  let l := k.offset % 65536 / 64
  let n := Tab.get 0 ch.counts l
  if x.contribM1 < n then excessLine (setChunk s k.window c ch) k.window c l x
  else
    let ch := { ch with
      counts := Tab.set 0 ch.counts l (n + 1)
      poison := if k.poison then Tab.set false ch.poison l true else ch.poison }
    let s := countN s (Reg.ruAbsorbed ch.unit) 64
    let s := if x.arrival then arriveLine s k.window c x ch k.offset l k.data k.poison (n == 0)
      else setChunk s k.window c { ch with
        accs := accLine x.format x.op (etLanes x.format * l) (lanesOf k.data x.format) ch.accs }
    match chunk? s k.window c with
    | none => s
    | some ch => if chunkFull x c ch then setChunk s k.window c { ch with phase := .full } else s

/-- Present a checked line to its unit (R140, R146). Under a freeze no contribution is accepted (Table 05-10); an ARRIVAL
line of a mirrored granule waits for journal room. -/
def presentLine (s : State) (k : Contrib) : Taken :=
  match rwin? s k.window with
  | none => .stale
  | some x =>
    let c := k.offset / 65536
    if x.epoch ≠ k.epoch then .stale
    else if ctxMode s x.ctx ≠ .running then .wait s
    else if x.complete.contains c then .took (excessLine s k.window c (k.offset % 65536 / 64) x)
    else if x.arrival ∧ !writeRoom s (chunkGranule s x c * granuleBytes) 64 then .wait (journalWait s)
    else
      match chunk? s k.window c with
      | some ch => .took (applyLine s k x c ch)
      | none =>
        match opening s k.window x c with
        | some ch => .took (applyLine s k x c ch)
        | none => .wait s

/-- A line that begins to wait on a chunk not yet open is counted, once (R154). -/
def backPressure (s : State) (k : Contrib) : State :=
  match rwin? s k.window with
  | none => s
  | some x =>
    let c := k.offset / 65536
    if (chunk? s k.window c).isSome ∨ x.complete.contains c then s else count s (Reg.ruBpCnt (unitOf s x c))

/-- A line that must wait joins the waiting lines. -/
def queueLine (s : State) (k : Contrib) : State :=
  let s := backPressure s k
  { s with ru := { s.ru with waiting := s.ru.waiting ++ [k] } }

/-- The unit that a line goes to. -/
def lineUnit (s : State) (k : Contrib) : Option Nat := (rwin? s k.window).map (fun x => unitOf s x (k.offset / 65536))

/-- The line would be accepted if it were presented now. -/
def canEnter (s : State) (k : Contrib) : Bool :=
  match presentLine s k with
  | .took _ => true
  | _ => false

/-- An ECC outcome of the staging that a step uses (R150). -/
def stageEcc (s : State) (ecc : Ecc) (tag : BitVec 11) (w : Nat) : State :=
  let r : Raise := { tag := some tag, object := 6, index := w }
  match ecc with
  | .ok => s
  | .corrected => raiseSrc s Src.ruStageCe r
  | .uncorrectable => raiseSrc s Src.ruStageUe r

/-- Lines of one source, or of one port's contribution buffer, keep their order within a chunk (R143). -/
def sameSource (a b : ContribSource) : Bool :=
  match a, b with
  | .host p _, .host q _ => p == q
  | a, b => a == b

/-- A line of the same source with the same chunk waits ahead of line k. -/
def aheadOf (l : List Contrib) (i : Nat) (k : Contrib) : Bool :=
  (l.take i).any (fun j => j.window == k.window && j.offset / 65536 == k.offset / 65536 && sameSource j.src k.src)

/-- The waiting lines other than line i that are ready at a unit's input. -/
def readyLines (s : State) (i u : Nat) : List Ready :=
  s.ru.waiting.zipIdx.filterMap (fun e =>
    if e.2 ≠ i ∧ lineUnit s e.1 = some u ∧ !aheadOf s.ru.waiting e.2 e.1 ∧ canEnter s e.1 then some { tag := e.1.tag, len := 64 }
    else none)

/-- The unit's input arbiter serves waiting line i next: SC0 first, shares for the rest (Table 09-2). A line that only waits to be
answered passes no arbiter. -/
def serveLine (s : State) (i : Nat) (k : Contrib) : Option State :=
  match lineUnit s k with
  | none => some s
  | some u => if canEnter s k then serve s u { tag := k.tag, len := 64 } (readyLines s i u) else some s

/-- CONTRIBUTION_ACCEPT: waiting line i enters its unit, or is found stale (R143, R146). A stale line of a Weft packet is
answered by HELD_PACKET_DELIVERY, with its NAK. In safe state the units accept no new work, and it is open whether a host's
posted line accepted before still enters or is discarded (R361, log entry 67). -/
def execContributionAccept (i : Nat) (ecc : Ecc) (s0 : State) : Ans :=
  match s0.ru.waiting[i]? with
  | none => idle s0
  | some k =>
    let s := if s0.th.safe then useFree s0 else s0
    let posted := match k.src with
      | .host _ _ => true
      | _ => false
    if aheadOf s0.ru.waiting i k ∨ (s0.th.safe ∧ !posted) then idle s0
    else if s0.th.safe ∧ bit (freeWord s0).toNat 0 then .next { s with ru := { s.ru with waiting := s.ru.waiting.eraseIdx i } }
    else
      match serveLine s i k with
      | none => idle s0
      | some s =>
      let s1 := stageEcc { s with ru := { s.ru with waiting := s.ru.waiting.eraseIdx i } } ecc k.tag k.window
      let k := if ecc = .uncorrectable then { k with poison := true } else k
      match presentLine s1 k with
      | .took t =>
        (match k.src with
         | .host p _ => .next (notePort t p s.sm.jsnSent)
         | _ => .next t)
      | .stale =>
        match k.src with
        | .weft _ _ => idle s
        | _ => .next (contribRefuse s1 k.tag k.window .stale)
      | .wait _ => idle s0

/-! Completion (R147 to R149) -/

/-- A completion item of 32 bytes (Table 05-7). -/
def ruItem (s : State) (w : Nat) (kind : Nat) (flags : BitVec 7) (chunk epoch result : Nat) : Bytes :=
  toLe 1 kind ++ toLe 1 flags.toNat ++ toLe 2 w ++ toLe 4 chunk ++ toLe 4 epoch ++ toLe 4 0 ++ toLe 8 result ++
    toLe 8 (timeNs s)

/-- The CQ takes an item, has no room, or is gone or not the owner's, so that the item is lost (R149). -/
inductive Linked where
  | yes (s : State)
  | wait
  | lost (s : State)
  deriving Inhabited

def linkRu (s : State) (ctx cq prio : Nat) (b : Bytes) : Linked :=
  let tag := mkTag ctx 1
  match queue? s cq with
  | none => .lost (count (qmRefuse s cq tag) Reg.ruItemLost)
  | some x =>
    if !mayPush x ctx then .lost (count (qmRefuse s cq tag) Reg.ruItemLost)
    else if x.ctx ≠ ctx then .lost (count s Reg.ruItemLost)
    else
      if s.th.safe then .wait
      else
        match push s cq prio tag b false with
        | (.linked _, s) => .yes s
        | (.access, s) => .lost (count s Reg.ruItemLost)
        | (.full, _) => .wait
        | (.wait, _) => .wait

def setLost (s : State) (w : Nat) : State :=
  match rwin? s w with
  | none => s
  | some x => setRwin s w { x with sticky := x.sticky ||| fItemLost }

/-- The epoch ends: EPOCH advances, DONE_CHUNKS and the sticky bits clear (R145). -/
def nextEpoch (s : State) (w : Nat) (x : RWin) : State :=
  journalObject (setRwin s w { x with epoch := (x.epoch + 1) % 2 ^ 32, complete := [], sticky := 0 }) x.ctx 4 w

/-- The chunk is the last outstanding one of the epoch. -/
def lastChunk (s : State) (w c : Nat) (x : RWin) : Bool :=
  decide (x.complete.length = x.chunksM1 + 1) &&
    !(s.ru.chunks.any (fun e => e.1 / 65536 == w && e.1 != chunkKey w c))

/-- The EPOCH item of the last chunk, then the end of the epoch and of the context (R147 steps 5 and 6). -/
def linkEpoch (s : State) (w c : Nat) : State :=
  match rwin? s w with
  | none => s
  | some x =>
    if lastChunk s w c x then
      match linkRu s x.ctx x.cq x.prio (ruItem s w 2 x.sticky x.complete.length x.epoch x.result) with
      | .yes s => nextEpoch (delChunk s w c) w x
      | .lost s => nextEpoch (delChunk s w c) w x
      | .wait => s
    else delChunk s w c

/-- The items of a chunk whose results are written: CHUNK, then EPOCH (R147 steps 4 to 6). What finds no room waits. -/
def linkItems (s : State) (w c : Nat) : State :=
  match rwin? s w, chunk? s w c with
  | some x, some k =>
    if !x.chunkItems ∨ k.chunkDone then linkEpoch s w c
    else
      match linkRu s x.ctx x.cq x.prio
          (ruItem s w 1 (k.flags &&& 63) c x.epoch (x.result + 65536 * c)) with
      | .yes s => linkEpoch (setChunk s w c { k with chunkDone := true }) w c
      | .lost s => linkEpoch (setLost (setChunk s w c { k with chunkDone := true }) w) w c
      | .wait => s
  | _, _ => s

/-- One result line of an EXACT chunk is rounded and written under the owner's context (R136, R147, R150). -/
def writeResult (w c : Nat) (x : RWin) (k : Chunk) (s : State) (l : Nat) : State :=
  let r := roundLine x k l
  let bad := Tab.get false k.poison l
  let s := match chunk? s w c with
    | some j => setChunk s w c { j with flags := j.flags ||| r.2 ||| (if bad then fPoison else 0) }
    | none => s
  match check s (mkTag x.ctx 1) (resultAddr x (65536 * c + 64 * l)) true with
  | .allow ppa _ => poolStore s (mkTag x.ctx 1) ppa (lineBytes r.1) bad
  | .zero _ => writeFail s w c x none
  | .deny g => writeFail s w c x g

/-- The stored line of an ARRIVAL window takes a poison mark (R150). -/
def markArrived (s : State) (w c l : Nat) (x : RWin) : State :=
  match check s (mkTag x.ctx 1) (resultAddr x (65536 * c + 64 * l)) true with
  | .allow ppa _ => poolStore s (mkTag x.ctx 1) ppa (lineBytes (poolLine s ppa)) true
  | .zero _ => writeFail s w c x none
  | .deny g => writeFail s w c x g

/-- An error in the staging or the counter array of an open chunk that cannot be corrected poisons its result line (R150). -/
def spoilLine (s : State) (w c l : Nat) : State :=
  match rwin? s w, chunk? s w c with
  | some x, some k =>
    if k.phase = .items then s
    else
      let s := setChunk s w c { k with poison := Tab.set false k.poison l true, flags := k.flags ||| fPoison }
      let s := stick s w fPoison
      if x.arrival ∧ 0 < Tab.get 0 k.counts l then markArrived s w c l x else s
  | _, _ => s

/-- ECC outcomes of the staging of lines. -/
def stageLines (tag : BitVec 11) (w c : Nat) (s : State) (e : Nat × Ecc) : State :=
  let s := stageEcc s e.2 tag w
  if e.2 = .uncorrectable then spoilLine s w c e.1 else s

/-- CHUNK_COMPLETE: the results of a full chunk are rounded and written, its slices freed, its event raised, its items
linked as far as there is room (R147). An open chunk of a frozen tenant stays open (Table 05-10). -/
def execChunkComplete (w c : Nat) (ecc : List (Nat × Ecc)) (s : State) : Ans :=
  match rwin? s w, chunk? s w c with
  | some x, some k =>
    if k.phase ≠ .full ∨ ctxMode s x.ctx = .frozen then idle s
    else
      let n := chunkLines x c
      let writes := if x.arrival then (ecc.filter (fun e => e.2 == .uncorrectable)).length else n
      if mirrors s (chunkGranule s x c * granuleBytes) ∧ !journalRoom s writes (64 * writes) then .next (journalWait s)
      else
        let s := (ecc.filter (fun e => decide (e.1 < n))).foldl (stageLines (mkTag x.ctx 1) w c) s
        let k := (chunk? s w c).getD k
        let s := if x.arrival then s else (upto 0 n).foldl (writeResult w c x k) s
        let fl := ((chunk? s w c).map (fun j => j.flags)).getD 0
        let s := setChunk s w c { k with phase := .items, slices := 0, accs := [], flags := fl }
        let x := ((rwin? s w).getD x)
        let s := setRwin s w { x with sticky := x.sticky ||| fl, complete := x.complete ++ [c] }
        let s := count s (Reg.ruChunksDone k.unit)
        let s := raiseEvent s .reduce w (BitVec.ofNat 64 c) none
        .next (linkItems (journalObject s x.ctx 4 w) w c)
  | _, _ => idle s

/-- Link the owed ABANDONED items, oldest first, as far as there is room. -/
def linkOwed (w : Nat) : List Owed → State → List Owed → State
  | [], s, acc => { s with ru := { s.ru with owed := acc } }
  | o :: t, s, acc =>
    if o.window ≠ w then linkOwed w t s (acc ++ [o])
    else
      match linkRu s o.ctx o.cq o.prio o.bytes with
      | .yes s => linkOwed w t s acc
      | .lost s => linkOwed w t (setLost s w) acc
      | .wait => linkOwed w t s (acc ++ [o])

/-- COMPLETION_ITEM_LINK: an item that waited for room in its CQ is linked (R149). -/
def execCompletionItemLink (w c : Nat) (s : State) : Ans :=
  let s := linkOwed w s.ru.owed s []
  match chunk? s w c with
  | none => .next s
  | some k => if k.phase = .items ∧ ctxMode s (winCtx s w) ≠ .frozen then .next (linkItems s w c) else .next s

/-! Abandonment and the reduce commands (Table 05-9) -/

/-- The ABANDONED item of a window. -/
def oweAbandoned (s : State) (w : Nat) (x : RWin) (flags : BitVec 7) (done epoch : Nat) : State :=
  let o : Owed := { window := w, ctx := x.ctx, cq := x.cq, prio := x.prio
                    bytes := ruItem s w 3 flags done epoch x.result }
  let s := { s with ru := { s.ru with owed := s.ru.owed ++ [o] } }
  linkOwed w s.ru.owed s []

/-- The open chunks of a window are abandoned with one ABANDONED item; they write nothing (R152). -/
def abandonChunks (s : State) (w : Nat) : State :=
  match rwin? s w with
  | none => s
  | some x =>
    let n := Tab.count (fun k _ => k / 65536 == w) s.ru.chunks
    if n = 0 then s
    else
      let s := { s with ru := { s.ru with chunks := Tab.keep (fun k _ => k / 65536 != w) s.ru.chunks } }
      oweAbandoned (countN s Reg.ruAbandoned n) w x x.sticky x.complete.length x.epoch

/-- Granules of a window's region, each once. -/
def regionGranules (s : State) (x : RWin) : List Nat := ((upto 0 (x.chunksM1 + 1)).map (chunkGranule s x)).dedup

/-- REFS of a granule up or down by one (R102). -/
def addRef (up : Bool) (s : State) (g : Nat) : State :=
  let e := gran s g
  setGran s g { e with refs := if up then e.refs + 1 else e.refs - 1 }

/-- A line that waits for a destroyed window belongs to no epoch of a later window with the number (R146). -/
def orphan (w : Nat) (k : Contrib) : Contrib := if k.window = w then { k with epoch := 2 ^ 32 } else k

def destroyWindow (s : State) (w : Nat) : State :=
  match rwin? s w with
  | none => s
  | some x =>
    let s := abandonChunks s w
    let s := { s with ru := { s.ru with waiting := s.ru.waiting.map (orphan w) } }
    let s := (regionGranules s x).foldl (addRef false) s
    journalObject { s with ru := { s.ru with windows := Tab.del s.ru.windows w } } x.ctx 4 w

/-- REDUCE_RESET's effect: EPOCH advances and the sticky bits clear, in whatever state the chunks were. -/
def resetWindow (s : State) (w : Nat) : State :=
  let s := abandonChunks s w
  match rwin? s w with
  | none => s
  | some x => nextEpoch s w x

/-- A window command: the window must exist and its owner be neither gone nor frozen. -/
def withWindow (s : State) (w : Nat) (body : Done) : Done :=
  match rwin? s w with
  | none => refuse s .notFound
  | some x => guardAll s [(ctxMissing s x.ctx, .notFound), (ctxFrozen s x.ctx, .frozen)] body

/-- Legal combinations of mode, format and operation (Table 05-2). -/
def legalCombo (arrival : Bool) (format op : Nat) : Bool :=
  if arrival then format == 4 && decide (op ≤ 2) else decide (format ≤ 8) && decide (op ≤ 5)

/-- A granule of the region is the owner's: a valid list index, or a granule of the management context. -/
def regionOk (s : State) (a : ReduceArgs) (c : Nat) : Bool :=
  let addr := a.result + 65536 * c
  if a.ctx = mgt then (gran s (addr / granuleBytes)).st == .owned && (gran s (addr / granuleBytes)).ctx == mgt
  else (listAt s a.ctx (addr / granuleBytes)).isSome

/-- The reserve can be set aside on every unit of the window (R141). -/
def rsvRoom (s : State) (x : RWin) : Bool :=
  (winUnits s x).all (fun k => decide (0 < freeContexts s k) &&
    (x.arrival || (decide (winSlices x ≤ freeSlices s k) && decide (heldSlices s k x.ctx + winSlices x ≤ sliceQuota s k x.ctx))))

/-- The descriptor that REDUCE_CREATE makes. -/
def newWindow (a : ReduceArgs) : RWin :=
  { ctx := a.ctx, arrival := a.arrival, format := a.format, op := a.op, sat := a.sat, rsv := a.rsv
    contribM1 := a.contributors - 1, epoch := 0, result := a.result, chunksM1 := a.chunks - 1
    lastM1 := a.lastLines - 1, cq := a.cq, prio := a.cqPrio, chunkItems := a.chunkItems }

def doReduceCreate (s : State) (a : ReduceArgs) : Done :=
  let x := newWindow a
  let w := lowestInHalf s s.ru.windows 2048 4096
  let ranges := decide (1 ≤ a.contributors ∧ a.contributors ≤ 4096 ∧ 1 ≤ a.chunks ∧ a.chunks ≤ 65536 ∧
    1 ≤ a.lastLines ∧ a.lastLines ≤ 1024 ∧ a.cqPrio ≤ 7 ∧ a.ctx ≤ mgt) && a.result % 65536 == 0 &&
    decide (a.result + 65536 * a.chunks ≤ 2 ^ 38)
  guardAll s
    [(ctxMissing s a.ctx, .notFound), (ctxFrozen s a.ctx, .frozen),
     (!legalCombo a.arrival a.format a.op || !ranges || ((queue? s a.cq).map (fun q => q.ctx)) != some a.ctx, .badArg),
     (!(upto 0 a.chunks).all (regionOk s a), .badArg),
     (w.isNone || (a.rsv && !rsvRoom s x) || (regionGranules s x).any (fun g => decide (255 ≤ (gran s g).refs)), .noSpace)]
    (let w := w.getD 0
     let s := (regionGranules s x).foldl (addRef true) (setRwin s w x)
     let s := journalObject s a.ctx 4 w
     (s, some { status := .ok, results := [(2, w)] }))

/-- REDUCE_CREATE. -/
def cmdReduceCreate (src : Nat) (a : ReduceArgs) (s : State) : Ans :=
  .next (takeUp s src 0x10 none (fun s => doReduceCreate s a))

def doReduceDestroy (s : State) (w : Nat) : Done := withWindow s w (done (destroyWindow s w))

/-- REDUCE_DESTROY. -/
def cmdReduceDestroy (src w : Nat) (s : State) : Ans :=
  .next (takeUp s src 0x11 none (fun s => doReduceDestroy s w))

def doReduceReset (s : State) (w : Nat) : Done := withWindow s w (done (resetWindow s w))

/-- REDUCE_RESET. -/
def cmdReduceReset (src w : Nat) (s : State) : Ans :=
  .next (takeUp s src 0x12 none (fun s => doReduceReset s w))

def doRuQuota (s : State) (ctx : Nat) (unit : Option Nat) (slices : Nat) : Done :=
  guardAll s
    [(ctxMissing s ctx, .notFound), (ctxFrozen s ctx, .frozen),
     (decide (mgt < ctx) || decide (8 ≤ unit.getD 0) || decide (48 < slices), .badArg)]
    (done ((match unit with
      | some k => [k]
      | none => upto 0 8).foldl (fun s k => atEpoch s (.ruQuota k ctx slices)) s))

/-- RU_QUOTA: at the next scheduling epoch (R140). -/
def cmdRuQuota (src ctx : Nat) (unit : Option Nat) (slices : Nat) (s : State) : Ans :=
  .next (takeUp s src 0x13 none (fun s => doRuQuota s ctx unit slices))

/-! Registers (Tables 05-1, 05-11, 05-12) -/

/-- The sticky bits at 0x18 [22:16]: OVF, FOVF, NAN, POISON, EXCESS, WRITE_FAIL, ITEM_LOST. -/
def stickyWord (f : BitVec 7) : Nat :=
  b2n (bit f.toNat 2) + 2 * b2n (bit f.toNat 3) + 4 * b2n (bit f.toNat 1) + 8 * b2n (bit f.toNat 0) +
    16 * b2n (bit f.toNat 4) + 32 * b2n (bit f.toNat 5) + 64 * b2n (bit f.toNat 6)

/-- A window's descriptor of 32 bytes. -/
def windowImage (x : RWin) : Bytes :=
  toLe 4 (1 + (if x.ctx = mgt then 2 else 4 * x.ctx) + 2 ^ 10 * b2n x.arrival + 2 ^ 11 * x.format + 2 ^ 15 * x.op +
      2 ^ 18 * b2n x.sat + 2 ^ 19 * b2n x.rsv + 2 ^ 20 * x.contribM1) ++
    toLe 4 x.epoch ++ toLe 8 x.result ++ toLe 4 (x.chunksM1 + 2 ^ 16 * x.lastM1) ++
    toLe 4 (x.cq + 2 ^ 14 * x.prio + 2 ^ 17 * b2n x.chunkItems) ++
    toLe 4 (x.complete.length % 65536 + 2 ^ 16 * stickyWord x.sticky) ++ toLe 4 0

/-- The read-only RU_ registers that are computed. -/
def readReduce (s : State) (off : Nat) : Option Nat :=
  if 0x580000 ≤ off ∧ off < 0x580800 ∧ off % 0x100 = 0 then
    let k := (off - 0x580000) / 0x100
    some (freeSlices s k + 2 ^ 6 * rsvSlices s k (fun _ => true) + 2 ^ 12 * freeContexts s k + 2 ^ 19 * openChunks s k)
  else if 0x581008 ≤ off ∧ off < 0x581028 then
    match rwin? s (fld (regNat s Reg.ruWinSel) 0 12) with
    | none => some 0
    | some x => some (leAt (windowImage x) (off - 0x581008) 8)
  else if off = 0x581028 then some s.ru.windows.length
  else none

end Sys2Proof.Machine
end

