-- ==== Sys2Proof/Machine/Weft.lean ====
section
/-! DEFINITION. Weft (chapter 08): packets, connections, credit, sequence numbers, delivery, acknowledgement, retransmission,
congestion and the answers to violations. -/

namespace Sys2Proof.Machine

def conn (s : State) (c : Nat) : Conn := Tab.get {} s.wt.conns c

def setConn (s : State) (c : Nat) (x : Conn) : State :=
  { s with wt := { s.wt with conns := Tab.set {} s.wt.conns c x } }

def peer? (s : State) (p : Nat) : Option Peer := Tab.find s.wt.peers p

def etPort (s : State) (p : Nat) : EtPort := Tab.get {} s.et.ports p

def setEtPort (s : State) (p : Nat) (x : EtPort) : State :=
  { s with et := { s.et with ports := Tab.set {} s.et.ports p x } }

/-! Configuration (Tables 08-16, 08-18) -/

def wtWindow (s : State) : Nat := 2 ^ fld (regNat s Reg.wtCfg) 0 5
def wtRtoMin (s : State) : Nat := fld (regNat s Reg.wtCfg) 5 10
def wtRetryMax (s : State) : Nat := fld (regNat s Reg.wtCfg) 15 4
def wtIdle (s : State) : Nat := fld (regNat s Reg.wtCfg) 19 10
def wtUdpPort (s : State) : Nat := fld (regNat s Reg.wtCfg2) 0 16
/-- RATE_MIN and RATE_STEP in units of 0.1 Gb/s. -/
def wtRateMin (s : State) : Nat := 10 * fld (regNat s Reg.wtCfg2) 16 8
def wtRateStep (s : State) : Nat := 10 * fld (regNat s Reg.wtCfg2) 24 8

/-- Line rate of a logical port in units of 0.1 Gb/s (Table 08-1). -/
def lineRate (s : State) : Nat := 8000 / 2 ^ s.et.arrangement

def connTag (x : Conn) : BitVec 11 := mkTag x.ctx x.cls

/-- A record of a connection context, with its peer entry (Table 12-7). -/
def journalConn (s : State) (c : Nat) : State := journalObject s (conn s c).ctx 5 c

/-- Serial comparison of 32-bit counters: a is at or after b. -/
def serialGe (a b : BitVec 32) : Bool := decide ((a - b).toNat < 2 ^ 31)

def serialMax (a b : BitVec 32) : BitVec 32 := if serialGe a b then a else b

/-- Credit units of a length: 256 bytes each. -/
def units (n : Nat) : Nat := cdiv n 256

/-! Packets (R214) -/

namespace WType
def send : Nat := 1
def write : Nat := 2
def reduce : Nat := 3
def ack : Nat := 4
def nak : Nat := 5
def credret : Nat := 6
def connect : Nat := 7
def accept : Nat := 8
def reject : Nat := 9
def close : Nat := 10
def closeAck : Nat := 11
end WType

/-- The Weft part of a datagram: base header, type part, payload and CRC-32C (Tables 08-5 to 08-7). -/
def weftBytes (kind flags dst psn tag src : Nat) (part payload : Bytes) : Bytes :=
  let b := toLe 1 (1 + 16 * kind) ++ toLe 1 flags ++ toLe 2 dst ++ toLe 4 psn ++ toLe 4 tag ++ toLe 2 src ++
    toLe 2 payload.length ++ part ++ payload
  b ++ toLe 4 (crc32c b)

/-! The datagram and its frame (R214) -/

/-- MAC address of a port; addresses are numbers, first transmitted byte highest (log entry 33). -/
def portMac (s : State) (p : Nat) : Nat := regNat s (Reg.etMac p) % 2 ^ 48

/-- An IPv4 address as an IPv4-mapped one (R215). -/
def mapped4 (a : Nat) : Nat := 0xFFFF * 2 ^ 32 + a

def isMapped4 (a : Nat) : Bool := a / 2 ^ 32 == 0xFFFF

def portIp4 (s : State) (p : Nat) : Nat := mapped4 (regNat s (Reg.etIp4 p) % 2 ^ 32)

def portIp6 (s : State) (p : Nat) : Nat := regNat s (Reg.etIp6Lo p) + 2 ^ 64 * regNat s (Reg.etIp6Hi p)

/-- The address from which a port sends to an address of either version. A connection that came from the partner keeps the partner's
(Table 12-7). -/
def localIp (s : State) (p dst : Nat) (partner : Bool) : Nat :=
  let own := if isMapped4 dst then portIp4 s p else portIp6 s p
  match s.sm.addrs.find? (fun e => e.1 == p && isMapped4 e.2 == isMapped4 dst) with
  | some e => if partner then e.2 else own
  | none => own

/-- Sum of big-endian 16-bit words. -/
def sum16 : Bytes → Nat
  | [] => 0
  | [a] => 256 * a.toNat
  | a :: b :: t => 256 * a.toNat + b.toNat + sum16 t

/-- Where a packet goes and how it is marked: the peer entry's fields, the source address and UDP port, ECT(0) (R214, R235). -/
structure Route where
  ip : Nat
  src : Nat
  mac : Nat
  vlan : Option Nat
  prio : Nat
  dscp : Nat
  udp : Nat
  ect : Bool
  deriving DecidableEq, Repr

/-- The UDP header with its checksum over the pseudo header and the datagram, and the Weft part. -/
def udpBytes (s : State) (r : Route) (b : Bytes) : Bytes :=
  let n := 8 + b.length
  let addr (a : Nat) : Bytes := if isMapped4 r.ip then toBe 4 a else toBe 16 a
  let head := toBe 2 r.udp ++ toBe 2 (wtUdpPort s) ++ toBe 2 n
  let c := (65535 - (sum16 (addr r.src ++ addr r.ip) + 17 + n + sum16 (head ++ toBe 2 0 ++ b)) % 65535) % 65535
  head ++ toBe 2 (if c = 0 then 65535 else c) ++ b

/-- The IP packet: IPv4 with DF and no options, or IPv6 (Table 08-2). -/
def ipBytes (s : State) (r : Route) (b : Bytes) : Bytes :=
  let d := udpBytes s r b
  let tos := 4 * r.dscp + (if r.ect then 2 else 0)
  if isMapped4 r.ip then
    let head (c : Nat) : Bytes := toBe 1 0x45 ++ toBe 1 tos ++ toBe 2 (20 + d.length) ++ toBe 2 (Config.ipIdent b).toNat ++
      toBe 2 0x4000 ++ toBe 1 Config.ipHops.toNat ++ toBe 1 17 ++ toBe 2 c ++ toBe 4 r.src ++ toBe 4 r.ip
    head ((65535 - sum16 (head 0) % 65535) % 65535) ++ d
  else
    toBe 4 (6 * 2 ^ 28 + tos * 2 ^ 20 + (Config.flowLabel r.udp).toNat) ++ toBe 2 d.length ++ toBe 1 17 ++
      toBe 1 Config.ipHops.toNat ++ toBe 16 r.src ++ toBe 16 r.ip ++ d

/-- The Ethernet frame of a Weft packet, from the destination MAC address to the byte before the FCS. -/
def weftFrame (s : State) (p : Nat) (r : Route) (b : Bytes) : Bytes :=
  let tag := match r.vlan with
    | some v => toBe 2 0x8100 ++ toBe 2 (8192 * r.prio + v)
    | none => []
  toBe 6 r.mac ++ toBe 6 (portMac s p) ++ tag ++ toBe 2 (if isMapped4 r.ip then 0x0800 else 0x86DD) ++ ipBytes s r b

/-- A priority of a port is stopped by PAUSE or PFC (R211). -/
def prioPaused (s : State) (p prio : Nat) : Bool :=
  let l := (etPort s p).paused
  l.contains 8 || l.contains prio

/-- A frame of Weft leaves its port. -/
def sendFrame (s : State) (p : Nat) (b : Bytes) : State := emit (count s (Reg.etTxFrames p)) (.frame p b)

/-- Weft sends on a port whose link is up, and nothing in safe state (R361). A frame of a priority that is stopped waits for it. -/
def emitWeft (s : State) (p : Nat) (r : Route) (b : Bytes) : State :=
  if (etPort s p).link && !s.th.safe then
    let f := weftFrame s p r b
    if prioPaused s p r.prio then setEtPort s p { etPort s p with held := (etPort s p).held ++ [(r.prio, f)] } else sendFrame s p f
  else s

/-- The frames that waited for a priority that is no longer stopped leave in order. -/
def releaseFrames (s : State) (p : Nat) : State :=
  let x := etPort s p
  let s := setEtPort s p { x with held := x.held.filter (fun e => prioPaused s p e.1) }
  (x.held.filter (fun e => !prioPaused s p e.1)).foldl (fun s e => sendFrame s p e.2) s

/-- A context that the partner allocated, from its half of the numbers (R323). -/
def partnerConn (s : State) (c : Nat) : Bool := !s.sm.addrs.isEmpty && (decide (c < 32768) == s.sm.role)

/-- The way to a connection's peer. -/
def routeOf (s : State) (c : Nat) (x : Conn) (e : Peer) (ect : Bool) : Route :=
  { ip := e.ip.toNat, src := localIp s x.port e.ip.toNat (partnerConn s c), mac := e.mac.toNat, vlan := e.vlan, prio := e.prio
    dscp := e.dscp, udp := x.udpSrc, ect := ect }

/-- A control packet of a connection. -/
def sendControl (s : State) (c kind flags : Nat) (part : Bytes) : State :=
  let x := conn s c
  match peer? s x.peer with
  | none => s
  | some e =>
    let tag := if kind = WType.connect then 0 else x.peerTag.toNat
    let dst := if kind = WType.connect then 0 else x.peerConn
    emitWeft s x.port (routeOf s c x e false) (weftBytes kind flags dst 0 tag c part [])

def words (a b c d : Nat) : Bytes := toLe 4 a ++ toLe 4 b ++ toLe 4 c ++ toLe 4 d

/-- The packet that CUM_PSN + 1 names was received and waits for its target (R228). -/
def heldNext (x : Conn) : Bool := x.rxPkts.any (fun p => p.psn == x.expPsn && !p.delivered)

/-- SACK: bit i for a PSN CUM_PSN + 2 + i that was received. -/
def sackWord (x : Conn) : Nat :=
  ((upto 0 32).map (fun i => if x.rxPkts.any (fun p => p.psn == x.expPsn + BitVec.ofNat 24 (1 + i)) then 2 ^ i else 0)).sum

/-- An ACK of a connection (Table 08-7). The limit is the lowered one while a reclaim runs (R224). -/
def sendAck (s : State) (c : Nat) (reclaim : Bool) : State :=
  let x := conn s c
  let s := sendControl s c WType.ack (32 * b2n reclaim + 64 * b2n (heldNext x))
    (words (x.expPsn - 1).toNat (sackWord x) (x.reclaim.getD x.rxLimit).toNat (min 65535 x.ceCount))
  setConn s c { x with unacked := 0, ackDue := none, ceCount := 0 }

/-! Reports (R234) -/

/-- A report item (Table 08-11). -/
def reportItem (s : State) (kind reason c msg listener detail peerConn : Nat) : Bytes :=
  toLe 1 kind ++ toLe 1 reason ++ toLe 2 c ++ toLe 2 msg ++ toLe 2 listener ++ toLe 4 detail ++ toLe 4 0 ++
    toLe 2 peerConn ++ fill 6 0 ++ toLe 8 (timeNs s)

/-- Link a report item into REPORT_Q; a refused item is counted in WT_REPORT_LOST. -/
def report (s : State) (c kind reason msg listener detail : Nat) : State :=
  let x := conn s c
  match push s x.reportQ 6 (connTag x) (reportItem s kind reason c msg listener detail x.peerConn) false with
  | (.linked _, s) => s
  | (_, s) => count s Reg.wtReportLost

/-! Closing (R218) -/

namespace CloseReason
/-- CLOSED reasons of Table 08-11. -/
def peer : Nat := 0
def loc : Nat := 1
def timeout : Nat := 2
def accessLimit : Nat := 3
def removed : Nat := 4
end CloseReason

/-- The fields of a context as CLOSED leaves them: messages failed and abandoned, credit returned, timers off. -/
def closeConn (now reason : Nat) (x : Conn) : Conn :=
  { x with
    st := .closed, closeReason := reason, closedAt := now
    failed := x.failed + (x.txMsgs.filter (fun m => !m.failed)).length, txMsgs := [], txPkts := []
    rxMsgs := [], rxPkts := [], rxLimit := x.rxCount, connectDue := none, ackDue := none, heldDue := none, reclaim := none
    reclaimDue := none, closeDue := none, unacked := 0 }

/-- A context takes new contents; the cells of the messages that it no longer keeps are free (R233). -/
def putConn (s : State) (c : Nat) (x : Conn) : State :=
  let gone := (conn s c).txMsgs.filter (fun m => !x.txMsgs.any (fun n => n.num == m.num))
  setConn (giveCells s (gone.flatMap (fun m => m.cells))) c x

/-- A context enters CLOSED: partly received SEND messages are abandoned, lines that no unit has taken go with their packets, one CLOSED
item is linked (R218). -/
def enterClosed (s : State) (c reason : Nat) : State :=
  let x := conn s c
  let y := closeConn s.now reason x
  let s := (x.rxMsgs.filter (fun m => m.kind == WType.send)).foldl (fun s m => abandonProg s x.rxQ (weftKey c m.num.toNat)) s
  let s := { s with ru := { s.ru with waiting := s.ru.waiting.filter (fun k =>
    match k.src with
    | .weft d _ => d != c
    | _ => true) } }
  let s := journalConn (putConn s c y) c
  let s := if reason = CloseReason.timeout ∨ reason = CloseReason.accessLimit then
      raiseSrc (count s Reg.wtGiveups) Src.wtGiveup { tag := some (connTag x), object := 5, index := c } else s
  report s c 5 reason 0 0 (y.failed % 2 ^ 32)

/-- CLOSE is sent and the context enters CLOSED at once: give-up, or the sixteenth access-tag mismatch (R218). -/
def giveUp (s : State) (c reason : Nat) : State :=
  enterClosed (sendControl s c WType.close 0 (words reason 0 0 0)) c reason

/-- A CLOSING context with nothing outstanding sends CLOSE (R218). -/
def trySendClose (s : State) (c : Nat) : State :=
  let x := conn s c
  if x.st = .closing ∧ x.txMsgs = [] ∧ !x.closeSent then
    let s := sendControl s c WType.close 0 (words x.closeReason 0 0 0)
    setConn s c { conn s c with closeSent := true, closeDue := some (s.now + us (3 * x.rto)) }
  else s

/-- A close that the manager or TENANT_REMOVE asks for. A context that has no peer yet closes at once (log entry 31). -/
def startClose (s : State) (c reason : Nat) : State :=
  let x := conn s c
  match x.st with
  | .opened => trySendClose (journalConn (setConn s c { x with st := .closing, closeReason := reason }) c) c
  | .connecting => enterClosed s c reason
  | _ => s

/-! Violations (R236) -/

/-- A violation that names a connection's tenant. -/
def violation (s : State) (c reg : Nat) : State :=
  let x := conn s c
  raiseLimited (count s reg) Src.wtViolation x.ctx { tag := some (connTag x), object := 5, index := c }

/-- A violation that names no tenant: at most 64 per port and tick reach Thimble. -/
def portViolation (s : State) (p reg : Nat) : State :=
  raiseLimited (count s reg) Src.wtViolation (400 + p) { object := 13, index := p }

/-- The fields of a received packet. -/
structure WPkt where
  port : Nat
  ip : BitVec 128
  mac : BitVec 48
  vlan : Option Nat
  prio : Nat
  dscp : Nat
  udp : Nat
  ce : Bool
  kind : Nat
  flags : Nat
  dst : Nat
  psn : BitVec 24
  tag : BitVec 32
  src : Nat
  w0 : Nat
  w1 : Nat
  w2 : Nat
  w3 : Nat
  payload : Bytes
  deriving DecidableEq, Repr

def parseWeft (p : WeftPacket) : WPkt :=
  let b := p.bytes
  { port := p.port, ip := p.srcIp, mac := p.srcMac, vlan := p.vlan, prio := p.prio, dscp := p.dscp, udp := p.udpSrc, ce := p.ce
    kind := fld (leAt b 0 1) 4 4, flags := leAt b 1 1, dst := leAt b 2 2, psn := BitVec.ofNat 24 (leAt b 4 3), tag := BitVec.ofNat 32 (leAt b 8 4)
    src := leAt b 12 2, w0 := leAt b 16 4, w1 := leAt b 20 4, w2 := leAt b 24 4, w3 := leAt b 28 4
    payload := slice b 32 (leAt b 14 2) }

def isData (kind : Nat) : Bool := decide (1 ≤ kind ∧ kind ≤ 3)

/-- CRC-32C over all that precedes it. -/
def crcGood (b : Bytes) : Bool :=
  decide (36 ≤ b.length) && leAt b (b.length - 4) 4 == crc32c (b.take (b.length - 4))

/-- Fields of the data part (Table 08-6). -/
def dMsg (p : WPkt) : BitVec 16 := BitVec.ofNat 16 p.w0
def dMsgLen (p : WPkt) : Nat := fld p.w0 16 15
def dOff (p : WPkt) : Nat := fld p.w1 0 14
def dOperand (p : WPkt) : Word := BitVec.ofNat 64 (p.w2 + 2 ^ 32 * p.w3)

/-- OFFSET and LENGTH are consistent with MSG_LEN, the flags and the payload size. -/
def dataShape (plog : Nat) (p : WPkt) : Bool :=
  let n := p.payload.length
  let size := 2 ^ plog
  let last := decide (dOff p + n = dMsgLen p)
  decide (1 ≤ dMsgLen p ∧ dMsgLen p ≤ 16384 ∧ 1 ≤ n) && dOff p % size == 0 && decide (dOff p + n ≤ dMsgLen p) &&
    (n == size || (last && decide (n < size))) && bit p.flags 1 == (dOff p == 0) && bit p.flags 2 == last

/-- A reserved field is non-zero (Tables 08-5 to 08-7). -/
def reservedSet (p : WPkt) (b : Bytes) : Bool :=
  let common := bit p.flags 7 || leAt b 7 1 != 0
  let noPsn := p.psn != 0
  common ||
    (match p.kind with
     | 1 => bit p.flags 5 || bit p.flags 6 || bit p.w0 31 || fld p.w1 14 18 != 0 ||
         (bit p.flags 4 && dOperand p != 0)
     | 2 => fld p.flags 4 3 != 0 || bit p.w0 31 || fld p.w1 14 18 != 0
     | 3 => fld p.flags 4 3 != 0 || bit p.w0 31 || fld p.w1 14 18 != 0
     | 4 => fld p.flags 0 5 != 0 || noPsn || fld p.w0 24 8 != 0 || fld p.w3 16 16 != 0
     | 5 => p.flags != 0 || noPsn || fld p.w1 16 16 != 0
     | 6 => p.flags != 0 || noPsn || p.w1 != 0 || p.w2 != 0 || p.w3 != 0
     | 7 => p.flags != 0 || noPsn || fld p.w0 20 12 != 0 || fld p.w2 24 8 != 0 || p.dst != 0 || p.tag != 0
     | 8 => p.flags != 0 || noPsn || fld p.w0 20 12 != 0 || fld p.w2 24 8 != 0
     | 9 => p.flags != 0 || noPsn || fld p.w0 24 8 != 0 || p.w1 != 0 || p.w2 != 0
     | 10 => p.flags != 0 || noPsn || fld p.w0 8 24 != 0 || p.w1 != 0 || p.w2 != 0 || p.w3 != 0
     | _ => p.flags != 0 || noPsn || p.w0 != 0 || p.w1 != 0 || p.w2 != 0 || p.w3 != 0)

/-- Malformed as Table 08-12 gives, but for what the message and the context decide. -/
def malformed (p : WPkt) (b : Bytes) : Bool :=
  fld (leAt b 0 1) 0 4 != 1 || p.kind == 0 || decide (11 < p.kind) ||
    b.length != 36 + leAt b 14 2 || (!isData p.kind && leAt b 14 2 != 0) || (p.kind != 7 && reservedSet p b)

/-- The packet comes from the context's peer: source IP, UDP source port and SRC_CONN (Table 08-12). -/
def fromPeer (s : State) (x : Conn) (p : WPkt) : Bool :=
  ((peer? s x.peer).map (fun e => e.ip)) == some p.ip && p.udp == x.udpSrc && p.src == x.peerConn

/-- The way back to the source of a packet that no context answers (log entry 78). -/
def routeBack (s : State) (p : WPkt) : Route :=
  { ip := p.ip.toNat, src := localIp s p.port p.ip.toNat false, mac := p.mac.toNat, vlan := p.vlan, prio := p.prio, dscp := p.dscp
    udp := p.udp, ect := false }

/-- A NAK to a packet's source (Table 08-7). -/
def nakTo (s : State) (p : WPkt) (accessTag reason detail src : Nat) : State :=
  emitWeft s p.port (routeBack s p)
    (weftBytes WType.nak 0 p.src 0 accessTag src (words (p.psn.toNat + 2 ^ 24 * reason) (dMsg p).toNat detail p.tag.toNat) [])

/-- NAK(NO_CONN): at most one per µs per port, the rest dropped silently. -/
def nakNoConn (s : State) (p : WPkt) : State :=
  let s := portViolation s p.port Reg.wtNakNoconn
  let x := etPort s p.port
  let early := match x.nakAt with
    | some t => decide (s.now < t + us 1)
    | none => false
  if early then s else setEtPort (nakTo s p 0 1 0 0) p.port { etPort s p.port with nakAt := some s.now }

/-- An access-tag mismatch from the context's peer: NAK(ACCESS) for data, MISS + 1, the close at the sixteenth. -/
def tagMiss (s : State) (c : Nat) (p : WPkt) : State :=
  let x := conn s c
  let s := violation s c Reg.wtTagMiss
  let s := if isData p.kind then nakTo s p x.peerTag.toNat 2 0 c else s
  let s := setConn s c { conn s c with miss := x.miss + 1 }
  if x.miss + 1 = 16 then giveUp s c CloseReason.accessLimit else s

/-- A malformed packet: a violation of the tenant whose connection it names from its peer, else of the port (R236). -/
def malformedPkt (s : State) (p : WPkt) : State :=
  let x := conn s p.dst
  if isData p.kind && (x.st == .opened || x.st == .closing) && fromPeer s x p then violation s p.dst Reg.wtMalformed
  else portViolation s p.port Reg.wtMalformed

/-- The checks that every packet of one type passes first; what is left is the packet of a context. The row of another
type does not take place. The packet is one received frame of its port. -/
def receive (s : State) (w : WeftPacket) (kind : Nat) (body : State → WPkt → State) : Ans :=
  let p := parseWeft w
  if p.kind ≠ kind ∨ !(etPort s w.port).link then idle s
  else
    let s := count s (Reg.etRxFrames w.port)
    if s.th.safe then .next (count s (Reg.etDropOther w.port))
    else if !crcGood w.bytes then .next (portViolation s w.port Reg.wtBadCrc)
    else if malformed p w.bytes then .next (malformedPkt s p)
    else .next (body s p)

/-- A packet for an OPEN or CLOSING context from its peer, with the context's tag where `tagged`. -/
def forConn (s : State) (p : WPkt) (body : State → Conn → State) : State :=
  let x := conn s p.dst
  if !(x.st == .opened || x.st == .closing) || !fromPeer s x p then nakNoConn s p
  else if p.tag ≠ x.localTag then tagMiss s p.dst p
  else body s x

/-! Delivery (R225, R226, R228, R230 to R232) -/

def psnDiff (a b : BitVec 24) : Nat := (a - b).toNat

/-- The receiver's count of a packet that it accepts, and its ACK timer. -/
def noteData (now : Nat) (p : WPkt) (x : Conn) : Conn :=
  { x with
    rxCount := x.rxCount + BitVec.ofNat 32 (units p.payload.length)
    ceCount := x.ceCount + b2n p.ce
    unacked := x.unacked + 1
    ackDue := if x.ackDue.isSome then x.ackDue else some (now + us 2)
    lastData := now }

/-- The JSN up to which a delivery counts: any for a context that is not mirrored (R335). -/
def heldJsn (s : State) (ctx : Nat) : Nat := if enrolledCtx s ctx then s.sm.jsnAcked else s.sm.jsnSent

/-- EXP_PSN moves past every delivered packet in sequence whose records the partner holds, up to a JSN (R335). -/
def advanceExp (held : Nat) : Nat → Conn → Conn
  | 0, x => x
  | n + 1, x =>
    match x.rxPkts.find? (fun p => p.psn == x.expPsn) with
    | some p =>
      if p.delivered && decide (p.jsn ≤ held) then
        advanceExp held n { x with expPsn := x.expPsn + 1, rxPkts := x.rxPkts.erase p }
      else x
    | none => x

/-- A HELD ACK is due once the packet at CUM_PSN + 1 waits for its target (R228). -/
def armHeld (s : State) (x : Conn) : Conn :=
  if heldNext x && x.heldDue.isNone then { x with heldDue := some (s.now + us (wtRtoMin s)) } else x

/-- The packet's payload has reached its ordering point. -/
def markDelivered (s : State) (c : Nat) (psn : BitVec 24) : State :=
  let x := conn s c
  let j := if enrolledCtx s x.ctx then s.sm.jsnSent else 0
  setConn s c (armHeld s (advanceExp (heldJsn s x.ctx) 65 { x with
    rxPkts := x.rxPkts.map (fun p => if p.psn = psn then { p with delivered := true, jsn := j } else p) }))

/-- The partner's acknowledgement lets the packets that waited for it count as delivered; the ACK timer sends what it
covers (R226, R335). -/
def ackHeld (s : State) : State :=
  { s with wt := { s.wt with conns := Tab.mapAll (fun _ x =>
      let y := advanceExp (heldJsn s x.ctx) 65 x
      if y.expPsn = x.expPsn then x else { y with ackDue := some (y.ackDue.getD (s.now + us 2)) }) s.wt.conns } }

/-- The whole message has been received. -/
def msgWhole (m : RxMsg) : Bool := decide (Tab.sum (fun _ b => b.length) m.parts = m.len)

def msgBytes (m : RxMsg) : Bytes := m.parts.flatMap (fun e => e.2)

def setMsg (x : Conn) (m : RxMsg) : Conn :=
  { x with rxMsgs := x.rxMsgs.map (fun n => if n.num = m.num then m else n) }

/-- Every packet of a WRITE or REDUCE message has reached its ordering point. -/
def msgDone (x : Conn) (m : RxMsg) : Bool :=
  msgWhole m && !(x.rxPkts.any (fun p => p.msg == m.num && !p.delivered))

/-- The event of an item linked into the receive queue: the connection's PACKET event where it is bound, else the queue's. -/
def packetEvent (s : State) (c q : Nat) : State :=
  if (bindingOf s .packet c).isSome then raiseEvent s .packet c (BitVec.ofNat 64 q) none else raiseEvent s .queue q 0 none

/-- A SEND item reaches its queue: linked, discarded by a flush after it began (R174), or not yet; none where the named
queue refuses it for access. -/
inductive SendLink where
  | linked (s : State)
  | hold (s : State)
  | refused (s : State)

/-- The cells that a message in progress holds against the receive queue. -/
def msgCells (s : State) (q key : Nat) : List Nat :=
  (((queue? s q).bind (fun y => Tab.find y.prog key)).map (fun g => g.cells)).getD []

/-- The item of the receive queue links there; that of a named queue takes its cells with it (R230). -/
def linkSend (s : State) (c : Nat) (x : Conn) (m : RxMsg) : SendLink :=
  let key := weftKey c m.num.toNat
  if m.defq then
    match queue? s x.rxQ with
    | none => .refused (qmRefuse s x.rxQ (connTag x))
    | some y =>
      if !queueRoom s y 1 m.len then .hold (journalWait s)
      else
        match finishProg s x.rxQ key 0 (msgBytes m) m.poison with
        | (true, s) => .linked (packetEvent s c x.rxQ)
        | (false, s) => .linked s
  else
    let o := m.operand.toNat
    match pushCells (dropProg s x.rxQ key) (fld o 0 14) (fld o 16 3) (connTag x) (msgBytes m) m.poison (msgCells s x.rxQ key) with
    | (.linked _, s) => .linked s
    | (.full, _) => .hold s
    | (.wait, _) => .hold (journalWait s)
    | (.access, s) => .refused s

/-- Drop the record of a message that is linked, done or long past. -/
def passMsg (x : Conn) (m : RxMsg) (keep : Bool) : Conn :=
  let x := { x with nextLink := m.num + 1 }
  if keep then x else { x with rxMsgs := x.rxMsgs.filter (fun n => n.num != m.num) }

/-- A refusal found when a SEND item links: NAK(ACCESS) for its last packet, which counts as delivered (R230). -/
def lastPsn (x : Conn) (m : RxMsg) : Option RxPkt :=
  x.rxPkts.find? (fun p => p.msg == m.num && !p.delivered)

def nakLocal (s : State) (c : Nat) (psn : BitVec 24) (msg : BitVec 16) (reason detail : Nat) : State :=
  sendControl s c WType.nak 0 (words (psn.toNat + 2 ^ 24 * reason) msg.toNat detail (conn s c).localTag.toNat)

/-- Link and pass messages in MSG order as far as they are complete (R231). -/
def advanceMsgs (c : Nat) : Nat → State → State
  | 0, s => s
  | n + 1, s =>
    let x := conn s c
    match x.rxMsgs.find? (fun m => m.num == x.nextLink) with
    | none => s
    | some m =>
      if m.refused.isSome then advanceMsgs c n (setConn s c (passMsg x m true))
      else if m.kind ≠ WType.send then
        if msgDone x m then advanceMsgs c n (setConn s c (passMsg x m false)) else s
      else if !msgWhole m then s
      else
        match linkSend s c x m with
        | .linked s =>
          let s := setConn s c (passMsg (conn s c) m false)
          let s := match lastPsn (conn s c) m with
            | some p => markDelivered s c p.psn
            | none => s
          advanceMsgs c n s
        | .hold s => setConn s c (armHeld s (conn s c))
        | .refused s =>
          let s := violation s c Reg.wtNakAccess
          let s := match lastPsn (conn s c) m with
            | some p => markDelivered (nakLocal s c p.psn m.num 2 0) c p.psn
            | none => s
          advanceMsgs c n (setConn s c (passMsg (setMsg (conn s c) { m with refused := some (2, 0), parts := [] }) m true))

/-- What the target of a WRITE or REDUCE packet answers. -/
inductive Target where
  | took (s : State)
  | hold (s : State)
  | refuse (s : State) (reason detail : Nat)

/-- The pool address of a WRITE, in the owner's pool space (R230). -/
def writeAddr (x : Conn) (a : Nat) : PoolAddr := if x.ctx = mgt then .ppa a else .tpa a

/-- Pieces of a span by 64-byte line: each line is checked by itself. -/
def linePieces (a n : Nat) : List (Nat × Nat) :=
  (linesOf a n).map (fun l => (max a (64 * l), min (a + n) (64 * l + 64) - max a (64 * l)))

/-- Write line by line until one is refused. -/
def writeLines (x : Conn) (poison : Bool) : List (Nat × Nat) → Bytes → State → Target
  | [], _, s => .took s
  | (a, n) :: t, b, s =>
    match check s (connTag x) (writeAddr x a) true with
    | .allow ppa _ => writeLines x poison t (b.drop n) (poolStore s (connTag x) ppa (b.take n) poison)
    | .zero _ => .refuse (poolDenied s (connTag x) none) 2 0
    | .deny g => .refuse (poolDenied s (connTag x) g) 2 0

/-- The journal has room for a WRITE packet of a mirrored granule. -/
def writeReady (s : State) (x : Conn) (a n : Nat) : Bool :=
  (linePieces a n).all (fun l =>
    match check s (connTag x) (writeAddr x l.1) true with
    | .allow ppa _ => !mirrors s ppa || journalRoom s (cdiv n 64 + 1) n
    | _ => true)

def takeWrite (s : State) (x : Conn) (m : RxMsg) (off : Nat) (b : Bytes) (poison : Bool) : Target :=
  let a := m.operand.toNat + off
  if !poolWordOk' x.ctx a then .refuse (poolDenied s (connTag x) none) 2 0
  else if !writeReady s x a b.length then .hold (journalWait s)
  else writeLines x poison (linePieces a b.length) b s
where
  /-- A TPA's zero bits, or a PPA below 2^38 (R55). -/
  poolWordOk' (ctx a : Nat) : Bool :=
    if ctx = mgt then decide (a < 2 ^ 38) else decide (a < 2 ^ 39) && (!bit a 38 || fld a 33 5 == 0)

/-- Present the lines of a REDUCE packet; a line that waits joins the waiting lines with the epoch it was checked against. -/
def takeLines (tag : BitVec 11) (c psn w : Nat) (poison : Bool) (epoch : Nat) : List (Nat × Line) → State → Bool → Target
  | [], s, waits => if waits then .hold s else .took s
  | (off, l) :: t, s, waits =>
    let k : Contrib := { src := .weft c psn, tag := tag, window := w, offset := off, epoch := epoch, data := l, poison := poison }
    let ahead := s.ru.waiting.any (fun j => j.window == w && j.offset / 65536 == off / 65536 &&
      (match j.src with
       | .weft _ _ => true
       | _ => false))
    if ahead then takeLines tag c psn w poison epoch t (queueLine s k) true
    else
      match presentLine s k with
      | .took s => takeLines tag c psn w poison epoch t s waits
      | .wait s => takeLines tag c psn w poison epoch t (queueLine s k) true
      | .stale => .refuse s 3 (w + 2 ^ 24 * (epoch % 256))

/-- The lines of a payload, with their offsets in the window. -/
def payloadLines (off : Nat) (b : Bytes) : List (Nat × Line) :=
  (upto 0 (b.length / 64)).map (fun i => (off + 64 * i, bytesLine (slice b (64 * i) 64)))

def takeReduce (s : State) (c : Nat) (x : Conn) (m : RxMsg) (psn : BitVec 24) (off : Nat) (b : Bytes) (poison : Bool) : Target :=
  let o := m.operand.toNat
  let w := fld o 0 12
  let base := fld o 32 32 + off
  let bad := (upto 0 (b.length / 64)).findSome? (fun i =>
    contribCheck s (connTag x) w (fld o 12 12) (base + 64 * i) (some (fld o 24 8)))
  match bad with
  | some r =>
    let e := ((rwin? s w).map (fun y => y.epoch)).getD 0
    .refuse (contribRefuse s (connTag x) w r) (if r = .stale then 3 else 2) (if r = .stale then w + 2 ^ 24 * (e % 256) else 0)
  | none =>
    takeLines (connTag x) c psn.toNat w poison (((rwin? s w).map (fun y => y.epoch)).getD 0) (payloadLines base b) s false

/-- A refused packet: the message fails, the PSN counts as delivered, NAK (R230). -/
def refusePkt (s : State) (c : Nat) (psn : BitVec 24) (m : RxMsg) (reason detail : Nat) : State :=
  let s := violation s c (if reason = 3 then Reg.wtNakStale else Reg.wtNakAccess)
  let s := nakLocal s c psn m.num reason detail
  let s := setConn s c (setMsg (conn s c) { m with refused := some (reason, detail), parts := [] })
  markDelivered s c psn

/-- Deliver one accepted packet to its target, the message record being in the context. A SEND packet is written into cells of the
receive queue, which the credit held for it (R221, R230). -/
def deliverPkt (s : State) (c : Nat) (psn : BitVec 24) (m : RxMsg) (off : Nat) (b : Bytes) (poison : Bool) : State :=
  let x := conn s c
  match m.refused with
  | some (reason, detail) => refusePkt s c psn m reason detail
  | none =>
  if m.kind = WType.send then
    let m := { m with parts := Tab.put m.parts off b, poison := m.poison || poison }
    let s := holdCells (setConn s c (setMsg x m)) x.rxQ (weftKey c m.num.toNat) (connTag x) (units b.length)
    if off + b.length = m.len then s else markDelivered s c psn
  else
    let r := if m.kind = WType.write then takeWrite s x m off b poison else takeReduce s c x m psn off b poison
    let m' := { m with parts := Tab.put m.parts off b }
    match r with
    | .took s => markDelivered (setConn s c (setMsg (conn s c) m')) c psn
    | .hold s =>
      let y := setMsg (conn s c) m'
      setConn s c (armHeld s y)
    | .refuse s reason detail => refusePkt s c psn m reason detail

/-- The message that a packet belongs to, opened by its first packet to arrive; none where MSG_LEN, TYPE or OPERAND has
changed within it, which makes the packet malformed. -/
def msgOf (x : Conn) (p : WPkt) : Option (Conn × RxMsg) :=
  match x.rxMsgs.find? (fun m => m.num == dMsg p) with
  | some m =>
    if m.len = dMsgLen p ∧ m.kind = p.kind ∧ m.operand = dOperand p ∧ m.defq = bit p.flags 4 then some (x, m) else none
  | none =>
    let m : RxMsg := { num := dMsg p, kind := p.kind, len := dMsgLen p, defq := bit p.flags 4, operand := dOperand p }
    some ({ x with rxMsgs := (x.rxMsgs.filter (fun n =>
      n.refused.isNone || decide ((x.nextLink - n.num).toNat ≤ 64) || decide (2 ^ 15 < (x.nextLink - n.num).toNat))) ++ [m] }, m)

/-- A data packet that has passed its checks: accepted, delivered, acknowledged as R226 says. -/
def acceptData (s : State) (p : WPkt) (x : Conn) : State :=
  let c := p.dst
  match msgOf x p with
  | none => violation s p.dst Reg.wtMalformed
  | some (x, m) =>
    let d := psnDiff p.psn x.expPsn
    let poison := bit p.flags 0
    let x := noteData s.now p x
    let k : RxPkt := { psn := p.psn, msg := m.num, off := dOff p, delivered := false, poison := poison }
    let s := setConn s c { x with rxPkts := x.rxPkts ++ [k] }
    let s := if p.ce then count s Reg.wtCeRx else s
    let s := advanceMsgs c 66 (deliverPkt s c p.psn m (dOff p) p.payload poison)
    let s := journalConn s c
    let y := conn s c
    if (y.st = .opened ∨ y.st = .closing) ∧ (bit p.flags 3 ∨ 0 < d ∨ 8 ≤ y.unacked) then sendAck s c false else s

/-- REDUCE offsets and lengths are multiples of 64 (R230). -/
def lineShape (p : WPkt) : Bool :=
  p.kind != WType.reduce || (p.payload.length % 64 == 0 && fld p.w3 0 32 % 64 == 0 && dMsgLen p % 64 == 0)

/-- A received data packet (R222, R225, R236). -/
def receiveData (s : State) (p : WPkt) : State :=
  let x := conn s p.dst
  if !(x.st == .opened || x.st == .closing) || !fromPeer s x p then nakNoConn s p
  else if !dataShape x.plog p ∨ !lineShape p then violation s p.dst Reg.wtMalformed
  else
    let d := psnDiff p.psn x.expPsn
    let win := wtWindow s
    if win ≤ d ∧ d < 2 ^ 24 - win then violation s p.dst Reg.wtOow
    else if p.tag ≠ x.localTag then tagMiss s p.dst p
    else if 2 ^ 24 - win ≤ d ∨ (d < 64 ∧ x.rxPkts.any (fun k => k.psn == p.psn)) then
      sendAck (count s Reg.wtDup) p.dst false
    else if 64 ≤ d then count s Reg.wtReorderDrop
    else if (x.rxLimit - x.rxCount).toNat < units p.payload.length then violation s p.dst Reg.wtCreditViol
    else acceptData s p x

/-- SEND received. -/
def execSend (p : WeftPacket) (s : State) : Ans := receive s p WType.send receiveData

/-- WRITE received. -/
def execWrite (p : WeftPacket) (s : State) : Ans := receive s p WType.write receiveData

/-- REDUCE received. -/
def execReduce (p : WeftPacket) (s : State) : Ans := receive s p WType.reduce receiveData

/-- The waiting lines of one REDUCE packet, from place i on, enter their units as those serve them; the answer tells whether one was
found stale. -/
def retryLines (c psn : Nat) : Nat → Nat → State → State × Option Nat
  | 0, _, s => (s, none)
  | n + 1, i, s =>
    match (s.ru.waiting.drop i).findIdx? (fun k => k.src == .weft c psn) with
    | none => (s, none)
    | some d =>
      let j := i + d
      match s.ru.waiting[j]? with
      | none => (s, none)
      | some k =>
        let u := { s with ru := { s.ru with waiting := s.ru.waiting.eraseIdx j } }
        if aheadOf s.ru.waiting j k then retryLines c psn n (j + 1) s
        else
          match serveLine s j k with
          | none => retryLines c psn n (j + 1) s
          | some t =>
            match presentLine { u with sc := t.sc } k with
            | .took s => retryLines c psn n j s
            | .wait _ => retryLines c psn n (j + 1) s
            | .stale => ((retryLines c psn n j u).1, some k.window)

/-- HELD_PACKET_DELIVERY: a held packet's target takes it; the packet is then acknowledged (R228). -/
def execHeldPacketDelivery (c psn : Nat) (s : State) : Ans :=
  let x := conn s c
  match x.rxPkts.find? (fun p => p.psn.toNat == psn && !p.delivered) with
  | none => idle s
  | some p =>
    if s.th.safe then idle s else
    match x.rxMsgs.find? (fun m => m.num == p.msg) with
    | none => .next (sendAck (markDelivered s c p.psn) c false)
    | some m =>
      let fin (s : State) : State :=
        let s := advanceMsgs c 66 s
        if (conn s c).rxPkts.any (fun k => k.psn == p.psn && !k.delivered) then s else sendAck (journalConn s c) c false
      if m.kind = WType.send then .next (fin s)
      else if m.kind = WType.write then
        match takeWrite s x m p.off (Tab.get [] m.parts p.off) p.poison with
        | .took s => .next (fin (markDelivered s c p.psn))
        | .hold s => .next s
        | .refuse s reason detail => .next (fin (refusePkt s c p.psn m reason detail))
      else
        let (s, st) := retryLines c psn (s.ru.waiting.length + 1) 0 s
        match st with
        | some w =>
          let s := contribRefuse s (connTag x) w .stale
          .next (fin (refusePkt s c p.psn m 3 (w + 2 ^ 24 * ((((rwin? s w).map (fun y => y.epoch)).getD 0) % 256))))
        | none =>
          if s.ru.waiting.any (fun k => k.src == .weft c psn) then .next s else .next (fin (markDelivered s c p.psn))

/-! Credit (R221, R224) -/

/-- Units that the receiver could hold for a connection now but for its port's set-aside (R164, R173, R221). -/
def grantWant (s : State) (x : Conn) : Nat :=
  match queue? s x.rxQ with
  | none => 0
  | some y =>
    if y.destroyed ∨ allocStop s ∨ y.blocked then 0
    else
      let cap := 2 ^ (x.grantLog + 4) - (x.rxLimit - x.rxCount).toNat
      let room := if x.ctx = y.ctx then y.limit - (qCells y + creditHeld s x.rxQ y true + y.sendLimit)
        else y.sendLimit - (sendCells y + creditHeld s x.rxQ y false)
      let quota := if x.rxQ = mgtQueue then freeCells s else cellQuota s x.ctx - (ctxCells s x.ctx + ctxAside s x.ctx)
      let pool := if x.ctx = mgt then freeCells s else (sharedFree s).toNat
      min (min cap room) (min quota pool)

/-- A connection may be granted credit: it is open, its tenant runs, no reclaim runs. -/
def grants (s : State) (x : Conn) : Bool :=
  (x.st == .opened || x.st == .closing) && ctxMode s x.ctx == .running && x.reclaim.isNone && !s.th.safe

/-- What is left of a port's set-aside. -/
def asideLeft (s : State) (p : Nat) : Nat := portAside s.et.arrangement - portHeld s p

/-- The port's other connections that want credit, each for its next unit. -/
def wanting (s : State) (c : Nat) (x : Conn) : List (Nat × Nat × Ready) :=
  s.wt.conns.filterMap (fun e =>
    if e.1 ≠ c ∧ e.2.port = x.port ∧ grants s e.2 ∧ 0 < grantWant s e.2 then
      some (e.1, grantWant s e.2, { tag := connTag e.2, len := 256 })
    else none)

/-- On a set-aside that is short the port's share arbiter deals it out unit by unit (Table 09-2): the units that connection x takes before
another's turn comes. -/
def dealUnits (x : Conn) (others : List Ready) : Nat → State → Nat × State
  | 0, s => (0, s)
  | n + 1, s =>
    match serve s (24 + x.port) { tag := connTag x, len := 256 } others with
    | none => (0, s)
    | some s =>
      let r := dealUnits x others n s
      (r.1 + 1, r.2)

/-- Units granted to a connection now (R221). -/
def grantUnits (s : State) (c : Nat) (x : Conn) : Nat × State :=
  let want := grantWant s x
  let left := asideLeft s x.port
  let others := wanting s c x
  if want + (others.map (fun e => e.2.1)).sum ≤ left then (want, s)
  else dealUnits x (others.map (fun e => e.2.2)) (min want left) s

/-- The limit rises by units granted: cells are held for them (R173). -/
def raiseLimit (s : State) (c n : Nat) : State :=
  let x := conn s c
  noteLow (setConn s c { x with rxLimit := x.rxLimit + BitVec.ofNat 32 n })

/-- CREDIT_GRANT: the limit rises for room now held, and an ACK advertises it (R221, R226). Not under a freeze. -/
def execCreditGrant (c : Nat) (s : State) : Ans :=
  let x := conn s c
  if !grants s x then idle s
  else
    match grantUnits s c x with
    | (0, _) => idle s
    | (n + 1, s) => .next (sendAck (journalConn (raiseLimit s c (n + 1)) c) c false)

/-- The owner's quota is below the cells held for it (R224). -/
def overQuota (s : State) (x : Conn) : Bool := decide (cellQuota s x.ctx < ctxCells s x.ctx + ctxAside s x.ctx)

/-- IDLE_RECLAIM: the limit is lowered to RX_COUNT with a RECLAIM ACK (R224). -/
def execIdleReclaim (c : Nat) (s : State) : Ans :=
  let x := conn s c
  if !(x.st == .opened || x.st == .closing) ∨ x.rxLimit = x.rxCount ∨ x.reclaim.isSome ∨ s.th.safe then idle s
  else
    let s := if overQuota s x then s else passTo s (x.lastData + us (wtIdle s))
    .next (sendAck (setConn s c { x with reclaim := some x.rxCount, reclaimDue := some (s.now + us x.rto) }) c true)

/-- RECLAIM_REPEAT: every RTO until the CREDRET arrives. -/
def execReclaimRepeat (c : Nat) (s : State) : Ans :=
  let x := conn s c
  match x.reclaimDue with
  | none => idle s
  | some d =>
    if s.th.safe then idle s
    else
      let s := passTo s d
      .next (sendAck (setConn s c { x with reclaimDue := some (s.now + us x.rto) }) c true)

/-- CREDRET received: RX_LIMIT becomes the larger of L′ and ISSUED, the rest is released (R224). -/
def execCredret (p : WeftPacket) (s : State) : Ans :=
  receive s p WType.credret (fun s p => forConn s p (fun s x =>
    match x.reclaim with
    | none => s
    | some l =>
      journalConn (setConn s p.dst { x with
        rxLimit := serialMax l (BitVec.ofNat 32 p.w0), reclaim := none, reclaimDue := none }) p.dst))

/-! Timers of the receiver (R226, R228) -/

/-- ACK_TIMER: 2 µs after the oldest unacknowledged packet. -/
def execAckTimer (c : Nat) (s : State) : Ans :=
  match (conn s c).ackDue with
  | none => idle s
  | some d => if s.th.safe then idle s else .next (sendAck (passTo s d) c false)

/-- HELD_ACK_TIMER: a HELD ACK every RTO_MIN while the packet at CUM_PSN + 1 waits. -/
def execHeldAckTimer (c : Nat) (s : State) : Ans :=
  let x := conn s c
  match x.heldDue with
  | none => idle s
  | some d =>
    if s.th.safe then idle s
    else
      let s := passTo s d
      if heldNext x then .next (sendAck (setConn s c { x with heldDue := some (s.now + us (wtRtoMin s)) }) c false)
      else .next (setConn s c { x with heldDue := none })

/-! The sending side (R227, R229, R233 to R235) -/

/-- Packets of a message. -/
def packetsOf (x : Conn) (m : TxMsg) : Nat := cdiv m.bytes.length (2 ^ x.plog)

/-- RTO in µs: the larger of RTO_MIN and 3 × SRTT, at most 1,000 (R227). -/
def rtoOf (s : State) (x : Conn) : Nat := min 1000 (max (wtRtoMin s) (cdiv (3 * x.srtt) 1000))

/-- One data packet on the wire. ACKREQ is set on LAST and on every sixteenth PSN. -/
def dataPacket (c : Nat) (x : Conn) (m : TxMsg) (i : Nat) (psn : BitVec 24) : Bytes :=
  let size := 2 ^ x.plog
  let last := i + 1 = packetsOf x m
  let flags := b2n (m.poison.contains i) + 2 * b2n (i == 0) + 4 * b2n (decide last) +
    8 * b2n (decide last || psn.toNat % 16 == 15) + 16 * b2n m.defq
  weftBytes m.kind flags x.peerConn psn.toNat x.peerTag.toNat c
    (toLe 2 m.num.toNat ++ toLe 2 m.bytes.length ++ toLe 4 (i * size) ++ toLe 8 m.operand.toNat)
    (slice m.bytes (i * size) size)

/-- Put a data packet on the connection's port. -/
def emitData (s : State) (c : Nat) (x : Conn) (m : TxMsg) (i : Nat) (psn : BitVec 24) : State :=
  match peer? s x.peer with
  | none => s
  | some e => emitWeft s x.port (routeOf s c x e x.ecn) (dataPacket c x m i psn)

/-- Transmission of the connection's priority is stopped by PAUSE or PFC. -/
def txPaused (s : State) (x : Conn) : Bool := prioPaused s x.port (((peer? s x.peer).map (fun e => e.prio)).getD 0)

/-- Send a packet again (R227). -/
def resend (s : State) (c : Nat) (psn : BitVec 24) : State :=
  let x := conn s c
  match x.txPkts.find? (fun k => k.psn == psn) with
  | none => s
  | some k =>
    match x.txMsgs.find? (fun m => m.num == k.msg) with
    | none => s
    | some m =>
      let s := count (emitData s c x m k.idx psn) Reg.wtRetx
      let due := s.now + us x.rto
      setConn s c { x with txPkts := x.txPkts.map (fun j =>
        if j.psn = psn then { j with again := false, resent := true, sentAt := s.now, due := some due } else j) }

/-- The first message with a packet to send for the first time. -/
def nextMsg (x : Conn) : Option TxMsg := x.txMsgs.find? (fun m => !m.failed && decide (m.sent < packetsOf x m))

/-- PACKET_TRANSMIT: a packet to be sent again first, else the next packet of the oldest message, within the window and not
under a freeze (R225, R235, R240). Pacing only delays (log entry 32). -/
def execPacketTransmit (c : Nat) (s : State) : Ans :=
  let x := conn s c
  if !(x.st == .opened || x.st == .closing) ∨ s.th.safe ∨ !(etPort s x.port).link ∨ txPaused s x then idle s
  else
    match x.txPkts.find? (fun k => k.again) with
    | some k => .next (resend s c k.psn)
    | none =>
      match nextMsg x with
      | none => idle s
      | some m =>
        if (ctxMode s x.ctx ≠ .running ∧ ctxMode s x.ctx ≠ .removed) ∨ wtWindow s ≤ x.txPkts.length then idle s
        else
          let s := emitData s c x m m.sent x.nextPsn
          let k : TxPkt := { psn := x.nextPsn, msg := m.num, idx := m.sent, sentAt := s.now, due := some (s.now + us x.rto) }
          .next (journalConn (setConn s c { x with
            nextPsn := x.nextPsn + 1, txPkts := x.txPkts ++ [k]
            txMsgs := x.txMsgs.map (fun n => if n.num = m.num then { n with sent := n.sent + 1 } else n) }) c)

/-- A message with nothing left outstanding: acknowledged whole, or failed with all its sent packets acknowledged. -/
def msgOver (x : Conn) (m : TxMsg) : Bool := m.acked == (if m.failed then m.sent else packetsOf x m)

/-- Free the messages that are over; ACKED_MSG advances over them in order (R233). -/
def retireMsgs (x : Conn) : Nat → Conn
  | 0 => x
  | n + 1 =>
    match x.txMsgs with
    | [] => x
    | m :: t => if msgOver x m then retireMsgs { x with txMsgs := t, ackedMsg := m.num } n else x

/-- Smoothed round trip (R227): the first sample, then weight 1/8; in ns, saturating. -/
def smooth (srtt sample : Nat) : Nat :=
  min 65535 (if srtt = 0 then sample else (7 * srtt + sample) / 8)

/-- Packets up to CUM_PSN are acknowledged. -/
def ackPkts (now : Nat) (x : Conn) (n : Nat) : Conn :=
  let gone := x.txPkts.take n
  let x := gone.foldl (fun x k =>
    { x with
      srtt := if k.resent then x.srtt else smooth x.srtt ((now - k.sentAt) / 8)
      txMsgs := x.txMsgs.map (fun m => if m.num = k.msg then { m with acked := m.acked + 1 } else m) }) x
  retireMsgs { x with txPkts := x.txPkts.drop n, unaPsn := x.unaPsn + BitVec.ofNat 24 n } (x.txMsgs.length + 1)

/-- SACK: packets received are noted; one still missing below the highest PSN received is sent again (R227). -/
def sackPkts (cum : BitVec 24) (sack : Nat) (held : Bool) (x : Conn) : Conn :=
  let top := (upto 0 32).foldl (fun t i => if bit sack i then i + 1 else t) 0
  { x with txPkts := x.txPkts.map (fun k =>
      let i := psnDiff k.psn (cum + 1)
      if i = 0 ∧ held then { k with due := none, again := false }
      else if 0 < i ∧ i ≤ 32 ∧ bit sack (i - 1) then { k with sacked := true, again := false, due := none }
      else if i < top ∧ !k.sacked then { k with again := true }
      else k) }

/-- RATE after an ACK of n new packets with c CE marks, on a connection that acts on CE (R235, Table 08-8). -/
def cutRate (s : State) (x : Conn) (n c : Nat) : Conn :=
  if c = 0 ∨ !x.ecn then x
  else
    let x := { x with rateDue := s.now + us 10 }
    if n = 0 ∨ s.now < x.lastCut + max (ns x.srtt) (us 2) then x
    else { x with rate := max (wtRateMin s) (x.rate * (2 * n - c) / (2 * n)), lastCut := s.now }

/-- A received ACK from the context's peer. -/
def takeAck (s : State) (p : WPkt) (x : Conn) : State :=
  let c := p.dst
  let cum := BitVec.ofNat 24 p.w0
  let n := psnDiff (cum + 1) x.unaPsn
  let out := psnDiff x.nextPsn x.unaPsn
  if out < n ∧ n < 2 ^ 23 then violation s c Reg.wtBadAck
  else if 2 ^ 23 ≤ n then s
  else
    let held := bit p.flags 6
    let x := if n = 0 then x else
      let y := ackPkts s.now x n
      { y with rto := rtoOf s y, timeouts := 0 }
    let x := sackPkts cum p.w1 held (if held then { x with timeouts := 0 } else x)
    let x := cutRate s x n (fld p.w3 0 16)
    let x := { x with txLimit := BitVec.ofNat 32 p.w2 }
    let s := putConn s c x
    let s := if bit p.flags 5 then sendControl s c WType.credret 0 (words x.txIssued.toNat 0 0 0) else s
    trySendClose (journalConn s c) c

/-- ACK received. -/
def execAck (p : WeftPacket) (s : State) : Ans :=
  receive s p WType.ack (fun s p => forConn s p (fun s x => takeAck s p x))

/-- A message fails once, with one report item (R234). -/
def failMsg (s : State) (c : Nat) (msg : BitVec 16) (reason detail : Nat) : State :=
  let x := conn s c
  match x.txMsgs.find? (fun m => m.num == msg && !m.failed) with
  | none => s
  | some _ =>
    let x := retireMsgs { x with
      txMsgs := x.txMsgs.map (fun m => if m.num = msg then { m with failed := true } else m) } (x.txMsgs.length + 1)
    report (putConn s c { x with failed := x.failed + 1 }) c 4 reason msg.toNat 0 detail

/-- The sender accepts a NAK (R234). -/
def nakOk (s : State) (x : Conn) (p : WPkt) : Bool :=
  (x.st == .opened || x.st == .closing) && fromPeer s x p &&
    decide (psnDiff (BitVec.ofNat 24 p.w0) x.unaPsn < psnDiff x.nextPsn x.unaPsn) &&
    (if fld p.w0 24 8 = 1 then BitVec.ofNat 32 p.w3 == x.peerTag else p.tag == x.localTag)

/-- A NAK(NO_CONN) carries no SRC_CONN of the context; its source is matched by address and port. -/
def nakNoConnOk (s : State) (x : Conn) (p : WPkt) : Bool :=
  fld p.w0 24 8 == 1 && nakOk s x { p with src := x.peerConn }

/-- A received NAK. -/
def takeNak (s : State) (p : WPkt) : State :=
  let c := p.dst
  let x := conn s c
  if nakNoConnOk s x p then enterClosed (failMsg s c (BitVec.ofNat 16 p.w1) 1 p.w2) c CloseReason.peer
  else if nakOk s x p ∧ (fld p.w0 24 8 = 2 ∨ fld p.w0 24 8 = 3) then
    let s := if fld p.w0 24 8 = 3 then
        setConn s c { x with staleWin := fld p.w2 0 12, staleEpoch := fld p.w2 24 8, staleValid := true } else s
    trySendClose (failMsg (journalConn s c) c (BitVec.ofNat 16 p.w1) (fld p.w0 24 8) p.w2) c
  else if x.st = .free then portViolation s p.port Reg.wtBadAck
  else violation s c Reg.wtBadAck

/-- NAK received. -/
def execNak (p : WeftPacket) (s : State) : Ans := receive s p WType.nak takeNak

/-- RETRANSMISSION_TIMEOUT: the packet goes again with RTO doubled, or the connection gives up (R227, R229). Timers that have
expired with it restart, so that one silence of the peer counts once. -/
def execRetransmissionTimeout (c psn : Nat) (s : State) : Ans :=
  let x := conn s c
  match x.txPkts.find? (fun k => k.psn.toNat == psn) with
  | none => idle s
  | some k =>
    match k.due with
    | none => idle s
    | some d =>
      if s.th.safe then idle s
      else
        let s := passTo s d
        if wtRetryMax s ≤ x.timeouts then .next (giveUp s c CloseReason.timeout)
        else
          let rto := min 1000 (2 * x.rto)
          let late := us rto + s.now
          let pk := x.txPkts.map (fun j =>
            match j.due with
            | some e => { j with due := some late, again := j.again || decide (e ≤ s.now) }
            | none => j)
          let s := setConn s c { x with timeouts := x.timeouts + 1, rto := rto, txPkts := pk }
          .next (if txPaused s x then s else resend s c k.psn)

/-- RATE_STEP: 10 µs without a CE echo. -/
def execRateStep (c : Nat) (s : State) : Ans :=
  let x := conn s c
  if !(x.st == .opened || x.st == .closing) ∨ lineRate s ≤ x.rate then idle s
  else
    let s := passTo s x.rateDue
    .next (setConn s c { x with rate := min (lineRate s) (x.rate + wtRateStep s), rateDue := s.now + us 10 })

/-- What an NSEND comes to (R233). -/
inductive NsRes where
  | closed | busy | stale
  | ok (s : State)

/-- NSEND on a connection of the thread's tenant: the message takes credit, cells and the next message number. -/
def weftSend (s : State) (c : Nat) (tag : BitVec 11) (kind : Nat) (defq : Bool) (operand : Word) (b : Bytes)
    (poison : List Nat) : NsRes :=
  let x := conn s c
  let n := BitVec.ofNat 32 (units b.length)
  let red := kind == WType.reduce
  let w := fld operand.toNat 0 12
  let e := fld operand.toNat 24 8
  if x.st ≠ .opened then .closed
  else if red && x.staleValid && x.staleWin == w && x.staleEpoch == e then .stale
  else if !serialGe x.txLimit (x.txIssued + n) ∨ !quotaRoom s x.ctx (tagSc tag) (units b.length) 0 ∨ allocStop s then .busy
  else
    let (cells, s) := takeCells (units b.length) s
    let m : TxMsg := { num := x.nextMsg, kind := kind, defq := defq, operand := operand, bytes := b, poison := poison, cells := cells }
    .ok (journalConn (noteLow (setConn s c { x with
      nextMsg := x.nextMsg + 1, txIssued := x.txIssued + n, txMsgs := x.txMsgs ++ [m]
      staleValid := x.staleValid && !(red && x.staleWin == w) })) c)

/-! Set-up and close (R216 to R218) -/

/-- A peer entry for an address: a shared one, or one not in use (log entry 66). -/
def peerFor (s : State) (a : PeerAddr) : Option Nat :=
  match s.wt.peers.find? (fun e => e.2.ip == a.ip && e.2.mac == a.mac && e.2.vlan == a.vlan && e.2.prio == a.prio &&
      e.2.dscp == a.dscp) with
  | some e => some e.1
  | none => oneOf s 0 (Tab.freeKeys s.wt.peers 0 4096)

/-- Use a peer entry once more. -/
def usePeer (s : State) (n : Nat) (a : PeerAddr) : State :=
  let k := ((peer? s n).map (fun e => e.count)).getD 0
  let e : Peer := { ip := a.ip, mac := a.mac, vlan := a.vlan, prio := a.prio, dscp := a.dscp, count := k + 1 }
  useFree { s with wt := { s.wt with peers := Tab.put s.wt.peers n e } }

/-- One use less; an entry with none is freed. -/
def dropPeer (s : State) (n : Nat) : State :=
  match peer? s n with
  | none => s
  | some e =>
    { s with wt := { s.wt with peers :=
      if e.count ≤ 1 then Tab.del s.wt.peers n else Tab.put s.wt.peers n { e with count := e.count - 1 } } }

/-- Contexts that a context holds. -/
def ctxConns (s : State) (ctx : Nat) : Nat := Tab.count (fun _ x => x.st != .free && x.ctx == ctx) s.wt.conns

/-- A further context is within WEFT_LIMIT; the management context has none. -/
def connRoom (s : State) (ctx : Nat) : Bool := ctx == mgt || decide (ctxConns s ctx < (tenant s ctx).contexts)

/-- The CONNECT packet of a context. -/
def sendConnect (s : State) (c : Nat) : State :=
  let x := conn s c
  sendControl s c WType.connect 0 (words (x.service + 2 ^ 16 * x.plog) x.localTag.toNat x.firstPsn.toNat x.nonce.toNat)

/-- The ACCEPT packet of a context. -/
def sendAccept (s : State) (c : Nat) : State :=
  let x := conn s c
  sendControl s c WType.accept 0 (words (x.service + 2 ^ 16 * x.plog) x.localTag.toNat x.firstPsn.toNat x.nonce.toNat)

/-- A REJECT to the source of a CONNECT. -/
def rejectTo (s : State) (p : WPkt) (reason : Nat) : State :=
  emitWeft s p.port (routeBack s p)
    (weftBytes WType.reject 0 p.src 0 p.w1 0 (words (fld p.w0 0 16 + 2 ^ 16 * reason) 0 0 p.w3) [])

/-- A listener for a service on a port. -/
def listenerOf (s : State) (port service : Nat) : Option (Nat × Listener) :=
  s.wt.listeners.find? (fun e => e.2.service == service && bit e.2.portMask port)

/-- A CONNECT of an accepted connection comes again (R216). -/
def acceptedBefore (s : State) (p : WPkt) : Option Nat :=
  (s.wt.conns.find? (fun e => (e.2.st == .opened || e.2.st == .closing) && e.2.listener.isSome && fromPeer s e.2 p &&
    e.2.nonce == BitVec.ofNat 32 p.w3)).map (fun e => e.1)

/-- A new context's credit, acknowledged at once (R216 step 2). -/
def firstCredit (s : State) (c : Nat) : State :=
  let r := if grants s (conn s c) then grantUnits s c (conn s c) else (0, s)
  sendAck (raiseLimit r.2 c r.1) c false

/-- The peer entry of an accepted connection is the source of its CONNECT as the headers show it (log entry 78). -/
def sourceAddr (p : WPkt) : PeerAddr := { ip := p.ip, mac := p.mac, vlan := p.vlan, prio := p.prio, dscp := p.dscp }

/-- A listener accepts: a context with a drawn tag and first PSN, in OPEN (R216, R217). -/
def acceptConn (s : State) (p : WPkt) (c peer li : Nat) (l : Listener) : State :=
  let a := sourceAddr p
  let s := usePeer s peer a
  let r := (freeWord s).toNat
  let x : Conn :=
    { st := .opened, ctx := l.ctx, cls := l.cls, port := p.port, plog := min l.plog (fld p.w0 16 4), peerConn := p.src
      peer := peer, grantLog := l.grantLog, localTag := BitVec.ofNat 32 r, peerTag := BitVec.ofNat 32 p.w1
      nextPsn := BitVec.ofNat 24 (r / 2 ^ 32), unaPsn := BitVec.ofNat 24 (r / 2 ^ 32), expPsn := BitVec.ofNat 24 p.w2
      ackedMsg := 0xFFFF, rxQ := l.rxQ, reportQ := l.reportQ, udpSrc := p.udp, rto := wtRtoMin s, rate := lineRate s
      service := l.service, nonce := BitVec.ofNat 32 p.w3, firstPsn := BitVec.ofNat 24 (r / 2 ^ 32), listener := some li
      lastData := s.now }
  let s := sendAccept (setConn (useFree s) c x) c
  report (journalConn (firstCredit s c) c) c 2 0 0 li 0

/-- A received CONNECT. -/
def takeConnect (s : State) (p : WPkt) (b : Bytes) : State :=
  match acceptedBefore s p with
  | some c => sendAccept s c
  | none =>
    if reservedSet p b ∨ fld p.w0 16 4 < 8 ∨ 13 < fld p.w0 16 4 then
      rejectTo (portViolation s p.port Reg.wtReject) p 3
    else
      match listenerOf s p.port (fld p.w0 0 16) with
      | none => rejectTo (portViolation s p.port Reg.wtReject) p 2
      | some (li, l) =>
        match lowestInHalf s s.wt.conns 32768 65536, peerFor s (sourceAddr p) with
        | some c, some n => if connRoom s l.ctx then acceptConn s p c n li l else rejectTo (count s Reg.wtRejNoctx) p 1
        | _, _ => rejectTo (count s Reg.wtRejNoctx) p 1

/-- CONNECT received. -/
def execConnect (p : WeftPacket) (s : State) : Ans := receive s p WType.connect (fun s k => takeConnect s k p.bytes)

/-- The packet answers this context's CONNECT: address, UDP port and NONCE. -/
def answersConnect (s : State) (x : Conn) (p : WPkt) : Bool :=
  x.st == .connecting && ((peer? s x.peer).map (fun e => e.ip)) == some p.ip && p.udp == x.udpSrc &&
    BitVec.ofNat 32 p.w3 == x.nonce

/-- An ACCEPT or REJECT that answers no CONNECT: one that repeats the answer of an open connection's peer is ignored, any other names no
context of its source (Table 08-12). -/
def strayAnswer (s : State) (x : Conn) (p : WPkt) : State :=
  if (x.st == .opened || x.st == .closing) && fromPeer s x { p with src := x.peerConn } then s else nakNoConn s p

/-- ACCEPT received: the context stores the acceptor's handle, tag and first PSN and enters OPEN (R216). -/
def execAccept (p : WeftPacket) (s : State) : Ans :=
  receive s p WType.accept (fun s p =>
    let x := conn s p.dst
    if !answersConnect s x p then strayAnswer s x p
    else if p.tag ≠ x.localTag then tagMiss s p.dst p
    else
      let s := setConn s p.dst { x with
        st := .opened, peerConn := p.src, peerTag := BitVec.ofNat 32 p.w1, expPsn := BitVec.ofNat 24 p.w2
        plog := min x.plog (fld p.w0 16 4), connectDue := none, lastData := s.now }
      report (journalConn s p.dst) p.dst 1 0 0 0 0)

/-- REJECT received: a REJECTED item is linked and the context enters CLOSED (R216, R218). -/
def execReject (p : WeftPacket) (s : State) : Ans :=
  receive s p WType.reject (fun s p =>
    let x := conn s p.dst
    if !answersConnect s x p then strayAnswer s x p
    else if p.tag ≠ x.localTag then tagMiss s p.dst p
    else enterClosed (report s p.dst 3 (fld p.w0 16 8) 0 0 0) p.dst CloseReason.peer)

/-- CLOSE received: answered with CLOSE_ACK; the context enters CLOSED (R218). -/
def execClose (p : WeftPacket) (s : State) : Ans :=
  receive s p WType.close (fun s p => forConn s p (fun s _ =>
    enterClosed (sendControl s p.dst WType.closeAck 0 (words 0 0 0 0)) p.dst CloseReason.peer))

/-- CLOSE_ACK received: a CLOSING context that has sent CLOSE enters CLOSED. -/
def execCloseAck (p : WeftPacket) (s : State) : Ans :=
  receive s p WType.closeAck (fun s p => forConn s p (fun s x =>
    if x.closeSent then enterClosed s p.dst x.closeReason else s))

/-- CONNECT_RETRY: 100 µs without an answer; the eighth silence closes the context with TIMEOUT (R216). -/
def execConnectRetry (c : Nat) (s : State) : Ans :=
  let x := conn s c
  match x.connectDue with
  | none => idle s
  | some d =>
    if s.th.safe then idle s
    else
      let s := passTo s d
      if 8 ≤ x.tries then .next (enterClosed s c CloseReason.timeout)
      else .next (sendConnect (setConn s c { x with tries := x.tries + 1, connectDue := some (s.now + us 100) }) c)

/-- CLOSING_TIMEOUT: 3 × RTO without a CLOSE_ACK. -/
def execClosingTimeout (c : Nat) (s : State) : Ans :=
  let x := conn s c
  match x.closeDue with
  | none => idle s
  | some d => .next (enterClosed (passTo s d) c x.closeReason)

/-- CLOSED_HOLD_EXPIRY: 10 ms after it entered CLOSED the context is FREE. -/
def execClosedHoldExpiry (c : Nat) (s : State) : Ans :=
  let x := conn s c
  if x.st ≠ .closed then idle s
  else .next (setConn (dropPeer (passTo s (x.closedAt + ms 10)) x.peer) c {})

end Sys2Proof.Machine
end

