-- ==== Sys2Proof/Machine/Frames.lean ====
section
/-! DEFINITION. Ethernet ports (chapter 08): classification of received frames, PAUSE and PFC, the PTP and exception paths, the
transmit queue of the management engine, timestamps, the network commands and the ET_ and WT_ registers. -/

namespace Sys2Proof.Machine

/-! Frames -/

/-- What the headers of a frame say. `l4` is the offset of a UDP header. -/
structure Parsed where
  dst : Nat
  src : Nat
  tags : Nat
  vlan : Option Nat
  prio : Nat
  dscp : Nat := 0
  etherType : Nat
  l3 : Nat
  fragment : Bool := false
  udp : Bool := false
  l4 : Nat := 0
  ipSrc : Nat := 0
  ipDst : Nat := 0
  ce : Bool := false
  deriving DecidableEq, Repr

/-- IPv4 without options, or IPv6 with next header UDP; fragments (Table 08-2). -/
def parseIp (b : Bytes) (h : Parsed) : Parsed :=
  let o := h.l3
  if h.etherType = 0x0800 then
    let frag := be (slice b (o + 6) 2) % 0x4000 != 0
    let plain := leAt b o 1 == 0x45
    { h with
      fragment := leAt b o 1 / 16 == 4 && frag
      udp := plain && leAt b (o + 9) 1 == 17, l4 := o + 20, ipSrc := mapped4 (be (slice b (o + 12) 4))
      ipDst := mapped4 (be (slice b (o + 16) 4)), ce := leAt b (o + 1) 1 % 4 == 3, dscp := leAt b (o + 1) 1 / 4 }
  else if h.etherType = 0x86DD then
    { h with
      fragment := leAt b (o + 6) 1 == 44, udp := leAt b (o + 6) 1 == 17, l4 := o + 40, ipSrc := be (slice b (o + 8) 16)
      ipDst := be (slice b (o + 24) 16), ce := be (slice b o 2) / 16 % 4 == 3, dscp := be (slice b o 2) / 64 % 64 }
  else h

/-- An IEEE 802.1Q tag by its EtherType: C-tag or S-tag. -/
def isTag (t : Nat) : Bool := t == 0x8100 || t == 0x88A8

def parseFrame (b : Bytes) : Parsed :=
  let t := be (slice b 12 2)
  let tagged := isTag t
  let e := if tagged then be (slice b 16 2) else t
  let tci := be (slice b 14 2)
  parseIp b
    { dst := be (slice b 0 6), src := be (slice b 6 6), tags := b2n tagged + b2n (tagged && isTag e)
      vlan := if tagged then some (tci % 4096) else none, prio := if tagged then tci / 8192 else 0, etherType := e
      l3 := if tagged then 18 else 14 }

def udpDst (b : Bytes) (h : Parsed) : Nat := be (slice b (h.l4 + 2) 2)

/-- The UDP checksum is zero, or right over the pseudo header and the datagram (R214). -/
def udpGood (b : Bytes) (h : Parsed) : Bool :=
  let n := be (slice b (h.l4 + 4) 2)
  let addrs := if h.etherType = 0x0800 then slice b (h.l3 + 12) 8 else slice b (h.l3 + 8) 32
  be (slice b (h.l4 + 6) 2) == 0 || (sum16 addrs + 17 + n + sum16 (slice b h.l4 n)) % 65535 == 0

/-- The timestamp of a start of frame delimiter that passes now, in sixteenths of a ns: the device time base, in error by at most 10 ns,
which are free, with the correction of ET_TS_OFFSET (R237). -/
def tsNow (s : State) (p lo : Nat) : Nat :=
  let err : Int := (((freeWord s).toNat % 321 : Nat) : Int) - 160
  (((16 * timeNs s + timeFrac s : Nat) : Int) + err + signed (fld (regNat s (Reg.etTsOffset p)) lo 16) 16).toNat

/-- A frame item: prefix and frame (Table 08-4). -/
def frameItem (port : Nat) (ptp ts : Bool) (t : Nat) (b : Bytes) : Bytes :=
  toLe 1 (port + 16 * b2n ptp + 32 * b2n ts) ++ toLe 1 (if ts then t % 16 else 0) ++ toLe 2 b.length ++ toLe 4 0 ++
    toLe 8 (if ts then t / 16 else 0) ++ b

/-- Offset of a PTP message in a frame; none where the frame carries none. -/
def ptpAt (b : Bytes) (h : Parsed) : Option Nat :=
  if h.etherType = 0x88F7 then some h.l3
  else if h.udp ∧ (udpDst b h = 319 ∨ udpDst b h = 320) then some (h.l4 + 8)
  else none

/-- PTP event messages are timestamped: message types 0 to 3 of IEEE 1588. -/
def ptpEvent (b : Bytes) (o : Nat) : Bool := decide (leAt b o 1 % 16 < 4)

/-- Push a frame item to a queue of the management context (R213); its priority is free (log entry 34). -/
def pushFrame (s : State) (q : Nat) (b : Bytes) (lost : Nat) : State :=
  match push (useFree s) q ((freeWord s).toNat % 8) (mkTag mgt 1) b false with
  | (.linked _, s) => s
  | (_, s) => count s lost

/-- A PFC or PAUSE time of one priority. -/
def setPause (s : State) (p prio quanta : Nat) : State :=
  let x := etPort s p
  let l := x.paused.filter (fun q => q != prio)
  releaseFrames (setEtPort s p { x with paused := if quanta = 0 then l else l ++ [prio] }) p

/-- A MAC control frame (R211): PAUSE and PFC where they are enabled, else dropped and counted in ET_PAUSE_RX. -/
def takePause (s : State) (p : Nat) (b : Bytes) (h : Parsed) : State :=
  let flow := regNat s Reg.etFlow
  let op := be (slice b h.l3 2)
  let bad (s : State) : State := portViolation s p (Reg.etPauseRx p)
  if op = 1 then (if bit flow 0 then setPause s p 8 (be (slice b (h.l3 + 2) 2)) else bad s)
  else if op = 0x0101 then
    let vec := be (slice b (h.l3 + 2) 2)
    let off := (upto 0 8).any (fun i => bit vec i && !bit flow (1 + i))
    let s := (upto 0 8).foldl (fun s i =>
      if bit vec i && bit flow (1 + i) then setPause s p i (be (slice b (h.l3 + 4 + 2 * i) 2)) else s) s
    if off then bad s else s
  else count s (Reg.etDropOther p)

/-- The rows of the Weft packets by TYPE. -/
def weftRow (w : WeftPacket) (s : State) : Ans :=
  match (parseWeft w).kind with
  | 1 => execSend w s
  | 2 => execWrite w s
  | 3 => execReduce w s
  | 4 => execAck w s
  | 5 => execNak w s
  | 6 => execCredret w s
  | 7 => execConnect w s
  | 8 => execAccept w s
  | 9 => execReject w s
  | 10 => execClose w s
  | 11 => execCloseAck w s
  | k => receive s w k (fun s _ => s)

/-- A frame classified as Weft: its datagram is a Weft packet. -/
def toWeft (p : Nat) (b : Bytes) (h : Parsed) : WeftPacket :=
  { port := p, srcIp := BitVec.ofNat 128 h.ipSrc, srcMac := BitVec.ofNat 48 h.src, vlan := h.vlan
    prio := h.prio, dscp := h.dscp, udpSrc := be (slice b h.l4 2), ce := h.ce
    bytes := slice b (h.l4 + 8) (be (slice b (h.l4 + 4) 2) - 8) }

/-- The exception path (R213). -/
def takeException (s : State) (p : Nat) (b : Bytes) : State :=
  let cfg := regNat s Reg.etExcCfg
  let x := etPort s p
  if !bit cfg 14 then count s (Reg.etDropOther p)
  else if fld cfg 32 16 ≤ x.excCount then count s (Reg.etExcDrop p)
  else pushFrame (setEtPort s p { x with excCount := x.excCount + 1 }) (fld cfg 0 14) (frameItem p false false 0 b)
    (Reg.etExcDrop p)

/-- Classification of a frame with a good FCS (Table 08-3), counted as received; a Weft packet is counted by its row. -/
def classify (s0 : State) (f : EthFrame) : Ans :=
  let p := f.port
  let b := f.bytes
  let h := parseFrame b
  let s := count s0 (Reg.etRxFrames p)
  if fld (regNat s (Reg.etMaxFrame p)) 0 14 < b.length + 4 ∨ h.tags = 2 ∨ h.fragment then
    .next (portViolation s p (Reg.etDropOther p))
  else if h.etherType = 0x8808 then .next (takePause s p b h)
  else
    match ptpAt b h with
    | some o =>
      let ev := ptpEvent b o
      .next (pushFrame (useFree s) (fld (regNat s Reg.etExcCfg) 16 14) (frameItem p true ev (tsNow s p 0) b) (Reg.etDropOther p))
    | none =>
      if h.dst = portMac s p ∧ h.udp ∧ (h.ipDst = portIp4 s p ∨ h.ipDst = portIp6 s p ∨ (p, h.ipDst) ∈ s.sm.addrs) ∧ udpDst b h = wtUdpPort s then
        if udpGood b h then weftRow (toWeft p b h) s0 else .next (portViolation s p Reg.wtBadCrc)
      else if h.dst = portMac s p ∨ h.dst = 2 ^ 48 - 1 then .next (takeException s p b)
      else .next (count s (Reg.etDropOther p))

/-- FRAME_RECEIVE (R212). In safe state received frames are discarded (Table 13-4). -/
def execFrameReceive (f : EthFrame) (s : State) : Ans :=
  let p := f.port
  if !(etPort s p).link then idle s
  else
    let s1 := count s (Reg.etRxFrames p)
    if s.th.safe then .next (count s1 (Reg.etDropOther p))
    else if !f.fcsOk then .next (portViolation s1 p (Reg.etFcsErr p))
    else classify s f

/-- The transmit timestamp of a frame: ns, and the word of ET_TX_TS_ID. -/
def txStamp (b : Bytes) (t : Nat) : BitVec 64 × BitVec 64 :=
  let h := parseFrame b
  let (id, kind) := match ptpAt b h with
    | some o => (be (slice b (o + 30) 2), leAt b o 1 % 16)
    | none => (0, 0)
  (BitVec.ofNat 64 (t / 16), BitVec.ofNat 64 (id + 2 ^ 16 * kind + 2 ^ 20 * (t % 16) + 2 ^ 31))

/-- A timestamp enters the port's 64-entry queue, or is counted in ET_TS_LOST (R237). -/
def recordStamp (s : State) (p : Nat) (b : Bytes) : State :=
  let x := etPort s p
  if 64 ≤ x.txTs.length then count s (Reg.etTsLost p)
  else setEtPort (useFree s) p { x with txTs := x.txTs ++ [txStamp b (tsNow s p 16)] }

/-- FRAME_TRANSMIT at a port: the head item of ET_MGT_TXQ leaves as a frame when it names the port (R213). An item that is no frame item
is dropped. -/
def execFrameTransmit (port : Nat) (s : State) : Ans :=
  match queue? s s.et.queue with
  | none => idle s
  | some x =>
    match headItem x with
    | none => idle s
    | some i =>
      let p := leAt i.bytes 0 1 % 16
      let b := slice i.bytes 16 (leAt i.bytes 2 2)
      if x.ctx ≠ mgt ∨ s.th.safe ∨ p ≠ port then idle s
      else if i.bytes.length < 16 ∨ i.bytes.length ≠ 16 + leAt i.bytes 2 2 ∨ i.poison then
        .next (unlinkItem s s.et.queue x i 0)
      else if !(etPort s p).link ∨ prioPaused s p (parseFrame b).prio then idle s
      else
        let s := count (emit (unlinkItem s s.et.queue x i 0) (.frame p b)) (Reg.etTxFrames p)
        .next (if bit (leAt i.bytes 0 1) 5 then recordStamp s p b else s)

/-- First lane of a logical port, and its number of lanes (Table 08-1, Table 15-1). -/
def portLanes (s : State) (p : Nat) : Nat × Nat :=
  let n := 8 / 2 ^ s.et.arrangement
  (64 + n * p, n)

/-- A change of a port's link raises ET_LINK (Table 08-14). -/
def linkChange (s : State) (p : Nat) (up : Bool) : State :=
  let x := etPort s p
  let s := setEtPort s p { x with link := up, anDone := up, fecLock := up, paused := if up then x.paused else [], held := [] }
  let l := portLanes s p
  raiseSrc (if up then adaptLanes s l.1 l.2 else quietLanes s l.1 l.2) Src.etLink { object := 13, index := p }

/-- ET_LINK: a port's link goes down or comes up. A port with a lane in test stays down (R398). -/
def execEtLink (p : Nat) (up : Bool) (s : State) : Ans :=
  if etPorts s.et.arrangement ≤ p ∨ (etPort s p).link = up ∨ !s.et.applied then idle s
  else if up ∧ (anyTest s (portLanes s p).1 (portLanes s p).2 ∨ s.th.safe) then idle s
  else .next (linkChange s p up)

/-- PAUSE_QUANTA_EXPIRY: transmission of a priority resumes (8 stands for PAUSE). -/
def execPauseQuantaExpiry (p prio : Nat) (s : State) : Ans :=
  if (etPort s p).paused.contains prio then .next (setPause s p prio 0) else idle s

/-! The network commands (Table 08-13) -/

/-- Apply an arrangement: every port retrains, the set-asides change (R172, R210). -/
def applyArrangement (s : State) (a : Nat) : State :=
  let s := (upto 0 16).foldl (fun s p => if (etPort s p).link then linkChange s p false else s) s
  { s with et := { s.et with arrangement := a, applied := true } }

def doEthArrange (s : State) (a : Nat) : Done :=
  guardAll s
    [(decide (3 < a), .badArg), (s.wt.conns.any (fun e => e.2.st != .free && e.2.st != .closed) || keepBusy s, .busy)]
    (done (keepWrite (applyArrangement s a) Keep.ethArrange (BitVec.ofNat 64 a)))

/-- ETH_ARRANGE. -/
def cmdEthArrange (src a : Nat) (s : State) : Ans := .next (takeUp s src 0x1F none (fun s => doEthArrange s a))

/-- A queue that a context owns. -/
def ownsQueue (s : State) (ctx q : Nat) : Bool := ((queue? s q).map (fun x => x.ctx)) == some ctx

/-- Ports of a mask exist in the arrangement. -/
def maskOk (s : State) (m : Nat) : Bool := decide (0 < m) && decide (m < 2 ^ etPorts s.et.arrangement)

/-- GRANT_LOG2 of a command; the default is 6 (R223). -/
def grantLogOf (g : Option Nat) : Nat := g.getD 6

def doWeftListen (s : State) (a : ListenArgs) : Done :=
  let n := oneOf s 0 (Tab.freeKeys s.wt.listeners 0 256)
  guardAll s
    [(ctxMissing s a.ctx, .notFound), (ctxFrozen s a.ctx, .frozen),
     (decide (mgt < a.ctx) || decide (65535 < a.service) || !maskOk s a.portMask || a.cls == 0 || decide (3 < a.cls) ||
       !ownsQueue s a.ctx a.rxQ || !ownsQueue s a.ctx a.reportQ || decide (a.payloadLog2 < 8) ||
       decide (13 < a.payloadLog2) || decide (15 < grantLogOf a.grantLog2), .badArg),
     (n.isNone, .noSpace),
     (s.wt.listeners.any (fun e => e.2.service == a.service && (e.2.portMask &&& a.portMask) != 0), .busy)]
    (let n := n.getD 0
     let l : Listener := { ctx := a.ctx, service := a.service, portMask := a.portMask, cls := a.cls, rxQ := a.rxQ
                           reportQ := a.reportQ, plog := a.payloadLog2, grantLog := grantLogOf a.grantLog2 }
     (useFree { s with wt := { s.wt with listeners := Tab.put s.wt.listeners n l } }, some { status := .ok, results := [(1, n)] }))

/-- WEFT_LISTEN. -/
def cmdWeftListen (src : Nat) (a : ListenArgs) (s : State) : Ans :=
  .next (takeUp s src 0x20 none (fun s => doWeftListen s a))

def doWeftUnlisten (s : State) (n : Nat) : Done :=
  match Tab.find s.wt.listeners n with
  | none => refuse s .notFound
  | some l =>
    guardAll s [(ctxMissing s l.ctx, .notFound), (ctxFrozen s l.ctx, .frozen)]
      (done { s with wt := { s.wt with listeners := Tab.del s.wt.listeners n } })

/-- WEFT_UNLISTEN: accepted connections are unaffected. -/
def cmdWeftUnlisten (src n : Nat) (s : State) : Ans :=
  .next (takeUp s src 0x21 none (fun s => doWeftUnlisten s n))

/-- Length of a full data frame to a peer (R214). -/
def fullFrame (a : PeerAddr) (plog : Nat) : Nat :=
  14 + 4 * b2n a.vlan.isSome + (if a.ip.toNat / 2 ^ 32 = 0xFFFF then 20 else 40) + 8 + 32 + 2 ^ plog + 4 + 4

/-- The context that WEFT_CONNECT makes; its tag, PSN, NONCE and UDP port are drawn (R216, log entry 35). -/
def connecting (s : State) (a : ConnectArgs) (peer : Nat) : Conn :=
  let r := (freeWord s).toNat
  let r2 := (Config.freeWord (s.freeCtr + 1)).toNat
  let psn := BitVec.ofNat 24 (r / 2 ^ 32)
  { st := .connecting, ctx := a.ctx, cls := a.cls, port := a.port, plog := a.payloadLog2, ecn := a.ecn, peer := peer
    grantLog := grantLogOf a.grantLog2, localTag := BitVec.ofNat 32 r, nextPsn := psn, unaPsn := psn, firstPsn := psn, ackedMsg := 0xFFFF
    rxQ := a.rxQ, reportQ := a.reportQ, udpSrc := 49152 + r2 % 16384, rto := wtRtoMin s, rate := lineRate s
    service := a.service, nonce := if r2 / 2 ^ 32 = 0 then 1 else BitVec.ofNat 32 (r2 / 2 ^ 32), tries := 1
    connectDue := some (s.now + us 100), lastData := s.now }

def doWeftConnect (s : State) (a : ConnectArgs) : Done :=
  let c := lowestInHalf s s.wt.conns 32768 65536
  let n := peerFor s a.peer
  guardAll s
    [(ctxMissing s a.ctx, .notFound), (ctxFrozen s a.ctx, .frozen),
     (decide (mgt < a.ctx) || decide (etPorts s.et.arrangement ≤ a.port) || decide (65535 < a.service) ||
       a.cls == 0 || decide (3 < a.cls) ||
       !ownsQueue s a.ctx a.rxQ || !ownsQueue s a.ctx a.reportQ || decide (a.payloadLog2 < 8) ||
       decide (13 < a.payloadLog2) || decide (15 < grantLogOf a.grantLog2) || decide (7 < a.peer.prio) || decide (63 < a.peer.dscp) ||
       decide (4095 < a.peer.vlan.getD 0) ||
       decide (fld (regNat s (Reg.etMaxFrame a.port)) 0 14 < fullFrame a.peer a.payloadLog2), .badArg),
     (c.isNone || !connRoom s a.ctx || n.isNone, .noSpace)]
    (let c := c.getD 0
     let s := usePeer s (n.getD 0) a.peer
     let s := setConn (useFree (useFree s)) c (connecting s a (n.getD 0))
     (journalConn (sendConnect s c) c, some { status := .ok, results := [(2, c)] }))

/-- WEFT_CONNECT. -/
def cmdWeftConnect (src : Nat) (a : ConnectArgs) (s : State) : Ans :=
  .next (takeUp s src 0x22 none (fun s => doWeftConnect s a))

/-- A connection command: the context must be in use and its owner neither gone nor frozen. -/
def withConn (s : State) (c : Nat) (more : Conn → List (Bool × Status)) (body : Conn → Done) : Done :=
  let x := conn s c
  guardAll s ([(x.st == .free || x.st == .closed || ctxMissing s x.ctx, .notFound), (ctxFrozen s x.ctx, .frozen)] ++ more x)
    (body x)

/-- WEFT_CLOSE (R218). -/
def cmdWeftClose (src c : Nat) (s : State) : Ans :=
  .next (takeUp s src 0x23 none (fun s =>
    withConn s c (fun _ => []) (fun _ => done (startClose s c CloseReason.loc))))

def doWeftMove (s : State) (c port : Nat) (mac : BitVec 48) (vlan : Option Nat) : Done :=
  let x := conn s c
  let a : PeerAddr := match peer? s x.peer with
    | some e => { ip := e.ip, mac := mac, vlan := vlan, prio := e.prio, dscp := e.dscp }
    | none => { ip := 0, mac := mac, vlan := vlan, prio := 0, dscp := 0 }
  let s1 := dropPeer s x.peer
  withConn s c (fun x =>
      [(decide (etPorts s.et.arrangement ≤ port) || decide (4095 < vlan.getD 0), .badArg),
       ((peerFor s1 a).isNone, .noSpace),
       (x.st == .connecting || x.st == .closing, .busy)])
    (fun x =>
      let n := (peerFor s1 a).getD 0
      done (journalConn (setConn (usePeer s1 n a) c { x with port := port, peer := n }) c))

/-- WEFT_MOVE (R219). -/
def cmdWeftMove (src c port : Nat) (mac : BitVec 48) (vlan : Option Nat) (s : State) : Ans :=
  .next (takeUp s src 0x24 none (fun s => doWeftMove s c port mac vlan))

/-- WEFT_LIMIT: closes nothing. -/
def cmdWeftLimit (src tid n : Nat) (s : State) : Ans :=
  .next (takeUp s src 0x25 none (fun s =>
    guardAll s [(ctxMissing s tid, .notFound), (ctxFrozen s tid, .frozen), (decide (mgt ≤ tid) || decide (65536 < n), .badArg)]
      (done (journalObject (setTenant s tid { tenant s tid with contexts := n }) tid 1 tid))))

/-! Registers (Tables 08-8, 08-15 to 08-17) -/

def connCode : ConnMode → Nat
  | .free => 0
  | .connecting => 1
  | .opened => 2
  | .closing => 3
  | .closed => 4

/-- A connection context of 64 bytes (Table 08-8). -/
def connImage (x : Conn) : Bytes :=
  toLe 4 (connCode x.st + (if x.ctx = mgt then 8 else 16 * x.ctx) + 2 ^ 12 * x.cls + 2 ^ 14 * x.port + 2 ^ 18 * x.plog +
      2 ^ 22 * b2n x.ecn + 2 ^ 23 * x.miss + 2 ^ 28 * x.timeouts) ++
    toLe 4 (x.peerConn + 2 ^ 16 * x.peer + 2 ^ 28 * x.grantLog) ++ toLe 4 x.localTag.toNat ++ toLe 4 x.peerTag.toNat ++
    toLe 4 x.nextPsn.toNat ++ toLe 4 x.unaPsn.toNat ++ toLe 4 x.expPsn.toNat ++
    toLe 4 (x.nextMsg.toNat + 2 ^ 16 * x.ackedMsg.toNat) ++ toLe 4 (x.rxQ + 2 ^ 14 * x.reportQ) ++
    toLe 4 x.txLimit.toNat ++ toLe 4 x.txIssued.toNat ++ toLe 4 x.rxLimit.toNat ++ toLe 4 x.rxCount.toNat ++
    toLe 4 (x.udpSrc + 2 ^ 16 * x.rto) ++ toLe 4 (x.srtt + 2 ^ 16 * x.rate) ++
    toLe 4 (x.staleWin + 2 ^ 12 * x.staleEpoch + 2 ^ 20 * b2n x.staleValid)

/-- A peer entry of 32 bytes; its layout is not given (log entry 36). -/
def peerImage (e : Peer) : Bytes := toLe 32 (Config.peerImage e.ip e.mac e.vlan e.prio e.dscp e.count).toNat

/-- ET_PORT_STATUS (Table 08-17). -/
def etStatus (s : State) (p : Nat) : Nat :=
  let x := etPort s p
  b2n x.link + 2 * b2n x.anDone + 4 * b2n x.fecLock + 8 * b2n (!x.paused.isEmpty) +
    (if p < etPorts s.et.arrangement then 16 * (portLanes s p).2 else 0)

/-- The ET_ and WT_ registers that are computed; ET_TX_TS_ID is popped by its reader. -/
def readNetwork (s : State) (off : Nat) : Option Nat :=
  if off = 0x600000 then some s.et.arrangement
  else if off = 0x600018 then some s.et.queue
  else if 0x601000 ≤ off ∧ off < 0x602000 then
    let p := (off - 0x601000) / 0x100
    match off % 0x100 with
    | 0x00 => some (etStatus s p)
    | 0x68 => some (((etPort s p).txTs.head?.map (fun e => e.1.toNat)).getD 0)
    | 0x70 => some (((etPort s p).txTs.head?.map (fun e => e.2.toNat)).getD 0)
    | _ => none
  else if 0x680018 ≤ off ∧ off < 0x680058 then
    some (leAt (connImage (conn s (fld (regNat s Reg.wtConnSel) 0 16))) (off - 0x680018) 8)
  else if 0x680060 ≤ off ∧ off < 0x680080 then
    some (match peer? s (fld (regNat s Reg.wtPeerSel) 0 12) with
      | some e => leAt (peerImage e) (off - 0x680060) 8
      | none => 0)
  else if off = 0x680080 then
    some (Tab.count (fun _ x => x.st != .free) s.wt.conns + 2 ^ 17 * s.wt.peers.length)
  else if 0x681000 ≤ off ∧ off < 0x681800 then
    let t := (off - 0x681000) / 8
    some (ctxConns s t + 2 ^ 17 * (tenant s t).contexts)
  else none

/-- A read of ET_TX_TS_ID pops the entry. -/
def popStamp (s : State) (p : Nat) : State :=
  let x := etPort s p
  setEtPort s p { x with txTs := x.txTs.drop 1 }

/-- ET_TX_TS_ID read. -/
def execEtTxTsId (p : Nat) (s : State) : Ans := .next (popStamp s p)

end Sys2Proof.Machine
end

