-- ==== Sys2Proof/Machine/Classes.lean ====
section
/-! DEFINITION. Service classes (chapter 09): SC0 admission, the latency probe, scheduling epochs, the class commands and the SC_
registers. The share arbiters stand in Arbiter.lean. -/

namespace Sys2Proof.Machine

/-! Token buckets (R245, R246) -/

def bucket (s : State) (p f : Nat) : Bucket := Tab.get {} s.sc.buckets (fnKey p f)

def setBucket (s : State) (p f : Nat) (b : Bucket) : State :=
  { s with sc := { s.sc with buckets := Tab.set {} s.sc.buckets (fnKey p f) b } }

/-- Tokens credited up to a cycle: RATE × 5 sixty-fourths of a byte a cycle, up to DEPTH (R245). -/
def creditBucket (cycle : Nat) (b : Bucket) : Bucket :=
  { b with tokens := min (64 * b.depth) (b.tokens + 5 * b.rate * (cycle - b.at_)), at_ := if b.rate = 0 then b.at_ else cycle }

/-- Admission of one SC0 request: its class, and the bucket charged or the demotion counted (R246). With RATE 0 every request is
demoted, whatever the bucket holds (R245). -/
def admitBytes (s : State) (p f len : Nat) : Nat × State :=
  let b := creditBucket s.cycle (bucket s p f)
  if b.rate ≠ 0 ∧ 64 * len ≤ b.tokens then
    (0, count (setBucket s p f { b with tokens := b.tokens - 64 * len }) (Reg.scPortAdmitted p))
  else (1, count (setBucket s p f { b with demoted := satInc 4294967295 b.demoted }) (Reg.scPortDemoted p))

/-- An FLR refills the function's bucket (R247). -/
def refillBucket (s : State) (p f : Nat) : State :=
  let b := bucket s p f
  setBucket s p f { b with tokens := 64 * b.depth, at_ := if b.rate = 0 then b.at_ else s.cycle }

/-- A change of one function's RATE and DEPTH. -/
def isBucketChange (p f : Nat) : EpochChange → Bool
  | .setBucket p' f' _ _ => p' == p && f' == f
  | _ => false

/-- RATE 0 at an unbinding, for a change that waits as well; at a binding the demotions are cleared as well (R245, R247, Table 09-7). -/
def zeroRate (s : State) (p f : Nat) (bind : Bool) : State :=
  let b := creditBucket s.cycle (bucket s p f)
  let s := { s with epochs := s.epochs.filter (fun c => !isBucketChange p f c) }
  setBucket s p f { b with rate := 0, at_ := 0, demoted := if bind then 0 else b.demoted }

/-- Limit of a port's RATE sum: 64, or 128 when it is merged. -/
def rateLimit (s : State) (p : Nat) : Nat := if bit s.hp.merge.toNat (p / 2) then 128 else 64

/-- Sum of RATE over a port's functions. -/
def rateSum (s : State) (p : Nat) : Nat := Tab.sum (fun k b => if k / 256 = p then b.rate else 0) s.sc.buckets

/-- RATE of a function once the changes that wait have taken effect. -/
def rateAfter (s : State) (p f : Nat) : Nat :=
  s.epochs.foldl (fun r c => match c with
    | .setBucket p' f' rate _ => if p' = p ∧ f' = f then rate else r
    | _ => r) (bucket s p f).rate

/-- Sum of RATE over a port's functions once the changes that wait have taken effect. -/
def rateSumAfter (s : State) (p : Nat) : Nat := ((upto 0 256).map (rateAfter s p)).sum

/-! The latency probe (R256) -/

/-- One recorded SC0 read of the latency measured at the PHYs: PHY_NS is added. -/
def probe (s : State) (p ns_ : Nat) : State :=
  let cfg := regNat s (Reg.scLatCfg p)
  if !bit cfg 0 then s
  else
    let l := ns_ + fld cfg 1 7
    let s := countN (count s (Reg.scLatCnt p)) (Reg.scLatSum p) l
    let s := if regNat s (Reg.scLatMax p) < l then regSet s (Reg.scLatMax p) (BitVec.ofNat 64 (min 65535 l)) else s
    if 220 < l then raiseSrc (count s (Reg.scLatOver p)) Src.scBoundOver { object := 1, index := p } else s

/-- CLEAR_MAX: every bit of SC_LAT_MAX is zeroed. -/
def execClearMax (p : Nat) (s : State) : Ans := if p < 8 then .next (regSet s (Reg.scLatMax p) 0) else idle s

/-! Scheduling epochs (R254, R255) -/

/-- One set-up change as it takes effect at an epoch boundary. -/
def applyChange (s : State) (c : EpochChange) : State :=
  match c with
  | .ruQuota unit ctx n =>
    journalObject { s with ru := { s.ru with quotas := Tab.set 48 s.ru.quotas (257 * unit + ctx) n } } ctx 1 ctx
  | .qmQuota ctx cells queues =>
    journalObject { s with qm := { s.qm with
      cellQuota := Tab.set 4096 s.qm.cellQuota ctx cells, queueQuota := Tab.set 64 s.qm.queueQuota ctx queues } } ctx 1 ctx
  | .queueSet q mode limit =>
    (match queue? s q with
     | some x => journalObject (setQueue s q { x with mode := mode, limit := limit }) (if x.mirrored then x.ctx else mgt) 2 q
     | none => s)
  | .setBucket p f rate depth =>
    let b := creditBucket s.cycle (bucket s p f)
    setBucket s p f { b with rate := rate, depth := depth, tokens := min (64 * depth) b.tokens
                             at_ := if rate = 0 then 0 else s.cycle }
  | .share tid w => journalObject { s with sc := { s.sc with weights := Tab.set 16 s.sc.weights tid w } } tid 1 tid
  | .classWeights a b c => { s with sc := { s.sc with w1 := a, w2 := b, w3 := c } }

/-- SCHEDULING_EPOCH: time passes to the next multiple of 1,600 cycles and the waiting changes apply in order. -/
def execSchedulingEpoch (s : State) : Ans :=
  let s := passCycles s (1600 - s.cycle % 1600)
  .next (s.epochs.foldl applyChange { s with epochs := [] })

/-! The class commands (Table 09-4) -/

/-- The function exists on its port: PF 0, or a VF bound to a tenant. -/
def fnBound (s : State) (p f : Nat) : Bool := !mergedUpper s p && (f == 0 || (boundTo s p f).isSome)

def doScAdmit (s : State) (p f rate depth : Nat) : Done :=
  guardAll s
    [(decide (p < 8) && decide (f < 256) && !fnBound s p f, .notFound),
     (decide (8 ≤ p) || decide (256 ≤ f) || decide (rateLimit s p < rateSumAfter s p - rateAfter s p f + rate) ||
       decide (depth < 64) || decide (4096 < depth), .badArg)]
    (done (atEpoch s (.setBucket p f rate depth)))

/-- SC_ADMIT: at the next scheduling epoch. It names a function, no tenant. The sum of RATE is judged with the changes that
wait, so that it never exceeds the limit (R245). -/
def cmdScAdmit (src p f rate depth : Nat) (s : State) : Ans :=
  .next (takeUp s src 0x26 none (fun s => doScAdmit s p f rate depth))

/-- SC_SHARE. -/
def cmdScShare (src tid w : Nat) (s : State) : Ans :=
  .next (takeUp s src 0x27 none (fun s =>
    guardAll s
      [(ctxMissing s tid, .notFound), (ctxFrozen s tid, .frozen),
       (decide (mgt ≤ tid) || w == 0 || decide (255 < w), .badArg)]
      (done (atEpoch s (.share tid w)))))

/-- A class weight. -/
def weightOk (w : Nat) : Bool := decide (1 ≤ w) && decide (w ≤ 255)

/-- SC_CLASS_WEIGHTS. -/
def cmdScClassWeights (src a b c : Nat) (s : State) : Ans :=
  .next (takeUp s src 0x28 none (fun s =>
    guardAll s [(!weightOk a || !weightOk b || !weightOk c, .badArg)] (done (atEpoch s (.classWeights a b c)))))

/-! Registers (Tables 09-5 to 09-7) -/

/-- The SC_ registers that are computed. -/
def readClasses (s : State) (off : Nat) : Option Nat :=
  if 0x280000 ≤ off ∧ off < 0x288000 then
    let p := (off - 0x280000) / 0x1000
    let f := off % 0x1000 / 0x10
    let b := bucket s p f
    if off % 16 = 0 then some (b.rate + 2 ^ 8 * b.depth + 2 ^ 21 * b2n (f != 0 && (boundTo s p f).isSome))
    else some ((creditBucket s.cycle b).tokens / 64 + 2 ^ 32 * b.demoted)
  else if 0x290000 ≤ off ∧ off < 0x290800 ∧ off % 0x100 = 0x10 then
    let p := (off - 0x290000) / 0x100
    some (rateSum s p + 2 ^ 8 * rateLimit s p)
  else if off = 0x2A0000 then some (s.sc.w1 + 2 ^ 8 * s.sc.w2 + 2 ^ 16 * s.sc.w3)
  else if off = 0x2A0008 then some (s.cycle / 1600)
  else if 0x2A1000 ≤ off ∧ off < 0x2A1000 + 8 * 257 then
    let t := (off - 0x2A1000) / 8
    some (if t = mgt then 64 else Tab.get 16 s.sc.weights t)
  else none

end Sys2Proof.Machine
end

