-- ==== Sys2Proof/Machine/Domains.lean ====
section
/-! DEFINITION. The switched power domains (Table 14-3) and how one switches on or off (R375). A switch takes two events: its
start, and DOMAIN_SWITCH_DONE, at which the power controller senses it complete. -/

namespace Sys2Proof.Machine

def dom (s : State) (d : Nat) : Domain := Tab.get {} s.pw.domains d

def setDom (s : State) (d : Nat) (x : Domain) : State :=
  { s with pw := { s.pw with domains := Tab.set {} s.pw.domains d x } }

/-- Domains being switched on. -/
def domsRising (s : State) : Nat := Tab.count (fun _ d => d.st == .switchingOn) s.pw.domains

/-- Domains that are on. -/
def domsOn (s : State) : Nat := Tab.count (fun _ d => d.st == .on) s.pw.domains

/-- A domain in transition. -/
def domMoving (s : State) (d : Nat) : Bool := (dom s d).st == .switchingOn || (dom s d).st == .switchingOff

/-- Waiting domains begin to switch on, at most eight at a time. -/
def domPump : Nat → State → State
  | 0, s => s
  | n + 1, s =>
    match s.pw.domQ with
    | [] => s
    | d :: t =>
      if domsRising s < 8 then
        let x := dom s d
        domPump n (setDom { s with pw := { s.pw with domQ := t } } d { x with st := .switchingOn, since := s.now })
      else s

/-- Domains that are off are to be switched on. -/
def switchOn (s : State) (l : List Nat) : State :=
  let l := l.filter (fun d => (dom s d).st == .off && !s.pw.domQ.contains d)
  domPump 8 { s with pw := { s.pw with domQ := s.pw.domQ ++ l } }

/-- A domain that is on is clamped, reset and switched off; one that waits to be switched on stays off. -/
def switchOff (s : State) (d : Nat) : State :=
  let s := { s with pw := { s.pw with domQ := s.pw.domQ.filter (· != d) } }
  let x := dom s d
  if x.st = .on then setDom s d { x with st := .switchingOff, clamped := true, since := s.now } else s

/-- The controller and lane domains of a port, both ports' when merged (R260, R265). -/
def portDomains (s : State) (p : Nat) : List Nat :=
  if p % 2 == 0 && bit s.hp.merge.toNat (p / 2) then [p, 8 + 2 * p, 9 + 2 * p, 10 + 2 * p, 11 + 2 * p]
  else [p, 8 + 2 * p, 9 + 2 * p]

end Sys2Proof.Machine
end

