-- ==== Sys2Proof/Machine/Nguron.lean ====
section
/-! DEFINITION. The Nguron encodings (Tables 02-4 to 02-9 and 02-12): the fields of an instruction word, its opcode, and
which words are legal (R34). -/

namespace Sys2Proof.Machine

/-- The operations of Table 02-5, MOVK0 to MOVK3 and the SYS codes named by their function. -/
inductive NOp where
  | alu | pcmp | jalr | addi | andi | ori | xori | slli | srli | srai | movk
  | peqi | pnei | plti | pgei | pltui | pgeui
  | ldb | ldh | ldw | ldd | stb | sth | stw | std | vld | vst | rdsp | mfs | mts
  | br | fence | yield | halt | trap
  | varith | vcvt | vred | vcmp | vmerge | vmove
  | nsend | waite | qpush | qpop | qpeek | pld | pst | pred | hcopy
  deriving DecidableEq, Repr

/-! Fields (Table 02-4) -/

def wOp (w : Nat) : Nat := fld w 26 6
/-- RD, VD, XD or LK. -/
def wRd (w : Nat) : Nat := fld w 21 5
/-- RA, VA or XH. -/
def wRa (w : Nat) : Nat := fld w 16 5
/-- RB, VB or XA. -/
def wRb (w : Nat) : Nat := fld w 11 5
def wImm (w : Nat) : Nat := fld w 0 16
def wFn (w : Nat) : Nat := fld w 3 8
def wPg (w : Nat) : Nat := fld w 0 3
def wEt (w : Nat) : Nat := fld w 7 4
def wVf (w : Nat) : Nat := fld w 3 4
def wXs (w : Nat) : Nat := fld w 6 5
def wWt (w : Nat) : Bool := bit w 5
def wXv (w : Nat) : Nat := fld w 3 2
def wPt (w : Nat) : Nat := fld w 18 3
def wSn (w : Nat) : Bool := bit w 17
def wOff (w : Nat) : Int := signed (fld w 0 17) 17
/-- CODE of TRAP: bits [25:16]. -/
def wCode (w : Nat) : Nat := fld w 16 10

/-- Sign-extended immediate. -/
def immS (w : Nat) : Word := BitVec.ofInt 64 (signed (wImm w) 16)

/-- A vector field has bit 4 clear; a predicate field has bits [4:3] clear (R33). -/
def vOk (n : Nat) : Bool := decide (n < 16)
def pOk (n : Nat) : Bool := decide (n < 8)

/-- The operation that the opcode names; none for a reserved opcode (Table 02-5). -/
def opOf (w : Nat) : Option NOp :=
  match wOp w with
  | 0x01 => some .alu
  | 0x02 => some .pcmp
  | 0x03 => some .jalr
  | 0x08 => some .addi
  | 0x09 => some .andi
  | 0x0A => some .ori
  | 0x0B => some .xori
  | 0x0C => some .slli
  | 0x0D => some .srli
  | 0x0E => some .srai
  | 0x10 => some .movk
  | 0x11 => some .movk
  | 0x12 => some .movk
  | 0x13 => some .movk
  | 0x14 => some .peqi
  | 0x15 => some .pnei
  | 0x16 => some .plti
  | 0x17 => some .pgei
  | 0x18 => some .pltui
  | 0x19 => some .pgeui
  | 0x1A => some .ldb
  | 0x1B => some .ldh
  | 0x1C => some .ldw
  | 0x1D => some .ldd
  | 0x1E => some .stb
  | 0x1F => some .sth
  | 0x20 => some .stw
  | 0x21 => some .std
  | 0x22 => some .vld
  | 0x23 => some .vst
  | 0x24 => some .rdsp
  | 0x25 => some .mfs
  | 0x26 => some .mts
  | 0x28 => some .br
  | 0x29 =>
    match wXs w with
    | 0 => some .fence
    | 1 => some .yield
    | 2 => some .halt
    | 3 => some .trap
    | _ => none
  | 0x30 => some .varith
  | 0x31 => some .vcvt
  | 0x32 => some .vred
  | 0x33 => some .vcmp
  | 0x34 => some .vmerge
  | 0x35 => some .vmove
  | 0x36 => some .nsend
  | 0x37 => some .waite
  | 0x38 => some .qpush
  | 0x39 => some .qpop
  | 0x3A => some .qpeek
  | 0x3B => some .pld
  | 0x3C => some .pst
  | 0x3D => some .pred
  | 0x3E => some .hcopy
  | _ => none

/-- Legal ALU fields: FN in Table 02-6, RB zero for the one-operand functions, RA and RB zero for PMOV. -/
def aluOk (w : Nat) : Bool :=
  decide (wFn w ≤ 0x1D) &&
    (if 0x15 ≤ wFn w ∧ wFn w ≤ 0x1B then wRb w == 0
     else if wFn w = 0x1D then wRa w == 0 && wRb w == 0 else true)

/-- Legal PCMP fields (Table 02-7). -/
def pcmpOk (w : Nat) : Bool :=
  let fn := wFn w
  if fn ≤ 6 then pOk (wRd w)
  else if fn = 7 then pOk (wRd w) && wRb w == 0
  else if 0x10 ≤ fn ∧ fn ≤ 0x13 then pOk (wRd w) && pOk (wRa w) && pOk (wRb w)
  else if fn = 0x14 then wRd w == 0 && wRb w == 0
  else false

def etOk (et : Nat) : Bool := decide (et ≤ 8)

/-- Legal VARITH fields (Table 02-9): a function on an element type that it lists. -/
def varithOk (w : Nat) : Bool :=
  etOk (wEt w) && vOk (wRd w) && vOk (wRa w) &&
    (if wVf w ≤ 4 then vOk (wRb w)
     else if wVf w ≤ 6 then vOk (wRb w) && !etFloat (wEt w)
     else if wVf w ≤ 9 then vOk (wRb w)
     else if wVf w = 10 then vOk (wRb w) && etFloat (wEt w)
     else if wVf w ≤ 13 then !etFloat (wEt w)
     else false)

/-- Ratio of the larger element size to the smaller (R44). -/
def sizeRatio (a b : Nat) : Nat := max (etSize a) (etSize b) / min (etSize a) (etSize b)

/-- Legal VCVT fields (R44): PART below the ratio of the sizes, not between identical types. -/
def vcvtOk (w : Nat) : Bool :=
  etOk (wEt w) && vOk (wRd w) && vOk (wRa w) && etOk (wRb w) && wRb w != wEt w &&
    decide (wVf w / 2 < sizeRatio (wEt w) (wRb w))

/-- Legal VRED fields (R45). -/
def vredOk (w : Nat) : Bool :=
  etOk (wEt w) && vOk (wRa w) && wRb w == 0 && decide (wVf w ≤ 8) &&
    !(etFloat (wEt w) && (wVf w == 1 || wVf w == 4 || wVf w == 5))

/-- Legal VCMP fields (R46). -/
def vcmpOk (w : Nat) : Bool :=
  etOk (wEt w) && vOk (wRa w) && vOk (wRb w) && decide (wVf w ≤ 5) && !(etFloat (wEt w) && decide (4 ≤ wVf w))

/-- Legal VMOVE fields (R48). VMOV and VZERO take any valid ET, though their results do not depend on it (DEDUCED, log entry 25). -/
def vmoveOk (w : Nat) : Bool :=
  etOk (wEt w) &&
    (match wVf w with
     | 0 => vOk (wRd w) && vOk (wRa w) && wRb w == 0
     | 1 => vOk (wRd w) && wRb w == 0
     | 2 => vOk (wRd w)
     | 3 => vOk (wRa w)
     | 4 => vOk (wRd w) && wRa w == 0 && wRb w == 0
     | 5 => vOk (wRd w) && vOk (wRa w) && vOk (wRb w) && wEt w == 0
     | _ => false)

/-- Legal X fields (Table 02-12). -/
def attachOk (op : NOp) (w : Nat) : Bool :=
  match op with
  | .qpush => wXs w == 0 && wXv w == 0
  | .qpop => wXs w == 0 && (wXv w == 0 || (wXv w == 1 && wRb w == 0))
  | .qpeek => wXs w == 0 && decide (wXv w ≤ 1)
  | .pld => vOk (wRd w) && wRb w == 0 && wXs w == 0 && !wWt w && wXv w == 0
  | .pst => wRd w == 0 && vOk (wXs w) && !wWt w && (wXv w == 1 || (wXv w == 0 && wRb w == 0))
  | .pred => vOk (wXs w) && wXv w == 0
  | .hcopy => wRb w == 0 && vOk (wXs w) && wXv w == 0
  | .nsend => wXv w == 0 || wXv w == 1 || wXv w == 2
  | .waite => wRd w == 0 && wRb w == 0 && wXs w == 0 && !wWt w && wXv w == 0
  | .fence => wRd w == 0 && wRa w == 0 && decide (1 ≤ wRb w) && decide (wRb w ≤ 15) && !wWt w && wXv w == 0
  | .yield => wRd w == 0 && wRa w == 0 && wRb w == 0 && !wWt w && wXv w == 0
  | .halt => wRd w == 0 && wRa w == 0 && wRb w == 0 && !wWt w && wXv w == 0
  | .trap => wRb w == 0 && !wWt w && wXv w == 0
  | _ => false

/-- Legality under R34 of the word with the operation that its opcode names. -/
def fieldsOk (op : NOp) (w : Nat) : Bool :=
  match op with
  | .alu => aluOk w
  | .pcmp => pcmpOk w
  | .jalr => wRb w == 0 && wFn w == 0
  | .slli => decide (wImm w < 64)
  | .srli => decide (wImm w < 64)
  | .srai => decide (wImm w < 64)
  | .peqi => pOk (wRd w)
  | .pnei => pOk (wRd w)
  | .plti => pOk (wRd w)
  | .pgei => pOk (wRd w)
  | .pltui => pOk (wRd w)
  | .pgeui => pOk (wRd w)
  | .vld => vOk (wRd w)
  | .vst => vOk (wRd w)
  | .rdsp => wRa w == 0 && decide (wImm w ≤ 4)
  | .mfs => wRa w == 0
  | .mts => wRa w == 0
  | .varith => varithOk w
  | .vcvt => vcvtOk w
  | .vred => vredOk w
  | .vcmp => vcmpOk w
  | .vmerge => etOk (wEt w) && vOk (wRd w) && vOk (wRa w) && wVf w == 0
  | .vmove => vmoveOk w
  | .nsend => attachOk op w
  | .waite => attachOk op w
  | .qpush => attachOk op w
  | .qpop => attachOk op w
  | .qpeek => attachOk op w
  | .pld => attachOk op w
  | .pst => attachOk op w
  | .pred => attachOk op w
  | .hcopy => attachOk op w
  | .fence => attachOk op w
  | .yield => attachOk op w
  | .halt => attachOk op w
  | .trap => attachOk op w
  | .addi => true
  | .andi => true
  | .ori => true
  | .xori => true
  | .movk => true
  | .ldb => true
  | .ldh => true
  | .ldw => true
  | .ldd => true
  | .stb => true
  | .sth => true
  | .stw => true
  | .std => true
  | .br => true

/-- The operation of a legal word; none for an ILLEGAL one (R34). -/
def decodeN (w : Nat) : Option NOp :=
  match opOf w with
  | none => none
  | some op => if fieldsOk op w then some op else none

/-- The operations with a guard in PG: formats A, V and X (R35). -/
def guarded : NOp → Bool
  | .alu => true
  | .pcmp => true
  | .jalr => true
  | .varith => true
  | .vcvt => true
  | .vred => true
  | .vcmp => true
  | .vmerge => true
  | .vmove => true
  | .nsend => true
  | .waite => true
  | .qpush => true
  | .qpop => true
  | .qpeek => true
  | .pld => true
  | .pst => true
  | .pred => true
  | .hcopy => true
  | .fence => true
  | .yield => true
  | .halt => true
  | .trap => true
  | _ => false

/-- The operations that wait for every earlier PLD of the thread: stores and attachments, PLD apart (R63). -/
def afterPlds : NOp → Bool
  | .stb => true
  | .sth => true
  | .stw => true
  | .std => true
  | .vst => true
  | .mts => true
  | .nsend => true
  | .waite => true
  | .qpush => true
  | .qpop => true
  | .qpeek => true
  | .pst => true
  | .pred => true
  | .hcopy => true
  | .fence => true
  | .yield => true
  | .halt => true
  | .trap => true
  | _ => false

/-- Vector registers that a word reads or writes: an outstanding PLD to one of them holds it (R62). -/
def vectorsOf (op : NOp) (w : Nat) : List Nat :=
  match op with
  | .vld => [wRd w]
  | .pld => [wRd w]
  | .varith => if wVf w ≤ 10 then [wRd w, wRa w, wRb w] else [wRd w, wRa w]
  | .vcvt => [wRd w, wRa w]
  | .vred => [wRa w]
  | .vcmp => [wRa w, wRb w]
  | .vmerge => [wRd w, wRa w]
  | .vmove =>
    match wVf w with
    | 0 => [wRd w, wRa w]
    | 3 => [wRa w]
    | 5 => [wRd w, wRa w, wRb w]
    | _ => [wRd w]
  | _ => []

/-- The SC0 subset of R68, word by word: opcodes marked Yes, no wait, branches forward without link. -/
def sc0Ok (w : Nat) : Bool :=
  match decodeN w with
  | none => false
  | some .jalr => false
  | some .mfs => false
  | some .mts => false
  | some .br => wRd w == 0 && decide (0 < wOff w)
  | some .qpush => !wWt w
  | some .qpop => !wWt w
  | some .qpeek => !wWt w
  | some .pred => !wWt w
  | some .hcopy => !wWt w
  | some .nsend => !wWt w
  | some _ => true

/-- The word waits: WT = 1 on an instruction with a wait column (loader check 9). -/
def waits (w : Nat) : Bool :=
  match decodeN w with
  | some .qpush => wWt w
  | some .qpop => wWt w
  | some .qpeek => wWt w
  | some .pred => wWt w
  | some .hcopy => wWt w
  | some .nsend => wWt w
  | _ => false

end Sys2Proof.Machine
end

