-- ==== Sys2Proof/Machine/Operands.lean ====
section
/-! DEFINITION. Operand forms of the Nguron instructions: registers (R28), specials (Table 02-2), scratch with its poison
marks (R31, R32, R37) and the operand words of Table 02-11 (R49). -/

namespace Sys2Proof.Machine

/-- The management engine's thread number (R27). -/
def mgEngine : Nat := 512

/-! Registers (R28) -/

/-- A scalar register; s0 reads zero. -/
def sGet (th : Thread) (n : Nat) : Word := if n = 0 then 0 else Tab.get 0 th.s n

/-- Write a scalar register; a write to s0 is discarded. -/
def sSet (n : Nat) (x : Word) (th : Thread) : Thread := if n = 0 then th else { th with s := Tab.set 0 th.s n x }

def vGet (th : Thread) (n : Nat) : Line := Tab.get 0 th.v n

def vSet (n : Nat) (x : Line) (th : Thread) : Thread := { th with v := Tab.set 0 th.v n x }

/-- A predicate; p0 reads true. -/
def pGet (th : Thread) (n : Nat) : Bool := n == 0 || bit th.p.toNat n

/-- Write a predicate; a write to p0 is discarded. -/
def pSet (n : Nat) (b : Bool) (th : Thread) : Thread :=
  if n = 0 then th
  else { th with p := BitVec.ofNat 8 (th.p.toNat - th.p.toNat / 2 ^ n % 2 * 2 ^ n + b2n b * 2 ^ n) }

/-! Specials (Table 02-2) -/

/-- THREAD: thread, engine and cluster. -/
def threadSpecial (t : Nat) : Nat :=
  if t = mgEngine then 0x600
  else t + 512 * (if t / 8 < 16 then 0 else if t / 8 < 48 then 1 else 2)

def special (s : State) (t : Nat) (th : Thread) (n : Nat) : Word :=
  match n with
  | 0 => BitVec.ofNat 64 th.tag.toNat
  | 1 => BitVec.ofNat 64 (threadSpecial t)
  | 2 => th.event
  | 3 => if t = mgEngine then BitVec.ofNat 64 (2 ^ 64 - 1) else BitVec.ofNat 64 th.budget
  | _ => BitVec.ofNat 64 s.cycle

/-! Scratch (R31, R32) -/

/-- The 64-byte lines that a span touches. -/
def spanLines (a n : Nat) : List Nat := if n = 0 then [] else upto (a / 64) ((a + n - 1) / 64 - a / 64 + 1)

/-- Some line of a span carries a poison mark. -/
def scratchPoison (th : Thread) (a n : Nat) : Bool :=
  (spanLines a n).any (fun l => Tab.get false th.poison l)

def scratchRead (th : Thread) (a n : Nat) : Bytes := Mem.read th.scratch a n

/-- Lines of scratch written since the last activation end (Table 12-7). -/
def noteDirty (th : Thread) (a n : Nat) : Thread :=
  { th with dirty := (spanLines a n).foldl (fun d l => if d.contains l then d else d ++ [l]) th.dirty }

/-- A store of the thread: marks stay, but for a VST to the whole line, which clears it (R32). -/
def scratchStore (a : Nat) (b : Bytes) (th : Thread) : Thread :=
  noteDirty { th with
    scratch := Mem.write th.scratch a b
    poison := if b.length = 64 ∧ a % 64 = 0 then Tab.set false th.poison (a / 64) false else th.poison } a b.length

/-- The mark of a line after a Shuttle write of part or all of it. -/
def scratchMark (a n : Nat) (poison : Bool) (m : Table Bool) (l : Nat) : Table Bool :=
  let whole := decide (a ≤ 64 * l ∧ 64 * l + 64 ≤ a + n)
  Tab.set false m l (poison || (Tab.get false m l && !whole))

/-- A Shuttle write into scratch: poisoned data marks its lines, whole clean lines lose their mark (R32). -/
def scratchDeliver (a : Nat) (b : Bytes) (poison : Bool) (th : Thread) : Thread :=
  noteDirty { th with
    scratch := Mem.write th.scratch a b
    poison := (spanLines a b.length).foldl (scratchMark a b.length poison) th.poison } a b.length

/-- ra + sext(imm), modulo 2^64 (R37). -/
def scratchAddr (th : Thread) (w : Nat) : Nat := (sGet th (wRa w) + immS w).toNat

/-- The address lies in the management engine's view of control space (Table 17-9). -/
def inControl (t a : Nat) : Bool := t == mgEngine && decide (0x1000000 ≤ a ∧ a < 0x2000000)

/-! Program faults (Table 02-15) and operand words (Table 02-11) -/

namespace FaultCode
def illegal : Nat := 1
def priv : Nat := 2
def budget : Nat := 3
def fetch : Nat := 4
def operand : Nat := 5
def align : Nat := 6
def range : Nat := 7
def access : Nat := 8
def poison : Nat := 9
def stall : Nat := 10
def trap : Nat := 11
end FaultCode

/-- A fault of an instruction's own checks: code and detail. -/
abbrev PFault := Nat × Word

def opFault (reg : Nat) : PFault := (FaultCode.operand, BitVec.ofNat 64 reg)

def alignFault (a : Nat) : PFault := (FaultCode.align, BitVec.ofNat 64 a)

def rangeFault (a : Nat) : PFault := (FaultCode.range, BitVec.ofNat 64 a)

/-- ACCESS: kind 1 queue, 2 pool, 3 reduce window, 4 channel, 5 connection, with the handle or TPA. -/
def accessFault (kind a : Nat) : PFault := (FaultCode.access, BitVec.ofNat 64 (kind + 16 * a))

def poisonFault (a : Nat) : PFault := (FaultCode.poison, BitVec.ofNat 64 a)

/-- A span of scratch: address, length, priority. -/
structure Span where
  addr : Nat
  len : Nat
  prio : Nat
  deriving DecidableEq, Repr

/-- Decode a scratch span or a push span. On the management engine bits [38:36] carry address bits [19:17] (R27). -/
def spanOf (t w : Nat) : Span :=
  { addr := fld w 0 17 + (if t = mgEngine then 2 ^ 17 * fld w 36 3 else 0), len := fld w 17 15, prio := fld w 32 3 }

/-- Reserved bits zero and a length from 1 to 16,384 (R49). -/
def spanOk (t w : Nat) (pushSpan : Bool) : Bool :=
  let high := if t = mgEngine then fld w 35 1 + fld w 39 25 else fld w 35 29
  high == 0 && (pushSpan || fld w 32 3 == 0) && decide (1 ≤ fld w 17 15) && decide (fld w 17 15 ≤ 16384)

/-- A queue handle, a channel handle, a connection handle: the bits above the field are zero. -/
def handleOk (w n : Nat) : Bool := decide (w < 2 ^ n)

/-- A pool address operand (R55, R100): a TPA with its zero bits in a tenant context, a PPA in the management context. -/
def poolWordOk (mgtCtx : Bool) (w : Nat) : Bool :=
  if mgtCtx then decide (w < 2 ^ 38) else decide (w < 2 ^ 39) && (!bit w 38 || fld w 33 5 == 0)

/-- The span lies within the thread's scratch (R49). -/
def spanFits (th : Thread) (sp : Span) : Bool := decide (sp.addr + sp.len ≤ th.scratchSize)

/-- The first failing check of a list, in order. -/
def firstFault : List (Bool × PFault) → Option PFault
  | [] => none
  | (bad, f) :: t => if bad then some f else firstFault t

end Sys2Proof.Machine
end

