-- ==== Sys2Proof/Machine/Shuttle.lean ====
section
/-! DEFINITION. The Shuttle (chapter 07): tags of host reads, descriptors and their checks, beats, retries, delivery, halts
and retirement, the channel commands, and the channel registers. -/

namespace Sys2Proof.Machine

/-! Tags of a host port (R269 to R273) -/

/-- Tag values that PF 0's control registers enable (Table 10-5): 14-bit, 10-bit or 8-bit. -/
def tagSpace (s : State) (p : Nat) : Nat :=
  if (port s p).flit && cfgBit s p 0 Cfg.dev3Ctl 2 then 16384
  else if cfgBit s p 0 Cfg.devCtl2 12 then 1024
  else 256

/-- Take the tag that has been free longest, when fewer than half of the space are active (R269). -/
def takeTag (s : State) (p : Nat) : Option (Nat × State) :=
  let h := port s p
  let n := tagSpace s p
  if h.active.length < n / 2 then
    if h.fresh < n then some (h.fresh, setPort s p { h with fresh := h.fresh + 1, l1 := false })
    else
      match h.freed.find? (fun t => decide (t < n)) with
      | some t => some (t, setPort s p { h with freed := h.freed.erase t, l1 := false })
      | none => none
  else none

/-- A request of a channel waits at the request point for want of a tag, or no longer does (R270). -/
def setTagWait (s : State) (p c : Nat) (waits : Bool) : State :=
  let h := port s p
  setPort s p { h with tagWait := if waits then (if h.tagWait.contains c then h.tagWait else c :: h.tagWait) else h.tagWait.filter (· != c) }

/-- A tag whose request has completed becomes free. -/
def giveTag (s : State) (p t : Nat) : State :=
  let h := port s p
  setPort s p { h with active := Tab.del h.active t, freed := h.freed ++ [t] }

/-- Completion timeout values of Table 10-6 in eighths of a ns; other encodings are as the default. -/
def timeoutValue (enc : Nat) : Nat :=
  match enc with
  | 1 => us 64
  | 2 => ms 4
  | 5 => ms 32
  | 6 => ms 128
  | 9 => ms 512
  | 10 => ms 2000
  | 13 => ms 8000
  | 14 => ms 32000
  | _ => ms 10

/-- The timeout in force on a port; none when timeouts are disabled (R271). -/
def cplTimeout (s : State) (p : Nat) : Option Nat :=
  if cfgBit s p 0 Cfg.devCtl2 4 then none else some (timeoutValue (fld (cfgGet s p 0 Cfg.devCtl2).toNat 0 4))

/-- A tag enters quarantine for twice the timeout in force, 20 ms when timeouts are disabled (R272). -/
def quarantineTag (s : State) (p t : Nat) : State :=
  let h := port s p
  let d := s.now + 2 * (cplTimeout s p).getD (ms 10)
  let f := ((Tab.find h.active t).map (fun a => a.fn)).getD 0
  setPort s p { h with active := Tab.del h.active t, quarantine := Tab.put h.quarantine t (d, f) }

/-! Writes to host memory, and the dirty-page log (R194, R316) -/

/-- Split bytes at the boundaries of a power of two. -/
def cutAt (m : Nat) : Nat → Nat → Bytes → List (Nat × Bytes)
  | 0, _, _ => []
  | n + 1, a, b => if b.isEmpty then [] else (a, b.take (m - a % m)) :: cutAt m n (a + (m - a % m)) (b.drop (m - a % m))

/-- The place in the pool of byte j of a dirty log's bitmap (R316). -/
def shadowAt (l : DirtyLog) (j : Nat) : Nat := l.granules.getD (j / granuleBytes) 0 * granuleBytes + j % granuleBytes

/-- One page of a device write: its bit in the shadow, and the 64-byte line of the bitmap, or OVERFLOW outside the span. -/
def markPage (tag : BitVec 11) (p : Nat) (s : State) (page : Nat) : State :=
  let ctx := tagCtx tag
  match Tab.find s.fn.logs (8 * ctx + p) with
  | none => s
  | some l =>
    if l.low ≤ 4096 * page ∧ 4096 * page < l.low + l.span then
      let i := page - l.low / 4096
      let s := { s with fn := { s.fn with logs := Tab.put s.fn.logs (8 * ctx + p) { l with
          lines := if l.lines.contains (i / 512) then l.lines else l.lines ++ [i / 512] } } }
      let a := shadowAt l (i / 8)
      poolStore s (mkTag mgt 1) a (toLe 1 (le (poolBytes s a 1) ||| 2 ^ (i % 8))) false
    else
      raiseLimited (count { s with fn := { s.fn with logs := Tab.put s.fn.logs (8 * ctx + p) { l with overflow := true } } }
        Reg.fnDirtyOor) Src.fnDirtyOor 0 { tag := some tag, object := 1, index := p }

/-- A device write into a tenant's host memory marks every page it touches. -/
def markDirty (s : State) (tag : BitVec 11) (p a n : Nat) : State :=
  if n = 0 ∨ (Tab.find s.fn.logs (8 * tagCtx tag + p)).isNone then s
  else (upto (a / 4096) ((a + n - 1) / 4096 - a / 4096 + 1)).foldl (markPage tag p) s

/-- The tag of every access of a channel (R184). -/
def chTag (ch : Chan) : BitVec 11 := mkTag ch.ctx ch.cls

/-- ID-Based Ordering on requests: IDO Request Enable of PF 0's Device Control 2 (R275). -/
def idoRequest (s : State) (p : Nat) : Bool := cfgBit s p 0 Cfg.devCtl2 8

/-- One posted write of a channel's function leaves through its port. -/
def hostTlp (ch : Chan) (poison relaxed : Bool) (s : State) (a : Nat) (b : Bytes) : State :=
  markDirty (emit (transmit s ch.port b.length) (.hostWrite ch.port ch.fn a b poison relaxed (idoRequest s ch.port))) (chTag ch) ch.port a b.length

/-! The descriptor (Table 07-1) -/

def dOp (d : Desc) : Nat := leAt d.bytes 0 1
def dSrc (d : Desc) : Nat := fld (leAt d.bytes 1 1) 0 4
def dDst (d : Desc) : Nat := fld (leAt d.bytes 1 1) 4 4
def dFlag (d : Desc) (i : Nat) : Bool := bit (leAt d.bytes 2 1) i
def dLen (d : Desc) : Nat := leAt d.bytes 4 4
def dSrcA (d : Desc) : Nat := leAt d.bytes 8 8
def dDstA (d : Desc) : Nat := leAt d.bytes 0x10 8
def dSrcSel (d : Desc) : Nat := leAt d.bytes 0x18 4
def dDstSel (d : Desc) : Nat := leAt d.bytes 0x1C 4

/-- The form of one address with its selector. -/
def sideOk (mgtCtx dst : Bool) (space a sel : Nat) : Bool :=
  match space with
  | 0 => sel == 0
  | 1 => sel == 0 && poolWordOk mgtCtx a
  | 2 => decide (a < 2 ^ 17) && decide (sel < 2 ^ 9)
  | 3 => a == 0 && (if dst then fld sel 14 2 == 0 && decide (sel < 2 ^ 19) else decide (sel < 2 ^ 14))
  | _ => dst && a % 64 == 0

/-- Pieces of a span that lie in one granule each. -/
def poolPieces (a n : Nat) : List (Nat × Nat) :=
  if n = 0 then []
  else (upto (a / granuleBytes) ((a + n - 1) / granuleBytes - a / granuleBytes + 1)).map (fun g =>
    (max a (g * granuleBytes), min (a + n) ((g + 1) * granuleBytes) - max a (g * granuleBytes)))

/-- Grant numbers of a span of TPAs, with the granules that they name. -/
def grantsIn (s : State) (a n : Nat) : List (Nat × Nat) :=
  (poolPieces a n).filterMap (fun p =>
    if bit p.1 38 then (Tab.find s.mp.grants (fld p.1 21 12)).map (fun g => (fld p.1 21 12, g.granule)) else none)

/-- A pool-to-pool descriptor reaches one granule through two grant numbers (R198). -/
def aliased (s : State) (d : Desc) : Bool :=
  let l := grantsIn s (dSrcA d) (dLen d) ++ grantsIn s (dDstA d) (dLen d)
  l.any (fun x => l.any (fun y => x.2 == y.2 && x.1 != y.1))

/-- The descriptor breaks Table 07-1 or R198 (R187). -/
def descBad (s : State) (ch : Chan) (d : Desc) : Bool :=
  let m := ch.ctx == mgt
  !(dOp d == 1 || dOp d == 2) || decide (3 < dSrc d) || decide (4 < dDst d) || fld (leAt d.bytes 2 1) 4 4 != 0 ||
    leAt d.bytes 3 1 != 0 || leAt d.bytes 0x30 16 != 0 ||
    (if dOp d = 2 then
      dLen d != 0 || dSrcA d != 0 || dDstA d != 0 || dSrcSel d != 0 || dDstSel d != 0
    else
      !sideOk m false (dSrc d) (dSrcA d) (dSrcSel d) || !sideOk m true (dDst d) (dDstA d) (dDstSel d) ||
        dLen d == 0 || decide (2 ^ 30 < dLen d) || ((dSrc d == 3 || dDst d == 3) && decide (16384 < dLen d)) ||
        (dDst d == 4 && dLen d % 64 != 0) || (!m && dSrc d == 1 && dDst d == 1 && aliased s d))

/-- The ranges of a pool or scratch copy overlap with the destination above the source (R198). -/
def descends (d : Desc) (n : Nat) : Bool :=
  ((dSrc d == 1 && dDst d == 1) || (dSrc d == 2 && dDst d == 2 && dSrcSel d == dDstSel d)) &&
    decide (dSrcA d < dDstA d) && decide (dDstA d < dSrcA d + n)

/-! Channels and their descriptors -/

def chPoolAddr (ch : Chan) (a : Nat) : PoolAddr := if ch.ctx = mgt then .ppa a else .tpa a

/-- Change the descriptor fetched in place j. -/
def setDesc (s : State) (c j : Nat) (d : Desc) : State :=
  let ch := chan s c
  setChan s c { ch with fetched := ch.fetched.set j d }

/-- Whether the channel's context runs; a channel of a tenant that is not RUNNING issues nothing (R305). -/
def chanRuns (s : State) (ch : Chan) : Bool := ctxMode s ch.ctx == .running && !s.th.safe

/-- A record of a channel's registers (Table 12-7). -/
def journalChan (s : State) (c : Nat) : State := journalObject s (chan s c).ctx 3 c

/-- The descriptor index of a ring counter (R188). -/
def descIndex (ch : Chan) (pos : Nat) : Nat := pos % ringSlots ch

/-- Address of a slot of the ring. -/
def slotAddr (ch : Chan) (pos : Nat) : Nat := ch.base + 64 * descIndex ch pos

/-- The thread that a SCRATCH selector names, of an instance of the channel's owner, the range within its scratch. -/
def scratchOf (s : State) (ch : Chan) (sel a n : Nat) : Option Nat :=
  let t := 8 * fld sel 0 6 + fld sel 6 3
  let th := thread s t
  if th.mode ≠ .free ∧ tagCtx th.tag = ch.ctx ∧ a + n ≤ th.scratchSize then some t else none

/-- The check of a span of pool bytes: the pieces with their PPAs, or the granule denied. -/
def spanCheck (s : State) (ch : Chan) (write : Bool) : List (Nat × Nat) → List (Nat × Nat) → Option (List (Nat × Nat)) × Option Nat
  | [], acc => (some acc, none)
  | (a, n) :: t, acc =>
    match check s (chTag ch) (chPoolAddr ch a) write with
    | .allow ppa _ => spanCheck s ch write t (acc ++ [(ppa, n)])
    | .zero ppa => spanCheck s ch write t (acc ++ [(ppa, n)])
    | .deny g => (none, g)

/-- The check of a whole destination before the first beat (R192): none when it is permitted, else the refusal's effect. -/
def destRefused (s : State) (ch : Chan) (d : Desc) (n : Nat) : Option State :=
  match dDst d with
  | 0 => none
  | 1 =>
    (match spanCheck s ch true (poolPieces (dDstA d) n) [] with
     | (some _, _) => none
     | (none, g) => some (poolDenied s (chTag ch) g))
  | 2 => if (scratchOf s ch (dDstSel d) (dDstA d) n).isSome then none else some s
  | 3 =>
    (match queue? s (fld (dDstSel d) 0 14) with
     | some x => if mayPush x ch.ctx then none else some (qmRefuse s (fld (dDstSel d) 0 14) (chTag ch))
     | none => some (qmRefuse s (fld (dDstSel d) 0 14) (chTag ch)))
  | _ =>
    let w := fld (dDstSel d) 0 12
    let r := if n % 64 ≠ 0 then some .range
      else (contribCheck s (chTag ch) w (fld (dDstSel d) 12 12) (dDstA d) none).orElse
        (fun _ => contribCheck s (chTag ch) w (fld (dDstSel d) 12 12) (dDstA d + n - 64) none)
    r.map (contribRefuse s (chTag ch) w)

/-- What the start of a descriptor comes to. -/
inductive Start where
  | go (s : State) (d : Desc)
  | wait (s : State)

/-- Room for the item of a QUEUE destination: cells are taken when the item begins (R164, R165). -/
def startQueue (s : State) (c : Nat) (ch : Chan) (d : Desc) (n : Nat) : Start :=
  let q := fld (dDstSel d) 0 14
  match queue? s q with
  | none => .go s { d with code := 0x81 }
  | some x =>
    match discards s q x (chTag ch) (fld (dDstSel d) 16 3) (cellsOf n) with
    | none => .wait s
    | some l =>
      if !queueRoom s x l.length 0 then .wait (journalWait s)
      else
        let s := l.foldl (displaceItem q) s
        .go (holdCells s q (shuttleKey c d.pos) (chTag ch) (cellsOf n)) { d with gathers := true }

/-- The destination check and the room of a descriptor of n bytes. -/
def startDest (s : State) (c : Nat) (ch : Chan) (d : Desc) (n : Nat) : Start :=
  match destRefused s ch d n with
  | some s => .go s { d with code := 0x81 }
  | none =>
    let d := { d with length := n, descending := descends d n }
    if dDst d = 3 then startQueue s c ch d n else .go s d

/-- Where a descriptor goes on from: SH_CH_PROGRESS (R203); an item gathered for a queue begins anew. -/
def fromDone (d : Desc) (done : Nat) : Desc := { d with issued := if d.code = 0 ∧ dDst d ≠ 3 then min done d.length else d.issued }

/-- A QUEUE source: its checks come first, then the destination's, and only then is the head item taken (Table 07-3). A descriptor that
halted after it took its item goes on with it (R203). -/
def startItem (s : State) (c : Nat) (ch : Chan) (d : Desc) (kept : Option Item) (done : Nat) : Start :=
  let q := dSrcSel d
  match kept with
  | some i =>
    (match startDest s c ch d i.bytes.length with
     | .wait s => .wait s
     | .go s d => .go s (fromDone { d with item := some i } done))
  | none =>
  match queue? s q with
  | none => .go (qmRefuse s q (chTag ch)) { d with code := 0x81 }
  | some x =>
    if x.ctx ≠ ch.ctx ∨ x.destroyed then .go (qmRefuse s q (chTag ch)) { d with code := 0x81 }
    else
      match headItem x with
      | none => .go s { d with code := 2 }
      | some i =>
        if dLen d < i.bytes.length then .go s { d with code := 3, length := i.bytes.length, issued := i.bytes.length }
        else if !queueRoom s x 1 0 then .wait (journalWait s)
        else
          match startDest s c ch d i.bytes.length with
          | .wait s => .wait s
          | .go s d =>
            if d.code ≠ 0 then .go s d
            else .go (unlinkItem s q ((queue? s q).getD x) i 0) { d with item := some i }

/-- A descriptor starts: `done` bytes of it are done already, with the item taken for it (R203). -/
def startDesc (s : State) (c : Nat) (ch : Chan) (d : Desc) (kept : Option Item) (done : Nat) : Start :=
  let d := { d with started := true }
  if dOp d = 2 then .go s { d with code := 1 }
  else if dSrc d = 3 then startItem s c ch d kept done
  else
    match startDest s c ch d (dLen d) with
    | .wait s => .wait s
    | .go s d => .go s (fromDone d done)

/-! Beats (R183, R193) -/

/-- Bytes of an engine's read-ahead buffer in use. -/
def readAhead (s : State) (e : Nat) : Nat :=
  Tab.sum (fun c ch => if c % 16 = e then (ch.fetched.map (fun d =>
    ((d.beats.filter (fun b => b.st == .waiting || b.st == .arrived)).map (fun b => b.len - b.put)).sum)).sum else 0) s.sh.chans

/-- Offset and length of a descriptor's next beat: host reads as R193 splits them, otherwise one 64-byte line of the
source; from the end in a descending copy. -/
def nextBeat (s : State) (ch : Chan) (d : Desc) : Nat × Nat :=
  let rem := d.length - d.issued
  if d.descending then
    let e := dSrcA d + rem
    let n := min rem (if e % 64 = 0 then 64 else e % 64)
    (rem - n, n)
  else
    let a := dSrcA d + d.issued
    if dSrc d = 0 then (d.issued, min rem (min (maxReadReq s ch.port) (4096 - a % 4096)))
    else (d.issued, min rem (64 - a % 64))

/-- A read request leaves with a tag; none when no tag is free or the port sends nothing (R270). -/
def sendRead (s : State) (c : Nat) (ch : Chan) (pos addr len : Nat) : Option (Nat × State) :=
  if !portSends s ch.port then none
  else
    match takeTag s ch.port with
    | none => none
    | some (t, s) =>
      let h := port s ch.port
      let a : ActiveTag := { channel := c, fn := ch.fn, pos := pos, addr := addr, len := len, sent := s.now }
      let s := setTagWait (setPort s ch.port { h with active := Tab.put h.active t a }) ch.port c false
      some (t, emit (transmit s ch.port 0) (.hostRead ch.port ch.fn t addr len (idoRequest s ch.port)))

/-- Bytes of a beat that does not come from the host, with their mark; none where the source is refused. -/
def localRead (s : State) (ch : Chan) (d : Desc) (off n : Nat) : Option (Bytes × Bool) × State :=
  match dSrc d with
  | 1 =>
    (match check s (chTag ch) (chPoolAddr ch (dSrcA d + off)) false with
     | .allow ppa _ =>
       let s := eccSpan s ppa n (chTag ch)
       (some (poolBytes s ppa n, poisonAt s ppa), s)
     | .zero _ => (some (fill n 0, false), s)
     | .deny g => (none, poolDenied s (chTag ch) g))
  | 2 =>
    (match scratchOf s ch (dSrcSel d) (dSrcA d + off) n with
     | some t => (some (scratchRead (thread s t) (dSrcA d + off) n, scratchPoison (thread s t) (dSrcA d + off) n), s)
     | none => (none, s))
  | _ =>
    (match d.item with
     | some i => (some (slice i.bytes off n, i.poison), s)
     | none => (none, s))

/-- The first failure of a descriptor decides its code. -/
def failDesc (d : Desc) (code : Nat) : Desc := { d with code := if d.code = 0 then code else d.code }

/-- Write the pieces of a beat to the pool. -/
def writePieces (tag : BitVec 11) (poison : Bool) : State → List (Nat × Nat) → Bytes → State
  | s, [], _ => s
  | s, (ppa, n) :: t, b => writePieces tag poison (poolStore s tag ppa (b.take n) poison) t (b.drop n)

/-- The destination bytes of a beat that has failed are unspecified (R197): where they lie in the pool or in scratch they become free
bytes (log entry 68), as the descriptor's halt finds them. -/
def spoilBeat (ch : Chan) (d : Desc) (s : State) (beat : Beat) : State :=
  let off := beat.off
  let n := beat.len
  let u := useFreeN s (n + 1)
  let b := freeBytes s n
  let poison := bit (Config.freeWord (s.freeCtr + n)).toNat 0
  match dDst d with
  | 1 =>
    (match spanCheck s ch true (poolPieces (dDstA d + off) n) [] with
     | (some l, _) => if l.any (fun p => !writeRoom s p.1 (2 * p.2)) then s else writePieces (chTag ch) poison u l b
     | (none, _) => s)
  | 2 =>
    (match scratchOf s ch (dDstSel d) (dDstA d + off) n with
     | some t => setThread u t (scratchDeliver (dDstA d + off) b poison (thread u t))
     | none => s)
  | _ => s

/-- Issue the next beat of descriptor j; none while a tag, read-ahead room or the port is wanted. -/
def issueBeat (s : State) (c j : Nat) (d : Desc) : Option State :=
  let ch := chan s c
  let (off, n) := nextBeat s ch d
  if 32768 < readAhead s (c % 16) + n then none
  else if dSrc d = 0 then
    let fails := Tab.get 0 ch.kept.fails (failKey d.pos off)
    match sendRead s c ch d.pos (dSrcA d + off) n with
    | none => none
    | some (t, s) =>
      let s := if 0 < fails then count s Reg.shRetryCnt else s
      let s := setDesc s c j { d with
        issued := d.issued + n, beats := d.beats ++ [{ off := off, len := n, tag := some t, fails := fails }] }
      let k := (chan s c).kept
      some (if 0 < fails then setChan s c { chan s c with kept := { k with fails := Tab.del k.fails (failKey d.pos off) } } else s)
  else
    match localRead s ch d off n with
    | (some (b, p), s) => some (setDesc s c j { d with
        issued := d.issued + n, beats := d.beats ++ [{ off := off, len := n, st := .arrived, parts := [(0, (b, p))] }] })
    | (none, s) => some (setDesc s c j (failDesc { d with
        issued := d.issued + n, beats := d.beats ++ [{ off := off, len := n, st := .dead }] } 0x81))

/-! Delivery (R191, R192, R194) -/

/-- Every read of the descriptor has completed without error. -/
def readsDone (d : Desc) : Bool :=
  d.started && d.issued == d.length && decide (d.code < 0x80) &&
    d.beats.all (fun b => b.st == .arrived || b.st == .done)

/-- Destinations that take their bytes in order: HOST, QUEUE and REDUCE. -/
def ordered (d : Desc) : Bool := dDst d == 0 || dDst d == 3 || dDst d == 4

/-- Piece o of beat i of descriptor j may be written now. Data of later beats passes one that waits for its retry where a pause drains
what has been read (R201). -/
def mayDeliver (ch : Chan) (j i o : Nat) (d : Desc) (b : Beat) : Bool :=
  let past (e : Beat) : Bool := e.st == .done || e.st == .dead || (ch.st == .pausing && !descWhole d && e.st == .retry)
  (ch.fetched.take j).all readsDone && (!ordered d || ((d.beats.take i).all past && o == b.put)) &&
    !(dDst d == 4 && decide (64 ≤ d.buf.length))

/-- Bytes join the buffer of an ordered destination. -/
def addBuf (d : Desc) (off : Nat) (b : Bytes) (poison : Bool) : Desc :=
  { d with
    bufOff := if d.buf.isEmpty then off else d.bufOff
    buf := d.buf ++ b
    bufPoison := if poison then d.buf.length + b.length else d.bufPoison }

/-- Send the buffered bytes of a HOST destination up to the last payload boundary, or all of them (R194). -/
def sendTlps (s : State) (ch : Chan) (d : Desc) (all : Bool) : State × Desc :=
  let m := maxPayload s ch.port
  let relaxed := dFlag d 3 && cfgBit s ch.port ch.fn Cfg.devCtl 4
  let go (x : State × Desc) (t : Nat × Bytes) : State × Desc :=
    if all || (t.1 + t.2.length) % m == 0 then
      (hostTlp ch (decide (0 < x.2.bufPoison)) relaxed x.1 t.1 t.2,
       { x.2 with buf := x.2.buf.drop t.2.length, bufOff := x.2.bufOff + t.2.length
                  bufPoison := x.2.bufPoison - t.2.length })
    else x
  (cutAt m d.buf.length (dDstA d + d.bufOff) d.buf).foldl go (s, d)

/-- Contribute the whole lines buffered for a REDUCE destination (R140, R146, Table 05-3). -/
def drainLines (c : Nat) (ch : Chan) : Nat → State → Desc → State × Desc
  | 0, s, d => (s, d)
  | n + 1, s, d =>
    if d.buf.length < 64 then (s, d)
    else
      let w := fld (dDstSel d) 0 12
      let off := dDstA d + d.bufOff
      let bad := match d.redEpoch with
        | some _ => none
        | none => contribCheck s (chTag ch) w (fld (dDstSel d) 12 12) off (some (fld (dDstSel d) 24 8))
      match bad with
      | some r => (contribRefuse s (chTag ch) w r, failDesc { d with buf := [], length := d.issued } (if r = .stale then 4 else 0x81))
      | none =>
        let e := d.redEpoch.getD (((rwin? s w).map (fun x => x.epoch)).getD 0)
        let k : Contrib := { src := .shuttle c, tag := chTag ch, window := w, offset := off, epoch := e
                             data := bytesLine (d.buf.take 64), poison := decide (0 < d.bufPoison) }
        match presentLine s k with
        | .took s => drainLines c ch n s { d with
            buf := d.buf.drop 64, bufOff := d.bufOff + 64, bufPoison := d.bufPoison - 64
            contributed := d.contributed + 64, redEpoch := none }
        | .stale => (contribRefuse s (chTag ch) w .stale, failDesc { d with buf := [], length := d.issued } 4)
        | .wait s => (if d.redEpoch.isNone then backPressure s k else s, { d with redEpoch := some e })

/-- Bytes for a REDUCE destination join the line being gathered. After a beat that failed, whose line cannot be contributed, they begin
at the next whole line (R197). -/
def addLines (d : Desc) (off : Nat) (b : Bytes) (poison : Bool) : Desc :=
  if d.buf.isEmpty ∨ d.bufOff + d.buf.length = off then
    let skip := if d.buf.isEmpty then (64 - off % 64) % 64 else 0
    addBuf d (off + skip) (b.drop skip) poison
  else
    let skip := (64 - off % 64) % 64
    addBuf { d with buf := [], bufPoison := 0 } (off + skip) (b.drop skip) poison

/-- Deliver a piece of beat i, from offset o of it, to the destination; none while the port, the journal or staging makes it wait. The
answer says whether it was taken. -/
def deliverPart (s : State) (c : Nat) (ch : Chan) (d : Desc) (i : Nat) (off : Nat) (x : Bytes) (poison : Bool) :
    Option (Bool × State × Desc) :=
  let took (r : State × Desc) : Option (Bool × State × Desc) :=
    some (true, countN r.1 (Reg.shEngBytes (c % 16)) x.length, { r.2 with poison := r.2.poison || poison })
  match dDst d with
  | 0 =>
    if !portSends s ch.port then none
    else
      let r := if d.bufOff + d.buf.length = off ∨ d.buf.isEmpty then (s, d) else sendTlps s ch d true
      took (sendTlps r.1 ch (addBuf r.2 off x poison) false)
  | 1 =>
    (match spanCheck s ch true (poolPieces (dDstA d + off) x.length) [] with
     | (some l, _) =>
       if l.any (fun p => !writeRoom s p.1 (2 * p.2)) then none else took (writePieces (chTag ch) poison s l x, d)
     | (none, g) => some (false, poolDenied s (chTag ch) g, failDesc d 0x81))
  | 2 =>
    (match scratchOf s ch (dDstSel d) (dDstA d + off) x.length with
     | some t => took (setThread s t (scratchDeliver (dDstA d + off) x poison (thread s t)), d)
     | none => some (false, s, failDesc d 0x81))
  | 3 => if (d.beats.take i).any (fun e => e.st == .dead) then some (false, s, d) else took (s, addBuf d off x poison)
  | _ => if d.code ≠ 0 ∧ d.code ≠ 0x80 then some (false, s, d) else took (drainLines c ch 65 s (addLines d off x poison))

/-- The bytes of a piece that a destination in order has not had yet: a retried beat brings the earlier ones again. -/
def freshPart (d : Desc) (b : Beat) (o : Nat) (x : Bytes) : Nat × Bytes :=
  if ordered d ∧ o < b.put then (b.put, x.drop (b.put - o)) else (o, x)

/-- A beat whose data has come whole and gone whole is done. -/
def settleBeat (d : Desc) (i : Nat) (b : Beat) : Desc :=
  if b.st = .arrived ∧ b.parts = [] then
    { d with beats := d.beats.set i { b with st := .done }, retries := max d.retries b.fails }
  else { d with beats := d.beats.set i b }

/-! Retirement and halts (R197, R206) -/

/-- DONE_BYTES (Table 07-1). -/
def doneBytes (ch : Chan) (d : Desc) : Nat :=
  if d.code = 3 then d.length
  else if dDst d = 3 then (if d.code = 1 ∧ dOp d = 1 then d.length else 0)
  else if dDst d = 4 then ch.progress + d.contributed
  else ch.progress + ((d.beats.filter (fun b => b.st == .done)).map (fun b => b.len)).sum

/-- Bytes 0x28 to 0x2F of the slot (Table 07-1). -/
def slotStatus (ch : Chan) (d : Desc) : Bytes :=
  toLe 4 (d.code + 2 ^ 8 * b2n d.poison + 2 ^ 9 * min 7 d.retries + 2 ^ 12 * b2n d.descending) ++ toLe 4 (doneBytes ch d)

/-- The status is written into the slot; none where the ring's granule refuses it. -/
def writeSlot (s : State) (ch : Chan) (d : Desc) : Option State :=
  let a := slotAddr ch d.pos + 0x28
  if ch.ringPool then
    match check s (chTag ch) (chPoolAddr ch a) true with
    | .allow ppa _ => some (poolStore s (chTag ch) ppa (slotStatus ch d) false)
    | _ => none
  else some (hostTlp ch false false s a (slotStatus ch d))

/-- The slot can be written now: the port sends, or the journal has room and the tail buffer has written the slot. -/
def slotReady (s : State) (ch : Chan) (pos : Nat) : Bool :=
  if ch.tailBuf.any (fun e => e.1 == pos) then false
  else if ch.ringPool then
    match check s (chTag ch) (chPoolAddr ch (slotAddr ch pos)) true with
    | .allow ppa _ => writeRoom s ppa 8
    | _ => true
  else portSends s ch.port

/-- A completion item (Table 07-7). -/
def shItem (s : State) (kind code c index : Nat) (poison : Bool) (bytes user : Nat) : Bytes :=
  toLe 1 kind ++ toLe 1 code ++ toLe 2 c ++ toLe 4 (index + 2 ^ 16 * b2n poison) ++ toLe 4 bytes ++ toLe 4 0 ++
    toLe 8 user ++ toLe 8 (timeNs s)

/-- A channel with a completion queue; 0x3FFF is none for a tenant. -/
def cqSet (ch : Chan) : Bool := !(ch.cq == mgtQueue && ch.ctx != mgt)

/-- The SHUTTLE event and the channel's MSI-X message. -/
def chanSignal (s : State) (c : Nat) (ch : Chan) (index : Nat) (err : Bool) : State :=
  let s := raiseEvent s .shuttle c (BitVec.ofNat 64 (index + 2 ^ 16 * b2n err)) (if err then some index else none)
  match ch.vector with
  | some v => sendMsix s ch.port ch.fn v
  | none => s

/-- Abandon the items that the channel's descriptors have begun (R175). -/
def abandonItems (s : State) (c : Nat) (ch : Chan) : State :=
  ch.fetched.foldl (fun s d => if d.gathers then abandonProg s (fld (dDstSel d) 0 14) (shuttleKey c d.pos) else s) s

/-- Halt causes of Table 07-13 by completion code. -/
def haltCause (code : Nat) : Nat :=
  if code = 0x80 then 1 else if code = 0x83 then 2 else if code = 0x81 then 3 else 4

/-- Link the ERROR item that is owed, then raise the event and the message (R197 step 4). -/
def linkOwedItem (s : State) (c : Nat) : State :=
  let ch := chan s c
  match ch.owed with
  | none => s
  | some (b, index) =>
    match push s ch.cq 6 (chTag ch) b false with
    | (.linked _, s) => chanSignal (setChan s c { chan s c with owed := none }) c ch index true
    | (.access, s) => chanSignal (setChan s c { chan s c with owed := none }) c ch index true
    | (_, s) => s

/-- The channel halts with an error code at a slot (R197). -/
def errorHalt (s : State) (c code pos : Nat) (d : Option Desc) : State :=
  let ch := chan s c
  let i := descIndex ch pos
  let item := match d with
    | some d => shItem s 2 code c i d.poison (doneBytes ch d) (leAt d.bytes 0x20 8)
    | none => shItem s 2 code c i false 0 0
  let s := abandonItems s c ch
  let s := setChan s c { haltChan ch (haltCause code) with haltIndex := i, kept := { (keepHead ch) with fails := [], tries := 0 }, owed := if cqSet ch then some (item, i) else none }
  let s := count s Reg.shHaltCnt
  let s := raiseLimited s Src.shHalt ch.ctx { tag := some (chTag ch), object := 4, index := c }
  let s := journalChan s c
  if cqSet ch then linkOwedItem s c else chanSignal s c ch i true

/-- The head descriptor's beats are all complete; while pausing, a beat that waits for its retry does not hold it. -/
def headComplete (ch : Chan) (d : Desc) : Bool :=
  if ch.st = .pausing ∧ !descWhole d then !(d.beats.any (fun b => b.st == .waiting || b.st == .arrived))
  else d.started && d.issued == d.length && d.beats.all (fun b => b.st == .done || b.st == .dead)

/-- The item of a QUEUE destination links, or is discarded when its queue was flushed or reset after it began (R174); none while
the journal has no room. -/
def linkGathered (s : State) (c : Nat) (d : Desc) : Option State :=
  let q := fld (dDstSel d) 0 14
  match queue? s q with
  | none => some s
  | some x =>
    if !queueRoom s x 1 d.buf.length then none
    else
      match finishProg s q (shuttleKey c d.pos) (fld (dDstSel d) 16 3) d.buf (decide (0 < d.bufPoison)) with
      | (true, s) => some (raiseEvent s .queue q 0 none)
      | (false, s) => some s

/-- The end of a head descriptor whose beats are complete: the last writes leave, the item links, the lines enter. -/
def finishHead (s : State) (c : Nat) (ch : Chan) (d : Desc) : State × Desc :=
  match dDst d with
  | 0 =>
    if !portSends s ch.port then (s, d)
    else
      let (s, d) := sendTlps s ch d true
      (s, { d with code := 1 })
  | 3 =>
    (match linkGathered s c d with
     | some s => (s, { d with code := 1, gathers := false, buf := [] })
     | none => (journalWait s, d))
  | 4 =>
    let (s, d) := drainLines c ch 257 s d
    if d.code = 0 ∧ d.buf.length < 64 then (s, { d with code := 1 }) else (s, d)
  | _ => (s, { d with code := 1 })

/-- What the head of the channel has come to: its code is decided, or the channel halts. -/
def settleHead (s : State) (c : Nat) : State :=
  let ch := chan s c
  if ch.st = .halted ∨ ch.st = .free then s
  else
    match ch.fetched with
    | [] => if ch.halting = 0 then s else errorHalt s c ch.halting ch.head.toNat none
    | d :: t =>
      if !headComplete ch d then s
      else
        let (s, d) := if d.code = 0 ∧ d.issued = d.length ∧ d.started then finishHead s c ch d
          else if d.code = 0x80 ∧ dDst d = 4 then drainLines c ch 257 s d else (s, d)
        let s := setChan s c { ch with fetched := d :: t }
        if d.code < 0x80 ∨ (dDst d = 4 ∧ 64 ≤ d.buf.length) ∨ !slotReady s ch d.pos then s
        else
          let (s, d) := if dDst d = 0 then sendTlps s ch d true else (s, d)
          let s := (d.beats.filter (fun b => b.st == .dead)).foldl (spoilBeat ch d) s
          errorHalt ((writeSlot s ch d).getD s) c d.code d.pos (some d)

/-! The rows -/

/-- The channel state in which descriptors are fetched: ACTIVE, and STOPPING for the descriptor that it has still to finish (R202). -/
def fetches (s : State) (ch : Chan) : Bool :=
  (ch.st == .active || (ch.st == .stopping && ch.fetched.isEmpty)) && chanRuns s ch && ch.owed.isNone

/-- A fetched slot joins the descriptors; a descriptor that breaks Table 07-1 moves nothing (R187). -/
def gotDesc (s : State) (c pos : Nat) (b : Bytes) : State :=
  let ch := chan s c
  let d : Desc := { pos := pos, bytes := b }
  let d := if descBad s ch d then { d with started := true, code := 0x82 } else d
  settleHead (setChan s c { ch with fetched := ch.fetched ++ [d], fetchErr := none }) c

/-- A failed fetch waits for its back-off, or ends the channel's run once the descriptors before it have retired (R197). -/
def fetchFailed (s : State) (c pos fails : Nat) : State :=
  let ch := chan s c
  let s := count s (Reg.shErrors c)
  if ch.retry ≤ fails then settleHead (setChan s c { ch with halting := 0x83, fetchErr := none }) c
  else setChan s c { ch with fetchErr := some { pos := pos, fails := fails + 1, due := s.now + us (2 ^ fails) } }

/-- The completion timeout of a request fires: its tag enters quarantine, AER reports it (R272). -/
def tagTimeout (s : State) (p t fn : Nat) : State :=
  aer (quarantineTag (count s (Reg.hpCplTimeout p)) p t) p fn true aerCplTimeout

/-- No tag is free for a request that the port would send (R270). -/
def tagShort (s : State) (p : Nat) : Bool := portSends s p && (takeTag s p).isNone

/-- A fetch from a host ring: the request takes a tag, and its answer comes in the same step, or none within the timeout. -/
def fetchHost (s : State) (c : Nat) (ch : Chan) (pos : Nat) (host : ReadResult) : State :=
  match sendRead s c ch pos (slotAddr ch pos) 64 with
  | none => if tagShort s ch.port then setTagWait s ch.port c true else s
  | some (t, s) =>
    let fails := (ch.fetchErr.map (fun f => f.fails)).getD 0
    let s := if 0 < fails then count s Reg.shRetryCnt else s
    match host with
    | .failed => fetchFailed (giveTag s ch.port t) c pos fails
    | .timeout =>
      let s := passTo s (s.now + (cplTimeout s ch.port).getD 0)
      fetchFailed (tagTimeout s ch.port t ch.fn) c pos fails
    | .data b poison =>
      let s := giveTag s ch.port t
      if poison then settleHead (setChan s c { chan s c with halting := 0x83, fetchErr := none }) c
      else gotDesc s c pos (slice (b ++ fill 64 0) 0 64)

/-- A fetch from a pool ring: the tail buffer's entry, or the slot. -/
def fetchPool (s : State) (c : Nat) (ch : Chan) (pos : Nat) : State :=
  match ch.tailBuf.find? (fun e => e.1 == pos) with
  | some (_, b) => gotDesc s c pos b
  | none =>
    match check s (chTag ch) (chPoolAddr ch (slotAddr ch pos)) false with
    | .allow ppa _ =>
      let s := eccSpan s ppa 64 (chTag ch)
      if poisonAt s ppa then settleHead (setChan s c { ch with halting := 0x83 }) c
      else gotDesc s c pos (poolBytes s ppa 64)
    | .zero _ => gotDesc s c pos (fill 64 0)
    | .deny g => settleHead (setChan (poolDenied s (chTag ch) g) c { ch with halting := 0x81 }) c

/-- DESCRIPTOR_FETCH: the next slot of the ring, up to 8 ahead of the one in execution (R186, R191). -/
def execDescriptorFetch (c : Nat) (host : ReadResult) (s : State) : Ans :=
  let ch := chan s c
  let pos := (ch.head.toNat + ch.fetched.length) % 2 ^ 32
  if !fetches s ch ∨ ch.halting ≠ 0 ∨ 9 ≤ ch.fetched.length ∨ pos = ch.tail.toNat ∨
      (host = .timeout ∧ (cplTimeout s ch.port).isNone) then idle s
  else
    let s := match ch.fetchErr with
      | some f => passTo s f.due
      | none => s
    .next (if ch.ringPool then fetchPool s c ch pos else fetchHost s c ch pos host)

/-- The first fetched descriptor with something still to start or to issue. -/
def nextDesc : List Desc → Nat → Option (Nat × Desc)
  | [], _ => none
  | d :: t, j => if !d.started || decide (d.issued < d.length) then some (j, d) else nextDesc t (j + 1)

/-- Beats of a descriptor are issued while the channel's context runs; one that a pause must let finish goes on under a freeze (R201). -/
def beatsRun (s : State) (ch : Chan) (d : Desc) : Bool :=
  chanRuns s ch || (ch.st == .pausing && descWhole d && ctxMode s ch.ctx == .frozen && !fabricHeld s && !s.th.safe)

/-- Descriptor j may issue reads now: ahead of the head only without FENCE, without a QUEUE or REDUCE side, while no
earlier descriptor has failed and the channel neither stops nor pauses (R191, R201, R202). -/
def mayIssue (s : State) (ch : Chan) (j : Nat) (d : Desc) : Bool :=
  beatsRun s ch d && ch.owed.isNone &&
    (if j = 0 then ch.st == .active || ch.st == .stopping || (ch.st == .pausing && descWhole d)
     else ch.st == .active && !dFlag d 2 && !descSides d && (ch.fetched.take j).all (fun e => decide (e.code < 0x80)))

/-- What the channel's next beat comes to, before any arbitration. -/
inductive NextBeat where
  /-- Nothing to issue: no descriptor, or one that may not issue. -/
  | none
  /-- The state moves on without a beat: a descriptor waits to start, or ends at its start, or no tag is free. -/
  | moved (s : State)
  /-- A beat of n bytes is issued. -/
  | beat (s : State) (n : Nat)

def nextOf (s : State) (c : Nat) : NextBeat :=
  let ch := chan s c
  match nextDesc ch.fetched 0 with
  | Option.none => .none
  | some (j, d) =>
    if !mayIssue s ch j d then .none
    else
      let go (s : State) (d : Desc) : NextBeat :=
        if d.code ≠ 0 ∧ d.code ≠ 0x80 ∧ d.code ≠ 0x81 ∨ d.length ≤ d.issued then .moved (settleHead (setDesc s c j d) c)
        else
          match issueBeat s c j d with
          | some s => .beat (settleHead s c) (nextBeat s ch d).2
          | Option.none =>
            let s := setDesc s c j d
            .moved (if dSrc d = 0 ∧ readAhead s (c % 16) + (nextBeat s ch d).2 ≤ 32768 ∧ tagShort s ch.port then
              setTagWait s ch.port c true else s)
      if d.started then go s d
      else
        let head := j == 0
        let d := if head then { d with retries := ch.kept.tries, poison := ch.kept.poison } else d
        match startDesc s c ch d (if head then ch.kept.item else Option.none) (if head then ch.progress else 0) with
        | .wait s => .moved s
        | .go s d => go s d

/-- The channels of an engine other than c with a beat ready. -/
def readyBeats (s : State) (c : Nat) : List Ready :=
  s.sh.chans.filterMap (fun e =>
    if e.1 ≠ c ∧ e.1 % 16 = c % 16 then
      match nextOf s e.1 with
      | .beat _ n => some { tag := chTag e.2, len := n }
      | _ => Option.none
    else Option.none)

/-- BEAT_ISSUE: a descriptor starts where it has not, and its next beat is issued (R183, R192), once the engine serves the channel:
SC0 channels first, shares for the rest (Table 09-2). -/
def execBeatIssue (c : Nat) (s : State) : Ans :=
  match nextOf s c with
  | .none => idle s
  | .moved s => .next s
  | .beat t n =>
    match serve s (8 + c % 16) { tag := chTag (chan s c), len := n } (readyBeats s c) with
    | Option.none => idle s
    | some u => .next { t with sc := u.sc }

/-- The beat that waits for a tag's answer, by its descriptor's ring counter: the places of both. -/
def findBeat (ch : Chan) (pos t : Nat) : Option (Nat × Nat × Desc × Beat) :=
  match ch.fetched.findIdx? (fun d => d.pos == pos) with
  | none => none
  | some j =>
    match ch.fetched[j]? with
    | none => none
    | some d =>
      match d.beats.findIdx? (fun b => b.tag == some t && b.st == .waiting) with
      | none => none
      | some i => d.beats[i]?.map (fun b => (j, i, d, b))

/-- The beats of a channel in a state, as (descriptor's place, beat's place), in order. -/
def beatsIn (ch : Chan) (p : Beat → Bool) : List (Nat × Nat) :=
  ch.fetched.zipIdx.flatMap (fun e =>
    (e.1.beats.zipIdx.filter (fun b => p b.1)).map (fun b => (e.2, b.2)))

/-- A piece of a beat comes into the read-ahead buffer; the last one completes the beat's read (R193). -/
def pieceArrived (s : State) (c j i : Nat) (d : Desc) (b : Beat) (o : Nat) (x : Bytes) (poison last : Bool) : State :=
  let (o, x) := freshPart d b o x
  let b := if x.isEmpty then b else { b with parts := Tab.put b.parts o (x, poison) }
  setDesc s c j (settleBeat d i (if last then { b with st := .arrived, tag := none } else b))

/-- A beat fails: it waits for its back-off, or after RETRY + 1 failures it is given up (R195 to R197). -/
def beatFailed (s : State) (c j i : Nat) (d : Desc) (b : Beat) : State :=
  let ch := chan s c
  let s := count s (Reg.shErrors c)
  let d := { d with retries := max d.retries b.fails }
  let b := { b with tag := none, parts := [] }
  if ch.retry ≤ b.fails then setDesc s c j (failDesc { d with beats := d.beats.set i { b with st := .dead } } 0x80)
  else setDesc s c j { d with beats := d.beats.set i { b with st := .retry, fails := b.fails + 1, due := s.now + us (2 ^ b.fails) } }

/-- Deliver the pieces of a beat that may be written, each in its turn. -/
def deliverParts (c j i : Nat) : Nat → State → State
  | 0, s => s
  | n + 1, s =>
    let ch := chan s c
    match (ch.fetched[j]?).bind (fun d => d.beats[i]?.map (fun b => (d, b))) with
    | none => s
    | some (d, b) =>
      match b.parts.find? (fun e => mayDeliver ch j i e.1 d b) with
      | none => s
      | some (o, x, poison) =>
        match deliverPart s c ch d i (b.off + o) x poison with
        | none => s
        | some (true, s, d) =>
          let b := { b with parts := Tab.del b.parts o, put := if ordered d then o + x.length else b.put }
          deliverParts c j i n (setDesc s c j (settleBeat d i b))
        | some (false, s, d) => setDesc s c j { d with beats := d.beats.set i { b with st := .dead, parts := [] } }

/-- Deliver what of a beat has arrived. -/
def tryDeliver (s : State) (c j i : Nat) : State :=
  let n := (((chan s c).fetched[j]?).bind (fun d => d.beats[i]?.map (fun b => b.parts.length))).getD 0
  deliverParts c j i n s

/-- BEAT_COMPLETE: the k-th beat outstanding completes, or fails and is retried or halts the channel (R195, R197). A host
read takes what is left of its answer here; with no beat outstanding, what the head still waits for is tried again. -/
def execBeatComplete (c k : Nat) (host : ReadResult) (s : State) : Ans :=
  let ch := chan s c
  if s.th.safe then idle s else
  match (beatsIn ch (fun b => b.st == .waiting || b.st == .arrived))[k]? with
  | none => .next (settleHead s c)
  | some (j, i) =>
    match (ch.fetched[j]?).bind (fun d => d.beats[i]?.map (fun b => (d, b))) with
    | none => idle s
    | some (d, b) =>
      if b.st = .arrived then .next (settleHead (tryDeliver s c j i) c)
      else
        let t := b.tag.getD 0
        match Tab.find (port s ch.port).active t with
        | none => idle s
        | some a =>
          match host with
          | .data x poison =>
            if a.got + x.length ≠ b.len then idle s
            else .next (settleHead (tryDeliver (pieceArrived (giveTag s ch.port t) c j i d b a.got x poison true) c j i) c)
          | .failed => .next (settleHead (beatFailed (giveTag s ch.port t) c j i d b) c)
          | .timeout =>
            match cplTimeout s ch.port with
            | some n => .next (settleHead (beatFailed (tagTimeout (passTo s (a.sent + n)) ch.port t ch.fn) c j i d b) c)
            | none => idle s

/-- RETRY: the back-off of the k-th failed beat expires and it issues again with a new tag (R196). -/
def execRetry (c k : Nat) (s : State) : Ans :=
  let ch := chan s c
  match (beatsIn ch (fun b => b.st == .retry))[k]? with
  | none => idle s
  | some (j, i) =>
    match (ch.fetched[j]?).bind (fun d => d.beats[i]?.map (fun b => (d, b))) with
    | none => idle s
    | some (d, b) =>
      if !beatsRun s ch d ∨ (ch.st = .pausing ∧ !descWhole d) then idle s
      else
        let s := passTo s b.due
        match sendRead s c ch d.pos (dSrcA d + b.off) b.len with
        | none => .next (if tagShort s ch.port then setTagWait s ch.port c true else s)
        | some (t, s) =>
          .next (setDesc (count s Reg.shRetryCnt) c j { d with beats := d.beats.set i { b with st := .waiting, tag := some t } })

/-- What is kept once HEAD has passed a descriptor: the failures of the later ones. -/
def passKept (ch : Chan) : Kept := { fails := Tab.keep (fun k _ => k / 2 ^ 32 != ch.head.toNat) ch.kept.fails }

/-- HEAD moves past a retired descriptor. -/
def advanceHead (ch : Chan) : Chan :=
  let ch := { ch with head := ch.head + 1, progress := 0, kept := passKept ch, fetched := ch.fetched.drop 1 }
  match ch.st with
  | .stopping => haltChan ch 5
  | .active => if ch.head = ch.tail then { ch with st := .idle } else ch
  | _ => ch

/-- DESCRIPTOR_RETIRE: status to the slot, DONE item, event and message, in this order (R194, R206). An item that finds no
room makes the channel wait; an owed ERROR item is linked here too. -/
def execDescriptorRetire (c : Nat) (s : State) : Ans :=
  if s.th.safe then idle s
  else if (chan s c).owed.isSome then .next (linkOwedItem s c)
  else
    let s := settleHead s c
    let ch := chan s c
    match ch.fetched with
    | [] => .next s
    | d :: _ =>
      if ch.st = .halted ∨ (ch.st = .pausing ∧ !descWhole d) ∨ d.code = 0 ∨ 0x80 ≤ d.code ∨ !headComplete ch d ∨
          !slotReady s ch d.pos then .next s
      else
        let i := descIndex ch d.pos
        match writeSlot s ch d with
        | none => .next (errorHalt (poolDenied s (chTag ch) none) c 0x81 d.pos (some { d with code := 0x81 }))
        | some s1 =>
          let item := shItem s 1 d.code c i d.poison (doneBytes ch d) (leAt d.bytes 0x20 8)
          let finish (s : State) : State :=
            let s := if dFlag d 0 then chanSignal s c ch i false else s
            journalChan (setChan s c (advanceHead (chan s c))) c
          if dFlag d 1 && cqSet ch then
            match push s1 ch.cq 6 (chTag ch) item false with
            | (.linked _, s) => .next (finish s)
            | (.access, s) =>
              let d := { d with code := 0x81 }
              .next (errorHalt ((writeSlot s ch d).getD s) c 0x81 d.pos (some d))
            | (.full, _) => .next s
            | (.wait, _) => .next (journalWait s)
          else .next (finish s1)

/-- The bytes that a HOST destination still holds back for a payload boundary leave. -/
def flushDesc (c : Nat) (s : State) (j : Nat) : State :=
  match (chan s c).fetched[j]? with
  | some d =>
    if dDst d = 0 then
      let r := sendTlps s (chan s c) d true
      setDesc r.1 c j r.2
    else s
  | none => s

/-- Every read issued has completed, and what of their data may be written has been; the data of a descriptor behind one whose reads
are not all done is never written (R191), and is read again. -/
def drained (ch : Chan) : Bool :=
  ch.fetched.zipIdx.all (fun e =>
    e.1.buf.isEmpty && e.1.beats.zipIdx.all (fun b =>
      b.1.st != .waiting && b.1.parts.all (fun o => !mayDeliver ch e.2 b.2 o.1 e.1 b.1)))

/-- PAUSED: the reads issued have completed and their data is written; PAUSED, or HALTED after a stop (R201, R202). -/
def execPaused (c : Nat) (s : State) : Ans :=
  let s1 := settleHead s c
  let ch := chan s1 c
  match ch.st with
  | .pausing =>
    let flush := if portSends s1 ch.port then (upto 0 ch.fetched.length).foldl (flushDesc c) s1 else s1
    let ch := chan flush c
    if !drained ch || ch.fetched.any descWhole then .next flush
    else if ch.stopReq then .next (journalChan (setChan flush c (haltChan ch 5)) c)
    else .next (journalChan (setChan flush c { dropFetched ch with st := .paused }) c)
  | _ => .next s1

/-- TAIL_BUFFER_WRITE_THROUGH: the oldest entry of an ENGINE channel's tail buffer is written to its slot (R189). A refusal halts the
channel with ACCESS (R192), and the entry stays. -/
def execTailBufferWriteThrough (c : Nat) (s : State) : Ans :=
  let ch := chan s c
  match ch.tailBuf with
  | [] => idle s
  | (pos, b) :: t =>
    let s' := setChan s c { ch with tailBuf := t }
    match check s (chTag ch) (chPoolAddr ch (slotAddr ch pos)) true with
    | .allow ppa _ => if writeRoom s ppa 64 then .next (poolStore s' (chTag ch) ppa b false) else .next (journalWait s)
    | .zero _ => idle s
    | .deny g => if ch.st = .halted then idle s else .next (errorHalt (poolDenied s (chTag ch) g) c 0x81 pos none)

/-! HCOPY, doorbell and control writes, as their callers use them -/

/-- What an HCOPY comes to (R57, R189, R190). -/
inductive HcopyRes where
  | access | full | hold
  | ok (s : State)

/-- TAIL moves: an IDLE channel becomes ACTIVE. -/
def setTail (ch : Chan) (t : BitVec 32) : Chan :=
  { ch with tail := t, st := if ch.st = .idle ∧ ch.head ≠ t then .active else ch.st }

def hcopy (s : State) (ctx c : Nat) (b : Bytes) : HcopyRes :=
  let ch := chan s c
  if ch.st = .free ∨ ch.ctx ≠ ctx ∨ !ch.engineProd ∨ 1024 ≤ c then .access
  else if ringSlots ch ≤ (ch.tail - ch.head).toNat then .full
  else if 8 ≤ ch.tailBuf.length then .hold
  else .ok (setChan s c { setTail ch (ch.tail + 1) with tailBuf := ch.tailBuf ++ [(ch.tail.toNat, b)] })

/-- A doorbell of a context (R190): taken, or ignored, counted in SH_BAD_DB and raised. -/
def doorbell (s : State) (ctx c : Nat) (t : BitVec 32) : State :=
  let ch := chan s c
  if ch.st = .free ∨ ch.ctx ≠ ctx ∨ ch.engineProd ∨ ch.system ∨ ringSlots ch < (t - ch.head).toNat ∨
      (t - ch.head).toNat < (ch.tail - ch.head).toNat then
    raiseLimited (count s Reg.shBadDb) Src.shDoorbell ctx { tag := some (mkTag ctx 1), object := 4, index := c }
  else setChan s c (setTail ch t)

/-- PAUSE (R201, R202): a system channel ignores and counts it. -/
def pauseWrite (s : State) (c : Nat) : State :=
  let ch := chan s c
  if ch.st = .free then s
  else if ch.system then count s Reg.shPauseRefused
  else if ch.st = .idle ∨ ch.st = .active ∨ ch.st = .pausing ∨ ch.st = .paused then
    journalChan (setChan s c (pauseChan { ch with ownerPause := true })) c
  else s

/-- RESUME (R201, R203): leaves PAUSED or HALTED; under a freeze it clears the owner's pause only. Safe state keeps every
channel halted. -/
def resumeWrite (s : State) (c : Nat) : State :=
  let ch := chan s c
  if s.th.safe then s
  else if ch.st = .paused then
    setChan s c (if ch.freezePause then { ch with ownerPause := false } else resumeChan { ch with ownerPause := false })
  else if ch.st = .halted then
    setChan s c (if ch.freezePause then { ch with ownerPause := false, st := .paused }
      else resumeChan { ch with ownerPause := false })
  else s

/-- SKIP (R203): in HALTED only, HEAD passes the halted descriptor and the channel resumes. -/
def skipWrite (s : State) (c : Nat) : State :=
  let ch := chan s c
  if ch.st ≠ .halted ∨ s.th.safe then s
  else
    resumeWrite (setChan s c (if ch.head = ch.tail then ch
      else { ch with head := ch.head + 1, progress := 0, kept := passKept ch, fetched := [] })) c

/-- The FLR sequence reaches a channel (R204): descriptors in progress stop, the others are dropped and counted. -/
def flrChannel (s : State) (c : Nat) : State :=
  let ch := chan s c
  let begun := (keepHead ch).begun
  let n := (ch.tail - ch.head).toNat
  let s := countN (abandonItems s c ch) Reg.shFlrDropped (if begun then n - 1 else n)
  setChan s c { ch with
    st := .idle, head := 0, tail := 0, progress := 0, ownerPause := false, freezePause := false, haltCause := 0
    haltIndex := 0, halting := 0, stopReq := false, fetchErr := none, kept := {}
    fetched := [], tailBuf := [], owed := none }

/-- Channels of a context. -/
def chansOf (s : State) (ctx : Nat) : List Nat :=
  (s.sh.chans.filter (fun e => e.2.st != .free && e.2.ctx == ctx)).map (fun e => e.1)

/-- The channels of a tenant become FREE (R311). -/
def freeChannels (s : State) (tid : Nat) : State :=
  let s := (chansOf s tid).foldl (fun s c => setChan (abandonItems s c (chan s c)) c {}) s
  { s with sh := { s.sh with limits := Tab.del s.sh.limits tid } }

/-- An uncorrectable error in a read-ahead buffer: the bytes of one arrived piece of a channel, the k-th, are delivered poisoned
(Table 07-9). -/
def spoilBuffer (s : State) (c k : Nat) : State :=
  let ch := chan s c
  match (beatsIn ch (fun b => !b.parts.isEmpty))[k]? with
  | none => s
  | some (j, i) =>
    match (ch.fetched[j]?).bind (fun d => d.beats[i]?.map (fun b => (d, b))) with
    | none => s
    | some (d, b) => setDesc s c j { d with beats := d.beats.set i { b with parts := Tab.mapAll (fun _ x => (x.1, true)) b.parts } }

/-! The channel commands (Table 07-8) -/

def chanLimit (s : State) (tid : Nat) : Nat := Tab.get 4 s.sh.limits tid

/-- MSI-X vectors of a function: 256 for PF 0, those assigned at TENANT_BIND for a VF. -/
def fnVectors (s : State) (p f : Nat) : Nat :=
  if f = 0 then 256 else ((boundTo s p f).map (fun e => e.2.vectors)).getD 0

/-- The function belongs to the context: PF 0 to the management context, a VF to the tenant bound to it. -/
def fnOwned (s : State) (ctx p f : Nat) : Bool :=
  if ctx = mgt then f == 0 && decide (p < 8) else ((boundTo s p f).map (fun e => e.1)) == some ctx

/-- The ring lies in the owner's own granules. -/
def ringOwned (s : State) (ctx base size : Nat) : Bool :=
  decide (base + size ≤ 2 ^ 38) && (poolPieces base size).all (fun p =>
    if ctx = mgt then (gran s (p.1 / granuleBytes)).st == .owned && (gran s (p.1 / granuleBytes)).ctx == mgt
    else (listAt s ctx (p.1 / granuleBytes)).isSome)

/-- The arguments break Table 07-8. -/
def assignBad (s : State) (a : ChannelArgs) : Bool :=
  let size := 64 * 2 ^ a.ringLog2
  decide (mgt < a.ctx) || decide (3 < a.cls) || decide (a.ringLog2 < 4) || decide (16 < a.ringLog2) ||
    decide (7 < a.retry) || a.base % size != 0 || (a.engineProducer && !a.ringPool) || !fnOwned s a.ctx a.port a.fn ||
    (match a.vector with
     | some v => v == 0 || decide (fnVectors s a.port a.fn ≤ v)
     | none => false) ||
    (!(a.cq == mgtQueue && a.ctx != mgt) && ((queue? s a.cq).map (fun q => q.ctx)) != some a.ctx) ||
    (if a.ringPool then !ringOwned s a.ctx a.base size else decide (2 ^ 64 < a.base + size))

/-- The lowest page slot that none of a tenant's channels holds (R429). -/
def freeSlot (s : State) (tid : Nat) : Option Nat :=
  firstUpto (fun i => !(s.sh.chans.any (fun e => e.2.st != .free && e.2.ctx == tid && e.2.slot == some i))) 0 16

def doChannelAssign (s : State) (a : ChannelArgs) : Done :=
  let c := lowestInHalf s s.sh.chans 504 1008
  guardAll s
    [(ctxMissing s a.ctx, .notFound), (ctxFrozen s a.ctx, .frozen), (assignBad s a, .badArg),
     (c.isNone || (decide (a.ctx < mgt) && decide (chanLimit s a.ctx ≤ (chansOf s a.ctx).length)), .noSpace)]
    (let c := c.getD 0
     let s := setChan s c
       { st := .idle, cls := a.cls, ctx := a.ctx, engineProd := a.engineProducer, ringPool := a.ringPool, base := a.base
         log2 := a.ringLog2, retry := a.retry, port := a.port, fn := a.fn, cq := a.cq, vector := a.vector
         slot := if a.ctx = mgt then none else freeSlot s a.ctx }
     (journalChan s c, some { status := .ok, results := [(2, c)] }))

/-- CHANNEL_ASSIGN (R185). -/
def cmdChannelAssign (src : Nat) (a : ChannelArgs) (s : State) : Ans :=
  .next (takeUp s src 0x1B none (fun s => doChannelAssign s a))

/-- A channel command: the channel must be assigned and its owner neither gone nor frozen. -/
def withChan (s : State) (c : Nat) (more : List (Bool × Status)) (body : Chan → Done) : Done :=
  let ch := chan s c
  guardAll s ([(ch.st == .free || ctxMissing s ch.ctx, .notFound), (ctxFrozen s ch.ctx, .frozen)] ++ more) (body ch)

def doChannelRelease (s : State) (c : Nat) : Done :=
  withChan s c
    [((chan s c).system, .denied),
     (!((chan s c).st == .idle || (chan s c).st == .halted) || (bindingOf s .shuttle c).isSome, .busy)]
    (fun _ => done (setChan s c {}))

/-- CHANNEL_RELEASE. -/
def cmdChannelRelease (src c : Nat) (s : State) : Ans :=
  .next (takeUp s src 0x1C none (fun s => doChannelRelease s c))

/-- CHANNEL_STOP by the channel's state (R202). -/
def stopChan (ch : Chan) : Chan :=
  match ch.st with
  | .active => { ch with st := .stopping }
  | .idle => haltChan ch 5
  | .paused => haltChan ch 5
  | .pausing => { ch with stopReq := true }
  | _ => ch

/-- CHANNEL_STOP. -/
def cmdChannelStop (src c : Nat) (s : State) : Ans :=
  .next (takeUp s src 0x1D none (fun s =>
    withChan s c [] (fun ch => done (journalChan (setChan s c (stopChan ch)) c))))

/-- CHANNEL_LIMIT: lowering the limit releases no channel (R185). -/
def cmdChannelLimit (src tid limit : Nat) (s : State) : Ans :=
  .next (takeUp s src 0x1E none (fun s =>
    guardAll s [(ctxMissing s tid, .notFound), (ctxFrozen s tid, .frozen), (decide (mgt ≤ tid) || decide (16 < limit), .badArg)]
      (done (journalObject { s with sh := { s.sh with limits := Tab.set 4 s.sh.limits tid limit } } tid 1 tid))))

/-! Registers (Tables 07-10 to 07-13) -/

def chanCode : ChanMode → Nat
  | .free => 0
  | .idle => 1
  | .active => 2
  | .pausing => 3
  | .paused => 4
  | .stopping => 5
  | .halted => 6

/-- SH_CH_CFG (Table 07-11). -/
def chCfg (ch : Chan) : Nat :=
  ch.cls + 4 * b2n (ch.ctx == mgt) + (if ch.ctx = mgt then 0 else 8 * ch.ctx) + 2 ^ 11 * b2n ch.engineProd +
    2 ^ 12 * b2n ch.ringPool + 2 ^ 13 * ch.log2 + 2 ^ 18 * ch.retry + 2 ^ 21 * ch.port + 2 ^ 24 * ch.fn + 2 ^ 32 * ch.cq +
    2 ^ 46 * ch.vector.getD 0xFFF + 2 ^ 58 * b2n ch.system

/-- SH_CH_STATUS (Table 07-13). -/
def chStatus (ch : Chan) : Nat :=
  let h := ch.fetched.head?
  let retrying := ch.fetchErr.isSome || ch.kept.fails != [] || ch.fetched.any (fun d => d.beats.any (fun b => decide (0 < b.fails) &&
    (b.st == .retry || b.st == .waiting)))
  chanCode ch.st + 8 * ch.haltCause + 2 ^ 6 * ch.haltIndex + 2 ^ 22 * b2n retrying +
    2 ^ 23 * min 7 ((h.map (fun d => d.retries)).getD ch.kept.tries) + 2 ^ 26 * b2n ((h.map (fun d => d.descending)).getD ch.kept.descending)

/-- A register of one channel. -/
def readChan (ch : Chan) (off : Nat) : Option Nat :=
  match off with
  | 0x00 => some ch.base
  | 0x08 => some (chCfg ch)
  | 0x10 => some ch.head.toNat
  | 0x18 => some ch.tail.toNat
  | 0x20 => some (b2n ch.ownerPause)
  | 0x28 => some (chStatus ch)
  | 0x30 => some ((ch.progress + headDone ch) % 2 ^ 32)
  | _ => none

/-- The SH_ registers that are computed. -/
def readShuttle (s : State) (off : Nat) : Option Nat :=
  if 0x300000 ≤ off ∧ off < 0x310000 then readChan (chan s ((off - 0x300000) / 0x40)) (off % 0x40)
  else if 0x310000 ≤ off ∧ off < 0x310100 ∧ off % 0x10 = 0 then
    let e := (off - 0x310000) / 0x10
    some (Tab.count (fun c ch => c % 16 == e && (ch.st == .active || ch.st == .pausing || ch.st == .stopping)) s.sh.chans +
      2 ^ 7 * readAhead s e)
  else if 0x312000 ≤ off ∧ off < 0x312000 + 8 * 257 then
    let t := (off - 0x312000) / 8
    some ((chansOf s t).length % 32 + 2 ^ 5 * (if t = mgt then 0 else chanLimit s t))
  else none

end Sys2Proof.Machine
end

