-- ==== Sys2Proof/Machine/Ports.lean ====
section
/-! DEFINITION. Host ports (chapter 10): completions, timeouts and quarantine of tags, D-states, link power, resets, containment and
release, merging, link errors, and the HP_ registers. -/

namespace Sys2Proof.Machine

/-! Windows, as several chapters read them (Table 11-6) -/

def wEntry (b : BitVec 128) (lo n : Nat) : Nat := fld b.toNat lo n
def wValid (b : BitVec 128) : Bool := bit b.toNat 0
def wKind (b : BitVec 128) : Nat := wEntry b 1 2
def wClass (b : BitVec 128) : Nat := wEntry b 3 2
def wAccess (b : BitVec 128) : Nat := wEntry b 5 2
def wBase (b : BitVec 128) : Nat := wEntry b 18 19
/-- SIZE_M1 + 1. -/
def wSize (b : BitVec 128) : Nat := wEntry b 37 17 + 1
def wTarget (b : BitVec 128) : Nat := wEntry b 64 24

/-- Contribution lines of a port that wait for their unit (R143). -/
def hostWaits (s : State) (p : Nat) : List Contrib :=
  s.ru.waiting.filter (fun k => match k.src with
    | .host q _ => q == p
    | _ => false)

/-- An earlier posted write of the port has not reached its ordering point: a contribution line or a queue push still waits (R274). -/
def postedAhead (s : State) (p : Nat) : Bool := !(hostWaits s p).isEmpty || !(Tab.get [] s.qm.pushes p).isEmpty

/-- A tenant on the port has a live SC0 window (R263). -/
def sc0On (s : State) (p : Nat) : Bool :=
  s.fn.windows.any (fun e => e.2.port == p && e.2.fn != 0 && wValid e.2.live && wClass e.2.live == 0)

/-! Messages held (R264, R282, R362) -/

/-- Held MSI-X messages of a port leave once the port sends again and they are no longer masked; in safe state none does. -/
def sendHeld (s : State) (p : Nat) : State :=
  if !portMsgs s p || s.th.safe then s
  else
    (s.fn.pend.filter (fun e => e.1 / 2048 / 256 == p)).foldl (fun s e =>
      let f := e.1 / 2048 % 256
      if msixOpen s p f (e.1 % 2048) then emit (transmit (pendSet s p f (e.1 % 2048) false) p 4) (.msix p f (e.1 % 2048)) else s) s

/-- POSTED_CREDIT: the device-failed messages that waited for posted credit leave (R362), and with them what else is held. -/
def execPostedCredit (p : Nat) (s : State) : Ans :=
  let h := port s p
  if !h.link then idle s
  else
    let s := emitAll (setPort (transmit s p (4 * h.creditWait.length)) p { port (transmit s p (4 * h.creditWait.length)) p with creditWait := [] }) (h.creditWait.map (fun f => Output.msix p f 0))
    .next (sendHeld s p)

/-! Tags (R272, R273) -/

/-- The requester of a tag sees a failed beat (R195). -/
def failBeat (s : State) (t : Nat) (a : ActiveTag) : State :=
  match findBeat (chan s a.channel) a.pos t with
  | none => s
  | some (j, i, d, b) => settleHead (beatFailed s a.channel j i d b) a.channel

/-- Tags of outstanding requests are retired into quarantine: at a reset or link down of the port, with failed beats; at
the FLR of a function, with none (R273). -/
def retireTags (s : State) (p : Nat) (of : ActiveTag → Bool) (fail : Bool) : State :=
  ((port s p).active.filter (fun e => of e.2)).foldl (fun s e =>
    let s := quarantineTag s p e.1
    if fail then failBeat s e.1 e.2 else s) s

/-- The fields of a completion that carries data do not fit its request, which breaks the standard's format rules. -/
def cplBad (a : ActiveTag) (bc la : Nat) (b : Bytes) : Bool :=
  b.isEmpty || decide (a.len < bc) || decide (bc < b.length) || la != (a.addr + (a.len - bc)) % 128

/-- A completion that matches an active tag (R193, R195): Byte Count gives the place of its bytes in the beat, and the tag is free
once all have come. -/
def takeCompletion (s : State) (p t : Nat) (a : ActiveTag) (st : CplStatus) (bc la : Nat) (b : Bytes) (poison : Bool) : State :=
  let s := if poison then aer (count s (Reg.hpPoisonRx p)) p a.fn false aerAdvisory else s
  if st ≠ .sc then failBeat (giveTag s p t) t a
  else if cplBad a bc la b then aer (count s (Reg.hpMalformed p)) p a.fn true aerMalformed
  else
    let last := decide (a.len ≤ a.got + b.length)
    let s :=
      if last then giveTag s p t
      else setPort s p { port s p with active := Tab.put (port s p).active t { a with got := a.got + b.length } }
    match findBeat (chan s a.channel) a.pos t with
    | none => s
    | some (j, i, d, x) =>
      settleHead (tryDeliver (pieceArrived s a.channel j i d x (a.len - bc) b poison last) a.channel j i) a.channel

/-- COMPLETION: matched to an active tag; discarded as late when the tag is in quarantine; else unexpected (R272). `fn` is the
function of the completion's requester ID, which reports an unexpected one (R277). -/
def execCompletion (p fn t : Nat) (x : CplHead) (b : Bytes) (poison : Bool) (s : State) : Ans :=
  let h := port s p
  if !h.link then idle s
  else
    match Tab.find h.active t with
    | some a => .next (takeCompletion s p t a x.status x.byteCount x.lowerAddr b poison)
    | none =>
      match Tab.find h.quarantine t with
      | some (_, f) =>
        let s := setPort (count s (Reg.hpLateCpl p)) p { h with
          lateLog := if h.lateLog.length < 16 then h.lateLog ++ [(t, f)] else h.lateLog }
        .next (raiseSrc s Src.hpLateCpl { object := 2, index := f + 256 * p })
      | none => .next (aer (count s (Reg.hpUnexpCpl p)) p fn true aerUnexpCpl)

/-- COMPLETION_TIMEOUT: no earlier than the value of Table 10-6 in force; with timeouts disabled none comes (R271, R272). -/
def execCompletionTimeout (p t : Nat) (s : State) : Ans :=
  match Tab.find (port s p).active t, cplTimeout s p with
  | some a, some n => .next (failBeat (tagTimeout (passTo s (a.sent + n)) p t a.fn) t a)
  | _, _ => idle s

/-- QUARANTINE_END: the tag becomes free (R272). -/
def execQuarantineEnd (p t : Nat) (s : State) : Ans :=
  match Tab.find (port s p).quarantine t with
  | none => idle s
  | some (d, _) =>
    let s := passTo s d
    let h := port s p
    .next (setPort s p { h with quarantine := Tab.del h.quarantine t, freed := h.freed ++ [t] })

/-- HP_LATE_LOG: a read pops the oldest entry (Table 10-11). -/
def execHpLateLog (p : Nat) (s : State) : Ans :=
  .next (setPort s p { port s p with lateLog := (port s p).lateLog.drop 1 })

/-! D-states (R264 to R266) -/

/-- A step of Table 10-2 begins, with its bound. -/
def pmStep (s : State) (p : Nat) (st : PmStep) : State :=
  let d := match st with
    | .none => 0
    | .drain => s.now + ms 8
    | .enter => s.now + us 1
    | .resume => s.now + us 10
  setPort s p { port s p with step := st, stepDue := d }

/-- POWERSTATE_WRITE: a change starts, or the latest value of the change under way is replaced (R266). -/
def execPowerstateWrite (p : Nat) (d3hot : Bool) (s : State) : Ans :=
  let h := port s p
  if 8 ≤ p then idle s
  else if h.step ≠ .none then .next (setPort s p { h with latestD3 := d3hot })
  else if h.d3 = d3hot then .next (setPort s p { h with latestD3 := d3hot })
  else
    let s := setPort s p { h with latestD3 := d3hot, startD3 := h.d3 }
    .next (pmStep s p (if d3hot then .drain else .resume))

/-- A PowerState takes effect and the change ends; messages held leave as soon as issue resumes. -/
def pmSettle (s : State) (p : Nat) (d3 : Bool) : State :=
  sendHeld (pmStep (setPort s p { port s p with d3 := d3 }) p .none) p

/-- POWERSTATE_STEP_END: a step finishes and the port acts on the latest value written (R266). DRAIN ends when no request is
outstanding, at its bound otherwise. -/
def execPowerstateStepEnd (p : Nat) (s : State) : Ans :=
  let h := port s p
  match h.step with
  | .none => idle s
  | .drain =>
    let s := if h.active.isEmpty then s else passTo s h.stepDue
    if h.latestD3 then .next (pmStep s p .enter)
    else if h.startD3 then .next (pmStep s p .resume)
    else .next (pmSettle s p false)
  | .enter => if h.latestD3 then .next (pmSettle s p true) else .next (pmStep s p .resume)
  | .resume =>
    let s := sendHeld (setPort s p { h with d3 := false, step := .none }) p
    if h.latestD3 then .next (pmStep (setPort s p { port s p with d3 := true }) p .drain)
    else .next (pmSettle s p false)

/-! Link power (R262, R263) -/

/-- The port refuses L1: a request of its own is outstanding, a message waits to be sent, or an SC0 window forbids it (R263). -/
def l1Refused (s : State) (p : Nat) : Bool :=
  let h := port s p
  !h.active.isEmpty || !h.creditWait.isEmpty ||
    s.fn.pend.any (fun e => e.1 / 2048 / 256 == p && msixOpen s p (e.1 / 2048 % 256) (e.1 % 2048) && portMsgs s p) ||
    (bit (regNat s (Reg.hpLinkCfg p)) 14 && sc0On s p)

/-- A port in L1 that would refuse it leaves it at once (R263). -/
def wakeL1 (s : State) (p : Nat) : State := if (port s p).l1 && l1Refused s p then leaveL1 s p else s

/-- The port enters L1, or L1.1 where L1 PM Substates Control 1 enables it: bit 3 for ASPM, bit 1 in D3hot (log entry 13). -/
def enterL1 (s : State) (p : Nat) : State :=
  setPort s p { port s p with l1 := true, l11 := cfgBit s p 0 Cfg.l1Ctl1 (if (port s p).d3 then 1 else 3) }

/-- CLKREQ# of a port is driven low, but in L1.1 (R262). -/
def clkreqLow (s : State) (p : Nat) : Bool := !((port s p).l1 && (port s p).l11)

/-- L1_IDLE: the port requests L1 after L1_IDLE microseconds when Link Control enables ASPM L1 and L1_IDLE is not 0. -/
def execL1Idle (p : Nat) (s : State) : Ans :=
  let h := port s p
  if h.link ∧ !h.l1 ∧ cfgBit s p 0 Cfg.linkCtl 1 ∧ fld (regNat s (Reg.hpLinkCfg p)) 3 10 ≠ 0 ∧ !l1Refused s p then
    .next (enterL1 s p)
  else idle s

/-- L0P_NARROW: with L0P_INIT the port halves its L0p width, down to x2. -/
def execL0pNarrow (p : Nat) (s : State) : Ans :=
  let h := port s p
  if h.link ∧ h.flit ∧ !h.l1 ∧ bit (regNat s (Reg.hpLinkCfg p)) 13 ∧ 4 ≤ h.l0pWidth then
    .next (setPort s p { h with l0pWidth := h.l0pWidth / 2, txQueued := 0 })
  else idle s

/-- PARTNER_L1_REQUEST: the partner asks for entry to or exit from L1, or a change of the L0p width, which is accepted
down to x2. -/
def execPartnerL1Request (p : Nat) (l1 : Bool) (width : Option Nat) (s : State) : Ans :=
  let h := port s p
  if !h.link then idle s
  else
    match width with
    | some w =>
      if h.flit ∧ [2, 4, 8, 16].contains w ∧ w ≤ h.width then .next (setPort s p { h with l0pWidth := w, txQueued := 0 }) else idle s
    | none => .next (if l1 && !l1Refused s p then enterL1 s p else setPort s p { h with l1 := false })

/-! Resets, link and containment (R265, R267, R268, R279 to R282) -/

/-- Conventional reset of the functions of a port: configuration space and MSI-X state return to their reset values. After
D3cold, PME_Status, PME_En and the Pending Bit Arrays are kept (R265). -/
def resetFns (s : State) (p : Nat) (fromCold : Bool) : State :=
  let pme := cfgGet s p 0 Cfg.pmcsr &&& 0x8100
  let s := { s with fn := { s.fn with
    cfg := Tab.keep (fun k _ => k / 1024 / 256 != p) s.fn.cfg
    msix := Tab.keep (fun k _ => k / 2048 / 256 != p) s.fn.msix
    pend := if fromCold then s.fn.pend else Tab.keep (fun k _ => k / 2048 / 256 != p) s.fn.pend
    ariMissing := Tab.set false s.fn.ariMissing p false } }
  let s := setPort s p { port s p with d3 := false, step := .none, latestD3 := false, startD3 := false }
  if fromCold then cfgSet s p 0 Cfg.pmcsr pme else s

/-- Lanes that a port can have. -/
def portWidth (s : State) (p : Nat) : Nat := if bit s.hp.merge.toNat (p / 2) then 16 else 8

/-- The link goes down: the tags of outstanding requests are retired with failed beats (R273). -/
def dropLink (s : State) (p : Nat) : State :=
  let h := port s p
  let s := if h.link then count s (Reg.hpLinkDowns p) else s
  let s := setPort s p { h with link := false, flit := false, speed := 0, width := 0, l0pWidth := 0, l1 := false, reversed := false }
  retireTags (quietLanes s (8 * p) (portWidth s p)) p (fun _ => true) true

/-- Loss of the link in D3hot is entry to D3cold: the port's domains are switched off, and WAKE# is driven when PME_Status is
set with PME_En (R265). -/
def enterCold (s : State) (p : Nat) : State :=
  let s := dropLink s p
  let w := (cfgGet s p 0 Cfg.pmcsr).toNat
  let s := setPort s p { port s p with d3cold := true, wake := bit w 15 && bit w 8 }
  (portDomains s p).foldl switchOff s

/-- PERST_ASSERT: fundamental reset and containment, unless R265 applies. The pins of an upper merged port are ignored. -/
def execPerstAssert (p : Nat) (s : State) : Ans :=
  let h := port s p
  if mergedUpper s p ∨ 8 ≤ p ∨ h.perst then idle s
  else
    let s := setPort s p { h with perst := true }
    if h.d3cold then .next s
    else if h.d3 then .next (enterCold s p)
    else .next (containPort (resetFns (dropLink s p) p false) p 2)

/-- PERST_DEASSERT: a port in D3cold powers its domains and resets its functions; the link then trains (R261, R265). -/
def execPerstDeassert (p : Nat) (s : State) : Ans :=
  let h := port s p
  if mergedUpper s p ∨ !h.perst then idle s
  else
    let s := setPort s p { h with perst := false }
    if h.d3cold then .next (switchOn (resetFns s p true) (portDomains s p)) else .next s

/-- HOT_RESET: as a fundamental reset, without PERST#; the link retrains at once (Table 10-4). A port in D3hot is reset and not
contained. -/
def execHotReset (p : Nat) (s : State) : Ans :=
  let h := port s p
  if mergedUpper s p ∨ !h.link then idle s
  else
    let s := resetFns (dropLink s p) p false
    if h.d3 then .next s else .next (containPort s p 3)

/-- The highest speed at which the link trains: MAX_SPEED and Target Link Speed cap it (R261). -/
def speedCap (s : State) (p : Nat) : Nat :=
  min (fld (regNat s (Reg.hpLinkCfg p)) 0 3) (max 1 (fld (cfgGet s p 0 Cfg.linkCtl2).toNat 0 4))

/-- LINK_UP: the link reaches L0 at a speed that MAX_SPEED allows, at x16, x8, x4, x2 or x1 (R259, R261). WAKE# is released (R265). -/
def execLinkUp (p speed width : Nat) (flit reversed : Bool) (s : State) : Ans :=
  let h := port s p
  if h.link ∨ h.perst ∨ h.ltssmHeld ∨ mergedUpper s p ∨ (dom s p).st ≠ .on ∨ speed = 0 ∨
      speedCap s p < speed ∨ !([1, 2, 4, 8, 16].contains width) ∨ portWidth s p < width ∨ 8 ≤ p ∨
      anyTest s (8 * p) (portWidth s p) then idle s
  else
    let s := setPort s p { h with
      link := true, flit := flit || speed == 6, speed := speed, width := width, l0pWidth := width, l1 := false
      reversed := reversed, d3cold := false, wake := false }
    .next (sendHeld (adaptLanes s (8 * p) width) p)

/-- Retrain Link: the link trains again between the two sides' limits. The partner's is at least the speed in use; what it is beyond
that is open (log entry 79). 64 GT/s needs FLIT mode. -/
def retrain (s : State) (p : Nat) : State :=
  let h := port s p
  let hi := min (speedCap s p) (if h.flit then 6 else 5)
  let lo := min h.speed hi
  adaptLanes (setPort (useFree s) p { h with speed := lo + (freeWord s).toNat % (hi - lo + 1), l1 := false }) (8 * p) (portWidth s p)

/-- LINK_DOWN: surprise removal, which holds the LTSSM in Detect, or entry to D3cold from D3hot (R265, R279, R281). -/
def execLinkDown (p : Nat) (s : State) : Ans :=
  let h := port s p
  if !h.link then idle s
  else if h.d3 then .next (enterCold s p)
  else
    let s := dropLink s p
    .next (containPort (setPort s p { port s p with ltssmHeld := true, inserted := false }) p 4)

/-- PARTNER_DETECTED: on a held port with PERST# deasserted (R281). -/
def execPartnerDetected (p : Nat) (s : State) : Ans :=
  let h := port s p
  if h.ltssmHeld ∧ !h.perst ∧ !h.inserted ∧ !mergedUpper s p then
    let s := switchOn (setPort s p { h with inserted := true }) (portDomains s p)
    .next (raiseSrc s Src.hpInserted { object := 1, index := p })
  else idle s

/-- A tenant's containment cause is withdrawn unless it has a function bound on a contained port (R280). -/
def uncontain (s : State) (tid : Nat) : State :=
  let t := tenant s tid
  if t.containCause && !(t.binds.any (fun b => (port s b.port).contained)) then
    thawIfFree (setTenant s tid { t with containCause := false }) tid
  else s

def doPortRelease (s : State) (p : Nat) : Done :=
  guardAll s [(decide (8 ≤ p) || !(port s p).contained || mergedUpper s p, .badArg)]
    (let s := setPort s p { port s p with contained := false, ltssmHeld := false, inserted := false }
     let s := sendHeld s p
     done ((boundOn s p).foldl uncontain s))

/-- PORT_RELEASE (R282). -/
def cmdPortRelease (src p : Nat) (s : State) : Ans :=
  .next (takeUp s src 0x29 none (fun s => doPortRelease s p))

/-- Set or clear one bit of a number. -/
def putBit (w i : Nat) (b : Bool) : Nat := if bit w i then (if b then w else w - 2 ^ i) else (if b then w + 2 ^ i else w)

/-- PORT_MERGE: KP_PORT_MERGE is written, for the next device reset (R260). -/
def cmdPortMerge (src pair : Nat) (on : Bool) (s : State) : Ans :=
  .next (takeUp s src 0x2A none (fun s =>
    guardAll s [(decide (4 ≤ pair), .badArg), (keepBusy s, .busy)]
      (done (keepWrite s Keep.portMerge (BitVec.ofNat 64 (putBit (keepNat s Keep.portMerge) pair on))))))

/-- AER status bit and class of a link-layer error (Table 10-8, log entry 13). -/
def linkErrBit : LinkErr → Bool × Nat
  | .receiverError => (false, 0)
  | .badTlp => (false, 6)
  | .badDllp => (false, 7)
  | .replayRollover => (false, 8)
  | .replayTimeout => (false, 12)
  | .dataLinkProtocol => (true, 4)
  | .flowControlProtocol => (true, 13)
  | .receiverOverflow => (true, 17)
  | .malformedTlp => (true, 18)

/-- LINK_ERROR: reported by PF 0 (R277); one that PF 0 marks Fatal contains the port (R279). -/
def execLinkError (p : Nat) (err : LinkErr) (s : State) : Ans :=
  if !(port s p).link then idle s
  else
    let s := if err = .malformedTlp then count s (Reg.hpMalformed p) else s
    .next (aer s p 0 (linkErrBit err).1 (linkErrBit err).2)

/-! Registers (Tables 10-11 to 10-14) -/

/-- HP_PORT_STATUS. -/
def portStatus (h : HPort) : Nat :=
  b2n h.link + 2 * b2n h.flit + 4 * h.speed + 2 ^ 5 * h.width + 2 ^ 10 * h.l0pWidth + 2 ^ 15 * b2n h.l1 +
    2 ^ 16 * b2n h.reversed + 2 ^ 17 * b2n h.perst

/-- HP_CONTAIN: TENANTS counts the tenants that a cause of this port holds. -/
def containWord (s : State) (p : Nat) : Nat :=
  let h := port s p
  let n := if h.contained then ((boundOn s p).filter (fun t => (tenant s t).containCause)).length else 0
  b2n h.contained + 2 * h.cause + 2 ^ 4 * b2n h.ltssmHeld + 2 ^ 5 * b2n h.inserted + 2 ^ 6 * (n % 256)

def pmCode : PmStep → Nat
  | .none => 0
  | .drain => 1
  | .enter => 2
  | .resume => 3

/-- HP_PM_STATUS; D3hot is coded 3, as in PowerState. -/
def pmWord (h : HPort) : Nat :=
  (if h.d3 then 3 else 0) + 4 * pmCode h.step + 16 * (if h.latestD3 then 3 else 0) + 64 * b2n h.wake

/-- HP_TAG_STATUS. -/
def tagWord (s : State) (p : Nat) : Nat :=
  let n := tagSpace s p
  (port s p).active.length + 2 ^ 14 * (port s p).quarantine.length +
    2 ^ 28 * (if n = 16384 then 2 else if n = 1024 then 1 else 0)

/-- HP_LATE_LOG: the oldest entry. -/
def lateWord (h : HPort) : Nat :=
  match h.lateLog with
  | [] => 0
  | (t, f) :: _ => t + 2 ^ 14 * f + 2 ^ 22

/-- The read-only HP_ registers that are computed, and the zeros of a merged upper port; none for the others. -/
def readPorts (s : State) (off : Nat) : Option Nat :=
  if off = 0x088000 then some (s.hp.merge.toNat + 16 * fld (keepNat s Keep.portMerge) 0 4)
  else if 0x080000 ≤ off ∧ off < 0x088000 then
    let p := (off - 0x080000) / 0x1000
    let o := off % 0x1000
    if mergedUpper s p then some 0
    else if o = 0 then some (portStatus (port s p))
    else if o = 0x10 then some (containWord s p)
    else if o = 0x18 then some (pmWord (port s p))
    else if o = 0x20 then some (tagWord s p)
    else if o = 0x40 then some (lateWord (port s p))
    else none
  else none

end Sys2Proof.Machine
end

