-- ==== Sys2Proof/Machine/Functions.lean ====
section
/-! DEFINITION. Functions and windows (chapter 11): the window commands, basting and tacking, function-level reset and the quiesce,
notices, the dirty-page log, the resource directory, and the FN_ and IV_ registers. -/

namespace Sys2Proof.Machine

/-! Windows (R294 to R301) -/

def window? (s : State) (i : Nat) : Option Window := Tab.find s.fn.windows i

def setWindow (s : State) (i : Nat) (w : Window) : State :=
  { s with fn := { s.fn with windows := Tab.put s.fn.windows i w } }

def tack (s : State) (p f : Nat) : Tack := Tab.get {} s.fn.tacks (fnKey p f)

def setTack (s : State) (p f : Nat) (t : Tack) : State :=
  { s with fn := { s.fn with tacks := Tab.set {} s.fn.tacks (fnKey p f) t } }

/-- The windows of a function, lowest index first. -/
def fnWindows (s : State) (p f : Nat) : List (Nat × Window) :=
  s.fn.windows.filter (fun e => e.2.port == p && e.2.fn == f)

/-- BAR2 of a function in 2 MiB units (Table 11-3). -/
def bar2Units (s : State) (p f : Nat) : Nat :=
  if f = 0 then (if managerPort s p then 131072 else 0) else 2 ^ (s.fn.bar2Log2 - 21)

/-- Granules that an entry would map: list entries for POOL, the grant's granule for GRANT. -/
def entryGranules (s : State) (ctx : Nat) (e : BitVec 128) : List Nat :=
  if !wValid e then []
  else if wKind e = 0 then (upto (wTarget e % 131072) (wSize e)).filterMap (listAt s ctx)
  else if wKind e = 1 then ((Tab.find s.mp.grants (wTarget e % 4096)).map (fun g => g.granule)).toList
  else []

/-- Granules that the live mapping counts in REFS. -/
def liveGranules (s : State) (w : Window) : List Nat :=
  if wValid w.live && wKind w.live == 1 then (if w.refGone then [] else w.granted.toList) else entryGranules s w.ctx w.live

/-- The entry that would be live after the tack. -/
def nextEntry (w : Window) : BitVec 128 := if w.stagedFlag then w.staged else w.live

/-- Two entries share a BAR2 offset. -/
def entriesMeet (a b : BitVec 128) : Bool :=
  decide (wBase a < wBase b + wSize b) && decide (wBase b < wBase a + wSize a)

/-- The entry breaks the checks of R299 that answer BAD_ARG. -/
def entryBad (s : State) (p f i : Nat) (w : Window) (e : BitVec 128) : Bool :=
  decide (bar2Units s p f < wBase e + wSize e) ||
  (fnWindows s p f).any (fun o => o.1 != i && wValid (nextEntry o.2) && entriesMeet e (nextEntry o.2)) ||
  (match wKind e with
   | 0 => (upto (wTarget e % 131072) (wSize e)).any (fun k => (listAt s w.ctx k).isNone)
   | 1 =>
     (match Tab.find s.mp.grants (wTarget e % 4096) with
      | none => true
      | some g => g.grantee != w.ctx || (!g.write && (wAccess e == 2 || wAccess e == 3)) || wSize e != 1)
   | 2 =>
     (match rwin? s (wTarget e % 4096) with
      | none => true
      | some r => r.ctx != w.ctx || decide (r.contribM1 < wTarget e / 4096) || wAccess e != 2)
   | _ => f != 0 || !managerPort s p)

/-- REFS of the granules that an entry newly maps rise; none when one stands at 255. -/
def addRefs (s : State) : List Nat → Option State
  | [] => some s
  | g :: t => if 255 ≤ (gran s g).refs then none else addRefs (addRef true s g) t

/-- What the checks come to: the state with the new references, or the result code and the first failing index. -/
def tackChecks (s0 : State) (p f : Nat) : List (Nat × Window) → State → Except (Nat × Nat) State
  | [], s => .ok s
  | (i, w) :: t, s =>
    if !w.stagedFlag || !wValid w.staged then tackChecks s0 p f t s
    else if entryBad s0 p f i w w.staged then .error (1, i)
    else
      let old := liveGranules s0 w
      match addRefs s ((entryGranules s0 w.ctx w.staged).filter (fun g => !old.contains g)) with
      | none => .error (2, i)
      | some s => tackChecks s0 p f t s

/-- Granules that the function's windows lose with the tack. -/
def tackLoses (s : State) (p f : Nat) : List Nat :=
  (fnWindows s p f).flatMap (fun e =>
    if e.2.stagedFlag then
      (liveGranules s e.2).filter (fun g => !(entryGranules s e.2.ctx e.2.staged).contains g)
    else [])

/-- A staged window becomes live. -/
def commitWindow (s : State) (w : Window) : Window :=
  if w.stagedFlag then
    { w with live := w.staged, stagedFlag := false, damaged := false, refGone := false
             granted := if wValid w.staged && wKind w.staged == 1 then (entryGranules s w.ctx w.staged).head? else none }
  else w

/-- The contribution lines of a function that wait for a reduce unit. -/
def fnContribs (s : State) (p f : Nat) : List Contrib := s.ru.waiting.filter (fun k => k.src == .host p f)

/-- A tack is applied: the commit point, or the refusal of the whole (R297, R299, R300). A port in L1 leaves it for a live SC0
window (R263). -/
def applyTack (s : State) (p f : Nat) : State :=
  let note (s : State) (res i : Nat) : State :=
    setTack { s with fn := { s.fn with tackResult := res, tackPort := p, tackFn := f, tackIndex := i } } p f
      { tack s p f with last := res }
  match tackChecks s p f (fnWindows s p f) s with
  | .error (res, i) => note s res i
  | .ok s1 =>
    let loses := tackLoses s p f
    let s1 := (fnWindows s p f).foldl (fun t e => setWindow t e.1 (commitWindow s e.2)) s1
    let s1 := setTack s1 p f { tack s1 p f with draining := some loses, waits := fnContribs s p f }
    wakeL1 (note s1 0 0) p

/-- A tack of a function: applied now, held while the previous one drains, or refused (R298). -/
inductive TackRes where
  | busy | held (s : State) | applied (s : State)

def tryTack (s : State) (p f : Nat) : TackRes :=
  let t := tack s p f
  if t.held then .busy
  else if t.draining.isSome then .held (setTack s p f { t with held := true })
  else .applied (applyTack s p f)

/-- A basting write or a tack refused at a register (R298). -/
def basteRefused (s : State) : State := count { s with fn := { s.fn with tackRefused := true } } Reg.fnBasteBusy

/-- One half of the staged copy is written; PORT and FUNCTION stay as WINDOW_ALLOC set them, and reserved bits read zero. -/
def stageHalf (w : Window) (second : Bool) (v : Nat) : Window :=
  let keep := 2 ^ 7 * w.port + 2 ^ 10 * w.fn
  let lo := if second then fld w.staged.toNat 0 64 else fld v 0 7 + keep + 2 ^ 18 * fld v 18 36
  let hi := if second then fld v 0 24 else fld w.staged.toNat 64 64
  { w with staged := BitVec.ofNat 128 (lo + 2 ^ 64 * hi), stagedFlag := true }

/-- BASTING: a write of FN_WIN_STAGE0 or FN_WIN_STAGE1 for the window that FN_WIN_SEL names. -/
def basteWrite (s : State) (second : Bool) (v : Nat) : State :=
  let i := regNat s Reg.fnWinSel
  match window? s i with
  | none => s
  | some w => if (tack s w.port w.fn).held then basteRefused s else setWindow s i (stageHalf w second v)

def execBasting (p : Nat) (second : Bool) (v : Word) (s : State) : Ans :=
  if managerPort s p then .next (basteWrite s second v.toNat) else idle s

/-- FN_TACK: a write tacks a function (R296). -/
def tackWrite (s : State) (v : Nat) : State :=
  match tryTack s (fld v 0 3) (fld v 3 8) with
  | .busy => basteRefused s
  | .held s => s
  | .applied s => s

/-- FN_TACK through a manager port waits for the port's earlier posted writes (R274, R296). -/
def execFnTack (p : Nat) (v : Word) (s : State) : Ans :=
  if managerPort s p ∧ !postedAhead s p then .next (tackWrite s v.toNat) else idle s

/-- OLD_MAPPING_DRAINED: every request resolved under the old mapping has finished; REFS fall and a held tack applies (R298,
R300). -/
def execOldMappingDrained (p f : Nat) (s : State) : Ans :=
  let t := tack s p f
  match t.draining with
  | none => idle s
  | some l =>
    if t.waits.any (fun k => s.ru.waiting.contains k) then idle s
    else
      let s := setTack (l.foldl (addRef false) s) p f { t with draining := none, waits := [], held := false }
      .next (if t.held then applyTack s p f else s)

/-! The window commands (Table 11-9) -/

def winHeld (s : State) (ctx : Nat) : Nat := Tab.count (fun _ w => w.ctx == ctx) s.fn.windows

def winLimit (s : State) (ctx : Nat) : Nat := if ctx = mgt then 16384 else (tenant s ctx).windows

def doWindowAlloc (s : State) (ctx p f : Nat) : Done :=
  let i := Tab.lowestFree s.fn.windows 0 16384
  guardAll s
    [(ctxMissing s ctx, .notFound), (ctxFrozen s ctx, .frozen),
     (decide (mgt < ctx) || decide (8 ≤ p) || !fnOwned s ctx p f || (ctx == mgt && !managerPort s p) || mergedUpper s p, .badArg),
     (i.isNone || decide (winLimit s ctx ≤ winHeld s ctx), .noSpace)]
    (let e := BitVec.ofNat 128 (2 ^ 7 * p + 2 ^ 10 * f)
     (setWindow s (i.getD 0) { ctx := ctx, port := p, fn := f, live := e, staged := e },
      some { status := .ok, results := [(2, i.getD 0)] }))

/-- WINDOW_ALLOC: the lowest free index (R301). -/
def cmdWindowAlloc (src ctx p f : Nat) (s : State) : Ans :=
  .next (takeUp s src 0x35 none (fun s => doWindowAlloc s ctx p f))

/-- A command on a window: the index must be in use, and its owner not frozen. -/
def withWin (s : State) (i : Nat) (body : Window → Done) : Done :=
  match window? s i with
  | none => refuse s .notFound
  | some w => guardAll s [(ctxFrozen s w.ctx, .frozen)] (body w)

def doWindowFree (s : State) (i : Nat) : Done :=
  withWin s i (fun w =>
    guardAll s [(wValid w.live || (tack s w.port w.fn).draining.isSome, .busy)]
      (done { s with fn := { s.fn with windows := Tab.del s.fn.windows i } }))

/-- WINDOW_FREE (R301). -/
def cmdWindowFree (src i : Nat) (s : State) : Ans :=
  .next (takeUp s src 0x36 none (fun s => doWindowFree s i))

def doWindowStage (s : State) (i : Nat) (e : BitVec 128) : Done :=
  withWin s i (fun w =>
    guardAll s [(fld e.toNat 54 10 != 0 || fld e.toNat 88 40 != 0, .badArg), ((tack s w.port w.fn).held, .busy)]
      (done (setWindow s i (stageHalf (stageHalf w false (fld e.toNat 0 64)) true (fld e.toNat 64 64)))))

/-- WINDOW_STAGE (R296). A reserved bit set answers BAD_ARG (R7). -/
def cmdWindowStage (src i : Nat) (e : BitVec 128) (s : State) : Ans :=
  .next (takeUp s src 0x37 none (fun s => doWindowStage s i e))

/-- The answer of a tack that has been applied. -/
def tackAnswer (s : State) (p f : Nat) : Done :=
  match (tack s p f).last with
  | 0 => done s
  | 1 => (s, some { status := .badArg, detail := BitVec.ofNat 64 s.fn.tackIndex })
  | _ => (s, some { status := .noSpace, detail := BitVec.ofNat 64 s.fn.tackIndex })

def doWindowTack (s : State) (p f : Nat) : Done :=
  guardAll s
    [(((boundTo s p f).map (fun e => ctxFrozen s e.1)).getD false, .frozen),
     (decide (8 ≤ p) || decide (256 ≤ f) || mergedUpper s p, .badArg)]
    (match tryTack s p f with
     | .busy => refuse s .busy
     | .held s => (s, none)
     | .applied s => tackAnswer s p f)

/-- A held WINDOW_TACK answers once it has been applied. -/
def pollWindowTack (s : State) (p f : Nat) : Done := if (tack s p f).held then (s, none) else tackAnswer s p f

/-- WINDOW_TACK (R296, R297). -/
def cmdWindowTack (src p f : Nat) (s : State) : Ans :=
  .next (takeUp s src 0x38 (some (.windowTack p f)) (fun s => doWindowTack s p f))

def doWindowLimit (s : State) (tid limit : Nat) : Done :=
  guardAll s [(ctxMissing s tid, .notFound), (ctxFrozen s tid, .frozen),
      (decide (mgt ≤ tid) || decide (16384 < limit), .badArg)]
    (done (journalObject (setTenant s tid { tenant s tid with windows := limit }) tid 1 tid))

/-- WINDOW_LIMIT: frees nothing. -/
def cmdWindowLimit (src tid limit : Nat) (s : State) : Ans :=
  .next (takeUp s src 0x39 none (fun s => doWindowLimit s tid limit))

/-! Notices to the management queue (R318) -/

/-- A notice: kind 1 FLR_DONE, 2 UNQUIESCED_DISABLE. -/
def noticeBytes (s : State) (kind p f tid : Nat) : Bytes :=
  toLe 1 kind ++ toLe 1 p ++ toLe 1 f ++ toLe 1 tid ++ fill 4 0 ++ toLe 8 (timeNs s)

/-- Push a notice at priority 7, hold it while the queue has no room, or lose it when the buffer is full too. -/
def pushFnNotice (s : State) (b : Bytes) : State :=
  let hold (s : State) : State :=
    if s.fn.notices.length < 64 then { s with fn := { s.fn with notices := s.fn.notices ++ [b] } }
    else refuseItem (count s Reg.fnNoticeLost) mgtQueue
  if s.fn.notices.isEmpty then
    match push s mgtQueue 7 (mkTag mgt 1) b false with
    | (.linked _, s) => s
    | (_, s) => hold s
  else hold s

/-- NOTICE_PUSH: the oldest held notice is pushed once the queue has room. -/
def execNoticePush (s : State) : Ans :=
  match s.fn.notices with
  | [] => idle s
  | b :: t =>
    match push s mgtQueue 7 (mkTag mgt 1) b false with
    | (.linked _, s) => .next { s with fn := { s.fn with notices := t } }
    | (_, s) => .next s

/-! Function-level reset and the quiesce (R307 to R310) -/

def flr? (s : State) (tid : Nat) : Option Flr := Tab.find s.fn.flrs tid

/-- The function is being reset: its configuration requests are retried. -/
def inFlr (s : State) (p f : Nat) : Bool :=
  if f = 0 then (port s p).flr else s.fn.flrs.any (fun e => e.2.fns.contains (p, f))

/-- A tenant's queues. -/
def queuesOf (s : State) (ctx : Nat) : List Nat :=
  (s.qm.queues.filter (fun e => e.2.ctx == ctx && !e.2.destroyed)).map (fun e => e.1)

/-- Pushes of a function that wait in its port's push buffer are discarded and counted in QM_FLUSHED. -/
def dropPushes (s : State) (pf : Nat × Nat) : State :=
  let l := Tab.get [] s.qm.pushes pf.1
  let n := (l.filter (fun x => x.fn == pf.2)).length
  countN { s with qm := { s.qm with pushes := Tab.set [] s.qm.pushes pf.1 (l.filter (fun x => x.fn != pf.2)) } } Reg.qmFlushed n

/-- Steps 1 to 4 of the quiesce: read tags retired, channels left IDLE, a flush of every queue, threads halted. -/
def quiesceTenant (s : State) (tid : Nat) : State :=
  let cs := chansOf s tid
  let s := (upto 0 8).foldl (fun s p => retireTags s p (fun a => cs.contains a.channel) false) s
  let s := cs.foldl flrChannel s
  let s := cs.foldl journalChan s
  let s := (queuesOf s tid).foldl (fun s q => requestFlush s q false) s
  { s with ne := { s.ne with threads := Tab.mapAll (fun _ th => if tagCtx th.tag = tid then haltThread th else th) s.ne.threads } }

/-- Every queue of the tenant has passed its packet boundary. -/
def quiesced (s : State) (tid : Nat) : Bool := s.qm.queues.all (fun e => e.2.ctx != tid || !e.2.flushReq)

/-- Return a function's configuration registers and MSI-X state to their reset values (R302). -/
def resetFn (s : State) (pf : Nat × Nat) : State :=
  let k := fnKey pf.1 pf.2
  let s := cfgReset s pf.1 pf.2
  { s with fn := { s.fn with
      msix := Tab.keep (fun e _ => e / 2048 != k) s.fn.msix
      pend := Tab.keep (fun e _ => e / 2048 != k) s.fn.pend } }

/-- The FLR of a VF begins, or joins a quiesce that runs already; a TENANT_SAVE that runs is abandoned (R308). -/
def startFlr (s : State) (tid : Nat) (pf : Nat × Nat) : State :=
  let s := dropPushes (refillBucket s pf.1 pf.2) pf
  let s := setTenant s tid { tenant s tid with saving := false }
  match flr? s tid with
  | some x =>
    let x := { x with fns := if x.fns.contains pf then x.fns else x.fns ++ [pf] }
    { s with fn := { s.fn with flrs := Tab.put s.fn.flrs tid x } }
  | none => quiesceTenant { s with fn := { s.fn with flrs := Tab.put s.fn.flrs tid { fns := [pf] } } } tid

/-- INITIATE_FLR of a VF. A VF that is bound to no tenant is reset at once. -/
def execInitiateFlr (p f : Nat) (s : State) : Ans :=
  if f = 0 ∨ 256 ≤ f ∨ !vfPresented s p f then idle s
  else
    match boundTo s p f with
    | none => .next (resetFn (refillBucket s p f) (p, f))
    | some (tid, _) => .next (startFlr s tid (p, f))

/-- The end of a PF FLR: PF 0's configuration space is reset once every VF has been (Table 10-4). -/
def finishPfFlr (s : State) (p : Nat) : State :=
  if (port s p).flr && !(s.fn.flrs.any (fun e => e.2.fns.any (fun x => x.1 == p))) then
    resetFn (setPort s p { port s p with flr := false }) (p, 0)
  else s

/-- The channels whose requests of PF 0 are outstanding on a port. -/
def pfChans (s : State) (p : Nat) : List Nat :=
  (((port s p).active.filter (fun e => e.2.fn == 0)).map (fun e => e.2.channel)).dedup

/-- PF_FLR: the FLR of every bound VF of the port; tags of PF 0 are retired with no failed beat, the descriptors of their channels
being dropped as R204 gives, and an unread mailbox response is discarded (R267, R268, R273; DEDUCED, log entry 79). -/
def execPfFlr (p : Nat) (s : State) : Ans :=
  if 8 ≤ p ∨ mergedUpper s p then idle s
  else
    let s := setMbox s p { mbox s p with ready := false, rsp := [] }
    let cs := pfChans s p
    let s := cs.foldl flrChannel (retireTags (refillBucket s p 0) p (fun a => a.fn == 0) false)
    let s := setPort s p { port s p with flr := true }
    let vfs := (boundOn s p).flatMap (fun t =>
      ((tenant s t).binds.filter (fun b => b.port == p && vfPresented s p b.vf)).map (fun b => (t, b.vf)))
    .next (finishPfFlr (vfs.foldl (fun s e => startFlr s e.1 (p, e.2)) s) p)

/-- VF_ENABLE_CLEAR: VF Enable is cleared; each bound VF that goes away, its tenant not quiesced, is quiesced as R309 gives. -/
def execVfEnableClear (p : Nat) (s : State) : Ans :=
  if 8 ≤ p ∨ !cfgBit s p 0 Cfg.sriovCtl 0 then idle s
  else
    let gone := (boundOn s p).flatMap (fun t =>
      ((tenant s t).binds.filter (fun b => b.port == p && vfPresented s p b.vf)).map (fun b => (t, b.vf)))
    let s := cfgSet s p 0 Cfg.sriovCtl (cfgGet s p 0 Cfg.sriovCtl &&& 0xFFFFFFFE)
    let s := { s with fn := { s.fn with ariMissing := Tab.set false s.fn.ariMissing p false } }
    let s := (upto 1 255).foldl (fun s f => resetFn s (p, f)) s
    .next (gone.foldl (fun s e =>
      let m := (tenant s e.1).st
      if m = .quiesced ∨ m = .bound ∨ m = .removed then s
      else
        let s := dropPushes s (p, e.2)
        match flr? s e.1 with
        | some x =>
          let x := { x with disable := x.disable ++ [(p, e.2)] }
          { s with fn := { s.fn with flrs := Tab.put s.fn.flrs e.1 x } }
        | none =>
          let x : Flr := { disable := [(p, e.2)] }
          quiesceTenant { s with fn := { s.fn with flrs := Tab.put s.fn.flrs e.1 x } } e.1) s)

/-- One function reset by the quiesce: configuration, FLR_DONE notice, count and raise. -/
def flrDone (tid : Nat) (s : State) (pf : Nat × Nat) : State :=
  let s := resetFn s pf
  let s := count (pushFnNotice s (noticeBytes s 1 pf.1 pf.2 tid)) Reg.fnFlrCnt
  raiseSrc s Src.fnFlr { tag := some (mkTag tid 1), object := 2, index := pf.2 + 256 * pf.1 }

/-- One VF that went away unquiesced (R309). -/
def disableDone (tid : Nat) (s : State) (pf : Nat × Nat) : State :=
  let s := count (pushFnNotice s (noticeBytes s 2 pf.1 pf.2 tid)) Reg.fnUnqDisable
  raiseSrc s Src.fnUnquiesced { tag := some (mkTag tid 1), object := 2, index := pf.2 + 256 * pf.1 }

/-- FLR_COMPLETE: the quiesce has reached every queue's boundary. Nothing completes in safe state (R361). -/
def execFlrComplete (tid : Nat) (s : State) : Ans :=
  match flr? s tid with
  | none => idle s
  | some x =>
    if !quiesced s tid ∨ s.th.safe then idle s
    else
      let s := { s with fn := { s.fn with flrs := Tab.del s.fn.flrs tid } }
      let s := x.fns.foldl (flrDone tid) s
      let s := x.disable.foldl (disableDone tid) s
      let others := (tenantFns s tid).filter (fun pf => !x.fns.contains pf && !x.disable.contains pf)
      let s := others.foldl (notify .quiesce) s
      .next ((upto 0 8).foldl finishPfFlr s)

/-! Dirty-page logging (R316, R317) -/

def dirtyLog? (s : State) (tid p : Nat) : Option DirtyLog := Tab.find s.fn.logs (8 * tid + p)

def setDirtyLog (s : State) (tid p : Nat) (l : DirtyLog) : State :=
  { s with fn := { s.fn with logs := Tab.put s.fn.logs (8 * tid + p) l } }

/-- The bitmap in use. -/
def activeMap (l : DirtyLog) : Nat := if l.activeB then l.bitmapB else l.bitmapA

/-- A posted write of the device's own through PF 0 of a port. -/
def pfWrite (s : State) (p a : Nat) (b : Bytes) : State :=
  emit (transmit s p b.length) (.hostWrite p 0 a b false false (idoRequest s p))

/-- The port can take a write of the device's own now, and a system channel is there to make it (R184). -/
def mayPost (s : State) (p : Nat) : Bool := portSends s p && !s.th.safe && (systemChan s).isSome

/-- One write of a stream that runs on a system channel (R184). -/
def streamWrite (s : State) (p a : Nat) (b : Bytes) : State :=
  match systemChan s with
  | some c => pfWrite (systemMove s c b.length) p a b
  | none => s

/-- Line n of the active bitmap is written whole to the host from the shadow. -/
def dirtyLine (p : Nat) (l : DirtyLog) (s : State) (n : Nat) : State :=
  let s := eccSpan s (shadowAt l (64 * n)) 64 (mkTag mgt 1)
  streamWrite s p (activeMap l + 64 * n) (poolBytes s (shadowAt l (64 * n)) 64)

/-- DIRTY_LINE_WRITE: the changed line that has waited longest is written whole to the host. -/
def execDirtyLineWrite (tid p : Nat) (s : State) : Ans :=
  match dirtyLog? s tid p with
  | none => idle s
  | some l =>
    match l.lines with
    | [] => idle s
    | n :: t =>
      if mayPost s p then
        .next (dirtyLine p l (setDirtyLog s tid p { l with lines := t }) n)
      else idle s

/-- Every changed line of the active bitmap is written. -/
def flushDirty (s : State) (p : Nat) (l : DirtyLog) : State :=
  l.lines.foldl (dirtyLine p l) s

/-- The shadow of a log takes an empty bitmap. -/
def clearShadow (s : State) (l : DirtyLog) : State := l.granules.foldl zeroGranule s

/-- The device zeroes a bitmap of SPAN ÷ 32,768 bytes, in writes within Max_Payload_Size. -/
def zeroBitmap (s : State) (p a n : Nat) : State :=
  (cutAt (maxPayload s p) (n + 1) a (fill n 0)).foldl (fun s w => streamWrite s p w.1 w.2) s

/-- Shadow granules taken for the management context; none when too few are free. -/
def takeShadow : Nat → State → List Nat → Option (State × List Nat)
  | 0, s, l => some (s, l)
  | n + 1, s, l =>
    match lowestFree s (bestStack s) with
    | none => none
    | some g => takeShadow n (assignGranule s mgt (assignIndex s mgt none) g false) (l ++ [g])

def logBad (s : State) (tid p low span a b : Nat) : Bool :=
  decide (8 ≤ p) || !((tenant s tid).binds.any (fun x => x.port == p)) || low % 4096 != 0 || span % 32768 != 0 ||
    decide (span < 32768) || decide (2 ^ 40 < span) || a % 64 != 0 || b % 64 != 0

def doDirtyLogStart (s : State) (tid p low span a b : Nat) : Done :=
  let sh := takeShadow (cdiv span (2 ^ 36)) s []
  guardAll s
    [(ctxMissing s tid, .notFound), (ctxFrozen s tid, .frozen), (decide (mgt ≤ tid) || logBad s tid p low span a b, .badArg),
     (sh.isNone, .noSpace), ((dirtyLog? s tid p).isSome, .busy)]
    (if !mayPost s p then (s, none)
     else
      match sh with
      | none => refuse s .noSpace
      | some (s, l) =>
        let s := setDirtyLog s tid p { low := low, span := span, bitmapA := a, bitmapB := b, granules := l }
        done (zeroBitmap (zeroBitmap s p a (span / 32768)) p b (span / 32768)))

/-- DIRTY_LOG_START: A is active and both bitmaps are zeroed (R316). -/
def cmdDirtyLogStart (src tid p low span a b : Nat) (s : State) : Ans :=
  .next (takeUp s src 0x3A (some (.dirtyLogStart tid p low span a b)) (fun s => doDirtyLogStart s tid p low span a b))

/-- A command on a dirty log. -/
def withLog (s : State) (tid p : Nat) (body : DirtyLog → Done) : Done :=
  guardAll s [(ctxMissing s tid || (dirtyLog? s tid p).isNone, .notFound), (ctxFrozen s tid, .frozen)]
    (match dirtyLog? s tid p with
     | none => refuse s .notFound
     | some l => if mayPost s p then body l else (s, none))

def doDirtyLogSwap (s : State) (tid p : Nat) : Done :=
  withLog s tid p (fun l =>
    let s := clearShadow (flushDirty s p l) l
    let n := { l with activeB := !l.activeB, overflow := false, lines := [] }
    (zeroBitmap (setDirtyLog s tid p n) p (activeMap n) (l.span / 32768),
      some { status := .ok, results := [(1, b2n n.activeB), (1, b2n l.overflow)] }))

/-- DIRTY_LOG_SWAP (R317): answered once every line of the old buffer has been written. -/
def cmdDirtyLogSwap (src tid p : Nat) (s : State) : Ans :=
  .next (takeUp s src 0x3B (some (.dirtyLogSwap tid p)) (fun s => doDirtyLogSwap s tid p))

/-- A management-context granule is released by its number. -/
def releaseMgt (s : State) (g : Nat) : State :=
  match (granList s mgt).entries.findIdx? (fun e => e == some g) with
  | none => s
  | some i => releaseGranule s mgt i g

def doDirtyLogStop (s : State) (tid p : Nat) : Done :=
  withLog s tid p (fun l =>
    let s := l.granules.foldl releaseMgt (flushDirty s p l)
    ({ s with fn := { s.fn with logs := Tab.del s.fn.logs (8 * tid + p) } },
      some { status := .ok, results := [(1, b2n l.overflow)] }))

/-- DIRTY_LOG_STOP (R317). -/
def cmdDirtyLogStop (src tid p : Nat) (s : State) : Ans :=
  .next (takeUp s src 0x3C (some (.dirtyLogStop tid p)) (fun s => doDirtyLogStop s tid p))

/-! Resource directory and Expansion ROM (R291 to R293) -/

/-- MG_ID: 0x8256 with the stepping. -/
def mgId : Nat := 0x8256 + 2 ^ 16 * Config.stepping.toNat

/-- One entry: TYPE, INSTANCE, VALUE0, VALUE1. -/
def dirEntry (e : Nat × Nat × Nat × Nat) : Bytes := toLe 2 e.1 ++ toLe 2 e.2.1 ++ toLe 4 e.2.2.1 ++ toLe 8 e.2.2.2

/-- Register prefixes in the order of their bases (Table 17-1), as ASCII. -/
def prefixes : List Nat :=
  [0x5F5048, 0x5F4E46, 0x5F5649, 0x5F4258, 0x5F4353, 0x5F4853, 0x5F4D51, 0x5F454E, 0x5F434D, 0x5F504D, 0x5F5552,
   0x5F5445, 0x5F5457, 0x5F4D53, 0x5F4E4C, 0x5F4B43, 0x5F5750, 0x5F4854, 0x5F474D, 0x5F504B, 0x5F4254]

/-- The entries of Table 11-5. -/
def dirEntries (s : State) : List (Nat × Nat × Nat × Nat) :=
  [(1, 0, 131072, 2 ^ 38), (2, 0, 255, 2 ^ s.fn.bar2Log2), (3, 0, 4096, 256 + 2 ^ 16 * 2048),
   (4, 1, 256, 0), (4, 2, 16384, 64), (4, 3, 16384, 64), (4, 4, 262144, 4096), (4, 5, 1024, 4), (4, 6, 64, 0),
   (4, 7, 4096, 0), (4, 8, 65536, 256), (4, 9, 4096, 0)] ++
  (prefixes.zipIdx 1).map (fun e => (5, e.2, e.1, if e.2 = 21 then 0xA40000 else 0x80000 * e.2)) ++
  (upto 0 5).map (fun k => (6, k, 4096, 4096 * k)) ++
  [(7, 0, s.et.arrangement, 0), (0xFFFF, 0, 0, 0)]

/-- The header of a port's directory with a given CRC. -/
def dirHeader (s : State) (p crc : Nat) : Bytes :=
  let n := (dirEntries s).length
  toLe 4 0x44524C43 ++ toLe 2 1 ++ toLe 2 n ++ toLe 4 (64 + 16 * n) ++ toLe 4 crc ++
    toLe 4 (p + 8 * b2n (managerPort s p) + 16 * b2n (bit s.hp.merge.toNat (p / 2))) ++
    toLe 4 Config.stepping.toNat ++ toLe 8 Config.serialNumber.toNat ++ toLe 8 s.mg.fw.toNat ++ fill 24 0

/-- The resource directory of a port. -/
def directory (s : State) (p : Nat) : Bytes :=
  let body := (dirEntries s).flatMap dirEntry
  dirHeader s p (crc32 (dirHeader s p 0 ++ body)) ++ body

/-- The driver image, or 0xFF when flash holds none. -/
def driverImage (s : State) : Bytes := if s.fn.rom.isEmpty then [0xFF] else s.fn.rom

/-- The 1 MiB ROM image of a port at an offset: what firmware serves, and what it copies to the pool. -/
def romBytes (s : State) (p off n : Nat) : Bytes :=
  let d := directory s p
  (upto off n).map (fun a => if a < 0xC0000 then (driverImage s).getD a 0 else d.getD (a - 0xC0000) 0)

/-! Registers (Tables 11-13, 11-14) -/

/-- Tenant state code of FN_TEN_STATE. -/
def tenCode : TenMode → Nat
  | .free => 0
  | .bound => 1
  | .running => 2
  | .quiesced => 3
  | .frozen => 4
  | .removed => 5

/-- FN_TACK_STATUS. -/
def tackStatus (s : State) : Nat :=
  s.fn.tackResult + 4 * b2n (s.fn.tacks.any (fun e => e.2.draining.isSome)) + 8 * b2n (s.fn.tacks.any (fun e => e.2.held)) +
    16 * b2n s.fn.tackRefused + 2 ^ 5 * s.fn.tackPort + 2 ^ 8 * s.fn.tackFn + 2 ^ 16 * s.fn.tackIndex

/-- VFs presented by a port. -/
def vfsPresented (s : State) (p : Nat) : Nat := ((upto 1 255).filter (vfPresented s p)).length

/-- FN_PORT_STATUS. -/
def fnPortStatus (s : State) (p : Nat) : Nat :=
  vfsPresented s p + 2 ^ 9 * b2n (cfgBit s p 0 Cfg.sriovCtl 0) + 2 ^ 10 * b2n (Tab.get false s.fn.ariMissing p) +
    2 ^ 11 * (boundOn s p).length + 2 ^ 20 * s.fn.bar2Log2 + 2 ^ 26 * b2n (managerPort s p)

/-- FN_TEN_STATE. -/
def tenState (s : State) (t : Nat) : Nat :=
  let x := tenant s t
  tenCode x.st + 8 * b2n x.mgrCause + 16 * b2n x.containCause + 2 ^ 5 * ((x.binds.map (fun b => 2 ^ b.port)).sum) +
    2 ^ 13 * winHeld s t + 2 ^ 28 * (if x.st = .free then 0 else x.windows)

/-- FN_FUNC. -/
def fnFunc (s : State) (p f : Nat) : Nat :=
  (match boundTo s p f with
   | none => 0
   | some (t, b) => t + 2 ^ 8 + 2 ^ 9 * b.pushClass) +
    2 ^ 11 * b2n (inFlr s p f) + 2 ^ 12 * b2n ((fnWindows s p f).any (fun w => w.2.stagedFlag))

/-- IV_POOL: entries of a port not assigned. -/
def ivFree (s : State) (p : Nat) : Nat :=
  3840 - ((boundOn s p).map (fun t => (((tenant s t).binds.filter (fun b => b.port == p)).map (fun b => b.vectors)).sum)).sum

/-- The selected window's copy. -/
def winWord (s : State) (staged second : Bool) : Nat :=
  match window? s (regNat s Reg.fnWinSel) with
  | none => 0
  | some w => fld (if staged then w.staged else w.live).toNat (if second then 64 else 0) 64

/-- The read-only FN_ and IV_ registers that are computed; none for the others. -/
def readFunctions (s : State) (off : Nat) : Option Nat :=
  if 0x100000 ≤ off ∧ off < 0x100800 ∧ off % 0x100 = 0 then some (fnPortStatus s ((off - 0x100000) / 0x100))
  else if off = 0x101008 then some (winWord s true false)
  else if off = 0x101010 then some (winWord s true true)
  else if off = 0x101018 then some (winWord s false false)
  else if off = 0x101020 then some (winWord s false true)
  else if off = 0x101030 then some (tackStatus s)
  else if off = 0x101038 then some s.fn.windows.length
  else if 0x102000 ≤ off ∧ off < 0x103000 ∧ off % 16 = 0 then some (tenState s ((off - 0x102000) / 16))
  else if 0x104000 ≤ off ∧ off < 0x108000 then some (fnFunc s ((off - 0x104000) / 0x800) ((off - 0x104000) % 0x800 / 8))
  else if 0x180000 ≤ off ∧ off < 0x180800 ∧ off % 0x100 = 0 then some (ivFree s ((off - 0x180000) / 0x100))
  else if 0x181000 ≤ off ∧ off < 0x185000 then
    let p := (off - 0x181000) / 0x800
    let f := (off - 0x181000) % 0x800 / 8
    some (fnVectors s p f)
  else none

end Sys2Proof.Machine
end

