-- ==== Sys2Proof/Machine/Flags.lean ====
section
/-! DEFINITION. The words that report: status words (Tables 02-13, 02-14), the EVENT special (Table 02-3), fault records
(Table 03-8) and the scalar comparisons that set predicates. The machine has no arithmetic flags (R42). -/

namespace Sys2Proof.Machine

/-- Status codes of Table 02-14. -/
inductive StatusCode where
  | done | empty | full | busy | toobig | stale | closed
  deriving DecidableEq, Repr

def statusNum : StatusCode → Nat
  | .done => 0
  | .empty => 1
  | .full => 2
  | .busy => 3
  | .toobig => 4
  | .stale => 5
  | .closed => 6

/-- The status word of Table 02-13. -/
def statusWord (c : StatusCode) (prio : Nat) (displaced : Bool) (len : Nat) : Word :=
  BitVec.ofNat 64 (statusNum c + 2 ^ 8 * prio + 2 ^ 11 * b2n displaced + 2 ^ 32 * len)

/-- EVENT.KIND codes of Table 02-3. -/
def evCode : EvKind → Nat
  | .start => 0
  | .queue => 1
  | .packet => 2
  | .reduce => 3
  | .timer => 4
  | .doorbell => 5
  | .yield_ => 6
  | .shuttle => 7

/-- The EVENT special: KIND, MORE, SOURCE and ARG. -/
def eventWord (kind : EvKind) (more source : Nat) (arg : Word) : Word :=
  BitVec.ofNat 64 (evCode kind + 2 ^ 8 * min 255 more + 2 ^ 16 * (source % 65536) + 2 ^ 32 * (arg.toNat % 2 ^ 32))

/-- A fault record of 40 bytes (Table 03-8). -/
def faultRecord (code special pc tag word program inst : Nat) (detail event : Word) (time : Nat) : Bytes :=
  toLe 1 code ++ [0] ++ toLe 2 special ++ toLe 2 (pc % 32768) ++ toLe 2 tag ++ toLe 4 word ++ toLe 2 program ++
    toLe 2 inst ++ toLe 8 detail.toNat ++ toLe 8 event.toNat ++ toLe 8 time

/-- Signed comparison of two words. -/
def slt (a b : Word) : Bool := decide (a.toInt < b.toInt)

/-- Unsigned comparison of two words. -/
def ult (a b : Word) : Bool := decide (a.toNat < b.toNat)

end Sys2Proof.Machine
end

