-- ==== Sys2Proof/Machine/Issue.lean ====
section
/-! DEFINITION. Issue of an instruction (R62, R63), program faults and the fault policies (R93 to R95), stalls (R51, R52),
activations (R73, R76 to R80) and the records of an activation's end (Table 12-7). -/

namespace Sys2Proof.Machine

def program? (s : State) (h : Nat) : Option Program := Tab.find s.ne.programs h

def inst? (s : State) (h : Nat) : Option Inst := Tab.find s.ne.insts h

/-- The program and the instance of a needle thread; the management engine, thread 512, has neither (R27). -/
def programAt (s : State) (t : Nat) (th : Thread) : Option Program := if t = mgEngine then none else program? s th.program

def instAt (s : State) (t : Nat) (th : Thread) : Option Inst := if t = mgEngine then none else inst? s th.inst

/-- The code section that a thread executes. -/
def codeOf (s : State) (t : Nat) (th : Thread) : List (BitVec 32) :=
  if t = mgEngine then s.ne.mgCode else
    match programAt s t th with
    | some p => p.code
    | none => []

/-- The word at a byte offset; none at or beyond the end of the code section. -/
def fetch (s : State) (t : Nat) (th : Thread) : Option Nat := ((codeOf s t th)[th.pc / 4]?).map BitVec.toNat

/-- Budget of an activation: the smaller of the image's and of the cap (R80). -/
def activationBudget (s : State) (t : Nat) (th : Thread) : Nat :=
  match programAt s t th, instAt s t th with
  | some p, some i => min p.budget i.budgetCap
  | _, _ => 0

/-- The thread runs in a START-mode instance (R73). -/
def startMode (s : State) (t : Nat) (th : Thread) : Bool :=
  match programAt s t th with
  | some p => p.startMode
  | none => false

/-- The thread may take an instruction: no halt or freeze waits for its loads (R51). -/
def mayRun (th : Thread) : Bool := (th.mode == .ready || th.mode == .running) && !th.haltDue && !th.freezeDue

/-- The thread's context runs: in BOUND and QUIESCED no thread issues and no event is delivered (R305). -/
def ctxRuns (s : State) (th : Thread) : Bool := ctxMode s (tagCtx th.tag) == .running

/-- An instruction is issued: PC moves on, the budget falls except on the management engine, the thread runs. -/
def advance (t : Nat) (th : Thread) : Thread :=
  { th with
    pc := th.pc + 4
    budget := if t = mgEngine then th.budget else th.budget - 1
    mode := if mayRun th || th.mode == .stalled then .running else th.mode
    stalledAt := none
    predEpoch := none }

/-! Program faults (R63, R64, R93 to R95) -/

/-- The thread as a fault leaves it: halted with its state kept; a freeze that has come, or waited, freezes it so. -/
def faultThread (rec_ : BitVec 320) (th : Thread) : Thread :=
  settleThread (setMode .halted { th with faulted := true, fault := rec_, plds := [], stalledAt := none })

/-- What the fault policy does after the record (R95). -/
def applyPolicy (s : State) (t : Nat) (th : Thread) : State :=
  match instAt s t th with
  | none => s
  | some i =>
    match i.policy with
    | .keep => s
    | .recycle =>
      if startMode s t th then setThread s t (setMode .idle { thread s t with faulted := false, run := false }) else s
    | .stop =>
      { s with ne := { s.ne with threads := Tab.mapAll (fun k x =>
          if i.threads.contains k then haltThread x else x) s.ne.threads } }

/-- The fault record goes to the instance's fault queue; a record that the queue refuses is counted in NE_FAULT_LOST and
in REFUSED (R94, Table 06-4); 0x3FFF is no queue for a tenant and the management queue for the management context (R159).
None when the journal has no room for the item's record. -/
def pushFault (s : State) (t : Nat) (th : Thread) (b : Bytes) : Option State :=
  match instAt s t th with
  | none => some s
  | some i =>
    if i.faultQueue = mgtQueue ∧ tagCtx th.tag ≠ mgt then some s
    else
      match push s i.faultQueue 7 th.tag b false with
      | (.linked _, s) => some s
      | (.wait, _) => none
      | (.access, s) => some (count s Reg.neFaultLost)
      | (.full, s) => some (count (refuseItem s i.faultQueue) Reg.neFaultLost)

/-- A program fault of a thread. The limit of 64 a tick holds for the management context as for a tenant (DESIGN CHOICE, log entry 59). -/
def programFault (s : State) (t : Nat) (f : PFault) : State :=
  let th := thread s t
  let b := faultRecord f.1 (threadSpecial t) th.pc th.tag.toNat ((fetch s t th).getD 0) th.program th.inst f.2 th.event
    (timeNs s)
  let s := setThread s t (faultThread (BitVec.ofNat 320 (le b)) th)
  match pushFault s t th b with
  | none => journalWait s
  | some s =>
    let s := if t = mgEngine then { s with mg := { s.mg with running := false } } else s
    let s := count s Reg.neFaultCnt
    let s := raiseLimited s Src.neProgFault (tagCtx th.tag)
      { tag := some th.tag, object := 8, index := t, extra := BitVec.ofNat 40 (f.1 + 256 * (th.pc % 32768)) }
    applyPolicy s t th

/-- A fault takes place once no earlier PLD is outstanding, and once the journal holds its record (R63, R329). -/
def takeFault (s : State) (t : Nat) (f : PFault) : Ans :=
  let th := thread s t
  if !th.plds.isEmpty then idle s
  else
    match pushFault s t th (fill 40 0) with
    | none => .next (journalWait s)
    | some _ => .next (programFault s t f)

/-! Issue (R62) -/

/-- What the checks before the guard find. -/
inductive Pre where
  | bad (f : PFault)
  | word (op : NOp) (w : Nat)
  deriving DecidableEq, Repr

/-- System registers of Table 16-1 that MFS reads; that MTS writes. -/
def mfsOk (n : Nat) : Bool := n == 0 || n == 2
def mtsOk (n : Nat) : Bool := n == 1 || n == 3 || n == 4

/-- Checks 1 to 4 of R62. A system register that does not exist for the access is a reserved number (log entry 18). -/
def preIssue (s : State) (t : Nat) (th : Thread) : Pre :=
  if t ≠ mgEngine ∧ th.budget = 0 then .bad (FaultCode.budget, BitVec.ofNat 64 (activationBudget s t th))
  else
    match fetch s t th with
    | none => .bad (FaultCode.fetch, BitVec.ofNat 64 th.pc)
    | some w =>
      match decodeN w with
      | none => .bad (FaultCode.illegal, 0)
      | some op =>
        if (op = .mfs ∨ op = .mts) ∧ t ≠ mgEngine then .bad (FaultCode.priv, BitVec.ofNat 64 (wImm w))
        else if (op = .mfs ∧ !mfsOk (wImm w)) ∨ (op = .mts ∧ !mtsOk (wImm w)) then .bad (FaultCode.illegal, 0)
        else .word op w

/-- The guard of a word is true (R35). -/
def guardTrue (th : Thread) (op : NOp) (w : Nat) : Bool := !guarded op || pGet th (wPg w)

/-- A load of the management engine from control space, which may act on a register (R432). -/
def readsControl (t : Nat) (th : Thread) (op : NOp) (w : Nat) : Bool :=
  (op == .ldw || op == .ldd) && inControl t (scratchAddr th w)

/-- A word must wait for an outstanding PLD: a register it names, or any PLD for a store, an attachment or a control-space
access (R62, R63). -/
def held (t : Nat) (th : Thread) (op : NOp) (w : Nat) : Bool :=
  ((afterPlds op || readsControl t th op w) && !th.plds.isEmpty) || th.plds.any (fun p => (vectorsOf op w).contains p.vd)

/-- What an instruction comes to: performed, with the change of its thread beyond `advance`; a program fault; not performed
for want of journal room or of a PLD slot; waiting under WT = 1, with what the stall keeps in the thread. -/
inductive TRes where
  | ok (s : State) (f : Thread → Thread)
  | fault (s : State) (f : PFault)
  | hold (s : State)
  | stall (s : State) (f : Thread → Thread)
  /-- Performed, and the thread is gone with it: a device reset. -/
  | leave (s : State)

/-- Instructions issued, by engine; the management engine has no such counter. -/
def countIssue (s : State) (t : Nat) : State := if t = mgEngine then s else count s (Reg.neIssued (t / 8))

/-- The issue that a check after the budget stops: the budget has been taken and the issue counted (R62, log entry 59). -/
def spend (s : State) (t : Nat) : State :=
  if t = mgEngine then s
  else countIssue (setThread s t { thread s t with budget := (thread s t).budget - 1 }) t

/-- A fault that the instruction meets at its guard or after it; it takes place as other faults do (R62, R63). -/
def issueFault (s : State) (t : Nat) (f : PFault) : Ans :=
  let th := thread s t
  if !th.plds.isEmpty then idle s
  else
    match pushFault s t th (fill 40 0) with
    | none => .next (journalWait s)
    | some _ => .next (programFault (spend s t) t f)

/-- Bring an instruction's outcome into the state. -/
def finish (s : State) (t : Nat) (r : TRes) : Ans :=
  match r with
  | .ok s f => .next (countIssue (setThread s t (f (advance t (thread s t)))) t)
  | .fault s' f => if (thread s t).plds.isEmpty then issueFault s' t f else idle s
  | .hold s => .next s
  | .leave s => .next s
  | .stall s' f =>
    if (thread s t).mode = .stalled then idle s
    else
      let th := thread s' t
      .next (setThread s' t (if mayRun th then { f th with mode := .stalled, stalledAt := some s'.now } else th))

/-- Thread t issues an instruction of one operation (R62). A thread that may not run, or whose next instruction is
another one, issues nothing (log entry 4). -/
def issue (t : Nat) (op : NOp) (sel : Nat → Bool) (s : State) (body : State → Thread → Nat → TRes) : Ans :=
  let th := thread s t
  if !mayRun th ∨ !ctxRuns s th then idle s
  else
    match preIssue s t th with
    | .bad f => takeFault s t f
    | .word o w =>
      if o ≠ op ∨ !sel w then idle s
      else if held t th op w then idle s
      else if !guardTrue th op w then .next (countIssue (setThread s t (advance t th)) t)
      else finish s t (body s th w)

/-- An instruction that only changes its thread's registers. -/
def regOnly (t : Nat) (op : NOp) (s : State) (f : Thread → Nat → Thread → Thread) : Ans :=
  issue t op (fun _ => true) s (fun s th w => .ok s (f th w))

/-! Activations (R73, R76, R77, R80) -/

/-- A fresh START of a program: the state of R29. -/
def freshThread (entry : Nat) (th : Thread) : Thread := { th with s := [], v := [], p := 1, pc := entry }

/-- An activation begins: EVENT and BUDGET are loaded and the timer is disarmed (R78, R80). -/
def activate (budget : Nat) (ev : Word) (th : Thread) : Thread :=
  { th with mode := .ready, event := ev, budget := budget, timer := none }

/-- The slots of an instance with pending counts. -/
def pendingSlots (s : State) (inst : Nat) : List (Nat × Binding) :=
  s.ne.bindings.filter (fun e => e.2.inst == inst && decide (0 < e.2.count))

/-- Round-robin: the first slot after the one served last, else the first (R77). -/
def nextSlot (served : Nat) (l : List (Nat × Binding)) : Option (Nat × Binding) :=
  match l.find? (fun e => decide (served < e.1)) with
  | some e => some e
  | none => l.head?

/-- The event that a binding delivers: MORE is the remaining count; a gathered error takes the ARG (R76), and an ARG whose
error has been delivered carries ERROR no more. -/
def deliver (b : Binding) : Binding × Word :=
  let arg : Word := match b.error with
    | some i => BitVec.ofNat 64 (i % 65536 + 65536)
    | none => if b.kind = .shuttle then b.arg &&& 0xFFFF else b.arg
  ({ b with count := b.count - 1, error := none }, eventWord b.kind (b.count - 1) b.source arg)

/-- Deliver a bound event to a thread; in START mode the program starts afresh on it (R73). -/
def deliverTo (s : State) (t : Nat) (th : Thread) (i : Inst) (k : Nat) (b : Binding) : State :=
  let (b', ev) := deliver b
  let s := { s with ne := { s.ne with
    bindings := Tab.put s.ne.bindings k b'
    insts := Tab.put s.ne.insts th.inst { i with served := k } } }
  let th1 := if startMode s t th then
      freshThread (((program? s th.program).map (fun p => p.entry)).getD 0) { th with run := true } else th
  setThread s t (activate (activationBudget s t th) ev th1)

/-- ACTIVATION: an event is delivered to thread t: its own TIMER event first, then a bound event of its instance to a
WAITING thread in RESUME mode or an IDLE one in START mode (R77). -/
def execActivation (t : Nat) (s : State) : Ans :=
  let th := thread s t
  if !ctxRuns s th ∨ th.haltDue ∨ th.freezeDue then idle s else
  match th.own, th.mode with
  | k :: rest, .waiting =>
    .next (setThread s t (activate (activationBudget s t th) (eventWord k 0 0 0) { th with own := rest }))
  | _, m =>
    if (m = .waiting ∧ !startMode s t th) ∨ (m = .idle ∧ startMode s t th) then
      match instAt s t th with
      | none => idle s
      | some i =>
        match nextSlot i.served (pendingSlots s th.inst) with
        | none => idle s
        | some (k, b) => .next (deliverTo s t th i k b)
    else idle s

/-- TIMER: the thread's timer expires and raises its TIMER event; during a freeze it is delivered at thaw (R78). -/
def execTimer (t : Nat) (s : State) : Ans :=
  match (thread s t).timer with
  | none => idle s
  | some due =>
    let s := passTo s due
    let th := thread s t
    let th := { th with timer := none }
    if th.mode = .waiting ∨ th.mode = .frozen then .next (setThread s t { th with own := th.own ++ [.timer] })
    else .next (setThread s t th)

/-! The end of an activation (R59 to R61, Table 12-7) -/

/-- The thread's activation ends are journalled: a needle thread of an enrolled tenant. -/
def mirrorsThread (s : State) (t : Nat) (th : Thread) : Bool :=
  t != mgEngine && enrolledCtx s (tagCtx th.tag)

/-- The image of a THREAD record: s1 to s31, v0 to v15, p0 to p7, PC, in 1,280 bytes. -/
def threadImage (th : Thread) : Bytes :=
  (upto 1 31).flatMap (fun n => toLe 8 (sGet th n).toNat) ++ (upto 0 16).flatMap (fun n => lineBytes (vGet th n)) ++
    [th.p] ++ toLe 7 th.pc

/-- TARGET of THREAD and SCRATCH records. -/
def threadTarget (t : Nat) (th : Thread) : Nat := th.inst % 512 + 512 * (t % 8)

/-- SCRATCH records of the lines written since the last end, then THREAD. -/
def journalEnd (s : State) (t : Nat) (th : Thread) : State :=
  let one (s : State) (l : Nat) : State :=
    let m := Tab.get false th.poison l
    journalAdd s 9 th.tag (BitVec.ofNat 64 (threadTarget t th + 4096 * (64 * l))) (BitVec.ofNat 64 (b2n m))
      (scratchRead th (64 * l) 64) m false
  journalAdd (th.dirty.foldl one s) 8 th.tag (BitVec.ofNat 64 (threadTarget t th)) 0 (threadImage th) false false

/-- An activation ends, once the journal has room for its records; the image holds the thread as the end leaves it. -/
def endActivation (s : State) (t : Nat) (th : Thread) (f : Thread → Thread) : TRes :=
  if mirrorsThread s t th then
    if journalRoom s (th.dirty.length + 1) (64 * th.dirty.length + 1280) then
      .ok (journalEnd s t (f (advance t th))) (fun x => { f x with dirty := [] })
    else .hold (journalWait s)
  else .ok s f

end Sys2Proof.Machine
end

