-- ==== Sys2Proof/Machine/Programs.lean ====
section
/-! DEFINITION. Programs (chapter 03): the loader and its checks (R84 to R89), the program commands (Table 03-7), program doorbells
and the NE_ registers. -/

namespace Sys2Proof.Machine

/-! The image (Table 03-5) -/

def imgClass (b : Bytes) : Nat := fld (leAt b 6 2) 0 2
def imgStart (b : Bytes) : Bool := bit (leAt b 6 2) 2
def imgSealed (b : Bytes) : Bool := bit (leAt b 6 2) 3
def imgCode (b : Bytes) : Nat := leAt b 0x08 4
def imgEntry (b : Bytes) : Nat := leAt b 0x0C 4
def imgScratch (b : Bytes) : Nat := leAt b 0x10 4
def imgData (b : Bytes) : Nat := leAt b 0x14 4
def imgBudget (b : Bytes) : Nat := leAt b 0x18 4
def imgStall (b : Bytes) : Nat := leAt b 0x1C 4
def imgClusters (b : Bytes) : Nat := fld (leAt b 0x20 1) 0 3
def imgThreads (b : Bytes) : Nat := leAt b 0x21 1
def imgSealKey (b : Bytes) : Nat := leAt b 0x30 4

/-- The words of a code section. -/
def codeWords : Nat → Bytes → List Nat
  | 0, _ => []
  | n + 1, b => leAt b 0 4 :: codeWords n (b.drop 4)

def imgWords (b : Bytes) : List Nat := codeWords (imgCode b / 4) (b.drop 64)

/-- The reserved fields are zero (check 2). -/
def imgReserved (b : Bytes) : Bool :=
  fld (leAt b 6 2) 4 12 == 0 && fld (leAt b 0x20 1) 3 5 == 0 && leAt b 0x22 2 == 0 && leAt b 0x24 4 == 0 &&
    leAt b 0x34 4 == 0 && leAt b 0x3C 4 == 0

/-- IMAGE_CRC, over the bytes to the end of the data section with the field as zero. -/
def imgCrc (b : Bytes) : Nat := crc32 (overlay (b.take (64 + imgCode b + imgData b)) 0x38 (fill 4 0))

/-- Length and CRC (check 3). -/
def imgWhole (b : Bytes) : Bool :=
  b.length == 64 + imgCode b + imgData b + (if imgSealed b then 96 else 0) && leAt b 0x38 4 == imgCrc b

/-- Ranges of the header fields (check 4). -/
def imgRanges (b : Bytes) : Bool :=
  imgCode b % 4 == 0 && decide (4 ≤ imgCode b ∧ imgCode b ≤ 32768) &&
  imgEntry b % 4 == 0 && decide (imgEntry b < imgCode b) &&
  imgScratch b % 4096 == 0 && decide (4096 ≤ imgScratch b ∧ imgScratch b ≤ 131072) &&
  imgData b % 4 == 0 && decide (imgData b ≤ imgScratch b) &&
  decide (1 ≤ imgBudget b ∧ imgBudget b ≤ 65535) && decide (imgStall b ≤ 1000000) && imgClusters b != 0 &&
  decide (1 ≤ imgThreads b ∧ imgThreads b ≤ 8) &&
  (if imgSealed b then decide (imgSealKey b ≤ 15) else imgSealKey b == 0)

/-- The seal (check 5): demanded of the management context; verified with the key of SEAL_KEY where present. -/
def sealOk (s : State) (ctx : Nat) (b : Bytes) : Bool :=
  if imgSealed b then
    match Tab.find s.mg.seals (imgSealKey b) with
    | some key => Config.sealVerifies key b
    | none => false
  else ctx != mgt

/-- A word is MFS or MTS (check 7). -/
def privWord (w : Nat) : Bool := decodeN w == some .mfs || decodeN w == some .mts

/-- Every BR targets the code section (check 8). -/
def branchesOk (code : Nat) (ws : List Nat) : Bool :=
  ws.zipIdx.all (fun e =>
    decodeN e.1 != some .br ||
      (let t : Int := 4 * (e.2 : Int) + 4 * wOff e.1
       decide (0 ≤ t) && decide (t + 4 ≤ (code : Int))))

/-- The SC0 rules (check 10, R86). -/
def sc0Image (b : Bytes) : Bool :=
  imgClass b != 0 ||
    ((imgWords b).all sc0Ok && decide (imgCode b ≤ 1024) && imgStart b && imgStall b == 0 && decide (imgBudget b ≤ 256) &&
      (match (imgWords b).getLast? with
       | some w => decodeN w == some .halt && wPg w == 0
       | none => false))

/-- The first check of Table 03-6 that answers BAD_IMAGE. -/
def imageFault (s : State) (ctx : Nat) (b : Bytes) : Option Nat :=
  let ws := imgWords b
  if leAt b 0 4 ≠ 0x4E52474E ∨ leAt b 4 2 ≠ 1 then some 1
  else if !imgReserved b then some 2
  else if !imgWhole b then some 3
  else if !imgRanges b then some 4
  else if !sealOk s ctx b then some 5
  else if ws.any (fun w => (decodeN w).isNone) then some 6
  else if ws.any privWord then some 7
  else if !branchesOk (imgCode b) ws then some 8
  else if imgStall b = 0 ∧ ws.any waits then some 9
  else if !sc0Image b then some 10
  else none

/-! Engines -/

/-- Cluster of an engine: 0 H, 1 M, 2 N (Table 03-1). -/
def cluster (e : Nat) : Nat := if e < 16 then 0 else if e < 48 then 1 else 2

/-- Instruction blocks that a program takes. -/
def progBlocks (p : Program) : Nat := cdiv (4 * p.code.length) 512

/-- A block of an engine is in use. -/
def blockUsed (s : State) (e k : Nat) : Bool :=
  s.ne.programs.any (fun x =>
    match Tab.find x.2.blocks e with
    | some b => decide (b ≤ k ∧ k < b + progBlocks x.2)
    | none => false)

/-- The places for n contiguous free blocks of an engine. -/
def freeRuns (s : State) (e n : Nat) : List Nat :=
  (upto 0 (65 - n)).filter (fun k => (upto k n).all (fun j => !blockUsed s e j))

/-- One place for n contiguous free blocks of an engine (R71, log entry 66). -/
def freeRun (s : State) (e n : Nat) : Option Nat := oneOf s (e + 1) (freeRuns s e n)

/-- FREE threads of an engine. -/
def freeThreads (s : State) (e : Nat) : List Nat := (upto (8 * e) 8).filter (fun t => (thread s t).mode == .free)

/-- The engine's domain is on. -/
def engineOn (s : State) (e : Nat) : Bool := (dom s (38 + e)).st == .on

/-- Threads of an engine that are in use. -/
def engThreads (s : State) (e : Nat) : List Nat := (upto (8 * e) 8).filter (fun t => (thread s t).mode != .free)

/-- Scratch of an engine not allocated. -/
def engScratch (s : State) (e : Nat) : Nat := 131072 - ((engThreads s e).map (fun t => (thread s t).scratchSize)).sum

/-- SC0 threads of an engine (R74). -/
def engSc0 (s : State) (e : Nat) : Nat := ((engThreads s e).filter (fun t => tagSc (thread s t).tag == 0)).length

/-! The program commands (Table 03-7) -/

/-- The bytes of a source in the pool: none for access when some piece is denied, none for poison when a line is marked. -/
inductive ImageRead where
  | denied | failed
  | bytes (b : Bytes)
  deriving DecidableEq, Repr

/-- Read one piece of a span of the pool with a context's tag, its lines checked by the controllers. -/
def readPiece (ctx : Nat) (x : ImageRead × State) (p : Nat × Nat) : ImageRead × State :=
  let tag := mkTag ctx 1
  let more (s : State) (b : Bytes) : ImageRead × State :=
    (match x.1 with
     | .bytes c => .bytes (c ++ b)
     | r => r, s)
  if x.1 = .denied then x
  else
    match check x.2 tag (if ctx = mgt then .ppa p.1 else .tpa p.1) false with
    | .deny g => (.denied, poolDenied x.2 tag g)
    | .zero _ => more x.2 (fill p.2 0)
    | .allow a _ =>
      let s := eccSpan x.2 a p.2 tag
      if spanPoison s a p.2 then (.failed, s) else more s (poolBytes s a p.2)

/-- Read a span of the pool with a context's tag (R89). -/
def readPoolSpan (s : State) (ctx a n : Nat) : ImageRead × State := (poolPieces a n).foldl (readPiece ctx) (.bytes [], s)

/-- A port that a command may name for host memory (R450). -/
def hostNameable (s : State) (p : Nat) : Bool := decide (p < 8) && managerPort s p && !mergedUpper s p

/-- Bytes of an image from its source, or the refusal: R89, R450. Host bytes come through a system channel (R184). -/
def readImage (s : State) (ctx : Nat) (src : ImageSource) (n : Nat) (host : Option Bytes) : Except Reply Bytes × State :=
  match src with
  | .host p _ =>
    if !hostNameable s p then (.error { status := .badArg }, s)
    else if s.th.safe then (.error { status := .denied, detail := 1 }, s)
    else
      let s := match systemChan s with
        | some c => systemMove s c n
        | none => s
      match host with
      | some b => (if b.length = n then .ok b else .error { status := .badImage }, s)
      | none => (.error { status := .badImage }, s)
  | .pool a =>
    match readPoolSpan s ctx a n with
    | (.denied, s) => (.error { status := .denied }, s)
    | (.failed, s) => (.error { status := .badImage }, s)
    | (.bytes b, s) => (.ok b, s)

/-- The engines that a mask names. -/
def enginesOf (m : BitVec 64) : List Nat := (upto 0 64).filter (fun e => bit m.toNat e)

/-- The program that an image describes, with its blocks. -/
def programOf (ctx : Nat) (b : Bytes) (blocks : Table Nat) : Program :=
  { ctx := ctx, cls := imgClass b, startMode := imgStart b, code := (imgWords b).map (BitVec.ofNat 32), entry := imgEntry b
    scratchMin := imgScratch b, data := slice b (64 + imgCode b) (imgData b), budget := imgBudget b, stallLimit := imgStall b
    clusters := imgClusters b, threadsMax := imgThreads b, buildId := BitVec.ofNat 64 (leAt b 0x28 8), blocks := blocks }

/-- Load an image that was read: the checks of Table 03-6 in order. -/
def loadImage (s : State) (ctx : Nat) (b : Bytes) (engines : BitVec 64) : Done :=
  match imageFault s ctx b with
  | some d => (s, some { status := .badImage, detail := BitVec.ofNat 64 d })
  | none =>
    let es := enginesOf engines
    let runs := es.map (fun e => (e, if engineOn s e then freeRun s e (cdiv (imgCode b) 512) else none))
    let h := oneOf s 0 (Tab.freeKeys s.ne.programs 0 1024)
    guardAll s
      [(es.any (fun e => !bit (imgClusters b) (cluster e)), .badArg),
       (runs.any (fun r => r.2.isNone) || h.isNone, .noSpace)]
      (let p := programOf ctx b (runs.map (fun r => (r.1, r.2.getD 0)))
       (useFreeN { s with ne := { s.ne with programs := Tab.put s.ne.programs (h.getD 0) p } } 65,
         some { status := .ok, results := [(2, h.getD 0), (8, leAt b 0x28 8)] }))

def doProgramLoad (s : State) (ctx : Nat) (src : ImageSource) (n : Nat) (engines : BitVec 64) (host : Option Bytes) : Done :=
  guardAll s [(ctxMissing s ctx, .notFound), (ctxFrozen s ctx, .frozen), (decide (mgt < ctx), .badArg)]
    (match readImage s ctx src n host with
     | (.error r, s) => (s, some r)
     | (.ok b, s) => loadImage s ctx b engines)

/-- PROGRAM_LOAD (R85 to R89). -/
def cmdProgramLoad (src ctx : Nat) (from_ : ImageSource) (n : Nat) (engines : BitVec 64) (host : Option Bytes)
    (s : State) : Ans :=
  .next (takeUp s src 0x01 none (fun s => doProgramLoad s ctx from_ n engines host))

/-- A command on a program: the handle must be in use and its owner not frozen. -/
def withProgram (s : State) (h : Nat) (body : Program → Done) : Done :=
  match program? s h with
  | none => refuse s .notFound
  | some p => guardAll s [(ctxMissing s p.ctx, .notFound), (ctxFrozen s p.ctx, .frozen)] (body p)

/-- A program leaves instruction memory. -/
def unloadProgram (s : State) (h : Nat) : State := { s with ne := { s.ne with programs := Tab.del s.ne.programs h } }

/-- PROGRAM_UNLOAD. -/
def cmdProgramUnload (src h : Nat) (s : State) : Ans :=
  .next (takeUp s src 0x02 none (fun s =>
    withProgram s h (fun _ =>
      guardAll s [(s.ne.insts.any (fun e => e.2.program == h), .busy)] (done (unloadProgram s h)))))

/-- A thread as an instance's start leaves it: scratch zeroed and loaded with the data section; in RESUME mode the START
activation (R72, R73). -/
def startThread (p : Program) (h i scratch budget : Nat) : Thread :=
  let th : Thread := { mode := .idle, tag := mkTag p.ctx p.cls, program := h, inst := i, scratchSize := scratch
                       scratch := Mem.write [] 0 p.data, pc := p.entry }
  if p.startMode then th else activate budget (eventWord .start 0 0 0) (freshThread p.entry th)

/-- The fault queue exists and belongs to the context. -/
def queueOwned (s : State) (ctx q : Nat) : Bool :=
  match queue? s q with
  | some x => x.ctx == ctx && !x.destroyed
  | none => false

def startBad (s : State) (p : Program) (e n scratch cap fq : Nat) (policy : FaultPolicy) : Bool :=
  decide (n = 0 ∨ p.threadsMax < n) || decide (64 ≤ e) || scratch % 4096 != 0 || decide (scratch < p.scratchMin) ||
    decide (131072 < scratch) || decide (cap = 0 ∨ 65535 < cap) ||
    (fq != mgtQueue && !queueOwned s p.ctx fq) || (Tab.find p.blocks e).isNone ||
    (policy == .recycle && !p.startMode)

def doProgramStart (s : State) (h e n scratch cap fq : Nat) (policy : FaultPolicy) : Done :=
  withProgram s h (fun p =>
    let ts := someOf s n 1 (freeThreads s e)
    let i := oneOf s 0 (Tab.freeKeys s.ne.insts 0 512)
    guardAll s
      [(startBad s p e n scratch cap fq policy, .badArg),
       (decide ((freeThreads s e).length < n) || decide (engScratch s e < n * scratch) || (p.cls == 0 && decide (4 < engSc0 s e + n)) ||
         i.isNone || !engineOn s e, .noSpace)]
      (let i := i.getD 0
       let x : Inst := { program := h, engine := e, threads := ts, budgetCap := cap, faultQueue := fq, policy := policy
                         served := 32 * e + 31 }
       let s := { s with ne := { s.ne with insts := Tab.put s.ne.insts i x } }
       (ts.foldl (fun s t => setThread s t { startThread p h i scratch (min p.budget cap) with fault := (thread s t).fault }) (useFreeN s 9),
         some { status := .ok, results := [(2, i)] })))

/-- PROGRAM_START. -/
def cmdProgramStart (src h e n scratch cap fq : Nat) (policy : FaultPolicy) (s : State) : Ans :=
  .next (takeUp s src 0x03 none
    (fun s => doProgramStart s h e n scratch cap fq policy))

/-- A command on an instance. -/
def withInst (s : State) (i : Nat) (body : Inst → Program → Done) : Done :=
  match inst? s i with
  | none => refuse s .notFound
  | some x => withProgram s x.program (body x)

/-- Pending counts that a release of bindings discards. -/
def dropBindings (s : State) (p : Nat → Binding → Bool) : State :=
  let n := Tab.sum (fun k b => if p k b then b.count else 0) s.ne.bindings
  let s := { s with ne := { s.ne with bindings := Tab.keep (fun k b => !p k b) s.ne.bindings } }
  countN s Reg.neEvtDropped n

/-- PROGRAM_STOP's effect: threads halt and become FREE, their scratch zeroed; bindings are released (R79). NE_THR_FAULT0 to
NE_THR_FAULT4 keep the latest record of the thread. -/
def stopInst (s : State) (i : Nat) (x : Inst) : State :=
  let s := dropBindings s (fun _ b => b.inst == i)
  let s := x.threads.foldl (fun s t => setThread s t { fault := (thread s t).fault }) s
  { s with ne := { s.ne with insts := Tab.del s.ne.insts i } }

/-- PROGRAM_STOP. -/
def cmdProgramStop (src i : Nat) (s : State) : Ans :=
  .next (takeUp s src 0x04 none (fun s => withInst s i (fun x _ => done (stopInst s i x))))

/-- The kind can be bound in an engine's cluster (Table 03-1). -/
def bindable (kind : EvKind) (e : Nat) : Bool :=
  match kind with
  | .queue => true
  | .shuttle => true
  | .doorbell => cluster e == 0
  | .reduce => cluster e == 1
  | .packet => cluster e == 2
  | .start => false
  | .timer => false
  | .yield_ => false

/-- The number under which a source is bound: a doorbell is its tenant's. -/
def sourceKey (ctx : Nat) (kind : EvKind) (n : Nat) : Nat := if kind = .doorbell then n + 65536 * ctx else n

/-- The source belongs to the instance's context (Table 03-7), or is the copy of one that the partner's tenant owns (R336). -/
def sourceOwned (s : State) (ctx : Nat) (kind : EvKind) (n : Nat) : Bool :=
  let copy (k : Nat) : Bool := ((Tab.find s.sm.objects (65536 * k + n)).map (fun o => o.1)) == some ctx
  match kind with
  | .queue => queueOwned s ctx n
  | .packet => ((conn s n).st != .free && (conn s n).ctx == ctx) || copy 5
  | .reduce => ((rwin? s n).map (fun x => x.ctx)) == some ctx || copy 4
  | .shuttle => ((chan s n).st != .free && (chan s n).ctx == ctx) || copy 3
  | .doorbell => decide (ctx < mgt)
  | .start => false
  | .timer => false
  | .yield_ => false

/-- The event that a new binding raises at once when its source is not empty (R79). -/
def firstEvent (s : State) (kind : EvKind) (n : Nat) : State :=
  let full (q : Nat) : Bool := ((queue? s q).map (fun x => !x.items.isEmpty)).getD false
  match kind with
  | .queue => if full n then raiseEvent s .queue n 0 none else s
  | .packet => if full (conn s n).rxQ then raiseEvent s .packet n (BitVec.ofNat 64 (conn s n).rxQ) none else s
  | _ => s

def doProgramBind (s : State) (i : Nat) (kind : EvKind) (n : Nat) : Done :=
  withInst s i (fun x p =>
    let k := oneOf s 0 (Tab.freeKeys s.ne.bindings (32 * x.engine) 32)
    let key := sourceKey p.ctx kind n
    guardAll s
      [(!bindable kind x.engine || (kind == .doorbell && decide (64 ≤ n)), .badArg),
       (!sourceOwned s p.ctx kind n, .denied), (k.isNone, .noSpace), ((bindingOf s kind key).isSome, .busy)]
      (let s := { s with ne := { s.ne with
         bindings := Tab.put s.ne.bindings (k.getD 0) { kind := kind, source := key, inst := i } } }
       done (firstEvent (useFree s) kind n)))

/-- PROGRAM_BIND. -/
def cmdProgramBind (src i : Nat) (kind : EvKind) (n : Nat) (s : State) : Ans :=
  .next (takeUp s src 0x05 none (fun s => doProgramBind s i kind n))

def doProgramUnbind (s : State) (i : Nat) (kind : EvKind) (n : Nat) : Done :=
  match (inst? s i).bind (fun x => program? s x.program) with
  | none => refuse s .notFound
  | some p =>
    let key := sourceKey p.ctx kind n
    let hit (b : Binding) : Bool := b.kind == kind && b.source == key && b.inst == i
    guardAll s
      [(ctxMissing s p.ctx || !(s.ne.bindings.any (fun e => hit e.2)), .notFound), (ctxFrozen s p.ctx, .frozen)]
      (done (dropBindings s (fun _ b => hit b)))

/-- PROGRAM_UNBIND. -/
def cmdProgramUnbind (src i : Nat) (kind : EvKind) (n : Nat) (s : State) : Ans :=
  .next (takeUp s src 0x06 none (fun s => doProgramUnbind s i kind n))

/-- What THREAD_READ returns: the registers of Table 02-1, the specials, then the scratch, as much of it as a payload of 4,032
bytes holds (R413, log entry 51). -/
def threadDump (s : State) (t : Nat) (th : Thread) : Bytes :=
  threadImage th ++ (upto 0 5).flatMap (fun n => toLe 8 (special s t th n).toNat) ++
    scratchRead th 0 (min th.scratchSize 2712)

def doThreadRead (s : State) (e k : Nat) : Done :=
  let t := 8 * e + k
  let th := thread s t
  guardAll s
    [(decide (64 ≤ e) || decide (8 ≤ k) || th.mode == .free, .notFound),
     (!(th.mode == .halted || th.mode == .frozen), .busy)]
    (s, some { status := .ok, data := threadDump s t th })

/-- THREAD_READ: of a HALTED or FROZEN thread. -/
def cmdThreadRead (src e k : Nat) (s : State) : Ans :=
  .next (takeUp s src 0x07 none (fun s => doThreadRead s e k))

/-- Every program of a context is stopped and unloaded (R311). -/
def removePrograms (s : State) (ctx : Nat) : State :=
  let mine (p : Nat) : Bool := ((program? s p).map (fun x => x.ctx)) == some ctx
  let s := (s.ne.insts.filter (fun e => mine e.2.program)).foldl (fun s e => stopInst s e.1 e.2) s
  (s.ne.programs.filter (fun e => e.2.ctx == ctx)).foldl (fun s e => unloadProgram s e.1) s

/-! Registers (Tables 03-9, 03-10) -/

/-- Thread state code (Table 03-2). -/
def threadCode : ThreadMode → Nat
  | .free => 0
  | .idle => 1
  | .waiting => 2
  | .ready => 3
  | .running => 4
  | .stalled => 5
  | .halted => 6
  | .frozen => 7

/-- NE_THR_STATE. -/
def threadState (th : Thread) : Nat :=
  threadCode th.mode + 8 * b2n th.faulted + 2 ^ 4 * (th.pc % 32768) + 2 ^ 19 * th.tag.toNat + 2 ^ 30 * th.program +
    2 ^ 40 * th.inst

/-- NE_ENG_STATUS. -/
def engineStatus (s : State) (e : Nat) : Nat :=
  ((upto 0 64).filter (fun k => !blockUsed s e k)).length + 2 ^ 8 * (engScratch s e / 4096) +
    2 ^ 16 * (8 - (engThreads s e).length) + 2 ^ 20 * engSc0 s e

/-- The read-only NE_ registers that are computed; none for the others. -/
def readEngines (s : State) (off : Nat) : Option Nat :=
  if 0x400000 ≤ off ∧ off < 0x410000 then
    let e := (off - 0x400000) / 0x400
    let o := off % 0x400
    if o = 0 then some (engineStatus s e)
    else if 0x40 ≤ o ∧ o < 0x240 then
      let th := thread s (8 * e + (o - 0x40) / 0x40)
      let w := o % 0x40 / 8
      if w = 0 then some (threadState th)
      else if w ≤ 5 then some (fld th.fault.toNat (64 * (w - 1)) 64)
      else none
    else none
  else none

end Sys2Proof.Machine
end

