-- ==== Sys2Proof/Machine/Tenants.lean ====
section
/-! DEFINITION. The life of a tenant (R304 to R306, R310 to R315): creation, binding, start, freeze and thaw, quiesce, removal, save
and restore. -/

namespace Sys2Proof.Machine

/-! Creation and binding (R302, R304) -/

/-- The FREE TIDs of the device's half (R323). -/
def freeTids (s : State) : List Nat :=
  (if !s.sm.enable then upto 0 256 else if s.sm.role then upto 128 128 else upto 0 128).filter
    (fun t => (tenant s t).st == .free)

/-- One of them (log entry 66). -/
def freeTid (s : State) : Option Nat := oneOf s 0 (freeTids s)

/-- A quota override outside its range. -/
def outOf (lo hi : Nat) (x : Option Nat) : Bool :=
  match x with
  | some n => decide (n < lo ∨ hi < n)
  | none => false

/-- The quotas of a context take their values; the defaults are stored by listing nothing. -/
def setQuotas (s : State) (t cells queues channels weight : Nat) : State :=
  { s with
    qm := { s.qm with cellQuota := Tab.set 4096 s.qm.cellQuota t cells, queueQuota := Tab.set 64 s.qm.queueQuota t queues }
    sh := { s.sh with limits := Tab.set 4 s.sh.limits t channels }
    sc := { s.sc with weights := Tab.set 16 s.sc.weights t weight }
    ru := { s.ru with quotas := Tab.keep (fun k _ => k % 257 != t) s.ru.quotas } }

/-- A new tenant in BOUND with its key slot filled (R115). -/
def newTenant (s : State) (t cells queues granules channels windows contexts : Nat) : State :=
  let s := setQuotas (fillKey s t) t cells queues channels 16
  setTenant s t { st := .bound, granules := granules, windows := windows, contexts := contexts }

def doTenantCreate (s : State) (cells queues granules channels windows contexts : Option Nat) : Done :=
  let t := freeTid s
  guardAll s
    [(outOf 64 262144 cells || outOf 0 16383 queues || outOf 0 131072 granules || outOf 0 16 channels ||
       outOf 0 16384 windows || outOf 0 65536 contexts, .badArg),
     (t.isNone, .noSpace)]
    (newTenant (useFree s) (t.getD 0) (cells.getD 4096) (queues.getD 64) (granules.getD 512) (channels.getD 4) (windows.getD 64)
       (contexts.getD 256),
     some { status := .ok, results := [(1, t.getD 0)] })

/-- TENANT_CREATE. -/
def cmdTenantCreate (src : Nat) (cells queues granules channels windows contexts : Option Nat) (s : State) : Ans :=
  .next (takeUp s src 0x2B none
    (fun s => doTenantCreate s cells queues granules channels windows contexts))

/-- A channel or a window names the function. -/
def fnNamed (s : State) (p f : Nat) : Bool :=
  s.sh.chans.any (fun e => e.2.st != .free && e.2.port == p && e.2.fn == f) || !(fnWindows s p f).isEmpty

/-- The VF of a tenant on a port. -/
def vfOn (s : State) (t p : Nat) : Option Nat := ((tenant s t).binds.find? (fun b => b.port == p)).map (fun b => b.vf)

/-- A binding is undone: vectors freed, admission RATE 0, the function's own registers cleared (R247, R302). -/
def unbindAt (s : State) (t p : Nat) : State :=
  match vfOn s t p with
  | none => s
  | some f =>
    let s := zeroRate s p f false
    let s := setTenant s t { tenant s t with binds := (tenant s t).binds.filter (fun b => b.port != p) }
    let s := { s with fn := { s.fn with
      msix := Tab.keep (fun k _ => k / 2048 != fnKey p f) s.fn.msix
      pend := Tab.keep (fun k _ => k / 2048 != fnKey p f) s.fn.pend
      objSel := Tab.del s.fn.objSel (fnKey p f) } }
    noticeSet s p f 0

/-- Bindings in port order (R304). -/
def addBind (b : Bind) : List Bind → List Bind
  | [] => [b]
  | x :: t => if b.port < x.port then b :: x :: t else x :: addBind b t

/-- The VFs free on a port; `old` is the replaced binding's VF on the same port. -/
def freeVfs (s : State) (p : Nat) (old : Option Nat) : List Nat :=
  (upto 1 255).filter (fun f => (boundTo s p f).isNone || old == some f)

/-- The VF number asked for, or one that is free on the port (log entry 66). -/
def pickVf (s : State) (p : Nat) (vf old : Option Nat) : Option Nat :=
  match vf with
  | some f => some f
  | none => oneOf s 0 (freeVfs s p old)

/-- The port's controller is on, or its domains are not yet known to be off by DOMAIN_POWER (R376). -/
def portOff (s : State) (p : Nat) : Bool := bit (keepNat s (Keep.domKeep + p / 64)) (p % 64) && (dom s p).st != .on

def bindBad (s : State) (t p : Nat) (vf : Option Nat) (vectors cls : Nat) (replace : Option Nat) (old : Option Nat) : Bool :=
  decide (mgt ≤ t) || decide (8 ≤ p) || mergedUpper s p || portOff s p || decide (vectors = 0 ∨ 2048 < vectors) ||
    decide (cls = 0 ∨ 3 < cls) ||
    (match vf with
     | some f => decide (f = 0 ∨ 255 < f) || ((boundTo s p f).isSome && old != some f)
     | none => false) ||
    ((vfOn s t p).isSome && replace != some p) ||
    (match replace with
     | some r => (vfOn s t r).isNone
     | none => false)

def doTenantBind (s : State) (t p : Nat) (vf : Option Nat) (vectors cls : Nat) (replace : Option Nat) : Done :=
  let old := if replace = some p then vfOn s t p else none
  let f := pickVf s p vf old
  let back := match old with
    | some f => fnVectors s p f
    | none => 0
  guardAll s
    [(ctxMissing s t, .notFound), (ctxFrozen s t && replace.isNone, .frozen), (bindBad s t p vf vectors cls replace old, .badArg),
     (f.isNone || decide (ivFree s p + back < vectors), .noSpace),
     (match replace with
      | some r => fnNamed s r ((vfOn s t r).getD 0)
      | none => false, .busy)]
    (let f := f.getD 0
     let s := match replace with
       | some r => unbindAt s t r
       | none => s
     let b : Bind := { port := p, vf := f, vectors := vectors, pushClass := cls }
     let s := setTenant (useFree s) t { tenant s t with binds := addBind b (tenant s t).binds }
     let s := journalObject (zeroRate s p f true) t 1 t
     (uncontain s t, some { status := .ok, results := [(1, f)] }))

/-- TENANT_BIND. -/
def cmdTenantBind (src t p : Nat) (vf : Option Nat) (vectors cls : Nat) (replace : Option Nat) (s : State) : Ans :=
  .next (takeUp s src 0x2C none
    (fun s => doTenantBind s t p vf vectors cls replace))

def doTenantUnbind (s : State) (t p : Nat) : Done :=
  guardAll s
    [(ctxMissing s t || decide (mgt ≤ t) || (vfOn s t p).isNone, .notFound), (ctxFrozen s t, .frozen),
     (fnNamed s p ((vfOn s t p).getD 0), .busy)]
    (done (journalObject (uncontain (unbindAt s t p) t) t 1 t))

/-- TENANT_UNBIND. -/
def cmdTenantUnbind (src t p : Nat) (s : State) : Ans :=
  .next (takeUp s src 0x2D none (fun s => doTenantUnbind s t p))

/-! Start, freeze, thaw, quiesce (R304, R310) -/

/-- A command on a tenant: neither FREE nor REMOVED. -/
def withTenant (s : State) (t : Nat) (l : List (Bool × Status)) (body : Done) : Done :=
  guardAll s ([(ctxMissing s t, .notFound)] ++ l ++ [(decide (mgt ≤ t), .badArg)]) body

def doTenantStart (s : State) (t : Nat) : Done :=
  withTenant s t [(ctxFrozen s t, .frozen), (!((tenant s t).st == .bound || (tenant s t).st == .quiesced), .badArg)]
    (done (freezeIfCause (setTenant s t { tenant s t with st := .running }) t))

/-- TENANT_START: RUNNING, or FROZEN when a freeze cause is recorded. -/
def cmdTenantStart (src t : Nat) (s : State) : Ans :=
  .next (takeUp s src 0x2E none (fun s => doTenantStart s t))

/-- Every channel of the tenant has stopped. -/
def chansPaused (s : State) (t : Nat) : Bool :=
  (chansOf s t).all (fun c => !((chan s c).st == .active || (chan s c).st == .pausing || (chan s c).st == .stopping))

/-- A freeze answers once every channel is PAUSED. -/
def pollTenantFreeze (s : State) (t : Nat) : Done := if chansPaused s t then done s else (s, none)

def doTenantFreeze (s : State) (t : Nat) : Done :=
  withTenant s t [(!((tenant s t).st == .running || (tenant s t).st == .frozen), .badArg)]
    (pollTenantFreeze (freezeByManager s t) t)

/-- TENANT_FREEZE. -/
def cmdTenantFreeze (src t : Nat) (s : State) : Ans :=
  .next (takeUp s src 0x2F (some (.tenantFreeze t)) (fun s => doTenantFreeze s t))

/-- The ABANDONED item that a restored window owes is linked at thaw (R153, R315). -/
def thawWindow (s : State) (e : Nat × RWin) : State :=
  match e.2.abandoned with
  | none => s
  | some (flags, n, ep) =>
    oweAbandoned (setRwin s e.1 { e.2 with abandoned := none }) e.1 e.2 flags n ep

def doTenantThaw (s : State) (t : Nat) : Done :=
  withTenant s t [(!(tenant s t).mgrCause, .badArg)]
    (let s := (s.ru.windows.filter (fun e => e.2.ctx == t)).foldl thawWindow s
     done (thawIfFree (setTenant s t { tenant s t with mgrCause := false }) t))

/-- TENANT_THAW: removes the manager's cause. -/
def cmdTenantThaw (src t : Nat) (s : State) : Ans :=
  .next (takeUp s src 0x30 none (fun s => doTenantThaw s t))

/-- A quiesce ends once every queue has passed its boundary: QUIESCED, with the causes kept (R310). -/
def pollTenantQuiesce (s : State) (t : Nat) : Done :=
  if quiesced s t && !s.th.safe then
    done (notifyTenant .quiesce (setTenant s t { tenant s t with st := .quiesced, quiescing := false }) t)
  else (s, none)

def doTenantQuiesce (s : State) (t : Nat) : Done :=
  guardAll s
    [((tenant s t).quiescing, .inProgress), (ctxMissing s t, .notFound),
     (decide (mgt ≤ t) || !((tenant s t).st == .running || (tenant s t).st == .frozen), .badArg)]
    (pollTenantQuiesce
      (quiesceTenant ((tenantFns s t).foldl dropPushes (setTenant s t { tenant s t with quiescing := true })) t) t)

/-- TENANT_QUIESCE (R310). -/
def cmdTenantQuiesce (src t : Nat) (s : State) : Ans :=
  .next (takeUp s src 0x31 (some (.tenantQuiesce t)) (fun s => doTenantQuiesce s t))

/-! Removal (R311) -/

/-- A connection of the tenant that has not closed. -/
def connsOpen (s : State) (t : Nat) : Bool :=
  s.wt.conns.any (fun e => e.2.ctx == t && e.2.st != .free && e.2.st != .closed)

/-- Step 1: every connection closes with reason REMOVED, and the listeners go. -/
def closeAll (s : State) (t : Nat) : State :=
  let s := { s with wt := { s.wt with listeners := Tab.keep (fun _ l => l.ctx != t) s.wt.listeners } }
  (s.wt.conns.filter (fun e => e.2.ctx == t)).foldl (fun s e => startClose s e.1 CloseReason.removed) s

/-- Step 5: every window is freed, with the references that its live and draining mappings hold; grants are revoked. -/
def freeWindows (s : State) (t : Nat) : State :=
  let ws := s.fn.windows.filter (fun e => e.2.ctx == t)
  let s := (ws.flatMap (fun e => liveGranules s e.2)).foldl (addRef false) s
  let s := (tenantFns s t).foldl (fun s pf =>
    let x := tack s pf.1 pf.2
    setTack ((x.draining.getD []).foldl (addRef false) s) pf.1 pf.2 {}) s
  let s := { s with fn := { s.fn with windows := Tab.keep (fun _ w => w.ctx != t) s.fn.windows } }
  (s.mp.grants.filter (fun e => e.2.owner == t || e.2.grantee == t)).foldl (fun s e => revokeGrant s e.1) s

/-- An opening of the tenant into another's queue closes (R168). -/
def closeOpenings (s : State) (t : Nat) : State :=
  { s with qm := { s.qm with queues := Tab.mapAll (fun _ x =>
      if x.openTid = some t then settleOpening { x with closing := true, closeReq := false } else x) s.qm.queues } }

/-- Step 6: openings close and the queues are destroyed. -/
def destroyQueues (s : State) (t : Nat) : State :=
  let own := queuesOf s t
  own.foldl (fun s q =>
    match queue? s q with
    | none => s
    | some x => flushQueue (setQueue s q (settleOpening
        { x with destroyReq := true, closing := x.openTid.isSome, closeReq := false })) q) (closeOpenings s t)

/-- Step 7: a granule goes to scrub; what other tenants' windows still counted on it is forgotten. -/
def surrender (t : Nat) (s : State) (i : Nat) : State :=
  match listAt s t i with
  | none => s
  | some g =>
    let s := releaseGranule s t i g
    let s := setGran s g { gran s g with refs := 0, grants := 0 }
    { s with fn := { s.fn with
      windows := Tab.mapAll (fun _ w => if w.granted = some g then { w with refGone := true } else w) s.fn.windows
      tacks := Tab.mapAll (fun _ x => { x with draining := x.draining.map (fun l => l.filter (· != g)) }) s.fn.tacks } }

/-- Steps 2 to 8; the key slot is zeroed and the TID FREE at once when no granule is held at step 7 (R115, R311). The shadows of its
dirty logs go back to the management context. -/
def removeTenant (s : State) (t : Nat) : State :=
  let s := journalObject s t 1 t
  let s := (s.ru.windows.filter (fun e => e.2.ctx == t)).foldl (fun s e => destroyWindow s e.1) s
  let s := { s with ru := { s.ru with owed := s.ru.owed.filter (fun o => o.ctx != t) } }
  let s := freeChannels (removePrograms s t) t
  let s := destroyQueues (freeWindows s t) t
  let empty := granHeld s t == 0
  let s := (upto 0 (granList s t).entries.length).foldl (surrender t) s
  let s := (tenant s t).binds.foldl (fun s b => unbindAt s t b.port) s
  let s := setQuotas s t 4096 64 4 16
  let s := (s.fn.logs.filter (fun e => e.1 / 8 == t)).foldl (fun s e => e.2.granules.foldl releaseMgt s) s
  let s := { s with fn := { s.fn with
    flrs := Tab.del s.fn.flrs t
    logs := Tab.keep (fun k _ => k / 8 != t) s.fn.logs } }
  let s := setGranList (setTenant s t { st := .removed }) t {}
  if empty then freeTenant s t else s

/-- TENANT_REMOVE goes on once every connection has closed, and answers after step 8. -/
def pollTenantRemove (s : State) (t : Nat) : Done := if connsOpen s t then (s, none) else done (removeTenant s t)

def doTenantRemove (s : State) (t : Nat) : Done :=
  guardAll s
    [((tenant s t).removing, .inProgress), (ctxMissing s t, .notFound),
     (decide (t < mgt) && !((tenant s t).st == .bound || (tenant s t).st == .quiesced), .notQuiesced), (decide (mgt ≤ t), .badArg)]
    (pollTenantRemove (closeAll (setTenant s t { tenant s t with st := .removed, removing := true }) t) t)

/-- TENANT_REMOVE (R311). -/
def cmdTenantRemove (src t : Nat) (s : State) : Ans :=
  .next (takeUp s src 0x32 (some (.tenantRemove t)) (fun s => doTenantRemove s t))

/-! Save and restore (R312 to R314) -/

end Sys2Proof.Machine

namespace Sys2Proof.Config

/-- The body of section k of a save image, and the objects that an image describes: R313 says that section bodies are
not an interface (log entry 12). -/
opaque saveBody : Nat → Sys2Proof.Machine.SavedTenant → List (BitVec 8)
opaque readSave : List (BitVec 8) → Sys2Proof.Machine.SavedTenant

end Sys2Proof.Config

namespace Sys2Proof.Machine

/-- The slot of a port among a tenant's bindings. -/
def slotOfPort (binds : List Bind) (p : Nat) : Nat := (binds.findIdx? (fun b => b.port == p)).getD 0

/-- Gather what TENANT_SAVE saves. -/
def savedOf (s : State) (t : Nat) : SavedTenant :=
  let mine (p : Nat) : Bool := ((program? s p).map (fun x => x.ctx)) == some t
  let insts := s.ne.insts.filter (fun e => mine e.2.program)
  { ten := tenant s t, cells := cellQuota s t, queues := queueQuota s t, channels := chanLimit s t
    weight := Tab.get 16 s.sc.weights t
    slices := (upto 0 8).map (fun k => (k, sliceQuota s k t))
    list := granList s t
    windows := (s.fn.windows.filter (fun e => e.2.ctx == t)).map (fun e => (slotOfPort (tenant s t).binds e.2.port, e.2))
    queueTab := s.qm.queues.filter (fun e => e.2.ctx == t && !e.2.destroyed)
    chans := s.sh.chans.filter (fun e => e.2.st != .free && e.2.ctx == t)
    programs := s.ne.programs.filter (fun e => e.2.ctx == t)
    insts := insts
    bindings := s.ne.bindings.filter (fun e => insts.any (fun i => i.1 == e.2.inst))
    threads := s.ne.threads.filter (fun e => insts.any (fun i => i.2.threads.contains e.1))
    rwins := s.ru.windows.filter (fun e => e.2.ctx == t) }

/-- Objects in the six sections, in the order of R312. -/
def sectionCounts (x : SavedTenant) : List Nat :=
  [1, x.windows.length, x.queueTab.length, x.chans.length,
   x.programs.length + x.insts.length + x.bindings.length + x.threads.length, x.rwins.length]

/-- One section: TYPE, COUNT, LENGTH, body. -/
def sectionBytes (x : SavedTenant) (k count : Nat) : Bytes :=
  let b := padTo 8 (Config.saveBody k x)
  toLe 2 k ++ toLe 2 0 ++ toLe 4 count ++ toLe 8 b.length ++ b

/-- The save image of Table 11-11. -/
def saveImage (t : Nat) (x : SavedTenant) (gen : Nat) : Bytes :=
  let secs := ((sectionCounts x).zipIdx 1).flatMap (fun e => sectionBytes x e.2 e.1)
  let len := 64 + secs.length + 32
  let b := toLe 4 0x56534E54 ++ toLe 2 1 ++ toLe 2 6 ++ toLe 8 gen ++ toLe 8 len ++ toLe 1 t ++ toLe 1 x.ten.binds.length ++
    fill 38 0 ++ secs ++ toLe 4 0x45534E54 ++ toLe 4 0 ++ toLe 8 gen
  b ++ toLe 4 (crc32 b) ++ fill 12 0

/-- The model remembers what an image that it wrote describes, so that a restore of the same bytes gives the same objects. -/
def keepImage (s : State) (img : Bytes) (x : SavedTenant) : State := { s with saves := (img, x) :: s.saves }

/-- The objects that an image describes: of an image written here what was saved, of any other one an open value. -/
def savedIn (s : State) (b : Bytes) : SavedTenant :=
  match s.saves.find? (fun e => e.1 == b.take (leAt b 0x10 8)) with
  | some e => e.2
  | none => Config.readSave b

/-- The image is written to the host in order, the trailer last. An FLR of the tenant abandons the save (R308). -/
def pollTenantSave (s : State) (t p a n : Nat) : Done :=
  let off (s : State) : State := setTenant s t { tenant s t with saving := false }
  if !(tenant s t).saving then refuse s .busy
  else if !mayPost s p then (s, none)
  else
    let x := savedOf s t
    let img := saveImage t x (freeWord s).toNat
    if n < img.length then (off s, some { status := .noSpace, detail := BitVec.ofNat 64 img.length })
    else
      let s := keepImage (useFree (off s)) img x
      ((cutAt (maxPayload s p) (img.length + 1) a img).foldl (fun s w => streamWrite s p w.1 w.2) s,
        some { status := .ok, results := [(8, img.length)] })

def doTenantSave (s : State) (t p a n : Nat) : Done :=
  guardAll s
    [((tenant s t).saving, .inProgress), (ctxMissing s t, .notFound),
     (decide (t < mgt) && (tenant s t).st != .frozen, .notQuiesced), (decide (mgt ≤ t) || !hostNameable s p, .badArg)]
    (if s.th.safe then (s, some { status := .denied, detail := 1 })
     else if (flr? s t).isSome then refuse s .busy
     else pollTenantSave (setTenant s t { tenant s t with saving := true }) t p a n)

/-- TENANT_SAVE (R312). -/
def cmdTenantSave (src t p a n : Nat) (s : State) : Ans :=
  .next (takeUp s src 0x33 (some (.tenantSave t p a n)) (fun s => doTenantSave s t p a n))

/-- The headers of n sections before the trailer, with their reserved fields zero (R313). -/
def sectionsOk : Nat → Nat → Bytes → Bool
  | 0, _, _ => true
  | n + 1, o, b =>
    decide (o + 16 ≤ b.length) && leAt b (o + 2) 2 == 0 && decide (o + 16 + leAt b (o + 8) 8 ≤ b.length) &&
      sectionsOk n (o + 16 + leAt b (o + 8) 8) b

/-- The image check of R314. -/
def saveImageOk (b : Bytes) (n : Nat) : Bool :=
  let len := leAt b 0x10 8
  leAt b 0 4 == 0x56534E54 && leAt b 4 2 == 1 && decide (96 ≤ len ∧ len ≤ n ∧ len ≤ b.length) && allZero (slice b 0x1A 38) &&
    leAt b (len - 32) 4 == 0x45534E54 && allZero (slice b (len - 28) 4) && leAt b (len - 24) 8 == leAt b 8 8 &&
    leAt b (len - 16) 4 == crc32 (b.take (len - 16)) && allZero (slice b (len - 12) 12) &&
    sectionsOk (leAt b 6 2) 64 (b.take (len - 32))

/-- A binding slot is mapped to a port where the tenant has no VF, or a saved index is not VALID here (check 3). -/
def mappingBad (s : State) (t : Nat) (x : SavedTenant) (slots : List Nat) : Bool :=
  (upto 0 x.ten.binds.length).any (fun i => (vfOn s t (slots.getD i 8)).isNone) ||
    (upto 0 x.list.entries.length).any (fun i => (x.list.entries.getD i none).isSome && (listAt s t i).isNone)

/-- Restored objects take their numbers on the target: queues, reduce windows and channels keep theirs; a number in use here
is one that the target lacks. Programs, instances, threads and bindings take free numbers, window indices the lowest free
(log entries 37 and 66). -/
structure Remap where
  progs : Table Nat := []
  insts : Table Nat := []
  threads : Table Nat := []
  deriving DecidableEq, Repr

/-- One program: blocks on each of its engines. -/
def restoreProgram (t : Nat) (r : Option (State × Remap)) (e : Nat × Program) : Option (State × Remap) :=
  match r with
  | none => none
  | some (s, m) =>
    let runs := e.2.blocks.map (fun b => (b.1, if engineOn s b.1 then freeRun s b.1 (progBlocks e.2) else none))
    match oneOf s 0 (Tab.freeKeys s.ne.programs 0 1024) with
    | none => none
    | some h =>
      if runs.any (fun x => x.2.isNone) then none
      else
        let p := { e.2 with ctx := t, blocks := runs.map (fun x => (x.1, x.2.getD 0)) }
        some (useFreeN { s with ne := { s.ne with programs := Tab.put s.ne.programs h p } } 65,
          { m with progs := Tab.put m.progs e.1 h })

/-- One thread of an instance, in FROZEN. -/
def restoreThread (t h i : Nat) (x : SavedTenant) (s : State) (pair : Nat × Nat) : State :=
  let th := Tab.get {} x.threads pair.1
  setThread s pair.2 { freezeThread th with tag := mkTag t (tagSc th.tag), program := h, inst := i }

/-- One instance with its threads on the same engine. -/
def restoreInst (t : Nat) (x : SavedTenant) (r : Option (State × Remap)) (e : Nat × Inst) : Option (State × Remap) :=
  match r with
  | none => none
  | some (s, m) =>
    let ts := someOf s e.2.threads.length 1 (freeThreads s e.2.engine)
    let need := (e.2.threads.map (fun k => (Tab.get {} x.threads k).scratchSize)).sum
    let sc0 := (e.2.threads.filter (fun k => tagSc (Tab.get {} x.threads k).tag == 0)).length
    match oneOf s 0 (Tab.freeKeys s.ne.insts 0 512) with
    | none => none
    | some i =>
      if (freeThreads s e.2.engine).length < e.2.threads.length ∨ engScratch s e.2.engine < need ∨ (0 < sc0 ∧ 4 < engSc0 s e.2.engine + sc0) then none
      else
        let h := Tab.get 0 m.progs e.2.program
        let s := useFreeN { s with ne := { s.ne with insts := Tab.put s.ne.insts i { e.2 with program := h, threads := ts } } } 9
        some ((e.2.threads.zip ts).foldl (restoreThread t h i x) s,
          { m with insts := Tab.put m.insts e.1 i, threads := (e.2.threads.zip ts).foldl (fun m p => Tab.put m p.1 p.2) m.threads })

/-- One binding; a connection's is not restored, since connections are not. -/
def restoreBinding (t : Nat) (x : SavedTenant) (r : Option (State × Remap)) (e : Nat × Binding) : Option (State × Remap) :=
  match r with
  | none => none
  | some (s, m) =>
    if e.2.kind = .packet then r
    else
      let eng := ((Tab.find x.insts e.2.inst).map (fun i => i.engine)).getD 0
      match oneOf s 0 (Tab.freeKeys s.ne.bindings (32 * eng) 32) with
      | none => none
      | some k =>
        let b := { e.2 with inst := Tab.get 0 m.insts e.2.inst, source := sourceKey t e.2.kind (e.2.source % 65536) }
        some (useFree { s with ne := { s.ne with bindings := Tab.put s.ne.bindings k b } }, m)

/-- One item takes its cells. -/
def restoreItem (t : Nat) (r : State × List Item) (i : Item) : State × List Item :=
  let c := takeCells (cellsOf i.bytes.length) r.1
  (c.2, r.2 ++ [{ i with tag := mkTag t (tagSc i.tag), cells := c.1 }])

/-- One queue with its items; openings and items in progress are not restored. -/
def restoreQueue (t : Nat) (r : Option State) (e : Nat × Queue) : Option State :=
  match r with
  | none => none
  | some s =>
    let n := itemCells e.2.items
    if (queue? s e.1).isSome ∨ 16383 ≤ e.1 ∨ queueQuota s t ≤ ctxQueues s t ∨ !quotaRoom s t 1 n 0 then none
    else
      let r := e.2.items.foldl (restoreItem t) (s, [])
      let x : Queue := { e.2 with
        ctx := t, openTid := none, sendLimit := 0, closing := false, closeReq := false, prog := [], draining := [], stale := []
        blocked := false, items := r.2 }
      some (noteLow (setQueue r.1 e.1 x))

/-- The port of a saved port, by binding slot. -/
def mapPort (x : SavedTenant) (slots : List Nat) (p : Nat) : Nat := slots.getD (slotOfPort x.ten.binds p) 0

/-- One channel, PAUSED under the freeze. -/
def restoreChan (t : Nat) (x : SavedTenant) (slots : List Nat) (r : Option State) (e : Nat × Chan) : Option State :=
  match r with
  | none => none
  | some s =>
    if (chan s e.1).st ≠ .free ∨ 1008 ≤ e.1 ∨ chanLimit s t ≤ (chansOf s t).length then none
    else
      let p := mapPort x slots e.2.port
      let ch := pauseChan (dropFetched { e.2 with ctx := t, port := p, fn := (vfOn s t p).getD 0, system := false, freezePause := true })
      some (setChan s e.1 ch)

/-- One reduce window, in EPOCH + 1 with an ABANDONED item due at thaw (R153). -/
def restoreRwin (t : Nat) (r : Option State) (e : Nat × RWin) : Option State :=
  match r with
  | none => none
  | some s =>
    let x := { e.2 with ctx := t, epoch := (e.2.epoch + 1) % 2 ^ 32, sticky := 0, complete := []
                        abandoned := some (e.2.sticky, e.2.complete.length, e.2.epoch) }
    if (rwin? s e.1).isSome ∨ 4096 ≤ e.1 ∨ (x.rsv && !rsvRoom s x) ∨
        (regionGranules s x).any (fun g => decide (255 ≤ (gran s g).refs)) then none
    else some ((regionGranules s x).foldl (addRef true) (setRwin s e.1 x))

/-- One window, live, on the function of its binding slot. -/
def restoreWindow (t : Nat) (slots : List Nat) (r : Option State) (e : Nat × Window) : Option State :=
  match r with
  | none => none
  | some s =>
    match Tab.lowestFree s.fn.windows 0 16384 with
    | none => none
    | some i =>
      if winLimit s t ≤ winHeld s t then none
      else
        let p := slots.getD e.1 0
        let w : Window := { e.2 with ctx := t, port := p, fn := (vfOn s t p).getD 0, granted := none, refGone := false, damaged := false }
        let fix (b : BitVec 128) : BitVec 128 :=
          BitVec.ofNat 128 (b.toNat - 2 ^ 7 * wEntry b 7 11 + 2 ^ 7 * w.port + 2 ^ 10 * w.fn)
        let w := { w with live := fix w.live, staged := fix w.staged }
        let g := (Tab.find s.mp.grants (wTarget w.live % 4096)).filter (fun g => g.grantee == t)
        let w := if wKind w.live = 1 then { w with granted := g.map (fun g => g.granule) } else w
        (addRefs s (liveGranules s w)).map (fun s => setWindow s i w)

/-- Install every object; none when the target lacks something (check 4). The admission rate of each function is 0. -/
def installTenant (s : State) (t : Nat) (x : SavedTenant) (slots : List Nat) : Option State :=
  let s := setQuotas s t x.cells x.queues x.channels x.weight
  let q := x.slices.foldl (fun q e => Tab.set 48 q (257 * e.1 + t) e.2) s.ru.quotas
  let s := { s with ru := { s.ru with quotas := q } }
  let s := setTenant s t { tenant s t with granules := x.ten.granules, windows := x.ten.windows, contexts := x.ten.contexts }
  let r := x.programs.foldl (restoreProgram t) (some (s, {}))
  let r := x.insts.foldl (restoreInst t x) r
  let r := (x.bindings.foldl (restoreBinding t x) r).map (fun e => e.1)
  let r := x.queueTab.foldl (restoreQueue t) r
  let r := x.chans.foldl (restoreChan t x slots) r
  let r := x.rwins.foldl (restoreRwin t) r
  let r := x.windows.foldl (restoreWindow t slots) r
  r.map (fun s => (tenantFns s t).foldl (fun s pf => zeroRate s pf.1 pf.2 false)
    (setTenant s t { tenant s t with st := .frozen, mgrCause := true }))

def doTenantRestore (s : State) (t p n : Nat) (slots : List Nat) (host : Option Bytes) : Done :=
  guardAll s
    [(ctxMissing s t, .notFound), (ctxFrozen s t, .frozen), (decide (mgt ≤ t) || !hostNameable s p, .badArg)]
    (if s.th.safe then (s, some { status := .denied, detail := 1 })
     else
       match host with
       | none => refuse s .badImage
       | some b =>
         if b.length ≠ n ∨ !saveImageOk b n then (s, some { status := .badImage, detail := 1 })
         else
           let x := savedIn s b
           guardAll s [((tenant s t).st != .bound, .notQuiesced), (mappingBad s t x slots, .badArg)]
             (match installTenant s t x slots with
              | none => refuse s .noSpace
              | some s => done s))

/-- TENANT_RESTORE (R314). -/
def cmdTenantRestore (src t p a n : Nat) (slots : List Nat) (host : Option Bytes) (s : State) : Ans :=
  .next (takeUp s src 0x34 none (fun s => doTenantRestore s t p n slots host))

end Sys2Proof.Machine
end

