-- ==== Sys2Proof/Machine/Pair.lean ====
section
/-! DEFINITION. Pairs and failover (chapter 12): the Seam link, the journal and its records, heartbeat and fencing, promotion,
resync, the pair commands and the SM_ registers. -/

namespace Sys2Proof.Config

/-- What the image of an OBJECT record describes; none where the object is no longer held. R330 says that images are not
an interface (log entry 38). -/
opaque readTenant : List (BitVec 8) → Option Sys2Proof.Machine.SavedTenant
opaque readQueue : List (BitVec 8) → Option Sys2Proof.Machine.Queue
opaque readChan : List (BitVec 8) → Option Sys2Proof.Machine.Chan
/-- The descriptor of a reduce window, and whether it had open chunks. -/
opaque readRwin : List (BitVec 8) → Option (Sys2Proof.Machine.RWin × Bool)
opaque readConn : List (BitVec 8) → Option Sys2Proof.Machine.Conn
opaque readPeer : List (BitVec 8) → Option Sys2Proof.Machine.Peer
/-- The IP addresses of a logical port. -/
opaque readAddrs : List (BitVec 8) → List Nat

end Sys2Proof.Config

namespace Sys2Proof.Machine

def setSm (s : State) (f : SmState → SmState) : State := { s with sm := f s.sm }

/-- Codes of Table 12-8. -/
def pairCode : PairMode → Nat
  | .solo => 0
  | .joining => 1
  | .inSync => 2
  | .unprotected => 3
  | .promoted => 4
  | .fenced => 5

/-! The pair state (R337) -/

/-- The journal stops: its records and copies go, and no delivery waits for it any longer (R329, R335). -/
def stopJournal (s : State) : State :=
  let s := ackHeld (setSm s (fun m => { m with journal := [], copyQ := [], objQ := [], markSent := false, markApplied := false }))
  { s with wt := { s.wt with conns := Tab.mapAll (fun _ x =>
      { x with rxPkts := x.rxPkts.map (fun p => { p with jsn := 0 }) }) s.wt.conns } }

/-- The pair state changes; every change raises SM_STATE (Table 12-9). -/
def setPair (s : State) (m : PairMode) : State :=
  if s.sm.mode = m then s
  else
    let was := journalling s
    let s := setSm s (fun x => { x with mode := m, hbLost := if m = .inSync then false else x.hbLost })
    let s := if was && !journalling s then stopJournal s else s
    raiseSrc s Src.smState {}

/-- The copy is no longer trustworthy: IN_SYNC becomes UNPROTECTED. -/
def unprotect (s : State) : State := if s.sm.mode = .inSync then setPair s .unprotected else s

/-- A device that was joining or unprotected is alone again. -/
def alone (s : State) : State := if s.sm.mode = .joining ∨ s.sm.mode = .unprotected then setPair s .solo else s

/-! Control messages (Table 12-4) -/

/-- A control message leaves while the stream runs; in safe state every frame is FAILOVER (Table 13-4). In a Stop entry the Seam
transmitter has stopped (R382). -/
def sendCtl (s : State) (code : Nat) (ws : List Word) : State :=
  if (s.sm.linkUp ∨ 0 < s.sm.trying) ∧ (code = 4 ∨ !s.th.safe) ∧ !fabricHeld s then seamSend s code ws else s

/-- HELLO: role, highest step, arrangement, port merge, the FSN of a step up, and the serial number. -/
def helloWords (s : State) (fsn : Nat) : List Word :=
  let lo := b2n s.sm.role + 2 * 3 + 8 * s.et.arrangement + 32 * s.hp.merge.toNat + 65536 * (fsn % 65536) +
    2 ^ 32 * fld Config.serialNumber.toNat 0 32
  [BitVec.ofNat 64 lo, BitVec.ofNat 64 (fld Config.serialNumber.toNat 32 32)]

def sendHello (s : State) (fsn : Nat) : State := setSm (sendCtl s 1 (helloWords s fsn)) (fun m => { m with helloSent := true })

/-- RESEND from a JSN (R332). -/
def sendResend (s : State) (j : Nat) : State := sendCtl (count s Reg.smResendReq) 3 [BitVec.ofNat 64 j]

def sendReply (s : State) (code status tid : Nat) : State :=
  sendCtl s 7 [BitVec.ofNat 64 (code + 256 * status + 65536 * tid)]

/-! Resync: the stream of objects (R343) -/

/-- Owner of an object of Table 12-6. -/
def objectCtx (s : State) (kind index : Nat) : Nat :=
  if kind = 1 ∨ kind = 7 then index
  else if kind = 2 then ((queue? s index).map (fun x => x.ctx)).getD mgt
  else if kind = 3 then (chan s index).ctx
  else if kind = 4 then ((rwin? s index).map (fun x => x.ctx)).getD mgt
  else if kind = 5 then (conn s index).ctx
  else mgt

/-- The objects of an enrolled tenant in the order of the stream. Kinds 1 to 8 are those of Table 12-6; 9 stands for a
mirrored granule and 10 for a thread. -/
def tenantObjects (s : State) (t : Nat) : List (Nat × Nat) :=
  let insts := s.ne.insts.filter (fun e => ((program? s e.2.program).map (fun p => p.ctx)) == some t)
  let conns := s.wt.conns.filter (fun e => e.2.st != .free && e.2.ctx == t)
  [(1, t)] ++ (s.mp.granules.filter (fun e => e.2.st == .owned && e.2.ctx == t && e.2.mirrored)).map (fun e => (9, e.1)) ++
    [(7, t)] ++ (s.qm.queues.filter (fun e => e.2.ctx == t && e.2.mirrored && !e.2.destroyed)).map (fun e => (2, e.1)) ++
    (s.ru.windows.filter (fun e => e.2.ctx == t)).map (fun e => (4, e.1)) ++ (chansOf s t).map (fun c => (3, c)) ++
    (conns.map (fun e => e.2.peer)).dedup.map (fun p => (6, p)) ++ conns.map (fun e => (5, e.1)) ++
    (insts.flatMap (fun e => e.2.threads)).map (fun k => (10, k))

/-- A thread's scratch lines, then its state (Table 12-7). -/
def threadRecords (s : State) (t : Nat) : State :=
  let th := thread s t
  let lines := (th.scratch.map (fun (c : Host.Cell) => c.1 / 64) ++ th.poison.map (fun (e : Nat × Bool) => e.1)).dedup
  let one (s : State) (l : Nat) : State :=
    let m := Tab.get false th.poison l
    journalAdd s 9 th.tag (BitVec.ofNat 64 (threadTarget t th + 4096 * (64 * l))) (BitVec.ofNat 64 (b2n m))
      (Mem.read th.scratch (64 * l) 64) m true
  journalAdd (lines.foldl one s) 8 th.tag (BitVec.ofNat 64 (threadTarget t th)) 0 (threadImage th) false true

/-- The records of one object. A queue's descriptor is followed by its items, a granule's mapping by its lines. -/
def copyObject (s : State) (o : Nat × Nat) : State :=
  let ctx := objectCtx s o.1 o.2
  if o.1 = 9 then
    setSm (journalMap s o.2 true true) (fun m => { m with copyQ := m.copyQ ++ granuleLines s o.2 })
  else if o.1 = 10 then threadRecords s o.2
  else if o.1 = 2 then
    ((queue? s o.2).map (fun x => x.items)).getD [] |>.foldl (fun s i => journalLink s o.2 ctx i.prio i.bytes i.poison true)
      (objectRecord s ctx 2 o.2 true)
  else objectRecord s ctx o.1 o.2 true

/-- Records that an object takes at most. -/
def objectSize (s : State) (o : Nat × Nat) : Nat :=
  if o.1 = 2 then 1 + ((((queue? s o.2).map (fun x => x.items)).getD []).map (fun i => cdiv i.bytes.length 4096)).sum
  else if o.1 = 10 then 1 + (thread s o.2).scratch.length + (thread s o.2).poison.length
  else 1

/-- Objects are copied through a system channel while the journal has room for each; an empty journal takes any object. -/
def copyObjects (c : Nat) (s : State) : List (Nat × Nat) → State
  | [] => setSm s (fun m => { m with objQ := [] })
  | o :: t =>
    if journalRoom s (objectSize s o) (4096 * objectSize s o) ∨ s.sm.journal = [] then
      let s' := copyObject s o
      copyObjects c (systemMove s' c (journalBytes s' - journalBytes s)) t
    else setSm s (fun m => { m with objQ := o :: t })

/-- The resync stream goes on: objects, then the pool lines. It waits while every system channel is halted (R184, R343). -/
def resyncPump (s : State) : State :=
  match systemChan s with
  | none => s
  | some c =>
    if journalling s && !s.th.safe then
      let s := copyObjects c s s.sm.objQ
      if s.sm.objQ.isEmpty then copyPump s else s
    else s

/-- Every object of the enrolled tenants, and the addresses of the logical ports. -/
def allObjects (s : State) : List (Nat × Nat) :=
  (s.fn.tenants.filter (fun e => e.2.enrolled)).flatMap (fun e => tenantObjects s e.1) ++
    (upto 0 (etPorts s.et.arrangement)).map (fun p => (8, p))

/-- JOINING begins: sequence numbers start again, MARK begin is sent, the stream of objects follows (R330, R343). A MARK record names
no mirrored object, and its tag is 0 (DESIGN CHOICE, log entry 73). -/
def startJoin (s : State) : State :=
  let s := setSm s (fun m => { m with
    jsnSent := 0, jsnAcked := 0, jsnApplied := 0, portJsn := [], journal := [], resending := false, badRow := 0, scratchHeld := [], linkHeld := none
    markSent := false, markApplied := false, markJsn := 0, copyQ := [], hbMiss := 0 })
  let s := setPair s .joining
  let l := allObjects s
  let s := journalAdd s 10 0 0 (BitVec.ofNat 64 l.length) [] false true
  resyncPump (setSm s (fun m => { m with objQ := l, resyncTotal := l.countP (fun o => o.1 == 9) }))

/-- JOINING may begin from this state (Table 12-9). -/
def mayJoin (s : State) : Bool :=
  s.sm.mode == .solo || s.sm.mode == .unprotected || (s.sm.mode == .promoted && !s.sm.fenceOut)

/-- Both MARK end records are applied and acknowledged: IN_SYNC. -/
def checkInSync (s : State) : State :=
  if s.sm.mode = .joining ∧ s.sm.markSent ∧ s.sm.markApplied ∧ s.sm.markJsn ≤ s.sm.jsnAcked then setPair s .inSync else s

/-- RESYNC_COPY_DONE: the stream goes on; once the copy is complete MARK end is sent, with tag 0 (DESIGN CHOICE, log entry 73). -/
def execResyncCopyDone (s : State) : Ans :=
  let s1 := resyncPump s
  if s1.th.safe then idle s
  else if s1.sm.mode = .joining ∧ s1.sm.objQ = [] ∧ s1.sm.copyQ = [] ∧ !s1.sm.markSent ∧ journalRoom s1 1 0 then
    let s2 := journalAdd s1 10 0 1 0 [] false true
    .next (setSm s2 (fun m => { m with markSent := true, markJsn := m.jsnSent }))
  else .next s1

/-- RESYNC received: start begins JOINING here too; abandon ends it (R343, R344). -/
def execResync (start : Bool) (s : State) : Ans :=
  if !s.sm.linkUp then idle s
  else if start then (if mayJoin s then .next (startJoin s) else idle s)
  else if s.sm.mode = .joining then .next (setPair s .solo)
  else idle s

/-! Receiving records (R331, R332) -/

/-- Records are received: a journal runs in the partner's direction and promotion has not stopped the link (R340). -/
def receiving (s : State) : Bool := s.sm.linkUp && journalling s && s.sm.promo != .promote && !s.th.safe

/-- A malformed record: counted and asked for again; the third in a row ends the protection (R332). -/
def badRecord (s : State) (j : Nat) : State :=
  let s := sendResend (count s Reg.smBadRecord) j
  let s := setSm s (fun m => { m with badRow := m.badRow + 1, resending := m.resending || decide (j = m.jsnApplied + 1) })
  if s.sm.badRow < 3 then s
  else unprotect (raiseSrc (setSm s (fun m => { m with badRow := 0 })) Src.smJournalBad {})

/-- A record has been applied whole; ACK_JSN advances. -/
def applied (s : State) (j : Nat) : State := setSm s (fun m => { m with jsnApplied := j, badRow := 0, resending := false })

/-- Take a record in JSN order; `apply` answers none where the record is malformed. -/
def takeRecord (s : State) (r : SeamRecord) (apply : State → Option State) : Ans :=
  if !receiving s then idle s
  else if s.sm.resending ∧ r.jsn ≠ s.sm.jsnApplied + 1 then idle s
  else if r.jsn ≠ s.sm.jsnApplied + 1 ∨ 4096 < r.body.length then .next (badRecord s r.jsn)
  else
    match apply s with
    | some s => .next (applied s r.jsn)
    | none => .next (badRecord s r.jsn)

/-- A bit of a 64-bit field. -/
def wbit (w : Word) (i : Nat) : Bool := bit w.toNat i

/-- A poison mark of a line of a span, bit i of AUX for line i; a line written in part keeps the mark that it has (R118). -/
def setMarks (aux : Word) (s : State) (e : Nat × Nat) : State := if wbit aux e.2 then setPoison s (64 * e.1) true else s

def applyLineWrite (r : SeamRecord) (s : State) : Option State :=
  let a := r.target.toNat
  match Tab.find s.sm.granMap (a / granuleBytes) with
  | none => none
  | some g =>
    let ppa := g * granuleBytes + a % granuleBytes
    if r.body.isEmpty ∨ granuleBytes < a % granuleBytes + r.body.length then none
    else some ((linesOf ppa r.body.length).zipIdx.foldl (setMarks r.aux) (poolStore s r.tag ppa r.body false))

/-- LINE_WRITE: data into the shadow granule, with its poison. -/
def execLineWrite (r : SeamRecord) (s : State) : Ans := takeRecord s r (applyLineWrite r)

/-- GRANULE_ZERO: the shadow granule is zeroed. -/
def execGranuleZero (r : SeamRecord) (s : State) : Ans :=
  takeRecord s r (fun s =>
    if 2 ^ 17 ≤ r.target.toNat ∨ r.aux ≠ 0 ∨ !r.body.isEmpty then none
    else
      (Tab.find s.sm.granMap r.target.toNat).map (fun g => setGran (zeroGranule s g) g { gran s g with poisoned := false }))

/-- The context is a shadow here. -/
def shadowCtx (s : State) (t : Nat) : Bool := decide (t < mgt) && (tenant s t).shadow

/-- An object has been named in the present resync. -/
def seen (s : State) (kind index : Nat) : State :=
  if s.sm.mode = .joining then setSm s (fun m => { m with seen := m.seen ++ [2 ^ 20 * kind + index] }) else s

/-- A shadow granule is given up: to the scrubber. -/
def unmapGranule (s : State) (g own : Nat) : State :=
  let e := gran s own
  setSm (releaseGranule s e.ctx e.listIndex own) (fun m => { m with granMap := Tab.del m.granMap g })

/-- The lists that a copy takes keep the owner's indices: holes fill up to the index. -/
def padList (s : State) (t i : Nat) : State :=
  let l := granList s t
  setGranList s t { l with entries := l.entries ++ List.replicate (i - l.entries.length) none }

/-- A mapping stands from before the present resync, which has not named it yet: it gives way (R344). -/
def leftover (s : State) (g : Nat) : Bool := s.sm.mode == .joining && !s.sm.seen.contains (2 ^ 20 * 9 + g)

/-- A granule of the partner's tenant is mapped: a FREE granule becomes the shadow, or MAP_FAIL is answered (R333). A mapping that
stands from an earlier resync starts from zero again where it is the same, and gives way where it is another. -/
def mapGranule (g t i : Nat) (s : State) : State :=
  let old := s.sm.granMap.filter (fun e => leftover s e.1 && (e.1 == g || listAt s t i == some e.2))
  match old with
  | [(h, own)] =>
    if h = g ∧ listAt s t i = some own then seen (zeroGranule s own) 9 g else shadow (seen (unmapGranule s h own) 9 g)
  | _ => shadow (seen (old.foldl (fun s e => unmapGranule s e.1 e.2) s) 9 g)
where
  /-- A FREE granule is taken for the shadow at the list index. -/
  shadow (s : State) : State :=
    match listAt s t i, lowestFree s (bestStack s) with
    | none, some n => setSm (assignGranule (padList s t i) t i n true) (fun m => { m with granMap := Tab.put m.granMap g n })
    | _, _ => sendCtl s 5 [BitVec.ofNat 64 g]

/-- GRANULE_MAP: map or unmap a shadow granule, or MAP_FAIL. -/
def execGranuleMap (r : SeamRecord) (s : State) : Ans :=
  takeRecord s r (fun s =>
    let g := fld r.target.toNat 0 17
    let t := tagCtx r.tag
    if 2 ^ 18 ≤ r.target.toNat ∨ 2 ^ 17 ≤ r.aux.toNat ∨ !r.body.isEmpty ∨ !shadowCtx s t then none
    else if bit r.target.toNat 17 then some (mapGranule g t r.aux.toNat s)
    else (Tab.find s.sm.granMap g).map (fun own => unmapGranule s g own))

/-- The shadow queue that a record names; it belongs to the shadow of the record's tenant. -/
def shadowQueue (s : State) (r : SeamRecord) : Option (Nat × Queue) :=
  let q := fld r.target.toNat 0 14
  match queue? s q with
  | some x => if x.ctx = tagCtx r.tag ∧ shadowCtx s x.ctx then some (q, x) else none
  | none => none

/-- The bytes of an item of which the record is a piece, with the pieces held before it (log entry 80). -/
def linkBytes (s : State) (r : SeamRecord) : Bytes :=
  match s.sm.linkHeld with
  | some h => if h.target = r.target ∧ h.aux = r.aux then h.body ++ r.body else r.body
  | none => r.body

/-- QUEUE_LINK: an item into a shadow queue once its last piece has come; the owner's event waits for promotion. -/
def execQueueLink (r : SeamRecord) (s : State) : Ans :=
  takeRecord s r (fun s =>
    match shadowQueue s r with
    | none => none
    | some (q, _) =>
      let b := linkBytes s r
      if 2 ^ 17 ≤ r.target.toNat ∨ 16384 < r.aux.toNat ∨ r.aux.toNat < b.length ∨ r.body.isEmpty ∨
          freeCells s < cellsOf r.aux.toNat then none
      else if b.length < r.aux.toNat then some (setSm s (fun m => { m with linkHeld := some { r with body := b } }))
      else some (linkItem (setSm s (fun m => { m with linkHeld := none })) q (fld r.target.toNat 14 3) r.tag b r.poison))

/-- QUEUE_UNLINK: the oldest item of a sublist of a shadow queue goes. -/
def execQueueUnlink (r : SeamRecord) (s : State) : Ans :=
  takeRecord s r (fun s =>
    match shadowQueue s r with
    | none => none
    | some (q, x) =>
      if 2 ^ 17 ≤ r.target.toNat ∨ 4 ≤ r.aux.toNat ∨ !r.body.isEmpty then none
      else
        (x.items.find? (fun i => i.prio == fld r.target.toNat 14 3)).map (fun i =>
          let x := { x with displaced := if r.aux = 2 then cap32 (x.displaced + 1) else x.displaced
                            flushed := if r.aux = 3 then cap32 (x.flushed + 1) else x.flushed }
          unlinkItem s q x i r.aux.toNat))

/-- QUEUE_RESET: a flush boundary or a reset of a shadow queue, whose cells are left to a sweep as there (R176, R178). -/
def execQueueReset (r : SeamRecord) (s : State) : Ans :=
  takeRecord s r (fun s =>
    match shadowQueue s r with
    | none => none
    | some (q, x) =>
      if 2 ^ 14 ≤ r.target.toNat ∨ 2 ≤ r.aux.toNat ∨ !r.body.isEmpty then none
      else if r.aux = 0 then some (flushQueue s q)
      else
        let s := setQueue s q (emptied x)
        some { s with qm := { s.qm with sweeps := s.qm.sweeps ++ [some q] } })

/-! OBJECT (Table 12-6) -/

/-- Quotas and limits of a shadow follow the image. -/
def shadowQuotas (s : State) (t : Nat) (x : SavedTenant) : State :=
  let s := setQuotas s t x.cells x.queues x.channels x.weight
  let q := x.slices.foldl (fun q e => Tab.set 48 q (257 * e.1 + t) e.2) s.ru.quotas
  let s := { s with ru := { s.ru with quotas := q } }
  setTenant s t { tenant s t with granules := x.ten.granules, windows := x.ten.windows, contexts := x.ten.contexts }

/-- A tenant's context: the first one for a FREE TID creates the shadow, in BOUND; one that says that the tenant is held no
longer removes it (R336, R346). -/
def applyTenant (s : State) (t : Nat) (b : Bytes) : State :=
  match Config.readTenant b with
  | none => if shadowCtx s t then sendReply (removeTenant s t) 0x40 0 t else s
  | some x =>
    if shadowCtx s t then shadowQuotas s t x
    else if (tenant s t).st = .free then
      let s := newTenant s t x.cells x.queues x.ten.granules x.channels x.ten.windows x.ten.contexts
      let s := setTenant s t { tenant s t with shadow := true }
      sendReply (shadowQuotas s t x) 0x3F 0 t
    else sendReply s 0x3F (statusCode .noSpace) t

/-- The items of a shadow queue go, and their cells return. -/
def dropItems (s : State) (q : Nat) : State :=
  match queue? s q with
  | some x => giveCells (setQueue s q { x with items := [] }) (x.items.flatMap (fun i => i.cells))
  | none => s

/-- A shadow queue goes with all that it holds. -/
def dropQueue (s : State) (q : Nat) : State :=
  let s := dropItems s q
  let left := ((queue? s q).map (fun x => (x.draining ++ x.stale).flatMap (fun g => g.cells))).getD []
  giveCells { s with qm := { s.qm with queues := Tab.del s.qm.queues q } } left

/-- A queue's descriptor: the shadow queue takes its mode and limit; a resync starts it empty. -/
def applyQueue (s : State) (t q : Nat) (b : Bytes) (resync : Bool) : State :=
  match Config.readQueue b with
  | none => dropQueue s q
  | some x =>
    let s := if resync then dropItems s q else s
    match queue? s q with
    | some y => setQueue s q { y with mode := x.mode, limit := x.limit }
    | none => setQueue s q { ctx := t, mode := x.mode, limit := x.limit, mirrored := true }

/-- A number of the partner's object is in use here by something that is not its copy. -/
def numberTaken (s : State) (kind n : Nat) : Bool :=
  if kind = 2 then decide (mgtQueue ≤ n) || ((queue? s n).map (fun x => !shadowCtx s x.ctx)).getD false
  else if kind = 3 then decide (1008 ≤ n) || (chan s n).st != .free
  else if kind = 4 then decide (4096 ≤ n) || (rwin? s n).isSome
  else if kind = 5 then (conn s n).st != .free
  else if kind = 6 then decide (4096 ≤ n)
  else if kind = 8 then decide (etPorts s.et.arrangement ≤ n)
  else decide (mgt ≤ n)

/-- OBJECT: an image replaces the shadow object's. Queues act at once; channels, windows, connections and addresses are
kept as images until promotion (log entry 38). -/
def execObject (r : SeamRecord) (s : State) : Ans :=
  takeRecord s r (fun s =>
    let kind := fld r.target.toNat 0 8
    let n := fld r.target.toNat 16 16
    let t := tagCtx r.tag
    if fld r.target.toNat 8 8 ≠ 0 ∨ 2 ^ 32 ≤ r.target.toNat ∨ r.aux ≠ 0 ∨ kind = 0 ∨ 8 < kind ∨ numberTaken s kind n then none
    else if kind = 1 then
      some (setSm (applyTenant (seen s 1 n) n r.body) (fun m => { m with objects := Tab.put m.objects (65536 + n) (n, r.body) }))
    else if !(kind = 6 ∨ kind = 8) ∧ !shadowCtx s t then none
    else
      let s := seen s kind n
      if kind = 2 then some (applyQueue s t n r.body r.resync)
      else some (setSm s (fun m => { m with objects := Tab.put m.objects (65536 * kind + n) (t, r.body) })))

/-- The thread state of a THREAD record: 31 scalars, 16 vectors, the predicates, the PC. -/
def recordThread (b : Bytes) (th : Thread) : Thread :=
  { th with
    s := (upto 1 31).foldl (fun m n => Tab.set 0 m n (BitVec.ofNat 64 (leAt b (8 * (n - 1)) 8))) []
    v := (upto 0 16).foldl (fun m n => Tab.set 0 m n (bytesLine (slice b (248 + 64 * n) 64))) []
    p := BitVec.ofNat 8 (leAt b 1272 1)
    pc := leAt b 1273 7 }

/-- One held SCRATCH record goes into the thread's scratch. -/
def applyScratch (th : Thread) (r : SeamRecord) : Thread :=
  let off := fld r.target.toNat 12 17
  let n := cdiv r.body.length 64
  { th with
    scratch := Mem.write th.scratch off r.body
    poison := (upto 0 n).foldl (fun m i => Tab.set false m (off / 64 + i) (wbit r.aux i)) th.poison }

/-- SCRATCH: held aside until the thread's next THREAD record (R331). -/
def execScratch (r : SeamRecord) (s : State) : Ans :=
  takeRecord s r (fun s =>
    if 2 ^ 29 ≤ r.target.toNat ∨ fld r.target.toNat 12 6 ≠ 0 ∨ r.body.isEmpty ∨ 131072 < fld r.target.toNat 12 17 + r.body.length
    then none
    else some (setSm s (fun m => { m with scratchHeld := m.scratchHeld ++ [r] })))

/-- The partner's instance has a shadow linked here. -/
def linked (s : State) (i : Nat) : Bool := s.ne.insts.any (fun e => e.2.shadowOf == some i)

/-- THREAD: a shadow thread's state, with the SCRATCH records held for it; a record with no shadow linked is counted. -/
def execThread (r : SeamRecord) (s : State) : Ans :=
  takeRecord s r (fun s =>
    if 2 ^ 12 ≤ r.target.toNat ∨ r.aux ≠ 0 ∨ r.body.length ≠ 1280 then none
    else
      let mine (x : SeamRecord) : Bool := x.target.toNat % 4096 == r.target.toNat
      let k := 8 * fld r.target.toNat 0 9 + fld r.target.toNat 9 3
      let held := s.sm.scratchHeld.filter mine
      let s := setSm s (fun m => { m with scratchHeld := m.scratchHeld.filter (fun x => !mine x) })
      if linked s (fld r.target.toNat 0 9) then
        let th := held.foldl applyScratch (recordThread r.body (Tab.get {} s.sm.threads k))
        some (setSm s (fun m => { m with threads := Tab.set {} m.threads k th }))
      else some (count s Reg.smShadowMiss))

/-- Shadow objects that the partner no longer holds are removed at its MARK end (R344). -/
def dropUnseen (s : State) : State :=
  let old (kind n : Nat) : Bool := !s.sm.seen.contains (2 ^ 20 * kind + n)
  let ts := (s.fn.tenants.filter (fun e => e.2.shadow && old 1 e.1)).map (fun e => e.1)
  let gs := s.sm.granMap.filter (fun e => old 9 e.1 && !ts.contains (gran s e.2).ctx)
  let s := gs.foldl (fun s e => unmapGranule s e.1 e.2) s
  let qs := (s.qm.queues.filter (fun e => shadowCtx s e.2.ctx && old 2 e.1 && !ts.contains e.2.ctx)).map (fun e => e.1)
  let s := qs.foldl dropQueue s
  let s := ts.foldl removeTenant s
  setSm s (fun m => { m with
    objects := Tab.keep (fun k _ => !old (k / 65536) (k % 65536)) m.objects
    granMap := Tab.keep (fun _ own => (gran s own).st == .owned && shadowCtx s (gran s own).ctx) m.granMap
    seen := [] })

/-- MARK: a resync begins or ends. -/
def execMark (r : SeamRecord) (s : State) : Ans :=
  takeRecord s r (fun s =>
    if 2 ≤ r.target.toNat ∨ !r.body.isEmpty ∨ s.sm.mode ≠ .joining then none
    else if r.target = 0 then some (setSm s (fun m => { m with seen := [], markApplied := false }))
    else some (checkInSync (setSm (dropUnseen s) (fun m => { m with markApplied := true }))))

/-! The link (R324 to R328) -/

/-- The first Seam lane (Table 15-1). Lanes under test are absent (R398). -/
def seamLane : Nat := 80

/-- The link goes down: a resync is abandoned, an unprotected pair is apart; in IN_SYNC the heartbeat will be lost. -/
def seamDown (s : State) : State :=
  let was := s.sm.linkUp
  let s := alone (setSm s (fun m => { m with
    linkUp := false, step := 0, trying := 0, hello := false, helloSent := false, rxFsnKnown := false, retryDue := s.now
    lanes := Tab.mapAll (fun _ l => l &&& 255) m.lanes }))
  let s := quietLanes s seamLane 16
  if was then raiseSrc s Src.smLink {} else s

/-- SEAM_LINK_DOWN: alignment lost, or too many uncorrectable codewords. -/
def execSeamLinkDown (s : State) : Ans := if s.sm.linkUp ∨ 0 < s.sm.trying then .next (seamDown s) else idle s

/-- A step is tried: 100 µs without an error passes it, 1 ms bounds it. -/
def trySeam (s : State) (k : Nat) : State :=
  setSm s (fun m => { m with trying := k, passDue := s.now + us 100, retryDue := s.now + ms 1 })

/-- A Seam lane locks with its table entry as final values, and shows its slips and polarity (R394, R397). -/
def seamLock (s : State) (l : Nat) : State :=
  let w := (Tab.get 0 s.sm.lanes l).toNat
  setSerialLane s (seamLane + l) { serialLane s (seamLane + l) with
    rxLock := true, eq := eqEntry s (seamLane + l), slips := fld w 0 6, rxInverted := bit w 7 }

/-- What bit-slip finds on a lane is the board's: slips, reversal and inversion are free values; the lane is aligned. -/
def alignLanes (s : State) : State :=
  let one (m : Table (BitVec 9)) (l : Nat) : Table (BitVec 9) :=
    let w := (Config.freeWord (s.freeCtr + l)).toNat
    Tab.set 0 m l (BitVec.ofNat 9 (w % 40 + 64 * (fld w 32 2) + 256))
  let s := setSm s (fun m => { m with lanes := (upto 0 16).foldl one m.lanes })
  (upto 0 16).foldl seamLock { s with freeCtr := s.freeCtr + 16 }

/-- The Seam quads, the Seam engine and PLL_S are on (Table 14-3). -/
def seamOn (s : State) : Bool := [33, 34, 35, 36, 37, 148].all (fun d => (dom s d).st == .on)

/-- SEAM_RETRY: bring-up starts at step 1 (R325). -/
def execSeamRetry (s : State) : Ans :=
  if !s.sm.enable ∨ s.sm.linkUp ∨ 0 < s.sm.trying ∨ s.sm.conflict ∨ !seamOn s ∨ anyTest s seamLane 16 then idle s
  else .next (sendHello (alignLanes (trySeam (passTo s s.sm.retryDue) 1)) 0)

/-- The FSN of a step up: one that is to come, and not 0, which would name none (which one is a DESIGN CHOICE, log entry 80). -/
def stepFsn (s : State) : Nat := (s.sm.txFsn + 16) % 65535 + 1

/-- SEAM_STEP_PASS: the step being tried is the link's, and the next one is tried where the partner supports it. -/
def execSeamStepPass (s : State) : Ans :=
  let k := s.sm.trying
  if k = 0 ∨ !s.sm.hello ∨ !s.sm.helloSent then idle s
  else
    let s := passTo s s.sm.passDue
    let up := !s.sm.linkUp
    let s := setSm s (fun m => { m with linkUp := true, step := k, trying := 0 })
    let s := if up then setSm (raiseSrc s Src.smLink {}) (fun m => { m with
        hbMiss := 0, hbSendDue := s.now, hbWinDue := (s.now / 4000 + 2) * 4000 }) else s
    if k < 3 ∧ k < s.sm.partnerHighest then .next (trySeam (sendHello s (stepFsn s)) (k + 1))
    else .next (if k < 3 then raiseSrc s Src.smLink {} else s)

/-- SEAM_STEP_FAIL: 1 ms has passed; the link stays at the step before, or down, to be retried in 10 ms. -/
def execSeamStepFail (s : State) : Ans :=
  let k := s.sm.trying
  if k = 0 then idle s
  else
    let s := setSm (passTo s s.sm.retryDue) (fun m => { m with trying := 0 })
    if k = 1 then
      .next (setSm (quietLanes s seamLane 16) (fun m =>
        let ls := Tab.mapAll (fun _ l => l &&& 255) m.lanes
        { m with hello := false, helloSent := false, retryDue := s.now + ms 9, lanes := ls }))
    else .next (raiseSrc s Src.smLink {})

/-- HELLO received: a partner with the same role, another arrangement or another port merge is a conflict (R326). -/
def execHello (h : HelloMsg) (s : State) : Ans :=
  if !s.sm.enable ∨ !(s.sm.linkUp ∨ 0 < s.sm.trying) then idle s
  else if h.role = s.sm.role ∨ h.arrange ≠ s.et.arrangement ∨ h.merge ≠ s.hp.merge.toNat then
    .next (setSm (seamDown (raiseSrc s Src.smConflict {})) (fun m => { m with conflict := true }))
  else
    let s := sendHello (setSm s (fun m => { m with hello := true, partnerHighest := h.highest })) 0
    if h.stepFsn ≠ 0 ∧ s.sm.trying = 0 ∧ 0 < s.sm.step ∧ s.sm.step < 3 then .next (trySeam s (s.sm.step + 1)) else .next s

/-- A frame is discarded and the records are asked for again (R332). -/
def dropFrame (s : State) (fsn : Nat) : State :=
  let s := count s Reg.smFrameCrc
  let s := setSm s (fun m => { m with resending := true, rxFsn := fsn, rxFsnKnown := true, passDue := s.now + us 100 })
  sendResend s (s.sm.jsnApplied + 1)

/-- The partner's ACK_JSN retires records; what waited for room or for the acknowledgement goes on (R329, R335). -/
def ackTo (s : State) (j : Nat) : State :=
  let j := min j s.sm.jsnSent
  if j ≤ s.sm.jsnAcked then s
  else
    let s := setSm s (fun m => { m with jsnAcked := j, journal := m.journal.filter (fun r => decide (j < r.body.jsn)) })
    checkInSync (resyncPump (ackHeld s))

/-- SEAM_FRAME: CRC and FSN order, then ACK_JSN. -/
def execSeamFrame (f : SeamFrame) (s : State) : Ans :=
  if !s.sm.enable ∨ !(s.sm.linkUp ∨ 0 < s.sm.trying) then idle s
  else if !f.crcOk then .next (dropFrame s ((s.sm.rxFsn + 1) % 65536))
  else if s.sm.rxFsnKnown ∧ f.fsn ≠ (s.sm.rxFsn + 1) % 65536 then .next (dropFrame s f.fsn)
  else
    let s := ackTo (setSm s (fun m => { m with rxFsn := f.fsn, rxFsnKnown := true })) f.ackJsn
    if f.malformed ∧ receiving s then .next (badRecord s (s.sm.jsnApplied + 1)) else .next s

/-- RESEND received: the journal's records from the JSN on are sent again. -/
def execResend (j : Nat) (s : State) : Ans :=
  if !s.sm.linkUp ∨ s.th.safe then idle s
  else .next (emitAll s ((s.sm.journal.filter (fun r => decide (j ≤ r.body.jsn))).map (fun r => Output.seamRecord (recordImage r.kind r.body))))

/-- MAP_FAIL received: the sender's copy is not whole (R333). -/
def execMapFail (_granule : Nat) (s : State) : Ans :=
  if !s.sm.linkUp then idle s else .next (unprotect (raiseSrc s Src.smMapFail {}))

/-! Heartbeat and fencing (R338, R339) -/

/-- HEARTBEAT_SEND: every 500 ns while the link is up; in safe state FAILOVER goes in its place. -/
def execHeartbeatSend (s : State) : Ans :=
  if !s.sm.linkUp then idle s
  else
    let s := passTo s s.sm.hbSendDue
    if s.th.safe then .next (sendCtl (setSm s (fun m => { m with hbSendDue := m.hbSendDue + ns 500 })) 4 [])
    else
      let w := s.sm.hbCount % 2 ^ 32 + 2 ^ 32 * pairCode s.sm.mode
      .next (sendCtl (setSm s (fun m => { m with hbCount := m.hbCount + 1, hbSendDue := m.hbSendDue + ns 500 })) 2
        [BitVec.ofNat 64 w])

/-- HEARTBEAT received: the window in which it arrives is not missed. -/
def execHeartbeat (_n _state : Nat) (s : State) : Ans :=
  if !s.sm.linkUp then idle s
  else .next (setSm s (fun m => { m with hbMiss := 0, hbWinDue := (s.now / 4000 + 2) * 4000 }))

/-- Heartbeats are awaited. -/
def awaited (s : State) : Bool := s.sm.enable && (s.sm.linkUp || s.sm.mode == .inSync) && s.sm.promo == .none

/-- HEARTBEAT_MISS: a 500 ns window has passed without one. -/
def execHeartbeatMiss (s : State) : Ans :=
  if awaited s ∧ s.sm.hbMiss < 8 then
    let s := count (passTo s s.sm.hbWinDue) Reg.smHbMiss
    .next (setSm s (fun m => { m with hbMiss := m.hbMiss + 1, hbWinDue := m.hbWinDue + ns 500 }))
  else idle s

/-- FENCE_OUT is asserted, never while FENCE_IN is acted on; 1 µs of settling follows (R339, R340). Safe state keeps its level
(Table 13-4). -/
def assertFence (s : State) : State :=
  if s.sm.mode = .fenced ∨ s.th.safe then s
  else setSm s (fun m => { m with fenceOut := true, fenceAt := s.now, promo := .settle, promoDue := s.now + us 1 })

/-- The heartbeat is lost: IN_SYNC fences, at once for ROLE 0 and after a FAILOVER; JOINING and UNPROTECTED end in SOLO. -/
def loseHeartbeat (s : State) (failover : Bool) : State :=
  let s := setSm s (fun m => { m with hbLost := true, hbMiss := 0 })
  if s.sm.mode = .inSync then
    if s.sm.promo = .settle ∨ s.sm.promo = .promote then s
    else if failover ∨ !s.sm.role then assertFence s
    else if s.sm.promo = .none then setSm s (fun m => { m with promo := .fenceWait, promoDue := s.now + us 2 })
    else s
  else alone s

/-- HEARTBEAT_LOST: eight consecutive misses. -/
def execHeartbeatLost (s : State) : Ans := if 8 ≤ s.sm.hbMiss then .next (loseHeartbeat s false) else idle s

/-- FAILOVER received: the heartbeat is lost at once. -/
def execFailover (s : State) : Ans := if s.sm.linkUp then .next (loseHeartbeat s true) else idle s

/-- FENCE_WAIT_END: ROLE 1 asserts FENCE_OUT only if FENCE_IN is still deasserted. -/
def execFenceWaitEnd (s : State) : Ans :=
  if s.sm.promo = .fenceWait then
    let s := passTo s s.sm.promoDue
    .next (if s.sm.fenceIn then setSm s (fun m => { m with promo := .none }) else assertFence s)
  else idle s

/-- A device that has asserted FENCE_OUT ignores FENCE_IN: ROLE 0 at once, ROLE 1 after 1 µs. -/
def ignoresFence (s : State) : Bool := s.sm.fenceOut && (!s.sm.role || decide (s.sm.fenceAt + us 1 < s.now))

/-- FENCE_IN: acted on by safe state and FENCED; with ENABLE = 0 the pin is ignored (R321). -/
def execFenceIn (on : Bool) (s : State) : Ans :=
  if !s.sm.enable then idle s
  else
    let s := setSm s (fun m => { m with fenceIn := on })
    if !on ∨ s.sm.mode = .fenced ∨ ignoresFence s then .next s
    else
      let was := s.th.safe
      let s := enterSafe (raiseSrc s Src.smFenceIn {}) Src.smFenceIn true
      let s := if was then s else { s with th := { s.th with safeFence := true } }
      .next (setPair (setSm s (fun m => { m with promo := .none })) .fenced)

/-! Promotion (R340, Table 12-7) -/

/-- SETTLE_END: nothing more is received; every record received has been applied. -/
def execSettleEnd (s : State) : Ans :=
  if s.sm.promo = .settle then
    let s := passTo s s.sm.promoDue
    .next (setSm s (fun m => { m with promo := .promote, promoDue := s.now, scratchHeld := [] }))
  else idle s

/-- Images of one kind that belong to a tenant. -/
def imagesOf (s : State) (kind t : Nat) : List (Nat × Bytes) :=
  (s.sm.objects.filter (fun e => e.1 / 65536 == kind && e.2.1 == t)).map (fun e => (e.1 % 65536, e.2.2))

/-- The tenant's image. -/
def shadowImage (s : State) (t : Nat) : SavedTenant :=
  match Tab.find s.sm.objects (65536 + t) with
  | some o => (Config.readTenant o.2).getD {}
  | none => {}

/-- The position of a thread record among the threads of the partner's instance gives the local thread. -/
def recordOf (s : State) (x : SavedTenant) (pi i : Nat) : Option Thread :=
  match Tab.find x.insts pi with
  | none => none
  | some y => (y.threads[i]?).bind (fun k => Tab.find s.sm.threads (8 * pi + k % 8))

/-- A linked thread resumes from its last THREAD record: WAITING, or IDLE in START mode. -/
def resumeThread (start : Bool) (rec_ th : Thread) : Thread :=
  { th with
    mode := if start then .idle else .waiting
    s := rec_.s, v := rec_.v, p := rec_.p, pc := rec_.pc, scratch := rec_.scratch.filter (fun c => decide (c.1 < th.scratchSize))
    poison := rec_.poison, own := [], fresh := false, plds := [], frozenFrom := none, faulted := false }

def promoteInst (x : SavedTenant) (s : State) (e : Nat × Inst) : State :=
  match e.2.shadowOf with
  | none => s
  | some pi =>
    let start := ((program? s e.2.program).map (fun p => p.startMode)).getD false
    let s := e.2.threads.zipIdx.foldl (fun s p =>
      match recordOf s x pi p.2 with
      | some r => setThread s p.1 (resumeThread start r (thread s p.1))
      | none => s) s
    { s with ne := { s.ne with insts := Tab.put s.ne.insts e.1 { e.2 with shadowOf := none } } }

/-- The local port of a saved port, by binding slot, with the VF there (R314). -/
def slotPort (s : State) (t : Nat) (x : SavedTenant) (p : Nat) : Nat × Nat :=
  match (tenant s t).binds[slotOfPort x.ten.binds p]? with
  | some b => (b.port, b.vf)
  | none => (0, 0)

/-- A channel: HALTED with cause SAFE, its registers as applied. -/
def promoteChan (t : Nat) (x : SavedTenant) (s : State) (o : Nat × Bytes) : State :=
  match Config.readChan o.2 with
  | none => s
  | some ch =>
    let pf := slotPort s t x ch.port
    setChan s o.1 (haltChan { ch with
      st := .paused, ctx := t, system := false, port := pf.1, fn := pf.2, fetched := [], owed := none, halting := 0
      ownerPause := false, freezePause := false } 6)

/-- A reduce window; one with open chunks is reset as by REDUCE_RESET (R153). -/
def promoteRwin (t : Nat) (s : State) (o : Nat × Bytes) : State :=
  match Config.readRwin o.2 with
  | none => s
  | some (x, opened) =>
    let x := { x with ctx := t, abandoned := none }
    let s := (regionGranules s x).foldl (addRef true) (setRwin s o.1 x)
    if opened then nextEpoch (oweAbandoned s o.1 x x.sticky x.complete.length x.epoch) o.1 x else s

/-- A connection, OPEN at its handle and logical port, with its peer entry. -/
def promoteConn (t : Nat) (s : State) (o : Nat × Bytes) : State :=
  match Config.readConn o.2 with
  | none => s
  | some x =>
    let peer := (Tab.find s.sm.objects (65536 * 6 + x.peer)).bind (fun p => Config.readPeer p.2)
    match peer with
    | none => s
    | some e =>
      let a : PeerAddr := { ip := e.ip, mac := e.mac, vlan := e.vlan, prio := e.prio, dscp := e.dscp }
      match peerFor s a with
      | none => s
      | some n => setConn (usePeer s n a) o.1 { x with ctx := t, peer := n, st := if x.st = .opened then .opened else x.st }

/-- One event for each bound source of the tenant that is not empty (R79). -/
def promoteEvents (s : State) (t : Nat) : State :=
  let mine (i : Nat) : Bool := ((inst? s i).bind (fun x => (program? s x.program).map (fun p => p.ctx))) == some t
  (s.ne.bindings.filter (fun b => mine b.2.inst)).foldl (fun s b => firstEvent s b.2.kind b.2.source) s

/-- A shadow tenant and its objects are promoted; the tenant runs as by TENANT_START and is enrolled from here on. -/
def promoteTenant (s : State) (t : Nat) : State :=
  let x := shadowImage s t
  let insts := s.ne.insts.filter (fun e => ((program? s e.2.program).map (fun p => p.ctx)) == some t)
  let s := insts.foldl (promoteInst x) s
  let s := (imagesOf s 3 t).foldl (promoteChan t x) s
  let s := (imagesOf s 4 t).foldl (promoteRwin t) s
  let s := (imagesOf s 5 t).foldl (promoteConn t) s
  let s := setTenant s t { tenant s t with st := .running, shadow := false, enrolled := true }
  promoteEvents (freezeIfCause s t) t

/-- The partner's addresses of a logical port are answered here too. -/
def adoptAddrs (s : State) : State :=
  setSm s (fun m => { m with
    addrs := m.addrs ++ ((m.objects.filter (fun e => e.1 / 65536 == 8)).flatMap (fun e =>
      (Config.readAddrs e.2.2).map (fun a => (e.1 % 65536, a)))) })

/-- PROMOTED: every shadow tenant serves, the state is PROMOTED, and each function hears of the failover. In safe state tenant states
do not change (R361). -/
def execPromoted (s : State) : Ans :=
  if s.sm.promo = .promote ∧ !s.th.safe then
    let ts := (s.fn.tenants.filter (fun e => e.2.shadow)).map (fun e => e.1)
    let s := ts.foldl promoteTenant (adoptAddrs (passTo s s.sm.promoDue))
    let s := setSm (count s Reg.smFailovers) (fun m => { m with promo := .none, objects := [], threads := [], granMap := [] })
    .next (ts.foldl (notifyTenant .failover) (setPair s .promoted))
  else idle s

/-! The commands (Table 12-11) -/

/-- PAIR_CONFIG: KP_PAIR, for the next device reset. -/
def cmdPairConfig (src : Nat) (enable role : Bool) (s : State) : Ans :=
  .next (takeUp s src 0x3D none
    (fun s => guardAll s [(keepBusy s, .busy)] (done (keepWrite s Keep.pair (BitVec.ofNat 64 (b2n enable + 2 * b2n role))))))

/-- PAIR_RESYNC (R343). In IN_SYNC, from which Table 12-9 has no change for it, it is DENIED (DESIGN CHOICE, log entry 80). -/
def cmdPairResync (src : Nat) (s : State) : Ans :=
  .next (takeUp s src 0x3E none (fun s =>
    guardAll s
      [(s.sm.mode == .joining, .busy), (!mayJoin s || !s.sm.linkUp || !s.sm.hello, .denied)]
      (done (startJoin (sendCtl s 6 [1])))))

/-- A command that waits for the partner's REPLY answers once it has come (R346). -/
def pollPair (s : State) (src : Nat) : Done :=
  match s.sm.replies.find? (fun w => w.src == src) with
  | none => done s
  | some w =>
    match w.status with
    | none => (s, none)
    | some 0 => done (setSm s (fun m => { m with replies := m.replies.filter (fun x => x.src != src) }))
    | some n =>
      refuse (setSm s (fun m => { m with replies := m.replies.filter (fun x => x.src != src) }))
        (if n = statusCode .unprotected then .unprotected else .noSpace)

/-- Wait for the partner, 1 ms at most. -/
def awaitReply (s : State) (src code tid : Nat) : Done :=
  (setSm s (fun m => { m with replies := m.replies ++ [{ src := src, code := code, tid := tid, due := s.now + ms 1 }] }), none)

/-- The tenant's objects join the resync stream. -/
def enrol (s : State) (t : Nat) : State :=
  let s := setTenant s t { tenant s t with enrolled := true }
  if journalling s then
    let l := tenantObjects s t
    resyncPump (setSm s (fun m => { m with objQ := m.objQ ++ l, resyncTotal := m.resyncTotal + l.countP (fun o => o.1 == 9) }))
  else s

def doPairTenant (s : State) (src t : Nat) : Done :=
  guardAll s [(ctxMissing s t || decide (mgt ≤ t), .notFound)]
    (if s.sm.mode ≠ .inSync then refuse (enrol s t) .unprotected
     else if (tenant s t).enrolled then done s
     else awaitReply (objectRecord s t 1 t false) src 0x3F t)

/-- PAIR_TENANT: the partner makes the shadow and replies; then the tenant is enrolled and copied. -/
def cmdPairTenant (src t : Nat) (s : State) : Ans :=
  .next (takeUp s src 0x3F (some .pair) (fun s => doPairTenant s src t))

def doPairUntenant (s : State) (src t : Nat) : Done :=
  guardAll s [(ctxMissing s t || decide (mgt ≤ t) || !(tenant s t).enrolled, .notFound)]
    (let s := if s.sm.mode = .inSync then objectRecord s t 1 t false else s
     let s := setTenant s t { tenant s t with enrolled := false }
     if s.sm.mode = .inSync then awaitReply s src 0x40 t else done s)

/-- PAIR_UNTENANT: the partner removes the shadow. -/
def cmdPairUntenant (src t : Nat) (s : State) : Ans :=
  .next (takeUp s src 0x40 (some .pair) (fun s => doPairUntenant s src t))

/-- REPLY received: the command's status; a shadow made enrols the tenant. -/
def execReply (code status tid : Nat) (s : State) : Ans :=
  if !s.sm.linkUp then idle s
  else
    match s.sm.replies.find? (fun w => w.code == code && w.tid == tid && w.status.isNone) with
    | none => idle s
    | some w =>
      let s := setSm s (fun m => { m with replies := m.replies.map (fun x => if x = w then { x with status := some status } else x) })
      .next (if code = 0x3F ∧ status = 0 then enrol s tid else s)

/-- PARTNER_REPLY_TIMEOUT: 1 ms without a reply yields UNPROTECTED; a tenant to be enrolled is copied at the next resync. -/
def execPartnerReplyTimeout (src : Nat) (s : State) : Ans :=
  match s.sm.replies.find? (fun w => w.src == src && w.status.isNone) with
  | none => idle s
  | some w =>
    let s := passTo s w.due
    let s := setSm s (fun m => { m with
      replies := m.replies.map (fun x => if x = w then { x with status := some (statusCode .unprotected) } else x) })
    .next (if w.code = 0x3F then setTenant s w.tid { tenant s w.tid with enrolled := true } else s)

/-- BUILD_ID of the partner's instance, from its tenant's image. -/
def partnerBuild (s : State) (t pi : Nat) : Option (BitVec 64) :=
  let x := shadowImage s t
  (Tab.find x.insts pi).bind (fun i => (Tab.find x.programs i.program).map (fun p => p.buildId))

/-- PAIR_SHADOW: link a shadow instance to the partner's. -/
def cmdPairShadow (src i pi : Nat) (s : State) : Ans :=
  .next (takeUp s src 0x41 none (fun s =>
    match inst? s i with
    | none => refuse s .notFound
    | some x =>
      let p := program? s x.program
      let t := (p.map (fun p => p.ctx)).getD mgt
      guardAll s
        [(!shadowCtx s t || decide (512 ≤ pi) || partnerBuild s t pi != p.map (fun p => p.buildId), .badArg)]
        (done { s with ne := { s.ne with insts := Tab.put s.ne.insts i { x with shadowOf := some pi } } })))

/-- PAIR_PROMOTE: a planned switch-over. -/
def cmdPairPromote (src : Nat) (s : State) : Ans :=
  .next (takeUp s src 0x42 none (fun s =>
    guardAll s [(s.sm.mode != .inSync, .denied)] (done (loseHeartbeat s true))))

/-- PAIR_UNFENCE: FENCE_OUT is deasserted. -/
def cmdPairUnfence (src : Nat) (s : State) : Ans :=
  .next (takeUp s src 0x43 none (fun s =>
    guardAll s [(!s.sm.fenceOut, .denied)] (done (setSm s (fun m => { m with fenceOut := false })))))

/-! The pair fence and the registers (R334, R348) -/

/-- A push to a mirrored queue waits in the port's buffer: it has been received, and its record is still to be made (R163, R334). -/
def mirrorWaits (s : State) (p : Nat) : Bool :=
  (Tab.get [] s.qm.pushes p).any (fun x => (queue? s x.queue).any (fun q => q.mirrored && enrolledCtx s q.ctx))

/-- A pair-fence read completes: every mirrored write received is held by the partner, or the pair is not IN_SYNC. -/
def fenceReady (s : State) : Bool :=
  s.sm.mode != .inSync || (decide (s.sm.jsnAcked = s.sm.jsnSent) && (upto 0 8).all (fun p => !mirrorWaits s p))

/-- SM_PAIR_STATUS (Table 12-14). -/
def pairStatus (s : State) : Nat :=
  let m := s.sm
  pairCode m.mode + 2 ^ 3 * b2n (m.mode == .inSync) + 2 ^ 4 * b2n m.role + 2 ^ 5 * b2n m.enable + 2 ^ 6 * b2n m.hbLost +
    2 ^ 7 * b2n m.fenceOut + 2 ^ 8 * b2n m.fenceIn + 2 ^ 9 * (Tab.count (fun _ t => t.shadow) s.fn.tenants % 256) +
    2 ^ 17 * (Tab.count (fun _ t => t.enrolled) s.fn.tenants % 256)

/-- Uncorrectable codewords as SM_LINK_STATUS shows them: no row is about one, and a read finds them risen by a free amount,
saturating (log entry 27). -/
def seamUncorr (s : State) : Nat := min 65535 (s.sm.fecUncorr + (freeWord s).toNat % 65536)

/-- A read of SM_LINK_STATUS has shown the codewords. -/
def showUncorr (s : State) : State := useFree (setSm s (fun m => { m with fecUncorr := seamUncorr s }))

/-- SM_LINK_STATUS (Table 12-15). -/
def seamStatus (s : State) : Nat :=
  b2n s.sm.linkUp + 2 * s.sm.step + 2 ^ 3 * b2n s.sm.hello + 2 ^ 4 * b2n s.sm.conflict + 2 ^ 5 * seamUncorr s

/-- 2 MiB units still to copy: mappings not yet made, and granules with lines left. -/
def resyncLeft (s : State) : Nat :=
  s.sm.objQ.countP (fun o => o.1 == 9) + ((s.sm.copyQ.map (fun l => 64 * l / granuleBytes)).dedup).length

/-- The SM_ registers, by offset in the block (Table 12-13). -/
def readPair (s : State) (off : Nat) : Option Nat :=
  if off = 0x0000 then some (pairStatus s)
  else if off = 0x0008 then some (seamStatus s)
  else if off = 0x0010 then some (journalBytes s + 2 ^ 23 * s.sm.journal.length)
  else if off = 0x0018 then some s.sm.jsnSent
  else if off = 0x0020 then some s.sm.jsnAcked
  else if off = 0x0028 then some s.sm.jsnApplied
  else if off = 0x0030 then some ((s.sm.resyncTotal - resyncLeft s) + 2 ^ 32 * s.sm.resyncTotal)
  else if 0x38 ≤ off ∧ off ≤ 0x68 then some (regNat s (0x700000 + off))
  else if off = 0x0070 then some (b2n (s.sm.mode == .inSync))
  else if 0x100 ≤ off ∧ off < 0x180 then some (Tab.get 0 s.sm.lanes ((off - 0x100) / 8)).toNat
  else none

end Sys2Proof.Machine
end

