-- ==== Sys2Proof/Machine/Thimble.lean ====
section
/-! DEFINITION. Thimble (chapter 13): a raise with what its block does, the records and the log, severities, the fault history, and
the TH_ registers. The reaction to a raise itself is `raiseSrc` in Machine/Ops.lean. -/

namespace Sys2Proof.Machine

/-! Raises (R349, R350) -/

/-- A connection whose context cannot be read closes (Table 08-14); the manual names no reason, so the code is a
free one of Table 08-11's (log entry 40). -/
def contextLost (s : State) (c : Nat) : State :=
  match (conn s c).st with
  | .free => s
  | .closed => s
  | _ => enterClosed (useFree s) c ((freeWord s).toNat % 5)

/-- An error that a thread meets: in instruction memory it faults ILLEGAL, in scratch it marks the line (R32). `extra` is
0 for instruction memory, else one more than the scratch line (log entry 40). -/
def engineError (s : State) (t extra : Nat) : State :=
  let th := thread s t
  if th.mode = .free then s
  else if extra = 0 then programFault s t (FaultCode.illegal, 0)
  else setThread s t { th with poison := Tab.set false th.poison (extra - 1) true }

/-- Numbers of the crossbar's paths: 0 to 98 (Table 01-2, Table 17-2). -/
def xbarPaths : Nat := 99

/-- The domain of the block that raises a source, where one domain holds it (Table 13-1, Table 14-3); an engine and a stack are named by
the object's number. -/
def srcDomain (n index : Nat) : Option Nat :=
  match n / 32 with
  | 1 | 2 => some 140
  | 3 => some 139
  | 4 => some 141
  | 6 => some 138
  | 7 => some (38 + index / 8 % 64)
  | 8 => some (102 + index / 16 % 8)
  | 9 => some 142
  | 12 => some 32
  | 13 => some 37
  | 15 => some 146
  | 17 => some 143
  | 18 => some 144
  | 19 => some 145
  | _ => none

/-- An object that does not exist, a path of the crossbar, raises nothing; nor does a block in a domain that is not on (R374). -/
def raisable (s : State) (n index : Nat) : Bool :=
  (if n = Src.xbPathCe ∨ n = Src.xbPathUe then decide (index < xbarPaths) else true) &&
    (match srcDomain n index with
     | some d => (dom s d).st == .on
     | none => true)

/-- What a block does for itself with an event that it raises (R355). MP_GOT_UE names by `extra` an ownership entry (0), an entry of the
list array (1) or a grant entry (2); SH_BUF_UE an arrived piece of the channel; RU_STAGE_UE a chunk and its line. -/
def blockAction (s : State) (n index extra : Nat) : State :=
  if n = Src.hpBufCe then aer s (index % 8) 0 false 14
  else if n = Src.shBufUe then spoilBuffer s index extra
  else if n = Src.ruStageUe then spoilLine s index (extra / 1024) (extra % 1024)
  else if n = Src.hpBufUe then aer s (index % 8) 0 true 22
  else if n = Src.fnWinUe then
    match window? s index with
    | some w => setWindow s index { w with damaged := true }
    | none => s
  else if n = Src.ivTableUe then
    let m := Tab.upd (BitVec.ofNat 128 (2 ^ 96)) s.fn.msix (2048 * (index % 2048) + extra % 2048) (fun e => e ||| BitVec.ofNat 128 (2 ^ 96))
    { s with fn := { s.fn with msix := m } }
  else if n = Src.xbPathCe then count s Reg.xbCe
  else if n = Src.xbPathUe then regSet (count s Reg.xbUe) Reg.xbLastUe (BitVec.ofNat 64 index)
  else if n = 226 then engineError s index extra
  else if n = Src.mpGotUe then
    if extra = 0 then setGran s (index % 131072) { gran s (index % 131072) with damaged := true }
    else if extra = 1 then { s with mp := { s.mp with badList := s.mp.badList ++ [index % 131072] } }
    else { s with mp := { s.mp with badGrant := s.mp.badGrant ++ [index % 4096] } }
  else if n = Src.wtCtxUe then contextLost s index
  else if n = Src.etFecUncorr then count s (Reg.etFecUncorr (index % 16))
  else if n = Src.smBufUe then unprotect s
  else if n = Src.qmFreeMismatch then { s with qm := { s.qm with sweeps := s.qm.sweeps ++ [none] } }
  else if n = Src.qmCellUe then
    match queue? s index with
    | some x => setQueue s index (poisonHead x)
    | none => s
  else if n = Src.mcCe then lineCorrected s (fld extra 0 38)
  else if n = Src.mcUe then linePoisoned s (fld extra 0 38)
  else s

/-- Whose limit a raise counts against: a port's, a tenant's; a channel's owner where no tag is given. -/
def limitWho (s : State) (n : Nat) (tag : Option (BitVec 11)) (index : Nat) : Nat :=
  if n = Src.hpViolation then index / 256 % 8
  else if n = Src.mgMailbox ∨ n = Src.fnDirtyOor then 0
  else
    match tag with
    | some t => tagCtx t
    | none => if n = Src.wtViolation then 400 + index % 16 else if limitGroup n = 160 then (chan s index).ctx else mgt

/-- SOURCE_RAISE: a block raises a source; its severity is looked up and the reaction starts. A raise that the block holds back for
its rate limit never reaches Thimble. A queue's pointer mismatch and a port's containment raise by what they do. -/
def execSourceRaise (n : Nat) (tag : Option (BitVec 11)) (object index : Nat) (extra : BitVec 40) (s : State) : Ans :=
  if !Src.used n ∨ !raisable s n index then idle s
  else if n = Src.qmPtrMismatch ∧ (queue? s index).isSome then .next (mismatch s index)
  else if n = Src.hpContained ∧ 1 ≤ fld extra.toNat 0 3 ∧ fld extra.toNat 0 3 ≤ 4 then .next (containPort s (index % 8) (fld extra.toNat 0 3))
  else
    let keep := n == Src.neProgFault || n == Src.mcCe || n == Src.mcUe || n == Src.hpViolation || n == Src.hpContained
    let s := blockAction s n index extra.toNat
    let raise := if limited n then raiseLimited s n (limitWho s n tag index) else raiseSrc s n
    .next (raise { tag := tag, object := object % 16, index := index % 2 ^ 20, extra := if keep then extra else 0 })

/-! Records (R350, R354, R357, R358) -/

/-- The 32 bytes of a record (Table 13-3). -/
def recordBytes (r : ThRec) : Bytes :=
  toLe 2 (r.source + 2 ^ 10 * r.severity + 2 ^ 13 * b2n r.safeCause + 2 ^ 15 * b2n r.forced) ++
    toLe 2 (match r.tag with
      | some t => t.toNat + 2 ^ 11
      | none => 0) ++
    toLe 4 r.seq ++ toLe 8 (r.object + 2 ^ 4 * r.index + 2 ^ 24 * r.extra.toNat) ++ toLe 8 r.time ++
    toLe 8 (r.slow + 2 ^ 48 * r.coalesced)

/-- A record takes the next SEQ and its place in the ring of 4,096. -/
def logRecord (s : State) (r : ThRec) : State × ThRec :=
  let r := { r with seq := s.th.nextSeq % 2 ^ 32 }
  let l := s.th.log ++ [r]
  ({ s with th := { s.th with
      nextSeq := s.th.nextSeq + 1, log := l.drop (l.length - 4096)
      lastSeq := Tab.set 0 s.th.lastSeq r.source r.seq } }, r)

/-- The notice of a record goes to the management queue; in safe state Bobbin takes no new work (R361). -/
def notifyItem (s : State) (r : ThRec) : State :=
  match pushMgt s 7 (recordBytes r) with
  | (true, s) => s
  | (false, s) => count s Reg.thNotifyLost

/-- Vector 1 of PF 0 on every manager port. -/
def notifyManagers (s : State) : State :=
  (upto 0 8).foldl (fun s p => if managerPort s p && !mergedUpper s p then sendMsix s p 0 1 else s) s

/-- The BMC hears of a NOTIFY record: one in-band interrupt a tick, in I3C mode (R411). -/
def notifyBmc (s : State) : State :=
  let first := !s.mg.ibiNotify
  let s := { s with mg := { s.mg with ibiNotify := true } }
  if s.mg.i3c && s.mg.ibi && first then emit s (.ibi 1) else s

/-- What one record of NOTIFY and above sets off (Table 13-2). -/
def notifyRecord (s : State) (r : ThRec) : State :=
  let s := notifyBmc (notifyManagers (notifyItem s r))
  let s := if bit (regNat s Reg.thCfg) 0 then { s with th := { s.th with alert := true } } else s
  if 3 ≤ r.severity then { s with th := { s.th with histQ := s.th.histQ ++ [r] } } else s

/-- RECORD_FORM: NOTIFY and above first, then LOG within its budget of 1,024 a tick. -/
def execRecordForm (s : State) : Ans :=
  match s.th.highQ with
  | r :: t =>
    let (s, r) := logRecord { s with th := { s.th with highQ := t } } r
    .next (notifyRecord s r)
  | [] =>
    match s.th.lowQ with
    | [] => idle s
    | r :: t =>
      let s := { s with th := { s.th with lowQ := t } }
      if s.th.logTick < 1024 then
        .next (logRecord { s with th := { s.th with logTick := s.th.logTick + 1 } } r).1
      else .next (count s Reg.thLogLost)

/-! The fault history (R364, R365) -/

def histWord (i j : Nat) : Nat := Keep.thHist + 4 * i + j

/-- HISTORY_WRITE: a CONTAIN or SAFE record takes the next of the 32 entries, by hardware. -/
def execHistoryWrite (s : State) : Ans :=
  match s.th.histQ with
  | [] => idle s
  | r :: t =>
    let s := { s with th := { s.th with histQ := t } }
    let i := keepNat s Keep.thHead % 32
    let b := recordBytes r
    let s := (upto 0 4).foldl (fun s j => keepSet s (histWord i j) (BitVec.ofNat 64 (leAt b (8 * j) 8))) s
    let s := keepSet s Keep.thHead (BitVec.ofNat 64 ((i + 1) % 32))
    .next (keepSet s Keep.thTotal (BitVec.ofNat 64 (satInc (2 ^ 32 - 1) (keepNat s Keep.thTotal))))

/-- The entry has been written. -/
def histWritten (s : State) (i : Nat) : Bool := decide (i < min 32 (keepNat s Keep.thTotal))

def histAcked (s : State) (i : Nat) : Bool := bit (keepNat s (histWord i 0)) 14

/-- Set the ACK bit of an entry that has been written. -/
def ackEntry (s : State) (i : Nat) : State :=
  if histWritten s i then keepSet s (histWord i 0) (keepGet s (histWord i 0) ||| 0x4000) else s

/-- An unacknowledged SAFE entry exists (HIST_UNACK). -/
def histUnack (s : State) : Bool :=
  (upto 0 32).any (fun i => histWritten s i && fld (keepNat s (histWord i 0)) 10 3 == 4 && !histAcked s i)

def ackBits (s : State) : Nat := ((upto 0 32).map (fun i => if histAcked s i then 2 ^ i else 0)).sum

/-- TH_HIST_ACK: one bit per entry. -/
def execThHistAck (w : Word) (s : State) : Ans :=
  .next ((upto 0 32).foldl (fun s i => if bit w.toNat i then ackEntry s i else s) s)

/-! Severities (R351 to R353) -/

/-- TH_SRC_CFG of a source: the basted severity, and STAGED in bit 3. -/
def srcCfg (s : State) (n : Nat) : Nat := Tab.get ((Src.default? n).getD 0) s.th.basted n

/-- Baste a severity. -/
def baste (s : State) (n sev : Nat) : State :=
  if Src.used n then
    { s with th := { s.th with basted := Tab.set ((Src.default? n).getD 0) s.th.basted n (sev % 8 + 8) } }
  else s

/-- TH_SRC_CFG: a write bastes. -/
def execThSrcCfg (n : Nat) (w : Word) (s : State) : Ans := .next (baste s n w.toNat)

/-- One basted severity goes live; a reserved code is ignored. -/
def tackSource (t : ThState) (e : Nat × Nat) : ThState :=
  let d := (Src.default? e.1).getD 0
  if e.2 < 8 then t
  else
    let t := { t with basted := Tab.set d t.basted e.1 (e.2 % 8) }
    if 4 < e.2 % 8 then t else { t with live := Tab.set d t.live e.1 (e.2 % 8) }

/-- Every basted severity becomes live. -/
def tackAll (s : State) : State := { s with th := s.th.basted.foldl tackSource s.th }

/-- TH_TACK. -/
def execThTack (s : State) : Ans := .next (tackAll s)

/-- TH_FORCE: raise a source with FORCED = 1; a reserved number is ignored. -/
def execThForce (w : Word) (s : State) : Ans := .next (raiseSrc s (fld w.toNat 0 10) { forced := true })

/-- FAULT_SEVERITY: up to 64 pairs, basted and tacked as one. -/
def cmdFaultSeverity (src : Nat) (l : List (Nat × Nat)) (s : State) : Ans :=
  .next (takeUp s src 0x44 none (fun s =>
    guardAll s [(decide (64 < l.length) || l.any (fun e => !Src.used e.1 || decide (4 < e.2)), .badArg)]
      (done (tackAll (l.foldl (fun s e => baste s e.1 e.2) s)))))

/-- PENDING of a source clears; ALERT# goes when no source is pending, unless the device is in safe state (Table 13-9). -/
def clearPending (s : State) (n : Nat) : State :=
  let s := { s with th := { s.th with pending := Tab.set false s.th.pending n false } }
  if s.th.pending.isEmpty ∧ !s.th.safe then { s with th := { s.th with alert := false } } else s

/-- FAULT_ACK (R365). -/
def cmdFaultAck (src : Nat) (entry source : Option Nat) (s : State) : Ans :=
  .next (takeUp s src 0x45 none (fun s =>
    guardAll s
      [(match entry with
        | some i => decide (i < 32) && !histWritten s i
        | none => false, .notFound),
       ((match entry with
         | some i => decide (32 ≤ i)
         | none => false) ||
        (match source with
         | some n => !Src.used n
         | none => false), .badArg)]
      (let s := match entry with
         | some i => ackEntry s i
         | none => (upto 0 32).foldl ackEntry s
       done (match source with
         | some n => clearPending s n
         | none => s))))

/-! The registers (Tables 13-7 to 13-11) -/

def thStatus (s : State) : Nat :=
  b2n s.th.safe + 2 * s.th.safeSource + 2 ^ 11 * b2n s.th.safeFence + 2 ^ 12 * b2n s.th.alert + 2 ^ 13 * b2n (histUnack s) +
    2 ^ 14 * (s.th.lowQ.length % 128) + 2 ^ 21 * (s.th.highQ.length % 2048)

/-- Word j of the record that TH_LOG_SEL names; a SEQ no longer held reads zero. -/
def logData (s : State) (j : Nat) : Nat :=
  match s.th.log.find? (fun r => r.seq == fld (regNat s Reg.thLogSel) 0 32) with
  | some r => leAt (recordBytes r) (8 * j) 8
  | none => 0

/-- The TH_ registers, by offset in the block. -/
def readThimble (s : State) (off : Nat) : Option Nat :=
  if off = 0x0000 then some (thStatus s)
  else if off = 0x0020 then some (s.th.nextSeq % 2 ^ 32)
  else if 0x30 ≤ off ∧ off ≤ 0x48 then some (logData s ((off - 0x30) / 8))
  else if off = 0x0008 ∨ off = 0x0028 ∨ off = 0x50 ∨ off = 0x58 ∨ off = 0x60 then some (regNat s (0x900000 + off))
  else if off = 0x0068 then some (ackBits s)
  else if 0x10000 ≤ off ∧ off < 0x18000 then
    let n := (off - 0x10000) / 0x20
    let r := off % 0x20
    if r = 0 then some (srcCfg s n)
    else if r = 8 then some (if Src.used n then thLive s n + 8 * Src.floor n else 0)
    else if r = 0x10 then some (regNat s (Reg.thSrcCount n))
    else some (b2n (Tab.get false s.th.pending n) + 2 ^ 32 * Tab.get 0 s.th.lastSeq n)
  else none

end Sys2Proof.Machine
end

