-- ==== Sys2Proof/Machine/Power.lean ====
section
/-! DEFINITION. Power, clocks, Stop and wake (chapter 14), the device resets, boot (R407 to R409), the keep check (R419), the
time base's rebuild (R387), and the CK_ and PW_ registers. -/

namespace Sys2Proof.Machine

def setPw (s : State) (f : PwState → PwState) : State := { s with pw := f s.pw }

/-! Domains (R373 to R376) -/

/-- PW_DOM_KEEP of a domain. -/
def domKept (s : State) (d : Nat) : Bool := bit (keepNat s (Keep.domKeep + d / 64)) (d % 64)

/-- The host port whose controller or quad a domain is, in the numbering of Table 14-3. -/
def domPort (d : Nat) : Option Nat := if d < 8 then some d else if d < 24 then some ((d - 8) / 2) else none

/-- The port with which a domain switches: the quads of an upper merged port serve the lower one (R260). -/
def switchPort (s : State) (d : Nat) : Option Nat :=
  (domPort d).map (fun p => if 8 ≤ d ∧ mergedUpper s p then p - 1 else p)

/-- The engine is in use: a program is loaded on it or a thread is not FREE (Table 14-3). -/
def engineUsed (s : State) (e : Nat) : Bool :=
  s.ne.programs.any (fun p => (Tab.find p.2.blocks e).isSome) || !(engThreads s e).isEmpty

/-- A kind of domain that DOMAIN_POWER may change in the present configuration. -/
def domSwitchable (s : State) (d : Nat) : Bool :=
  (domPort d).isSome || (decide (33 ≤ d ∧ d ≤ 37) && !s.sm.enable) || decide (38 ≤ d ∧ d ≤ 101) || (d == 148 && !s.sm.enable)

/-- DOMAIN_POWER may switch the domain now. -/
def domFree (s : State) (d : Nat) : Bool :=
  domSwitchable s d &&
    (match switchPort s d with
     | some p => mergedUpper s p || (!(port s p).link && (boundOn s p).isEmpty)
     | none => if 38 ≤ d ∧ d ≤ 101 then !engineUsed s (d - 38) else true)

/-- The domains that move with one: a port's controller and quads together; an upper merged port's controller alone. -/
def domGroup (s : State) (d : Nat) : List Nat :=
  match switchPort s d with
  | some p => if mergedUpper s p then [p] else portDomains s p
  | none => [d]

/-- A lane's registers as its quad's domain leaves them. -/
def resetLane (s : State) (l : Nat) : State :=
  regSet (setSerialLane s l { eq := (serialLane s l).eq }) (Reg.lnLockLosses l) 0

/-- First lane of a quad's domain (Table 15-1). -/
def quadOf (d : Nat) : Option Nat :=
  if 8 ≤ d ∧ d < 24 then some (d - 8) else if 24 ≤ d ∧ d < 28 then some (d - 8) else if 33 ≤ d ∧ d < 37 then some (d - 13) else none

/-- DOMAIN_SWITCH_DONE: the switch is sensed complete; a waiting domain begins. -/
def execDomainSwitchDone (d : Nat) (s : State) : Ans :=
  let x := dom s d
  if x.timedOut then idle s
  else if x.st = .switchingOn then .next (domPump 8 (setDom s d { x with st := .on, clamped := false }))
  else if x.st = .switchingOff then
    let s := setDom s d { x with st := .off }
    match quadOf d with
    | none => .next s
    | some q =>
      let s := (upto (4 * q) 4).foldl resetLane s
      .next { s with ln := { s.ln with
        pll := BitVec.ofNat 24 (putBit s.ln.pll.toNat q false), rate := Tab.del s.ln.rate q, inEffect := Tab.del s.ln.inEffect q } }
  else idle s

/-- PW_DOMAIN_TIMEOUT: four times the maximum has passed; the domain stays in transition. -/
def execPwDomainTimeout (d : Nat) (s : State) : Ans :=
  let x := dom s d
  if domMoving s d ∧ !x.timedOut then
    let s := passTo s (x.since + us (if x.st = .switchingOn then 80 else 8))
    .next (raiseSrc (setDom s d { x with timedOut := true }) Src.pwDomainTimeout { object := 12, index := d })
  else idle s

/-- Set or clear PW_DOM_KEEP of a domain. -/
def keepDomain (s : State) (d : Nat) (off : Bool) : State :=
  let i := Keep.domKeep + d / 64
  keepWrite s i (BitVec.ofNat 64 (putBit (keepNat s i) (d % 64) off))

/-- The switch that a DOMAIN_POWER asks for has completed. -/
def pollDomain (s : State) (d : Nat) (on : Bool) : Done :=
  if (domGroup s d).all (fun k => (dom s k).st == (if on then DomMode.on else DomMode.off)) then done s else (s, none)

def doDomainPower (s : State) (d : Nat) (on : Bool) : Done :=
  let g := domGroup s d
  guardAll s
    [(decide (150 ≤ d), .badArg), (!domFree s d, .denied),
     (g.any (domMoving s) || s.pw.phase == .stopEntry || keepBusy s, .busy)]
    (let s := keepDomain s d (!on)
     let s := if on then switchOn s g else g.foldl switchOff s
     pollDomain s d on)

/-- DOMAIN_POWER: answers when the switch completes. -/
def cmdDomainPower (src d : Nat) (on : Bool) (s : State) : Ans :=
  .next (takeUp s src 0x47 (some (.domainPower d on)) (fun s => doDomainPower s d on))

/-! Power-up and device reset (R377, R378, R393, R419) -/

/-- A domain held off at a reset: PW_DOM_KEEP, where the domain is switchable in the configuration found. -/
def heldOff (s : State) (d : Nat) : Bool :=
  (domKept s d && domSwitchable s d) ||
    (match domPort d with
     | some p => mergedUpper s p && decide (d < 8)
     | none => false)

/-- The equalisation table is checked; a bad CRC or a COLD start gives every lane the default entry (R393). -/
def checkEq (s : State) : State :=
  let ok := crc32 (eqBytes s) == keepNat s Keep.eqCrc
  let s := { s with ln := { s.ln with eqDefault := !ok || decide (s.pw.cause = 0), eqValid := ok } }
  let s := (upto 0 96).foldl (fun s l => setSerialLane s l { serialLane s l with eq := eqEntry s l }) s
  if ok then s else raiseSrc s Src.lnEqTable {}

/-- FENCE_IN asserted at a reset ends in FENCED (R339). -/
def fenceAtReset (s : State) : State :=
  if s.sm.enable ∧ s.sm.fenceIn then
    let s := enterSafe (raiseSrc s Src.smFenceIn {}) Src.smFenceIn true
    setPair { s with th := { s.th with safeFence := true } } .fenced
  else s

/-- Power-up from t0: the keep registers' configuration is applied, the first domains switch on (Table 14-7), and the management
context's key is drawn (R115). -/
def powerUp (s : State) : State :=
  let s := { s with
    hp := { s.hp with merge := BitVec.ofNat 4 (keepNat s Keep.portMerge) }
    fn := { s.fn with mgrPorts := BitVec.ofNat 8 (keepNat s Keep.mgrPorts), bar2Log2 := keepNat s Keep.vfBar2 % 64 }
    et := { s.et with arrangement := keepNat s Keep.ethArrange % 4 }
    sm := { s.sm with enable := bit (keepNat s Keep.pair) 0, role := bit (keepNat s Keep.pair) 1 }
    pw := { s.pw with inStop := false, phase := .boot } }
  let s := switchOn s (([143, 144, 145, 146, 149] ++ upto 0 24 ++ [139, 140]).filter (fun d => !heldOff s d))
  let s := if s.mg.kpBad then raiseSrc s Src.kpCrc {} else s
  fenceAtReset (checkEq (fillKey s 256))

/-- The keep registers when their check fails: reset values, but for the history and the equalisation table, which are as
read from a rail that lost its contents: free values (R368, R419). -/
def lostKeep (s : State) : Table Word :=
  ([22] ++ upto 32 225).foldl (fun m i => Tab.set (Keep.reset i) m i (Config.freeWord (s.freeCtr + i))) []

/-- The state after a device reset (R8, R377): the island, the keep registers, the FENCE_OUT latch, the flash and the fuses
stay; pins keep their levels. -/
def afterReset (s : State) (cause : Nat) : State :=
  let bad := s.pw.keepLost
  let keep := Tab.set (Keep.reset Keep.resetCause) (if bad then lostKeep s else s.keep) Keep.resetCause (BitVec.ofNat 64 cause)
  let trip := s.pw.thermtrip && bit (freeWord s).toNat 0
  let ports := (Tab.keep (fun _ h => h.perst) s.hp.ports).map (fun e => (e.1, ({ perst := true } : HPort)))
  let pw : PwState :=
    { cause := cause, ldoLow := s.pw.ldoLow, brownout := cause == 5, wakeLive := s.pw.wakeLive, mainEn := s.pw.mainEn
      mainPg := s.pw.mainPg, vaon := s.pw.vaon, slowAcc := s.pw.slowAcc, slowValid := s.pw.slowValid && !bad
      slowRuns := s.pw.slowRuns, thermtrip := trip }
  let mg : MgState :=
    { floor := s.mg.floor, header0 := s.mg.header0, header1 := s.mg.header1, bankA := s.mg.bankA, bankB := s.mg.bankB, kpBad := bad }
  { State.reset with
    pending := s.pending, out := s.out, saves := s.saves, freeCtr := s.freeCtr + 512, keep := keep, pw := pw, mg := mg
    hp := { State.reset.hp with ports := ports }
    sm := { State.reset.sm with fenceOut := s.sm.fenceOut, fenceIn := s.sm.fenceIn } }

/-- A device reset; with the main supplies good the power-up follows at once. -/
def deviceReset (s : State) (cause : Nat) : State :=
  let s := afterReset s cause
  if s.pw.mainEn ∧ s.pw.mainPg then powerUp s else s

/-- MAIN_PG asserted after MAIN_EN: t0 of the power-up; after a loss of the rails, a reset with cause SUPPLY. -/
def execMainPg (s : State) : Ans :=
  if !s.pw.mainEn then idle s
  else if s.pw.supplyLost then .next (deviceReset (setPw s (fun p => { p with mainPg := true })) 1)
  else if s.pw.mainPg then idle s
  else .next (powerUp (setPw s (fun p => { p with mainPg := true, wakeDue := none })))

/-- DEV_RESET_N: a device reset with cause PIN; the pin is ignored in Stop. -/
def execDevResetN (s : State) : Ans := if s.pw.inStop then idle s else .next (deviceReset s 2)

/-- DEVICE_RESET: no response. -/
def cmdDeviceReset (src : Nat) (s : State) : Ans :=
  if takesUp s src ∧ !notReady s 0x51 ∧ !keepBusy s ∧ s.mg.flash.isNone then .next (deviceReset s 3)
  else .next (takeUp s src 0x51 none (fun s => refuse s .busy))

/-! Boot (R407 to R409) -/

/-- A boot header that the ROM keeps: MAGIC and CRC valid. -/
def headerOk (b : Bytes) : Bool :=
  decide (16 ≤ b.length) && leAt b 0 4 == 0x48424C43 && leAt b 12 4 == crc32 (b.take 12)

def headerSeq (b : Bytes) : Nat := leAt b 4 4

/-- The ACTIVE field of the header that the ROM takes: the higher SEQ modulo 2^32. True for bank B. -/
def activeBank (h0 h1 : Bytes) : Option Bool :=
  let b (h : Bytes) : Bool := bit (leAt h 8 1) 0
  match headerOk h0, headerOk h1 with
  | false, false => none
  | true, false => some (b h0)
  | false, true => some (b h1)
  | true, true => if (headerSeq h1 + 2 ^ 32 - headerSeq h0) % 2 ^ 32 < 2 ^ 31 then some (b h1) else some (b h0)

def pkgLength (b : Bytes) : Nat := leAt b 0x10 4
def pkgRollback (b : Bytes) : Nat := leAt b 0x14 1
def pkgFirmware (b : Bytes) : Nat := leAt b 8 8

/-- A piece of a package, of the offset and length in the header. -/
def pkgPart (b : Bytes) (o n : Nat) : Bytes := slice b (leAt b o 4) (leAt b n 4)
def pkgCode (b : Bytes) : Bytes := pkgPart b 0x18 0x1C
def pkgRom (b : Bytes) : Bytes := pkgPart b 0x20 0x24
def pkgKeys (b : Bytes) : Bytes := pkgPart b 0x28 0x2C

/-- MAGIC, the reserved fields and LENGTH. -/
def pkgHeaderOk (b : Bytes) : Bool :=
  leAt b 0 4 == 0x57464C43 && leAt b 6 2 == 0 && leAt b 0x15 3 == 0 && allZero (slice b 0x30 0xD0) &&
    decide (256 + 96 ≤ pkgLength b ∧ pkgLength b ≤ 2097152 ∧ pkgLength b ≤ b.length) && decide (pkgRollback b ≤ 64) &&
    decide (leAt b 0x1C 4 ≤ 262144 ∧ leAt b 0x24 4 ≤ 786432)

end Sys2Proof.Machine

namespace Sys2Proof.Config

/-- The package key whose SHA-384 hash is fused into the die (R408). -/
opaque fusedKey : List (BitVec 8)

end Sys2Proof.Config

namespace Sys2Proof.Machine

/-- The seal of a package. -/
def pkgSealOk (b : Bytes) : Bool := Config.sealVerifies Config.fusedKey (b.take (pkgLength b))

/-- Entries of the seal key block. -/
def keyEntries (b : Bytes) : List Bytes := (upto 0 ((pkgKeys b).length / 104)).map (fun i => slice (pkgKeys b) (104 * i) 104)

/-- The key block is whole: at most 16 entries, slots 0 to 15, reserved bytes zero. -/
def pkgKeysOk (b : Bytes) : Bool :=
  leAt b 0x2C 4 % 104 == 0 && decide (leAt b 0x2C 4 ≤ 1664) &&
    (keyEntries b).all (fun k => decide (leAt k 0 4 ≤ 15) && allZero (slice k 100 4))

/-- The ROM's check of a bank. -/
def bankOk (s : State) (b : Bytes) : Bool := pkgHeaderOk b && pkgSealOk b && decide (s.mg.floor ≤ pkgRollback b)

/-- The 32-bit words of a code image. -/
def codeImage (b : Bytes) : List (BitVec 32) := (codeWords (b.length / 4) b).map (BitVec.ofNat 32)

/-- A restart leaves the commands taken up and not answered with BUSY, DETAIL 1 (R406). -/
def cutOff (s : State) : State :=
  (upto 0 9).foldl (fun s src =>
    match (mbox s src).running with
    | some _ => answer s src (leAt (Mem.read (mbox s src).req 0 1) 0 1) { status := .busy, detail := 1 }
    | none => s) s

/-- The firmware of a package starts: code, seal keys, driver image, version, watchdog. -/
def startFirmware (s : State) (b : Bytes) (bank fell : Bool) : State :=
  let seals := (keyEntries b).foldl (fun m k => Tab.put m (leAt k 0 4) (slice k 4 96)) []
  let s := { s with
    mg := { s.mg with
      running := true, recovery := false, bank := bank, fellBack := fell, floor := max s.mg.floor (pkgRollback b)
      fw := BitVec.ofNat 64 (pkgFirmware b), seals := seals, wdtLeft := fld (regNat s Reg.mgWdt) 0 8 }
    ne := { s.ne with mgCode := codeImage (pkgCode b) }
    fn := { s.fn with rom := pkgRom b } }
  let th : Thread := { mode := .running, tag := mkTag mgt 1, scratchSize := 1048576 }
  let s := setThread s mgEngine th
  cutOff (if fell then raiseSrc s Src.mgFlash {} else s)

/-- BOOT: the ROM takes the newer header's bank, else the other one, else stays in recovery. -/
def execBoot (h0 h1 a b : Bytes) (s : State) : Ans :=
  if s.mg.running ∨ (dom s 144).st ≠ .on ∨ s.pw.inStop then idle s
  else
    let s := { s with mg := { s.mg with header0 := h0, header1 := h1, bankA := a, bankB := b } }
    match activeBank h0 h1 with
    | none => .next (cutOff { s with mg := { s.mg with recovery := true } })
    | some act =>
      let one := if act then b else a
      let two := if act then a else b
      if bankOk s one then .next (startFirmware s one act false)
      else if bankOk s two then .next (startFirmware s two (!act) true)
      else .next (cutOff { s with mg := { s.mg with recovery := true } })

/-- MG_WATCHDOG: the source is raised and the engine restarts from its boot ROM; the data plane runs on. -/
def execMgWatchdog (s : State) : Ans :=
  if s.mg.wdtLeft = 0 ∧ s.mg.running then
    .next (raiseSrc { setThread s mgEngine {} with mg := { s.mg with running := false, flash := none } } Src.mgWatchdog {})
  else idle s

/-! Clocks and time (R370 to R372, R386, R387, R420, R438) -/

/-- The domain of a PLL: PLL_F and PLL_M, PLL_E, PLL_S, PLL_P0 to PLL_P7; numbers 12 to 35 are the quads' transmit PLLs. -/
def pllDomain (k : Nat) : Nat :=
  if k < 2 then 146 else if k = 2 then 147 else if k = 3 then 148 else if k < 12 then k - 4
  else if k < 32 then k - 4 else k + 1

/-- PLL_LOCK: a PLL in a domain that is on; PLL_F and PLL_M wait for the firmware. -/
def execPllLock (k : Nat) (s : State) : Ans :=
  if 36 ≤ k ∨ (dom s (pllDomain k)).st ≠ .on ∨ (k < 2 ∧ !s.mg.running) then idle s
  else if k < 12 then .next (setPw s (fun p => { p with plls := BitVec.ofNat 12 (putBit p.plls.toNat k true) }))
  else .next { s with ln := { s.ln with pll := BitVec.ofNat 24 (putBit s.ln.pll.toNat (k - 12) true) } }

/-- Set the time base to a value in ns. -/
def setTime (s : State) (t : Nat) : State := { s with tb := { s.tb with acc := t % 2 ^ 64 * 8000000000000 } }

/-- The time base rebuilt at the clock switch (R387). -/
def rebuildTime (s : State) : State :=
  let pair := keepNat s Keep.timeSlow
  if s.pw.slowValid ∧ bit pair 63 then
    let el := (slowCount s - fld pair 0 48) * 1000000000 / 32768
    let s := setTime s (keepNat s Keep.timeNs + el)
    { s with tb := { s.tb with running := true, estimated := true, unknown := false, uncert := el * 50 / 1000000 + 31000 } }
  else
    let s := setTime s 0
    { s with tb := { s.tb with running := true, estimated := false, unknown := true, uncert := 0 } }

/-- CK_CLK_SEL: the first write of SOURCE = 1 switches FCLK and ACLK, starts the time base, and the remaining domains
switch on (R371, Table 14-7). -/
def execCkClkSel (w : Word) (s : State) : Ans :=
  if !bit w.toNat 0 ∨ s.pw.clkPll ∨ (dom s 146).st ≠ .on then idle s
  else
    let s := rebuildTime (setPw s (fun p => { p with clkPll := true }))
    let s := { s with et := { s.et with applied := true } }
    .next (switchOn s ((upto 0 150).filter (fun d => !heldOff s d)))

/-- CK_PLL_UNLOCK: a PLL that was locked loses lock; in Run the source is raised. -/
def execCkPllUnlock (k : Nat) (s : State) : Ans :=
  if 12 ≤ k ∨ !bit s.pw.plls.toNat k then idle s
  else
    let s := count (setPw s (fun p => { p with plls := BitVec.ofNat 12 (putBit p.plls.toNat k false) })) Reg.ckUnlocks
    .next (if s.pw.phase = .boot then s else raiseSrc s Src.ckPllUnlock {})

/-- CK_FREQ: a monitored clock is out of range. -/
def execCkFreq (k : Nat) (s : State) : Ans :=
  if 8 ≤ k ∨ s.pw.inStop then idle s
  else .next (raiseSrc (setPw s (fun p => { p with freqMon := BitVec.ofNat 8 (putBit p.freqMon.toNat k true) })) Src.ckFreq {})

/-- PW_SUPPLY_UV: a rail below its threshold, or MAIN_PG falling; disarmed from the point of no return (R442). -/
def execPwSupplyUv (r : Rail) (s : State) : Ans :=
  if s.pw.inStop ∨ !s.pw.mainEn ∨ !s.pw.mainPg then idle s
  else
    .next (raiseSrc (setPw s (fun p => { p with supplyLost := true, mainPg := p.mainPg && r != .mainPg })) Src.pwSupplyUv {})

/-- PW_OVERTEMP. -/
def execPwOvertemp (s : State) : Ans := if s.pw.inStop then idle s else .next (raiseSrc s Src.pwOvertemp {})

/-- THERMTRIP_N is asserted by the island's own sensor, and raises no source (R447). -/
def execThermtripN (s : State) : Ans := .next (setPw s (fun p => { p with thermtrip := true }))

/-- CRYSTAL_STOP: KP_SLOW.VALID clears and the slow counter stops (R438). -/
def execCrystalStop (s : State) : Ans := .next (setPw s (fun p => { p with slowValid := false, slowRuns := false }))

/-- HOLDOVER: three seconds without a usable Sync. -/
def execHoldover (s : State) : Ans :=
  if s.tb.ptp ∧ s.tb.running ∧ !s.tb.holdover then
    let s := passTo s (s.tb.lastSync + ms 3000)
    .next (raiseSrc { s with tb := { s.tb with holdover := true, locked := false, goodSyncs := 0 } } Src.tbUnlock {})
  else idle s

/-- The time pair goes to the keep registers in one island cycle (R386). -/
def writeTimePair (s : State) : State :=
  let s := keepSet s Keep.timeNs (BitVec.ofNat 64 (timeNs s))
  let s := keepSet s Keep.timeSlow (BitVec.ofNat 64 (slowCount s + 2 ^ 63 * b2n s.pw.slowRuns))
  setPw s (fun p => { p with slowValid := p.slowRuns })

/-! Memory at power-up -/

/-- HBM_TRAINED. -/
def execHbmTrained (k repaired : Nat) (s : State) : Ans :=
  if 8 ≤ k ∨ (dom s (102 + k)).st ≠ .on ∨ (dom s (110 + k)).st ≠ .on ∨ (dom s (118 + k)).st ≠ .on then idle s
  else .next (setStk s k { stk s k with trained := true, repaired := repaired % 64 })

/-- MC_TRAIN_FAIL: a stack whose controller is on (R374). -/
def execMcTrainFail (k : Nat) (s : State) : Ans :=
  if 8 ≤ k ∨ (dom s (102 + k)).st ≠ .on then idle s
  else .next (raiseSrc (setStk s k { stk s k with trained := false }) Src.mcTrainFail { object := 10, index := 16 * k })

/-- MC_HOT: a stack's temperature crosses its refresh-doubling threshold (R123). MC_STK_STATUS shows the temperature of the last
crossing, and 0 before the first (DESIGN CHOICE, log entry 27). -/
def execMcHot (k : Nat) (above : Bool) (t : Nat) (s : State) : Ans :=
  if 8 ≤ k ∨ (stk s k).hot = above ∨ (dom s (102 + k)).st ≠ .on then idle s
  else
    let s := setStk s k { stk s k with hot := above, temp := t % 256 }
    .next (if above then raiseSrc s Src.mcHot { object := 10, index := 16 * k } else s)

/-- The four management-context granules that hold the ROM copies (R291). -/
def assignRom : Nat → State → State
  | 0, s => s
  | n + 1, s =>
    match lowestFree s (bestStack s) with
    | none => s
    | some g =>
      let s := assignGranule s mgt (assignIndex s mgt none) g false
      assignRom n { s with fn := { s.fn with romGran := s.fn.romGran ++ [g] } }

/-- One port's ROM image goes to its place in the copies. -/
def copyRom (s : State) (p : Nat) : State :=
  poolWrite s (s.fn.romGran.getD (p / 2) 0 * granuleBytes + 1048576 * (p % 2)) (romBytes s p 0 1048576) false

/-- ZERO_FILL_COMPLETE: every granule is FREE, the ROM copies are made, PHASE is RUN (Table 14-7). -/
def execZeroFillComplete (s : State) : Ans :=
  if s.pw.zeroFilled ∨ !s.mg.running ∨ !s.pw.clkPll ∨ !((upto 0 8).all (fun k => (stk s k).trained)) then idle s
  else
    let s := { s with mp := { s.mp with pool := [], poison := [], written := [], granules := [], lists := [] } }
    let s := (upto 0 8).foldl copyRom (assignRom 4 s)
    .next (setPw s (fun p => { p with zeroFilled := true, phase := .run }))

/-! Stop entry (R379 to R383) -/

/-- The first refuser of Table 14-8, with its index. -/
def stopRefuser (s : State) (mask : BitVec 8) : Option (Nat × Nat) :=
  if histUnack s then some (1, 0)
  else if s.th.safe then some (1, 1)
  else
    match firstUpto (domMoving s) 0 150 with
    | some d => some (2, d)
    | none =>
      if s.mg.flash.isSome then some (3, 0)
      else if s.sm.mode = .joining ∨ s.sm.mode = .inSync then some (4, pairCode s.sm.mode)
      else
        let busy (c : Nat) : Bool := (chan s c).st == .active || (chan s c).st == .pausing || (chan s c).st == .stopping
        match (s.sh.chans.map (fun e => e.1)).find? busy with
        | some c => some (5, c)
        | none => (firstUpto (fun p => (port s p).link && !bit mask.toNat p) 0 8).map (fun p => (6, p))

/-- Add one to a counter of n bits at a bit of a keep word, saturating. -/
def keepCount (s : State) (i lo n : Nat) : State :=
  let w := keepNat s i
  if fld w lo n + 1 < 2 ^ n then keepSet s i (BitVec.ofNat 64 (w + 2 ^ lo)) else s

/-- BY of a refuser code. -/
def keepBy (s : State) (code : Nat) : State :=
  if code ≤ 4 then keepCount s Keep.stopBy0 (16 * (code - 1)) 16 else keepCount s Keep.stopBy1 (16 * (code - 5)) 16

/-- KP_STOP_LAST (Table 14-10). -/
def stopLast (s : State) (outcome code point index : Nat) : State :=
  keepSet s Keep.stopLast (BitVec.ofNat 64 (outcome + 2 ^ 3 * code + 2 ^ 7 * point + 2 ^ 9 * (index % 2 ^ 16) +
    2 ^ 25 * (slowCount s % 2 ^ 39)))

/-- DETAIL of a refused or abandoned entry: code, abort point and index, placed as in KP_STOP_LAST (log entry 41). -/
def stopDetail (code point index : Nat) : Word := BitVec.ofNat 64 (2 ^ 3 * code + 2 ^ 7 * point + 2 ^ 9 * (index % 2 ^ 16))

def doStopEnter (s : State) (src : Nat) (mask : BitVec 8) (seam : Nat) : Done :=
  if s.pw.phase = .stopEntry then refuse s .inProgress
  else if !bit (keepNat s Keep.wake) 12 ∨ seam ≠ 255 then refuse s .badArg
  else
    match stopRefuser s mask with
    | some (code, i) =>
      (stopLast (keepBy (keepCount s Keep.stopRefusals 0 32) code) 2 code 0 i,
        some { status := .denied, detail := stopDetail code 0 i })
    | none => (setPw s (fun p => { p with phase := .stopEntry, stop := some { src := src, mask := mask, points := 0 } }), none)

/-- STOP_ENTER: the refusal poll; an entry that succeeds sends no response. -/
def cmdStopEnter (src : Nat) (mask : BitVec 8) (seam : Nat) (s : State) : Ans :=
  .next (takeUp s src 0x46 (some .stopEnter) (fun s => doStopEnter s src mask seam))

/-- An entry is abandoned: clamps released, the fabric resumes, the counters rise; STOP_ENTER answers at the next tick. -/
def abandonStop (s : State) (e : StopEntry) (code point index : Nat) : State :=
  let s := e.ports.foldl (fun s p => setPort s p { port s p with link := true }) s
  let s := setPw s (fun p => { p with
    phase := .run, stop := none, stopAnswer := some (e.src, stopDetail code point index)
    domains := Tab.mapAll (fun _ d => if d.st = .on then { d with clamped := false } else d) p.domains })
  stopLast (keepBy (keepCount s Keep.stopAborts 0 32) code) 3 code point index

/-- Step 2: the fabric is quiesced; permitted ports go to electrical idle, whose hosts see a link down. -/
def quiesceFabric (s : State) (e : StopEntry) : State :=
  let ps := (upto 0 8).filter (fun p => (port s p).link && bit e.mask.toNat p)
  let s := ps.foldl (fun s p => setPort s p { port s p with link := false }) s
  setPw s (fun p => { p with stop := some { e with points := 1, ports := ps } })

/-- Steps 3 and 4: the keep write, then every domain clamped. -/
def clampAll (s : State) (e : StopEntry) : State :=
  let s := stopLast (writeTimePair s) 1 0 0 0
  setPw s (fun p => { p with
    stop := some { e with points := 2 }, domains := Tab.mapAll (fun _ d => { d with clamped := true }) p.domains })

/-- ABORT_POINT: the comparator, and from quiesce onward safe state, abandon the entry; else the next step is taken. -/
def execAbortPoint (n : Nat) (s : State) : Ans :=
  match s.pw.stop with
  | none => idle s
  | some e =>
    if n ≠ e.points ∨ 3 ≤ n then idle s
    else if s.pw.wakeLive then .next (abandonStop s e 7 n n)
    else if s.th.safe ∧ 1 ≤ n then .next (abandonStop s e 1 n 1)
    else if n = 0 then .next (quiesceFabric s e)
    else if n = 1 then .next (clampAll s e)
    else .next (setPw s (fun p => { p with stop := some { e with points := 3 } }))

/-- The island asserts MAIN_EN and waits for MAIN_PG (R385). -/
def startWake (s : State) (cause : Nat) : State :=
  let s := keepSet s Keep.resetCause (BitVec.ofNat 64 cause)
  setPw s (fun p => { p with
    ldoLow := false, mainEn := true, cause := cause
    wakeDue := some (s.now + ms (fld (keepNat s Keep.wakeWait) 0 10)) })

/-- The comparator's wake state may start a wake: it works only from VAON, and as a source only with ENABLE. -/
def wakeArmed (s : State) : Bool := s.pw.vaon && bit (keepNat s Keep.wake) 12

/-- POINT_OF_NO_RETURN: every domain off, MAIN_EN deasserted, the LDO in low-power mode; a comparator already in its wake
state starts the wake at once (R382). -/
def execPointOfNoReturn (s : State) : Ans :=
  match s.pw.stop with
  | none => idle s
  | some e =>
    if e.points ≠ 3 then idle s
    else
      let s := keepCount s Keep.stopEntries 0 32
      let s := afterReset (setPw s (fun p => { p with mainEn := false, mainPg := false, ldoLow := true })) s.pw.cause
      let s := setPw s (fun p => { p with inStop := true })
      .next (if s.pw.wakeLive && wakeArmed s then startWake s 4 else s)

/-- WAKE_SENSE: LIVE in Run; in Stop a crossing into the wake state starts the wake. -/
def execWakeSense (on : Bool) (s : State) : Ans :=
  if !s.pw.vaon then idle s
  else
    let rose := on && !s.pw.wakeLive
    let s := setPw s (fun p => { p with wakeLive := on })
    .next (if rose && s.pw.inStop && !s.pw.mainEn && wakeArmed s then startWake s 4 else s)

/-- WAKE_WAIT_TIMEOUT: MAIN_PG is absent; the island waits for the next crossing. -/
def execWakeWaitTimeout (s : State) : Ans :=
  match s.pw.wakeDue with
  | none => idle s
  | some t =>
    if s.pw.mainPg then idle s
    else .next (stopLast (setPw (passTo s t) (fun p => { p with mainEn := false, wakeDue := none })) 4 0 0 0)

/-- BROWNOUT: the island's logic is reset and a wake starts, with cause BROWNOUT (R368). -/
def execBrownout (lost : Bool) (s : State) : Ans :=
  let s := setPw s (fun p => { p with keepLost := lost })
  let up := s.pw.mainPg
  let s := setPw (afterReset s 5) (fun p => { p with inStop := !up })
  .next (if up then powerUp (setPw s (fun p => { p with mainEn := true, ldoLow := false })) else startWake s 5)

/-- VAON: between VAON and VBAT. Whether VBAT held the retention rail while VAON was gone is the board's: a free value
says whether the first application after both were lost is a COLD start (log entry 42). -/
def execVaon (above : Bool) (s : State) : Ans :=
  if above = s.pw.vaon then idle s
  else if above ∧ bit (freeWord s).toNat 0 then
    .next (useFree { State.reset with
      pending := s.pending, out := s.out, saves := s.saves, freeCtr := s.freeCtr
      mg := { State.reset.mg with
        floor := s.mg.floor, header0 := s.mg.header0, header1 := s.mg.header1, bankA := s.mg.bankA, bankB := s.mg.bankB } })
  else .next (setPw (if above then useFree s else s) (fun p => { p with vaon := above }))

/-- WAKE_SET: KP_WAKE and KP_WAKE_WAIT, which the comparator uses at once. -/
def cmdWakeSet (src threshold hyst polarity debounce : Nat) (enable : Bool) (wait : Nat) (s : State) : Ans :=
  .next (takeUp s src 0x48 none (fun s =>
    guardAll s
      [(decide (63 < threshold ∨ 1 < hyst ∨ 1 < polarity ∨ 15 < debounce ∨ wait = 0 ∨ 1000 < wait), .badArg),
       (keepBusy s, .busy)]
      (let w := threshold + 2 ^ 6 * hyst + 2 ^ 7 * polarity + 2 ^ 8 * debounce + 2 ^ 12 * b2n enable
       done (keepWrite (keepWrite s Keep.wake (BitVec.ofNat 64 w)) Keep.wakeWait (BitVec.ofNat 64 wait)))))

/-- STOP_STATS_CLEAR: the fields of Table 14-10 are zeroed. -/
def cmdStopStatsClear (src : Nat) (s : State) : Ans :=
  .next (takeUp s src 0x49 none (fun s =>
    guardAll s [(keepBusy s, .busy)] (done ((upto Keep.stopEntries 6).foldl (fun s i => keepWrite s i 0) s))))

/-! The registers (Tables 14-14, 14-15) -/

def phaseCode : Phase → Nat
  | .boot => 0
  | .run => 1
  | .stopEntry => 2

def stopStep (s : State) : Nat :=
  match s.pw.stop with
  | none => 0
  | some e => if e.points = 0 then 1 else if e.points = 1 then 2 else if e.points = 2 then 4 else 5

def domCode : DomMode → Nat
  | .off => 0
  | .on => 1
  | .switchingOn => 2
  | .switchingOff => 3

/-- The island's load in units of 10 µA is a measurement: a free value. -/
def islandLoad (s : State) : Nat := fld (freeWord s).toNat 0 12

def domStatus (s : State) (d : Nat) : Nat :=
  domCode (dom s d).st + 4 * b2n (dom s d).clamped + 8 * b2n (domFree s d) + 16 * b2n (domKept s d) + 32 * b2n (dom s d).timedOut

/-- The PW_ registers. -/
def readPower (s : State) (off : Nat) : Option Nat :=
  if off = 0 then
    some (phaseCode s.pw.phase + 4 * stopStep s + 2 ^ 5 * s.pw.cause + 2 ^ 9 * (domsOn s % 256))
  else if off = 8 then some (b2n s.pw.wakeLive + 2 * b2n (bit (keepNat s Keep.wake) 12))
  else if off = 0x10 then some (b2n s.pw.ldoLow + 2 * islandLoad s + 2 ^ 13 * b2n s.pw.brownout)
  else if 0x100 ≤ off ∧ off < 0x100 + 8 * 150 then some (domStatus s ((off - 0x100) / 8))
  else none

/-- The CK_ registers. -/
def readClocks (s : State) (off : Nat) : Option Nat :=
  if off = 0 then some (b2n s.pw.clkPll)
  else if off = 8 then some s.pw.plls.toNat
  else if off = 0x10 then some s.pw.freqMon.toNat
  else if off = 0x18 then some (regNat s Reg.ckUnlocks)
  else none

end Sys2Proof.Machine
end

