-- ==== Sys2Proof/Machine/Lanes.lean ====
section
/-! DEFINITION. Serial lanes (chapter 15): the equalisation table, lanes taken for test, loopbacks, PRBS, sleep, and the LN_
registers. -/

namespace Sys2Proof.Machine

/-! The equalisation table (R392 to R395) -/

/-- A signed byte of an entry. -/
def eqSigned (e : EqEntry) (i : Nat) : Int := signed (fld e.toNat (8 * i) 8) 8

/-- Every field in its range (Table 15-2), the sum of R393, the reserved bits zero. -/
def eqEntryOk (e : EqEntry) : Bool :=
  let main := fld e.toNat 16 8
  decide (-8 ≤ eqSigned e 0 ∧ eqSigned e 0 ≤ 0) && decide (-24 ≤ eqSigned e 1 ∧ eqSigned e 1 ≤ 0) &&
    decide (24 ≤ main ∧ main ≤ 63) && decide (-24 ≤ eqSigned e 3 ∧ eqSigned e 3 ≤ 0) &&
    decide ((main : Int) - eqSigned e 0 - eqSigned e 1 - eqSigned e 3 = 63) &&
    fld e.toNat 37 3 == 0 && fld e.toNat 46 2 == 0 && decide (-32 ≤ eqSigned e 6 ∧ eqSigned e 6 ≤ 31) && fld e.toNat 60 4 == 0

/-- The entries from a lane on, each in its keep word. -/
def writeEq : List EqEntry → Nat → State → State
  | [], _, s => s
  | e :: t, l, s =>
    let s := keepWrite s (Keep.eq + l) e
    writeEq t (l + 1) { s with ln := { s.ln with eqNew := l :: s.ln.eqNew.filter (· != l) } }

/-- LANE_EQ_WRITE: the entries and KP_EQ_CRC; a lane uses its new entry from its next training (R394). -/
def cmdLaneEqWrite (src first : Nat) (l : List EqEntry) (s : State) : Ans :=
  .next (takeUp s src 0x4A none (fun s =>
    guardAll s
      [(decide (95 < first ∨ l.length = 0 ∨ 96 < first + l.length) || l.any (fun e => !eqEntryOk e), .badArg), (keepBusy s, .busy)]
      (let s := writeEq l first s
       done (keepWrite s Keep.eqCrc (BitVec.ofNat 64 (crc32 (eqBytes s)))))))

/-! Where a lane belongs (Table 15-1) -/

/-- The domain of a quad (Table 14-3). -/
def quadDomain (q : Nat) : Nat := if q < 20 then 8 + q else 13 + q

/-- The lane's quad is powered. -/
def lanePowered (s : State) (l : Nat) : Bool := decide (l < 96) && (dom s (quadDomain (l / 4))).st == .on

/-- The host port that a PCI Express lane serves: the lower one of a merged pair. -/
def lanePort (s : State) (l : Nat) : Nat := if mergedUpper s (l / 8) then l / 8 - 1 else l / 8

/-- The lanes of the port or link that a lane belongs to: the first and how many. -/
def laneGroup (s : State) (l : Nat) : Nat × Nat :=
  if l < 64 then (8 * lanePort s l, portWidth s (lanePort s l))
  else if l < 80 then portLanes s ((l - 64) / (portLanes s 0).2)
  else (seamLane, 16)

/-- A connection of a logical port that is in use (Table 15-6). -/
def connOn (s : State) (n : Nat) : Bool :=
  s.wt.conns.any (fun e => e.2.port == n && (e.2.st == .connecting || e.2.st == .opened || e.2.st == .closing))

/-- The conditions of Table 15-6 for OWNER = 1. -/
def testAllowed (s : State) (l : Nat) : Bool :=
  if l < 64 then !(port s (lanePort s l)).link && (boundOn s (lanePort s l)).isEmpty
  else if l < 80 then !connOn s ((l - 64) / (portLanes s 0).2)
  else !s.sm.enable || s.sm.mode == .solo || s.sm.mode == .promoted || s.sm.mode == .fenced

/-! Rates -/

/-- The four lanes of the quad are all in test. -/
def quadTest (s : State) (q : Nat) : Bool := (upto (4 * q) 4).all (fun l => (serialLane s l).test)

/-- The rate at which the quad's protocol runs it, coded as TEST_RATE: its first rate while the link is down (R396). -/
def protocolRate (s : State) (q : Nat) : Nat :=
  if q < 16 then (let h := port s (lanePort s (4 * q))
                  if h.link then h.speed else 1)
  else if q < 20 then 1
  else if s.sm.linkUp then s.sm.step else 1

/-- The rate in effect. -/
def quadRate (s : State) (q : Nat) : Nat :=
  if quadTest s q then Tab.get (protocolRate s q) s.ln.inEffect q else protocolRate s q

/-- Quarters of a Gb/s of a rate (R391, Table 12-2). -/
def rateQuarters (q r : Nat) : Nat :=
  if q < 16 then [0, 10, 20, 32, 64, 128, 256].getD r 0
  else if q < 20 then 425
  else [0, 112, 224, 448].getD r 0

/-- LN_PRBS_BITS: the checker compares every bit of the rate in effect while it counts. -/
def prbsBits (s : State) (l : Nat) : Nat :=
  let x := serialLane s l
  match x.since with
  | none => x.bits
  | some t => x.bits + (s.now - t) * rateQuarters (l / 4) (quadRate s (l / 4)) / 32

/-- The bits compared so far are added up; counting goes on when `on`. -/
def settleBits (s : State) (l : Nat) (on : Bool) : State :=
  setSerialLane s l { serialLane s l with bits := prbsBits s l, since := if on then some s.now else none }

/-- A change of a quad's rate: the lanes that count are brought up to it first. -/
def withRate (s : State) (q : Nat) (f : State → State) : State :=
  f ((upto (4 * q) 4).foldl (fun s l => if (serialLane s l).since.isSome then settleBits s l true else s) s)

/-- A quad that has just become all test runs at TEST_RATE; 0 keeps the rate it had. One that is no longer all test forgets it. -/
def retuneQuad (q was : Nat) (s : State) : State :=
  let r := Tab.get 0 s.ln.rate q
  { s with ln := { s.ln with
    inEffect := if quadTest s q then Tab.put s.ln.inEffect q (if r = 0 then was else r) else Tab.del s.ln.inEffect q } }

/-! Sleep of each direction (R401) -/

/-- A PCI Express lane that its protocol puts to sleep: L1, an L0p width, or beyond the trained width (R401). -/
def pcieAsleep (s : State) (l : Nat) : Bool :=
  let p := lanePort s l
  let h := port s p
  let k := if h.reversed then portWidth s p - 1 - (l - 8 * p) else l - 8 * p
  h.link && (h.l1 || decide (h.l0pWidth ≤ k) || decide (h.width ≤ k))

/-- The lane is not connected on the board. -/
def laneUnused (s : State) (l : Nat) : Bool := bit (serialLane s l).eq.toNat 56

def txAsleep (s : State) (l : Nat) : Bool :=
  laneUnused s l || (if (serialLane s l).test then (serialLane s l).txSleep else decide (l < 64) && pcieAsleep s l)

def rxAsleep (s : State) (l : Nat) : Bool :=
  laneUnused s l || (if (serialLane s l).test then (serialLane s l).rxSleep else decide (l < 64) && pcieAsleep s l)

/-! Taking a lane for test (R398, R399, R401) -/

def laneRefused (s : State) : State := count s Reg.lnCtrlRefused

/-- A lane's loopback, sleep, PRBS and slip settings return to their reset values. -/
def laneDefaults (s : State) (l : Nat) : State :=
  let x := serialLane s l
  setSerialLane s l { x with
    loop := 0, txSleep := false, rxSleep := false, pattern := 0, gen := false, check := false, invert := false, prbsLock := false
    since := none, bits := prbsBits s l, slips := 0 }

/-- Store the fields of LN_LANE_CTRL. -/
def laneFields (s : State) (l : Nat) (w : Nat) : State :=
  setSerialLane s l { serialLane s l with test := bit w 0, loop := fld w 1 2, txSleep := bit w 3, rxSleep := bit w 4 }

/-- The checker of a lane hears nothing: its receiver sleeps, and it is not in parallel loopback. -/
def laneDeaf (s : State) (l : Nat) : Bool := rxAsleep s l && (serialLane s l).loop != 2

/-- A checker that hears nothing stops counting, and is no longer locked (DEDUCED, log entry 30). -/
def dropDeaf (s : State) (l : Nat) : State :=
  if laneDeaf s l then
    let s := settleBits s l false
    setSerialLane s l { serialLane s l with prbsLock := false }
  else s

/-- A lane under test is absent for its protocol: an Ethernet port, the Seam link goes down (R398). -/
def absentLane (s : State) (l : Nat) : State :=
  if l < 64 then s
  else if l < 80 then
    let n := (l - 64) / (portLanes s 0).2
    if (etPort s n).link then linkChange s n false else s
  else if s.sm.linkUp ∨ 0 < s.sm.trying then seamDown s
  else s

/-- LN_LANE_CTRL: a write of OWNER = 1 is accepted under Table 15-6; without OWNER = 1 the other fields are ignored. When the
last test lane of a port or link returns, the settings of its lanes go back to reset. -/
def execLnLaneCtrl (l : Nat) (v : Word) (s : State) : Ans :=
  let w := v.toNat
  if 96 ≤ l then idle s
  else if !lanePowered s l then .next (laneRefused s)
  else
    let x := serialLane s l
    let q := l / 4
    let was := quadRate s q
    let g := laneGroup s l
    if bit w 0 then
      if !x.test ∧ !testAllowed s l then .next (laneRefused s)
      else
        let s := if x.test then s else absentLane s l
        .next (dropDeaf (withRate s q (fun s => retuneQuad q was (laneFields s l w))) l)
    else if x.test then
      let s := withRate s q (fun s => retuneQuad q was (laneFields s l w))
      .next (if anyTest s g.1 g.2 then s else (upto g.1 g.2).foldl laneDefaults s)
    else .next (if fld w 1 4 = 0 then s else laneRefused s)

/-- The word boundary positions of a lane: 40 at NRZ, 20 at PAM4 (R397). -/
def slipModulus (s : State) (l : Nat) : Nat :=
  let r := quadRate s (l / 4)
  if l < 64 then (if r = 6 then 20 else 40) else if l < 80 then 20 else if r = 1 then 40 else 20

/-- LN_SLIP: the word boundary of a test lane moves by 1 to 39 unit intervals. -/
def execLnSlip (l : Nat) (v : Word) (s : State) : Ans :=
  let n := fld v.toNat 0 6
  if 96 ≤ l then idle s
  else if !lanePowered s l ∨ !(serialLane s l).test then .next (laneRefused s)
  else if n = 0 ∨ 39 < n then .next s
  else .next (setSerialLane s l { serialLane s l with slips := ((serialLane s l).slips + n) % slipModulus s l })

/-! PRBS (R400) -/

/-- LN_PRBS_CFG: pattern, generator, checker and inversion. A checker that is switched off counts no more. -/
def prbsFields (s : State) (l w : Nat) : State :=
  let x := serialLane s l
  let s := if bit w 3 then s else settleBits s l false
  setSerialLane s l { serialLane s l with
    pattern := fld w 0 2, gen := bit w 2, check := bit w 3, invert := bit w 4, prbsLock := x.prbsLock && bit w 3 }

/-- CLEAR zeroes both counters. -/
def clearPrbs (s : State) (l : Nat) : State :=
  setSerialLane s l { serialLane s l with bits := 0, errs := 0, since := (serialLane s l).since.map (fun _ => s.now) }

/-- INJECT inverts one transmitted bit, which the checker at the end of the path counts. With no loopback of its own the path ends
here only where the partner sends the bit back, which is free. In far-end loopback the generator is disconnected. -/
def injectBit (s : State) (l : Nat) : State :=
  let x := serialLane s l
  if x.gen && x.check && x.prbsLock then
    if x.loop = 0 then useFree (setSerialLane s l { x with errs := x.errs + fld (freeWord s).toNat 0 1 })
    else if x.loop = 3 then s
    else setSerialLane s l { x with errs := x.errs + 1 }
  else s

/-- A write of LN_PRBS_CFG. -/
def writePrbs (s : State) (l w : Nat) : State :=
  if !lanePowered s l || !(serialLane s l).test then laneRefused s
  else
    let s := prbsFields s l w
    let s := if bit w 5 then clearPrbs s l else s
    if bit w 6 then injectBit s l else s

/-- CLEAR: a write of 1 to LN_PRBS_CFG.CLEAR. -/
def execClear (l : Nat) (s : State) : Ans :=
  if 96 ≤ l then idle s
  else .next (if !lanePowered s l || !(serialLane s l).test then laneRefused s else clearPrbs s l)

/-- INJECT: a write of 1 to LN_PRBS_CFG.INJECT. -/
def execInject (l : Nat) (s : State) : Ans :=
  if 96 ≤ l then idle s
  else .next (if !lanePowered s l || !(serialLane s l).test then laneRefused s else injectBit s l)

/-- The checker of the lane can lock: it runs and hears; the serial and far-end loopbacks need the transmitter awake too (Table 15-7). -/
def mayLock (s : State) (l : Nat) : Bool :=
  let x := serialLane s l
  lanePowered s l && x.test && x.check && !x.prbsLock && !laneDeaf s l && (x.loop == 0 || x.loop == 2 || !txAsleep s l)

/-- PRBS_LOCK: after 1,024 correct bits the checker counts from zero. -/
def execPrbsLock (l : Nat) (s : State) : Ans :=
  if mayLock s l then
    .next (setSerialLane s l { serialLane s l with
      prbsLock := true, rxLock := (serialLane s l).rxLock || (serialLane s l).loop != 2, bits := 0, errs := 0, since := some s.now })
  else idle s

/-- PRBS_LOCK_LOSS: 64 errors within 1,024 bits; the checker stops counting and reseeds. -/
def execPrbsLockLoss (l : Nat) (s : State) : Ans :=
  if (serialLane s l).prbsLock then
    let s := settleBits s l false
    .next (count (setSerialLane s l { serialLane s l with prbsLock := false, errs := (serialLane s l).errs + 64 }) (Reg.lnLockLosses l))
  else idle s

/-- The lane's protocol uses it. -/
def laneUsed (s : State) (l : Nat) : Bool :=
  if l < 64 then (port s (lanePort s l)).link
  else if l < 80 then (etPort s ((l - 64) / (portLanes s 0).2)).link
  else s.sm.linkUp

/-- LN_LOCK_LOST: a protocol lane in use loses its receive lock (R402). -/
def execLnLockLost (l : Nat) (s : State) : Ans :=
  if 96 ≤ l ∨ (serialLane s l).test ∨ !(serialLane s l).rxLock ∨ !laneUsed s l then idle s
  else
    let s := count (setSerialLane s l { serialLane s l with rxLock := false }) (Reg.lnLockLosses l)
    .next (raiseSrc s Src.lnLockLost { object := 9, index := l })

/-! The registers (Tables 15-9 to 15-12) -/

/-- RX_INVERTED: by detection, or by the table for Ethernet and in test. -/
def laneInverted (s : State) (l : Nat) : Bool :=
  let x := serialLane s l
  if x.test || (decide (64 ≤ l) && decide (l < 80)) then bit x.eq.toNat 59 else x.rxInverted

def laneStatus (s : State) (l : Nat) : Nat :=
  let x := serialLane s l
  1 + 2 * b2n (x.rxLock && !rxAsleep s l) + 4 * b2n x.prbsLock + 8 * b2n (txAsleep s l) + 16 * b2n (rxAsleep s l) + 32 * b2n (laneInverted s l) +
    64 * x.slips

def laneCtrl (x : Lane) : Nat := b2n x.test + 2 * x.loop + 8 * b2n x.txSleep + 16 * b2n x.rxSleep

def prbsWord (x : Lane) : Nat := x.pattern + 4 * b2n x.gen + 8 * b2n x.check + 16 * b2n x.invert

/-- Bit errors come up by themselves on this lane: its checker counts, and the path leaves the digital part (R399, R400). -/
def prbsRises (s : State) (l : Nat) : Bool := lanePowered s l && (serialLane s l).since.isSome && (serialLane s l).loop != 2

/-- LN_PRBS_ERR: no row is about an error of the channel, and while the checker counts a read finds it risen by a free amount
(log entry 30). -/
def prbsErr (s : State) (l : Nat) : Nat :=
  let e := (serialLane s l).errs
  if prbsRises s l then e + (freeWord s).toNat % (2 ^ 64 - e) else e

/-- A read of LN_PRBS_ERR has shown the errors. -/
def showPrbsErr (s : State) (l : Nat) : State :=
  if prbsRises s l then useFree (setSerialLane s l { serialLane s l with errs := prbsErr s l }) else s

def readLane (s : State) (l r : Nat) : Nat :=
  let x := serialLane s l
  if !lanePowered s l then 0
  else if r = 0 then laneCtrl x
  else if r = 8 then laneStatus s l
  else if r = 0x10 then x.eq.toNat
  else if r = 0x18 then prbsWord x
  else if r = 0x20 then prbsBits s l
  else if r = 0x28 then prbsErr s l
  else if r = 0x38 then regNat s (Reg.lnLockLosses l)
  else 0

def quadStatus (s : State) (q : Nat) : Nat :=
  let on := (dom s (quadDomain q)).st == .on
  b2n (bit s.ln.pll.toNat q) + 2 * (if on then quadRate s q else 0) + 2 ^ 5 * b2n on +
    2 ^ 6 * ((upto (4 * q) 4).map (fun l => if (serialLane s l).test then 2 ^ (l % 4) else 0)).sum

/-- The LN_ registers, by offset in the block. -/
def readLanes (s : State) (off : Nat) : Option Nat :=
  if off < 0x6000 then (if off % 0x100 ≤ 0x38 then some (readLane s (off / 0x100) (off % 0x100)) else none)
  else if 0x8000 ≤ off ∧ off < 0x8600 then
    if off % 0x40 = 0 then some (Tab.get 0 s.ln.rate ((off - 0x8000) / 0x40))
    else if off % 0x40 = 8 then some (quadStatus s ((off - 0x8000) / 0x40))
    else none
  else if off = 0x9000 then some (b2n s.ln.eqDefault + 2 * b2n s.ln.eqValid)
  else if off = 0x9008 then some (regNat s Reg.lnCtrlRefused)
  else none

/-- Values that TEST_RATE takes on a quad. -/
def testRateOk (q r : Nat) : Bool := if q < 16 then decide (r ≤ 6) else if q < 20 then decide (r ≤ 1) else decide (r ≤ 3)

/-- LN_QUAD_CTRL: other values are ignored. -/
def writeQuad (s : State) (q w : Nat) : State :=
  let r := fld w 0 4
  if (dom s (quadDomain q)).st != .on then laneRefused s
  else if !testRateOk q r then s
  else
    let was := quadRate s q
    withRate s q (fun s => retuneQuad q was { s with ln := { s.ln with rate := Tab.set 0 s.ln.rate q r } })

end Sys2Proof.Machine
end

