-- ==== Sys2Proof/Machine/Management.lean ====
section
/-! DEFINITION. The management plane (chapter 16): doorbells and buffers of the mailbox, the management commands of Table 16-7,
firmware writes, the BMC's transfers, and the MG_, TB_ and KP_ registers. -/

namespace Sys2Proof.Machine

/-! The mailbox (R412, R421) -/

/-- A doorbell: the source's command waits for the tick; while one is outstanding the doorbell is ignored and sets OVERRUN. -/
def ringMailbox (s : State) (src : Nat) : State :=
  if !sourceServed s src then s
  else
    let m := mbox s src
    if m.pending || m.running.isSome then setMbox s src { m with overrun := true }
    else setMbox s src { m with pending := true, overrun := false }

/-- A port's PF 0 reaches the mailbox of a source: every source on a manager port, its own elsewhere (R421, R423). -/
def reachesMbox (s : State) (p src : Nat) : Bool :=
  decide (p < 8) && decide (src < 9) && !mergedUpper s p && (managerPort s p || p == src)

/-- MG_MB_DOORBELL: any write rings the source's doorbell. -/
def execMgMbDoorbell (p src : Nat) (s : State) : Ans := if reachesMbox s p src then .next (ringMailbox s src) else idle s

/-- READY clears. -/
def takeResponse (s : State) (src : Nat) : State := setMbox s src { mbox s src with ready := false }

/-- MG_MB_RSP: a read of byte 0 of the response buffer. -/
def execMgMbRsp (p src : Nat) (s : State) : Ans := if reachesMbox s p src then .next (takeResponse s src) else idle s

/-- MG_MB_STATUS. -/
def mboxStatus (s : State) (src : Nat) : Nat :=
  let m := mbox s src
  b2n m.pending + 2 * b2n m.running.isSome + 4 * b2n m.ready + 8 * b2n m.overrun

/-- Bytes written to the request buffer of a source. -/
def writeRequest (s : State) (src off : Nat) (b : Bytes) : State :=
  setMbox s src { mbox s src with req := Mem.write (mbox s src).req off b }

/-! The management commands (Table 16-7) -/

/-- MG_BOOT. -/
def mgBoot (s : State) : Nat :=
  b2n s.mg.bank + 2 * b2n s.mg.fellBack + 4 * b2n s.mg.recovery + 8 * b2n s.mg.kpBad + 16 * s.mg.floor

/-- DEVICE_INFO: MG_ID, MG_FW, PHASE and MG_BOOT. -/
def cmdDeviceInfo (src : Nat) (s : State) : Ans :=
  .next (takeUp s src 0x50 none (fun s =>
    (s, some { status := .ok, results := [(8, mgId), (8, s.mg.fw.toNat), (1, phaseCode s.pw.phase), (8, mgBoot s)] })))

/-- What is wrong with a package for FLASH_WRITE: its status and DETAIL. -/
def flashFault (s : State) (b : Bytes) : Option (Status × Word) :=
  if !pkgHeaderOk b then some (.badImage, 1)
  else if pkgRollback b < s.mg.floor then some (.denied, 0)
  else if !pkgSealOk b then some (.badImage, 2)
  else if !pkgKeysOk b then some (.badImage, 3)
  else if 2097152 < b.length then some (.noSpace, 0)
  else none

def doFlashWrite (s : State) (src : Nat) (from_ : ImageSource) (n : Nat) (host : Option Bytes) : Done :=
  if s.mg.flash.isSome then refuse s .inProgress
  else
    match readImage s mgt from_ n host with
    | (.error r, s) => (s, some r)
    | (.ok b, s) =>
      match flashFault s b with
      | some (st, d) => (s, some { status := st, detail := d })
      | none => ({ s with mg := { s.mg with flash := some (src, b.take (pkgLength b)) } }, none)

/-- FLASH_WRITE: the write begins; it answers when written and verified. -/
def cmdFlashWrite (src : Nat) (from_ : ImageSource) (n : Nat) (host : Option Bytes) (s : State) : Ans :=
  .next (takeUp s src 0x52 (some .flashWrite) (fun s => doFlashWrite s src from_ n host))

/-- A boot header with its CRC (R407). -/
def bootHeader (seq : Nat) (bank : Bool) : Bytes :=
  let b := toLe 4 0x48424C43 ++ toLe 4 (seq % 2 ^ 32) ++ toLe 4 (b2n bank)
  b ++ toLe 4 (crc32 b)

/-- Copy 1 is the newer of the valid header copies; a copy that is not valid is the older one. -/
def newerIs1 (s : State) : Bool :=
  if headerOk s.mg.header0 && headerOk s.mg.header1 then
    decide ((headerSeq s.mg.header1 + 2 ^ 32 - headerSeq s.mg.header0) % 2 ^ 32 < 2 ^ 31)
  else headerOk s.mg.header1

/-- The older header copy is written, its SEQ one above the newer, naming the bank just written (R410). -/
def writeHeader (s : State) (bank : Bool) : State :=
  if newerIs1 s then
    let h := bootHeader (headerSeq s.mg.header1 + 1) bank
    emit { s with mg := { s.mg with header0 := h } } (.flashWrite 0 h)
  else
    let h := bootHeader (if headerOk s.mg.header0 then headerSeq s.mg.header0 + 1 else 0) bank
    emit { s with mg := { s.mg with header1 := h } } (.flashWrite 0x10000 h)

/-- The package is in the bank that is not running: bank B when bank A runs. -/
def writeBank (s : State) (b : Bytes) : State :=
  if s.mg.bank then emit { s with mg := { s.mg with bankA := b } } (.flashWrite 0x100000 b)
  else emit { s with mg := { s.mg with bankB := b } } (.flashWrite 0x500000 b)

/-- FLASH_WRITE_COMPLETE: the package is written and read back. Where it verifies, the header copy is written and FLASH_WRITE
answers; where it does not, the bank's contents are not what was sent, MG_FLASH is raised, and the check that failed is a
free value. -/
def execFlashWriteComplete (ok : Bool) (s : State) : Ans :=
  match s.mg.flash with
  | none => idle s
  | some (src, b) =>
    let s := { s with mg := { s.mg with flash := none } }
    if ok then
      let s := writeHeader (writeBank s b) (!s.mg.bank)
      .next (answer s src 0x52 { status := .ok, results := [(1, b2n (!s.mg.bank)), (8, pkgFirmware b)] })
    else
      let d := BitVec.ofNat 64 (1 + (freeWord s).toNat % 3)
      .next (answer (raiseSrc (useFree s) Src.mgFlash {}) src 0x52 { status := .badImage, detail := d })

/-- Bytes into KP_USER from an offset: each keep word that they touch. -/
def writeUser (s : State) (off : Nat) (b : Bytes) : State :=
  let old := (upto Keep.user 255).flatMap (fun i => toLe 8 (keepNat s i))
  let new := overlay old off b
  (upto (off / 8) ((off + b.length - 1) / 8 - off / 8 + 1)).foldl
    (fun s j => keepWrite s (Keep.user + j) (BitVec.ofNat 64 (leAt new (8 * j) 8))) s

def keepArgBad (field : Nat) (v : Word) (off : Nat) (b : Bytes) : Bool :=
  if field = 0 then decide (255 < v.toNat)
  else if field = 1 then decide (v.toNat < 21 ∨ 40 < v.toNat)
  else if field = 2 then decide (2 ^ 32 ≤ v.toNat)
  else if field = 3 then decide (b.length = 0 ∨ 2040 < off + b.length)
  else true

/-- KEEP_WRITE: fields 0 to 2 apply at the next device reset. -/
def cmdKeepWrite (src field : Nat) (v : Word) (off : Nat) (b : Bytes) (s : State) : Ans :=
  .next (takeUp s src 0x53 none (fun s =>
    guardAll s [(keepArgBad field v off b, .badArg), (keepBusy s, .busy)]
      (done (if field = 0 then keepWrite s Keep.mgrPorts v
        else if field = 1 then keepWrite s Keep.vfBar2 v
        else if field = 2 then keepWrite s Keep.subsys v
        else writeUser s off b))))

/-- A step of the time base: it replaces any estimate (R420). -/
def stepTime (s : State) (t : Nat) : State :=
  let s := count (setTime s t) Reg.tbSteps
  { s with tb := { s.tb with unknown := false, estimated := false, uncert := 0 } }

/-- The servo's mode (R420): with FREE no servo runs and no lock is held. -/
def timeMode (s : State) (ptp : Bool) (p d : Nat) : State :=
  { s with tb := { s.tb with
    ptp := ptp, ptpPort := p, ptpDomain := d, goodSyncs := 0, locked := false, holdover := false, lastSync := s.now } }

/-- TIME_SET. -/
def cmdTimeSet (src mode p d : Nat) (step : Option (BitVec 64)) (s : State) : Ans :=
  .next (takeUp s src 0x54 none (fun s =>
    guardAll s [(decide (1 < mode ∨ 15 < p ∨ 255 < d), .badArg)]
      (let s := timeMode s (mode == 1) p d
       done (match step with
         | some t => stepTime s t.toNat
         | none => s))))

/-- A queue command of the management engine: the queue exists and is the management context's. -/
def mgtOwned (s : State) (q : Nat) : Bool :=
  match queue? s q with
  | some x => x.ctx == mgt
  | none => false

def queueGone (s : State) (q : Nat) : Bool :=
  match queue? s q with
  | some x => x.destroyed
  | none => true

def doQueuePush (s : State) (q prio : Nat) (b : Bytes) : Done :=
  guardAll s
    [(queueGone s q, .notFound), (decide (7 < prio ∨ b.length = 0 ∨ 4032 < b.length), .badArg), (!mgtOwned s q, .denied)]
    (if s.th.safe then (refuseItem s q, some { status := .busy, detail := 2 })
     else
       match push s q prio (mkTag mgt 1) b false with
       | (.linked _, s) => done s
       | (_, s) => (refuseItem s q, some { status := .busy, detail := 2 }))

/-- QUEUE_PUSH. -/
def cmdQueuePush (src q prio : Nat) (b : Bytes) (s : State) : Ans :=
  .next (takeUp s src 0x55 none (fun s => doQueuePush s q prio b))

def doQueuePop (s : State) (q : Nat) : Done :=
  match queue? s q with
  | none => refuse s .notFound
  | some x =>
    match headItem x with
    | none => refuse s .notFound
    | some i =>
      if x.ctx ≠ mgt then refuse s .denied
      else if 4032 < i.bytes.length then (s, some { status := .noSpace, detail := BitVec.ofNat 64 i.bytes.length })
      else
        (unlinkItem s q x i 0,
          some { status := .ok, detail := BitVec.ofNat 64 (b2n i.poison), results := [(1, i.prio)], data := i.bytes })

/-- QUEUE_POP. -/
def cmdQueuePop (src q : Nat) (s : State) : Ans := .next (takeUp s src 0x56 none (fun s => doQueuePop s q))

/-! The BMC (R411) -/

/-- The management domain is on: the pins answer. -/
def bmcUp (s : State) : Bool := !s.pw.inStop && (dom s 144).st == .on

/-- Command byte 0x01: bytes into the request buffer from an offset; a transfer beyond the buffer is NACKed. -/
def execRequestBufferWrite (off : Nat) (b : Bytes) (s : State) : Ans :=
  if !bmcUp s then idle s
  else if 4096 < off + b.length then .next (emit s .bmcNack)
  else .next (writeRequest s 8 off b)

/-- Command byte 0x02: bytes of the response buffer from an offset. Byte 0 clears READY. -/
def execResponseBufferRead (off n : Nat) (s : State) : Ans :=
  if !bmcUp s then idle s
  else if 4096 < off + n then .next (emit s .bmcNack)
  else
    let s := emit s (.bmc (Mem.read (mbox s 8).rsp off n))
    .next (if off = 0 ∧ 0 < n then takeResponse s 8 else s)

/-- Command byte 0x03. -/
def execBmcDoorbell (s : State) : Ans := if bmcUp s then .next (ringMailbox s 8) else idle s

/-- Command byte 0x04: response ready, a NOTIFY record pending, safe state. -/
def execStatusRead (s : State) : Ans :=
  if !bmcUp s then idle s
  else
    .next (emit s (.bmc [BitVec.ofNat 8 (b2n (mbox s 8).ready + 2 * b2n (!s.th.pending.isEmpty) + 4 * b2n s.th.safe)]))

/-- A controller's address moves the target to I3C mode. -/
def enterI3c (s : State) (a : Nat) : State := { s with mg := { s.mg with i3c := true, i3cAddr := a % 128 } }

/-- ENTDAA. -/
def execEntdaa (a : Nat) (s : State) : Ans := if bmcUp s then .next (enterI3c s a) else idle s

/-- SETDASA. -/
def execSetdasa (a : Nat) (s : State) : Ans := if bmcUp s then .next (enterI3c s a) else idle s

/-- RSTDAA: back to SMBus mode. -/
def execRstdaa (s : State) : Ans :=
  if bmcUp s then .next { s with mg := { s.mg with i3c := false, i3cAddr := 0 } } else idle s

/-- A CCC that the device answers in I3C mode only. -/
def ccc (s : State) (body : State) : Ans :=
  if !bmcUp s then idle s else if s.mg.i3c then .next body else .next (emit s .bmcNack)

/-- ENEC: in-band interrupts on. -/
def execEnec (s : State) : Ans := ccc s { s with mg := { s.mg with ibi := true } }

/-- DISEC: in-band interrupts off. -/
def execDisec (s : State) : Ans := ccc s { s with mg := { s.mg with ibi := false } }

/-- GETPID. -/
def execGetpid (s : State) : Ans := ccc s (emit s (.bmc (toBe 6 Config.i3cPid.toNat)))

/-- GETBCR. -/
def execGetbcr (s : State) : Ans := ccc s (emit s (.bmc [Config.i3cBcr]))

/-- GETDCR. -/
def execGetdcr (s : State) : Ans := ccc s (emit s (.bmc [Config.i3cDcr]))

/-- GETSTATUS. -/
def execGetstatus (s : State) : Ans := ccc s (useFree (emit s (.bmc (toBe 2 (Config.i3cStatus s.freeCtr).toNat))))

/-- GETMXDS. -/
def execGetmxds (s : State) : Ans := ccc s (emit s (.bmc (toBe 2 Config.i3cMxds.toNat)))

/-! The registers (Tables 16-8 to 16-10) -/

/-- The MG_ registers, by offset in the block; the buffers are read by bytes. -/
def readMgmt (s : State) (off : Nat) : Option Nat :=
  if off = 0 then some mgId
  else if off = 8 then some s.mg.fw.toNat
  else if off = 0x10 then some s.mg.tick
  else if off = 0x18 then some (mgBoot s)
  else if off = 0x20 ∨ off = 0x28 ∨ off = 0x30 then some (regNat s (0x980000 + off))
  else if 0x1000 ≤ off ∧ off < 0x1900 ∧ off % 0x100 = 8 then some (mboxStatus s ((off - 0x1000) / 0x100))
  else none

/-- TB_TIME_STATUS (Table 16-10). -/
def timeStatus (t : TbState) : Nat :=
  b2n t.locked + 2 * b2n t.estimated + 4 * b2n t.unknown + 8 * b2n t.holdover + 16 * b2n t.running +
    2 ^ 16 * (if t.estimated then t.uncert else 0)

/-- The TB_ registers. -/
def readTime (s : State) (off : Nat) : Option Nat :=
  if off = 0 then some (timeNs s)
  else if off = 8 then some (timeStatus s.tb)
  else if off = 0x10 then some (unsigned 32 s.tb.adj)
  else if off = 0x18 then some (regNat s Reg.tbSteps)
  else none

/-- The KP_ registers: the keep words, with KP_CRC over the others and the live slow counter (R417, R418). -/
def readKeep (s : State) (off : Nat) : Option Nat :=
  if 0x1000 ≤ off then none
  else if off = 8 then some (keepCrc s)
  else if off = 0xC0 then some (slowCount s + 2 ^ 63 * b2n s.pw.slowValid)
  else some (keepNat s (off / 8))

end Sys2Proof.Machine
end

