-- ==== Sys2Proof/Machine/Registers.lean ====
section
/-! DEFINITION. The control space (chapter 17): what a read of each register returns and what a write does, by its field types
(R8, R424), for PF BAR0 and for the management engine. -/

namespace Sys2Proof.Machine

/-- The state that a meaning answers. -/
def after (s : State) (a : Ans) : State :=
  match a with
  | .next t => t
  | _ => s

/-! Reads -/

/-- A register of a block that is computed from the state. -/
def readBlock (s : State) (r : Nat) : Option Nat :=
  let k := r / 0x80000
  if k = 1 then readPorts s r
  else if k = 2 ∨ k = 3 then readFunctions s r
  else if k = 5 then readClasses s r
  else if k = 6 then readShuttle s r
  else if k = 7 then readQueues s r
  else if k = 8 then readEngines s r
  else if k = 9 ∨ k = 10 then readPool s r
  else if k = 11 then readReduce s r
  else if k = 12 ∨ k = 13 then readNetwork s r
  else if k = 14 then readPair s (r % 0x80000)
  else if k = 15 then readLanes s (r % 0x80000)
  else if k = 16 then readClocks s (r % 0x80000)
  else if k = 17 then readPower s (r % 0x80000)
  else if k = 18 then readThimble s (r % 0x80000)
  else if k = 19 then readMgmt s (r % 0x80000)
  else if k = 20 then (if r % 0x80000 < 0x40000 then readKeep s (r % 0x80000) else readTime s (r % 0x40000))
  else none

/-- Counters of things that no row of the table is about (MC_ODECC, MC_SC0_SLOTS, MC_REF_DEFER, ET_FEC_CORR, HP_CPL_DISCARD): they
start at 0 and have risen by a free amount at each read (log entry 27). -/
def uncounted (s : State) (r : Nat) : Bool :=
  (upto 0 8).any (fun k => r == Reg.mcOdecc k || r == Reg.mcSc0Slots k || r == Reg.mcRefDefer k) ||
    (upto 0 16).any (fun p => r == Reg.etFecCorr p) || (upto 0 8).any (fun p => r == Reg.hpCplDiscard p && !mergedUpper s p)

/-- Such a counter as it reads now. -/
def risen (s : State) (r : Nat) : Nat := regNat s r + (freeWord s).toNat % (2 ^ 64 - regNat s r)

/-- A register of a block, 64 bits, at an 8-byte aligned offset in BAR0; where no register is, zero. -/
def readCtl (s : State) (r : Nat) : Nat :=
  if uncounted s r then risen s r else ((readBlock s r).getD (regNat s r)) % 2 ^ 64

/-- PF_STATE (Table 17-3). -/
def pfState (s : State) (p : Nat) : Nat :=
  phaseCode s.pw.phase + 4 * b2n s.th.safe + 8 * pairCode s.sm.mode + 64 * b2n (managerPort s p)

/-- The registers of the public area of a port, without the mailbox buffers. -/
def readPublic (s : State) (p r : Nat) : Nat :=
  if r = 0 then (noticeGet s p 0).toNat
  else if r = 8 then mgId
  else if r = 0x10 then s.mg.fw.toNat
  else if r = 0x18 then timeNs s
  else if r = 0x20 then pfState s p
  else if r = 0x1008 then mboxStatus s p
  else 0

/-! Writes -/

/-- A write as a register sees it: the 8 bytes that an RW field takes with the bytes not written as they were, the 8 bytes
with zero in their place that a WO, W1S or W1C field takes, and whether byte 0 is written (R424). -/
structure RegWrite where
  rw : Nat
  act : Nat
  low : Bool
  deriving DecidableEq, Repr

/-- A write of 4 or 8 bytes within a register that holds `old`. -/
def regWriteOf (old half n v : Nat) : RegWrite :=
  if n = 8 then { rw := v % 2 ^ 64, act := v % 2 ^ 64, low := true }
  else if half = 0 then { rw := old / 2 ^ 32 * 2 ^ 32 + v % 2 ^ 32, act := v % 2 ^ 32, low := true }
  else { rw := old % 2 ^ 32 + 2 ^ 32 * (v % 2 ^ 32), act := 2 ^ 32 * (v % 2 ^ 32), low := false }

/-- Store a number of low bits of a plain RW register; the bits above are reserved. -/
def store (s : State) (r bits w : Nat) : State := regSet s r (BitVec.ofNat 64 (fld w 0 bits))

/-- A field of a register with the new value, or the old one when the new one is out of its range. -/
def inRange (lo hi old new : Nat) : Nat := if lo ≤ new ∧ new ≤ hi then new else old

/-- HP_LINK_CFG (Table 10-13). SC0_NO_L1 set on a port in L1 with an SC0 window makes it leave (R263). -/
def writeLinkCfg (s : State) (r w : Nat) : State :=
  wakeL1 (store s r 15 (inRange 1 6 (fld (regNat s r) 0 3) (fld w 0 3) + 2 ^ 3 * fld w 3 12)) ((r - 0x80000) / 0x1000)

/-- FN_ writes: the selector, basting, tacks, FN_TACK_STATUS.REFUSED. -/
def writeFn (s : State) (r : Nat) (x : RegWrite) : State :=
  if r = Reg.fnWinSel then store s r 14 x.rw
  else if r = 0x101008 then basteWrite s false x.rw
  else if r = 0x101010 then basteWrite s true x.rw
  else if r = 0x101028 then tackWrite s x.act
  else if r = 0x101030 then (if bit x.act 4 then { s with fn := { s.fn with tackRefused := false } } else s)
  else s

/-- SC_LAT_CFG. -/
def writeClasses (s : State) (r : Nat) (x : RegWrite) : State :=
  if 0x290000 ≤ r ∧ r < 0x290800 ∧ r % 0x100 = 0x18 then
    let s := store s r 8 x.rw
    if bit x.act 8 then after s (execClearMax ((r - 0x290000) / 0x100) s) else s
  else s

/-- SH_CH_CTRL: PAUSE, RESUME and SKIP, in that order (Table 07-12). -/
def writeChCtrl (s : State) (c w : Nat) : State :=
  let s := if bit w 0 then pauseWrite s c else s
  let s := if bit w 1 then resumeWrite s c else s
  if bit w 2 then skipWrite s c else s

/-- The SH_ channel registers as a context writes them. -/
def writeChan (s : State) (ctx c o : Nat) (x : RegWrite) : State :=
  if o = 0x18 then (if x.low then doorbell s ctx c (BitVec.ofNat 32 x.rw) else s)
  else if o = 0x20 then writeChCtrl s c x.act
  else s

/-- ET_ and WT_ writes (Tables 08-15, 08-16, 08-18). A field of WT_CFG out of its range keeps its value. An IP address is
mirrored to the partner (Table 12-7). -/
def writeNetwork (s : State) (r : Nat) (x : RegWrite) : State :=
  if r = Reg.etFlow then store s r 9 x.rw
  else if r = Reg.etExcCfg then
    regSet s r (BitVec.ofNat 64 (fld x.rw 0 15 + 2 ^ 16 * fld x.rw 16 14 + 2 ^ 32 * fld x.rw 32 16))
  else if 0x601000 ≤ r ∧ r < 0x602000 then
    let p := (r - 0x601000) / 0x100
    let o := r % 0x100
    if o = 0x08 then store s r 48 x.rw
    else if o = 0x10 then objectRecord (store s r 32 x.rw) mgt 8 p false
    else if o = 0x18 then (if 1518 ≤ fld x.rw 0 14 ∧ fld x.rw 0 14 ≤ 9216 then store s r 14 x.rw else s)
    else if o = 0x60 then store s r 32 x.rw
    else if o = 0x80 ∨ o = 0x88 then objectRecord (store s r 64 x.rw) mgt 8 p false
    else s
  else if r = Reg.wtCfg then
    let old := regNat s r
    regSet s r (BitVec.ofNat 64 (inRange 6 22 (fld old 0 5) (fld x.rw 0 5) + 2 ^ 5 * inRange 2 1000 (fld old 5 10) (fld x.rw 5 10) +
      2 ^ 15 * inRange 1 15 (fld old 15 4) (fld x.rw 15 4) + 2 ^ 19 * inRange 10 1000 (fld old 19 10) (fld x.rw 19 10)))
  else if r = Reg.wtCfg2 then store s r 32 x.rw
  else if r = Reg.wtConnSel then store s r 16 x.rw
  else if r = Reg.wtPeerSel then store s r 12 x.rw
  else s

/-- TH_ writes (Table 13-7). -/
def writeThimble (s : State) (o : Nat) (x : RegWrite) : State :=
  if o = 0x08 then store s (0x900000 + o) 1 x.rw
  else if o = 0x10 then tackAll s
  else if o = 0x18 then (if x.low then after s (execThForce (BitVec.ofNat 64 x.act) s) else s)
  else if o = 0x28 then store s (0x900000 + o) 32 x.rw
  else if o = 0x68 then after s (execThHistAck (BitVec.ofNat 64 x.act) s)
  else if 0x10000 ≤ o ∧ o < 0x18000 then
    let n := (o - 0x10000) / 0x20
    if o % 0x20 = 0 then (if x.low then baste s n x.rw else s)
    else if o % 0x20 = 0x18 then (if bit x.act 0 then clearPending s n else s)
    else s
  else s

/-- LN_ writes (Table 15-9). -/
def writeLanes (s : State) (o : Nat) (x : RegWrite) : State :=
  if o < 0x6000 then
    let l := o / 0x100
    if o % 0x100 = 0 then after s (execLnLaneCtrl l (BitVec.ofNat 64 x.rw) s)
    else if o % 0x100 = 0x18 then writePrbs s l (fld x.rw 0 5 + 2 ^ 5 * fld x.act 5 2)
    else if o % 0x100 = 0x30 then (if x.low then after s (execLnSlip l (BitVec.ofNat 64 x.act) s) else s)
    else s
  else if 0x8000 ≤ o ∧ o < 0x8600 ∧ o % 0x40 = 0 then writeQuad s ((o - 0x8000) / 0x40) x.rw
  else s

/-- MG_ writes; the buffers are written by bytes. -/
def writeMgmt (s : State) (o : Nat) (x : RegWrite) : State :=
  if o = 0x20 then (if 2 ≤ fld x.rw 0 8 then store s Reg.mgWdt 8 x.rw else s)
  else if 0x1000 ≤ o ∧ o < 0x1900 ∧ o % 0x100 = 0 then (if x.low then ringMailbox s ((o - 0x1000) / 0x100) else s)
  else s

/-- A write by the management context to a register of a block. Registers of other types ignore it. -/
def writeCtl (s : State) (r : Nat) (x : RegWrite) : State :=
  let k := r / 0x80000
  let o := r % 0x80000
  if k = 1 then
    (if o < 0x8000 ∧ o % 0x1000 = 8 ∧ !mergedUpper s (o / 0x1000) then writeLinkCfg s r x.rw else s)
  else if k = 2 then writeFn s r x
  else if k = 5 then writeClasses s r x
  else if k = 6 then (if o < 0x10000 then writeChan s mgt (o / 0x40) (o % 0x40) x else s)
  else if k = 7 then (if r = Reg.qmQSel then store s r 15 x.rw else s)
  else if k = 10 then
    (if r = Reg.mpGotSel then store s r 17 x.rw
     else if r = Reg.mpPatrol then store s r 8 (inRange 1 168 (regNat s r) (fld x.rw 0 8))
     else s)
  else if k = 11 then (if r = Reg.ruWinSel then store s r 12 x.rw else s)
  else if k = 12 ∨ k = 13 then writeNetwork s r x
  else if k = 15 then writeLanes s o x
  else if k = 16 then (if o = 0 then after s (execCkClkSel (BitVec.ofNat 64 x.rw) s) else s)
  else if k = 18 then writeThimble s o x
  else if k = 19 then writeMgmt s o x
  else s

/-- A write of 4 or 8 bytes at an offset of the control space. -/
def writeCtlAt (s : State) (off n v : Nat) : State :=
  let r := off / 8 * 8
  writeCtl s r (regWriteOf (readCtl s r) (off % 8) n v)

/-- NOTICE bits are cleared by writing 1. -/
def clearNotice (s : State) (p f w : Nat) : State := noticeSet s p f (noticeGet s p f &&& ~~~(BitVec.ofNat 5 w))

/-- A write in the public area of a port. -/
def writePublic (s : State) (p r : Nat) (x : RegWrite) : State :=
  if r = 0 then clearNotice s p 0 x.act
  else if r = 0x1000 then (if x.low then ringMailbox s p else s)
  else s

/-- A read by bytes of a mailbox buffer: its source and offset, and whether it is the response buffer. -/
structure BufAt where
  src : Nat
  rsp : Bool
  off : Nat
  deriving DecidableEq, Repr

/-- The mailbox buffer at an offset of BAR0, for an access through a port: the public aliases, then MG_ on manager ports. -/
def bufAt (p off : Nat) : Option BufAt :=
  if 0x2000 ≤ off ∧ off < 0x4000 then some { src := p, rsp := decide (0x3000 ≤ off), off := off % 0x1000 }
  else if 0x990000 ≤ off ∧ off < 0x990000 + 9 * 0x2000 then
    let o := off - 0x990000
    some { src := o / 0x2000, rsp := decide (0x1000 ≤ o % 0x2000), off := o % 0x1000 }
  else none

/-- A reserved region of Table 17-1. -/
def reservedOff (off : Nat) : Bool := decide (0x4000 ≤ off ∧ off < 0x80000) || decide (0xA80000 ≤ off)

/-- Reads that pop a register (HP_LATE_LOG, ET_TX_TS_ID) and reads that used a free value (log entry 27, PW_LDO, SM_LINK_STATUS, LN_PRBS_ERR). -/
def afterRead (s : State) (off : Nat) : State :=
  let r := off / 8 * 8
  if uncounted s r then useFree (regSet s r (BitVec.ofNat 64 (risen s r)))
  else if r = 0x880010 then useFree s
  else if r = 0x700008 then showUncorr s
  else if 0x780000 ≤ r ∧ r < 0x786000 ∧ r % 0x100 = 0x28 then showPrbsErr s ((r - 0x780000) / 0x100)
  else if off % 8 ≠ 0 then s
  else if 0x080000 ≤ off ∧ off < 0x088000 ∧ off % 0x1000 = 0x40 then after s (execHpLateLog ((off - 0x080000) / 0x1000) s)
  else if 0x601000 ≤ off ∧ off < 0x602000 ∧ off % 0x100 = 0x70 then popStamp s ((off - 0x601000) / 0x100)
  else s

/-! The management engine's control space (R432) -/

/-- The bits of a keep register that hold something; the reserved ones stay zero (R7, Table 14-12). -/
def keepMask (r w : Nat) : Nat :=
  if r = 0x10 then fld w 0 3
  else if r = 0x18 then fld w 0 8
  else if r = 0x20 then fld w 0 4
  else if r = 0x28 then fld w 0 6
  else if r = 0x38 ∨ r = 0x40 then fld w 0 2
  else if r = 0x48 then fld w 0 13
  else if r = 0x50 then fld w 0 10
  else if r = 0x68 then fld w 0 22
  else if r = 0x78 then fld w 0 48 + 2 ^ 63 * fld w 63 1
  else if r = 0xB0 then fld w 0 5
  else if r = 0 ∨ r = 0x30 ∨ r = 0x80 ∨ r = 0x88 ∨ r = 0x90 ∨ r = 0xB8 ∨ r = 0x800 then fld w 0 32
  else if 0xC8 ≤ r ∧ r < 0x100 then 0
  else w

/-- A write to the KP_ block by the firmware: only while the keep registers are open (R418). KP_CRC follows by itself and
KP_SLOW is read-only (Table 14-12). -/
def writeKeepAt (s : State) (off n v : Nat) : State :=
  let r := off / 8 * 8
  if 0x1000 ≤ r then s
  else if !s.mg.kpOpen then count s Reg.mgKpLocked
  else if r = 8 ∨ r = 0xC0 then s
  else
    let w := (regWriteOf (keepNat s (r / 8)) (off % 8) n v).rw
    keepWrite s (r / 8) (BitVec.ofNat 64 (keepMask r w))

/-- The part of a register that a naturally aligned access of 4 or 8 bytes reads. -/
def halfOf (w off n : Nat) : Nat := if n = 8 then w else if off % 8 = 0 then w % 2 ^ 32 else w / 2 ^ 32

/-- A load of the management engine: the public area's mailbox aliases read zero. -/
def engineRead (s : State) (off n : Nat) : Nat × State :=
  if 0x1000 ≤ off ∧ off < 0x4000 then (0, s)
  else
    match bufAt 0 off with
    | some b =>
      let m := mbox s b.src
      (le (Mem.read (if b.rsp then m.rsp else m.req) b.off n), if b.rsp && b.off == 0 then takeResponse s b.src else s)
    | none =>
      let r := off / 8 * 8
      (halfOf (if off < 0x4000 then readPublic s 0 r else readCtl s r) off n, afterRead s off)

/-- A store of the management engine. The response buffer is read-only there. -/
def engineWrite (s : State) (off n v : Nat) : State :=
  if 0x1000 ≤ off ∧ off < 0x4000 then s
  else if off < 0x4000 then
    let r := off / 8 * 8
    writePublic s 0 r (regWriteOf (readPublic s 0 r) (off % 8) n v)
  else
    match bufAt 0 off with
    | some b => if b.rsp then s else writeRequest s b.src b.off (toLe n v)
    | none => if 0xA00000 ≤ off ∧ off < 0xA40000 then writeKeepAt s (off - 0xA00000) n v else writeCtlAt s off n v

end Sys2Proof.Machine
end

