-- ==== Sys2Proof/Machine/HostAccess.lean ====
section
/-! DEFINITION. Memory requests of the hosts (chapters 10, 11 and 17): who is served, BAR2 through windows, PF BAR0, the pages of
VF BAR0, BAR4, the Expansion ROM, and the push buffer. -/

namespace Sys2Proof.Machine

/-! Who is served (Table 10-8, R264, R279, R305, Table 13-4) -/

/-- What meets a memory request before its BAR is looked into. A request for a function that the port does not present, for a
BAR that is not implemented or for an offset beyond it cannot arise (log entry 4). -/
inductive Gate where
  | absent
  | malformed
  | unsupported (frozen : Bool)
  | abort
  | serve
  deriving DecidableEq, Repr

/-- Size of a BAR of a function; 0 where there is none. BAR 6 stands for the Expansion ROM. -/
def barSize (s : State) (p f bar : Nat) : Nat :=
  if bar = 0 then (if f = 0 then 0x1000000 else 0x10000)
  else if bar = 2 then 2097152 * bar2Units s p f
  else if bar = 4 then 0x10000
  else if bar = 6 ∧ f = 0 then 0x100000
  else 0

/-- The requests that safe state serves (Table 13-4). -/
def safeServed (s : State) (p f bar off : Nat) (write : Bool) : Bool :=
  f == 0 && managerPort s p &&
    ((bar == 2 && !write) || (bar == 0 && (decide (off < 0x4000) || decide (0x900000 ≤ off ∧ off < 0xA80000))))

/-- What a request asks of its function. `foreign` marks one of a feature that the port lacks (Table 10-1). -/
structure Req where
  port : Nat
  fn : Nat
  bar : Nat
  offset : Nat
  length : Nat
  write : Bool
  poisoned : Bool := false
  relaxed : Bool := false
  foreign : Bool := false
  deriving DecidableEq, Repr

/-- A memory request of `n` bytes. D3hot is looked at before safe state (log entry 43). -/
def gate (s : State) (p f bar off n : Nat) (write : Bool) : Gate :=
  let h := port s p
  if 8 ≤ p ∨ !h.link ∨ mergedUpper s p ∨ (f ≠ 0 ∧ !vfPresented s p f) ∨ 256 ≤ f ∨ n = 0 ∨ barSize s p f bar < off + n then .absent
  else if 4096 < off % 4096 + n ∨ (write ∧ maxPayload s p < n) then .malformed
  else if h.d3 ∨ h.step = .enter then .unsupported false
  else if s.th.safe ∧ !safeServed s p f bar off write then .abort
  else if f = 0 then .serve
  else
    match boundTo s p f with
    | none => .unsupported false
    | some (t, _) =>
      if inFlr s p f then .unsupported false
      else if bar = 0 ∧ off < 0x1000 then .serve
      else if ctxMode s t = .frozen then .unsupported true
      else if ctxMode s t ≠ .running ∨ (tenant s t).quiescing then .unsupported false
      else .serve

/-- A request of a feature that the port lacks gets no further than its function (Table 10-1); a memory request meets its gate. -/
def gateOf (s : State) (q : Req) : Gate :=
  if q.foreign then
    (if 8 ≤ q.port ∨ !(port s q.port).link ∨ mergedUpper s q.port ∨ (q.fn ≠ 0 ∧ !vfPresented s q.port q.fn) ∨ 256 ≤ q.fn then .absent
     else .unsupported false)
  else gate s q.port q.fn q.bar q.offset q.length q.write

/-- Completions carry ID-Based Ordering as PF 0's Device Control 2 enables it (R275). -/
def idoCompletion (s : State) (p : Nat) : Bool := cfgBit s p 0 Cfg.devCtl2 9

/-- A completion without data leaves. -/
def sendStatus (s : State) (q : Req) (st : CplStatus) : State :=
  emit (transmit s q.port 0) (.cplStatus q.port q.fn st q.relaxed (idoCompletion s q.port))

/-- A request answered or logged as an Unsupported Request. -/
def answerUr (s : State) (q : Req) (tag : Option (BitVec 11) := none) : State :=
  let s := aerFor (count s (Reg.hpUr q.port)) q.port q.fn true aerUr tag
  if q.write then s else sendStatus s q .ur

/-- A request answered or logged as a Completer Abort. -/
def answerCa (s : State) (q : Req) (tag : Option (BitVec 11) := none) : State :=
  let s := aerFor (count s (Reg.hpCa q.port)) q.port q.fn true aerCa tag
  if q.write then s else sendStatus s q .ca

/-- A poisoned write is counted as received. -/
def notePoison (s : State) (p : Nat) (poison : Bool) : State := if poison then count s (Reg.hpPoisonRx p) else s

/-- A request as its gate answers it; a served one goes on. The port leaves L1 to receive it. -/
def through (s : State) (q : Req) (body : State → Ans) : Ans :=
  match gateOf s q with
  | .absent => idle s
  | .malformed =>
    .next (aer (count (notePoison (leaveL1 s q.port) q.port q.poisoned) (Reg.hpMalformed q.port)) q.port q.fn true aerMalformed)
  | .unsupported frozen =>
    let s := notePoison (leaveL1 s q.port) q.port q.poisoned
    .next (answerUr (if frozen then count s (Reg.hpFrozenDrop q.port) else s) q)
  | .abort => .next (answerCa (notePoison (leaveL1 s q.port) q.port q.poisoned) q)
  | .serve => body (leaveL1 s q.port)

/-! Completions (R275, R276, R278) -/

/-- Read Completion Boundary of PF 0's Link Control. -/
def rcb (s : State) (p : Nat) : Nat := if cfgBit s p 0 Cfg.linkCtl 3 then 128 else 64

/-- Bytes of the next completion for a read with `n` bytes left at an offset. -/
def cplLen (mps rc off n : Nat) : Nat := if n ≤ mps then n else (off + mps) / rc * rc - off

/-- The completions of a read of at most `fuel` bytes, in ascending order; `mark` says whether a run of bytes carries poison. -/
def completions (q : Req) (ido : Bool) (mps rc : Nat) (mark : Nat → Nat → Bool) : Nat → Nat → Bytes → List Output
  | 0, _, _ => []
  | fuel + 1, off, b =>
    if b.isEmpty then []
    else
      let n := cplLen mps rc off b.length
      .cplData q.port q.fn b.length (off % 128) (b.take n) (mark off n) q.relaxed ido ::
        completions q ido mps rc mark fuel (off + n) (b.drop n)

/-- Answer a read with data. -/
def answerData (s : State) (q : Req) (b : Bytes) (mark : Nat → Nat → Bool) : State :=
  emitAll (transmit s q.port b.length)
    (completions q (idoCompletion s q.port) (maxPayload s q.port) (rcb s q.port) mark b.length q.offset b)

/-- Answer a register read: one completion. -/
def answerWord (s : State) (q : Req) (v : Nat) : State := answerData s q (toLe q.length v) (fun _ _ => false)

/-! BAR2 (R16, R295) -/

/-- The live window of a function that holds an offset, and the offset in it. -/
def windowAt (s : State) (p f off : Nat) : Option (Nat × Window × Nat) :=
  ((fnWindows s p f).find? (fun e => wValid e.2.live && !e.2.damaged && decide (wBase e.2.live * granuleBytes ≤ off) &&
    decide (off < (wBase e.2.live + wSize e.2.live) * granuleBytes))).map
      (fun e => (e.1, e.2, off - wBase e.2.live * granuleBytes))

/-- The request falls wholly in the window, which allows its direction; a REDUCE window takes no reads (R133). -/
def windowAllows (w : Window) (x n : Nat) (write : Bool) : Bool :=
  decide (x + n ≤ wSize w.live * granuleBytes) && bit (wAccess w.live) (b2n write) && (write || wKind w.live != 2)

/-- The address that a window presents to the memory protection unit; none for a hole of the management context's list, and for a
grant that is gone. -/
def windowAddr (s : State) (w : Window) (x : Nat) : Option PoolAddr :=
  let i := x / granuleBytes
  let o := x % granuleBytes
  let t := wTarget w.live
  if wKind w.live = 0 then
    if w.ctx = mgt then (listAt s mgt (t % 131072 + i)).map (fun g => PoolAddr.ppa (g * granuleBytes + o))
    else some (.tpa ((t % 131072 + i) * granuleBytes + o))
  else if wKind w.live = 1 then w.granted.map (fun g => PoolAddr.granted (g * granuleBytes + o) (t % 4096))
  else some (.ppa ((t % 131072 + i) * granuleBytes + o))

/-- The check of a window's access. -/
def windowCheck (s : State) (w : Window) (tag : BitVec 11) (x : Nat) (write : Bool) : Verdict :=
  match windowAddr s w x with
  | none => .deny none
  | some a => check s tag a write

/-- Admission of a request through a window: its class, after a charge for SC0 (R246). -/
def admitted (s : State) (p f n : Nat) (w : Window) : Nat × State :=
  if wClass w.live = 0 then admitBytes s p f n else (wClass w.live, s)

/-- The tag of a request outside every window of its function: the function's context, with SC1 for want of a window (R16; DESIGN
CHOICE, log entry 73). -/
def strayTag (s : State) (p f : Nat) : BitVec 11 :=
  mkTag (if f = 0 then mgt else ((boundTo s p f).map (fun e => e.1)).getD mgt) 1

/-- A request that its windows do not take is an Unsupported Request, logged with its tag and counted (R16, R295). Reads are counted
as writes are (DEDUCED, log entry 76). -/
def windowMiss (s : State) (q : Req) : State :=
  answerUr (count (notePoison s q.port q.poisoned) Reg.fnWinUr) q (some (strayTag s q.port q.fn))

/-- Lines in a port's contribution buffer. -/
def hostLines (s : State) (p : Nat) : Nat := (hostWaits s p).length

/-- The port's contribution buffer is full, with 1,024 lines (R143). -/
def contribFull (s : State) (p : Nat) : Bool := decide (1024 ≤ hostLines s p)

/-- Bytes of the push buffer in use: a header and an item for each push (R163). -/
def pushBytes (s : State) (p : Nat) : Nat := ((Tab.get [] s.qm.pushes p).map (fun x => x.bytes.length + 8)).sum

/-- The push buffer is full: it has no room for a push of the largest size (DESIGN CHOICE, log entry 76). -/
def pushFull (s : State) (p : Nat) : Bool := decide (16384 < pushBytes s p + 512)

/-- The port returns no posted-write credit, so that no posted write arrives (R143, R163). -/
def postedHeld (s : State) (p : Nat) : Bool := contribFull s p || pushFull s p

/-- The probe records a read of one line, by a tenant that runs, which meets the conditions 2 to 6 of R251 as far as the port sees
them (R256). The row's operand says whether conditions 7 and 8, and FLIT replay, let it be recorded. -/
def probed (s0 s : State) (p f off n cls : Nat) : Bool :=
  let h := port s0 p
  f != 0 && (boundTo s0 p f).any (fun e => ctxMode s0 e.1 == .running) && !h.contained && cls == 0 && decide (off % 64 + n ≤ 64) &&
    h.speed == 6 && h.flit && h.width == portWidth s0 p && h.l0pWidth == h.width && !h.l1 && !contribFull s0 p && !pushFull s0 p &&
    decide (sc0Ahead s < 2)

/-- A read through BAR2. Each line of the span is read and checked (R117). -/
def readWindow (s0 s : State) (q : Req) (lat : Option Nat) : State :=
  match windowAt s q.port q.fn q.offset with
  | none => windowMiss s q
  | some (_, w, x) =>
    if !windowAllows w x q.length false then windowMiss s q
    else
      let (cls, s) := admitted s q.port q.fn q.length w
      let tag := mkTag w.ctx cls
      match windowCheck s w tag x false with
      | .deny g => answerCa (poolDenied s tag g) q (some tag)
      | .zero _ => answerData s q (fill q.length 0) (fun _ _ => false)
      | .allow a _ =>
        let seen := probed s0 s q.port q.fn q.offset q.length cls
        let s := eccSpan s a q.length tag
        let s := answerData s q (poolBytes s a q.length) (fun o k => spanPoison s (a + (o - q.offset)) k)
        match lat with
        | some ns_ => if seen then probe s q.port ns_ else s
        | none => s

/-- One line of a host contribution under its tag: refused, accepted, or left in the contribution buffer, behind the lines of its
chunk or because its unit serves another. The answer says whether it was refused. -/
def hostLine (s : State) (p f : Nat) (w : Window) (tag : BitVec 11) (x : Nat) (data : Line) (poison : Bool) : Bool × State :=
  let h := wTarget w.live % 4096
  match contribCheck s tag h (wTarget w.live / 4096) x none with
  | some r => (true, contribRefuse s tag h r)
  | none =>
    let k : Contrib := { src := .host p f, tag := tag, window := h, offset := x
                         epoch := ((rwin? s h).map (fun r => r.epoch)).getD 0, data := data, poison := poison }
    if aheadOf s.ru.waiting s.ru.waiting.length k then (false, queueLine s k)
    else
      match serveLine s s.ru.waiting.length k with
      | none => (false, queueLine s k)
      | some s =>
        match presentLine s k with
        | .took t => (false, t)
        | .wait t => (false, queueLine t k)
        | .stale => (false, s)

/-- The lines of a host contribution in order. -/
def hostContrib (p f : Nat) (w : Window) (tag : BitVec 11) (poison : Bool) : List (Nat × Line) → Bool × State → Bool × State
  | [], r => r
  | (x, l) :: t, (bad, s) =>
    let (b, s) := hostLine s p f w tag x l poison
    hostContrib p f w tag poison t (bad || b, s)

/-- A write that is stored, or contributed, with its mark (R278). -/
def storedMark (s : State) (p f : Nat) (poison : Bool) : State :=
  if poison then aer (notePoison s p true) p f false aerAdvisory else s

/-- A write to a REDUCE window (R133): whole lines from a 64-byte boundary. A write of another shape is dropped and counted, and is no
refusal of RU_REFUSED (DESIGN CHOICE, log entry 76). -/
def writeReduceWindow (s : State) (q : Req) (w : Window) (x : Nat) (b : Bytes) : State :=
  if x % 64 ≠ 0 ∨ b.length % 64 ≠ 0 then
    answerUr (count (notePoison s q.port q.poisoned) Reg.ruBadHost) q (some (mkTag w.ctx (wClass w.live)))
  else
    let (cls, s) := admitted (storedMark s q.port q.fn q.poisoned) q.port q.fn b.length w
    let ls := (upto 0 (b.length / 64)).map (fun i => (x + 64 * i, bytesLine (slice b (64 * i) 64)))
    let (bad, s) := hostContrib q.port q.fn w (mkTag w.ctx cls) q.poisoned ls (false, s)
    if bad then answerUr s q (some (mkTag w.ctx cls)) else s

/-- A posted write through BAR2. A write to a mirrored granule waits for journal room, and one to a REDUCE window for room in the
contribution buffer for those of its lines that cannot enter their units (R143). -/
def writeWindow (s0 s : State) (q : Req) (b : Bytes) : Ans :=
  match windowAt s q.port q.fn q.offset with
  | none => .next (windowMiss s q)
  | some (_, w, x) =>
    if !windowAllows w x b.length true then .next (windowMiss s q)
    else if wKind w.live = 2 then
      let t := writeReduceWindow s q w x b
      if 1024 < hostLines t q.port then idle s0 else .next t
    else
      let (cls, s1) := admitted s q.port q.fn b.length w
      let tag := mkTag w.ctx cls
      match windowCheck s1 w tag x true with
      | .deny g => .next (answerCa (poolDenied (notePoison s1 q.port q.poisoned) tag g) q (some tag))
      | .zero _ => .next (windowMiss s1 q)
      | .allow a _ =>
        if !writeRoom s1 a b.length then .next (journalWait s0)
        else .next (poolStore (storedMark s1 q.port q.fn q.poisoned) tag a b q.poisoned)

/-! PF BAR0 (R422 to R425) -/

/-- Whether an access is one that a register accepts (R424). -/
def regAccess (off n : Nat) : Bool := (n == 4 || n == 8) && off % n == 0

/-- Whether PF BAR0 answers at an offset (R423). -/
def pfAnswers (s : State) (p off : Nat) : Bool := (managerPort s p || decide (off < 0x4000)) && !reservedOff off

/-- The access lies within one mailbox buffer and has 1 to 512 bytes. -/
def bufFits (b : BufAt) (n : Nat) : Bool := decide (n ≤ 512) && decide (b.off + n ≤ 4096)

/-- A read of PF BAR0. SM_PAIR_FENCE waits for the partner (R334). -/
def readPf (s0 s : State) (q : Req) : Ans :=
  let off := q.offset
  if !pfAnswers s q.port off then .next (answerUr s q)
  else
    match bufAt q.port off with
    | some b =>
      if !bufFits b q.length then .next (answerUr s q)
      else
        let m := mbox s b.src
        let s := answerData s q (Mem.read (if b.rsp then m.rsp else m.req) b.off q.length) (fun _ _ => false)
        .next (if b.rsp && b.off == 0 then takeResponse s b.src else s)
    | none =>
      if !regAccess off q.length then .next (answerUr s q)
      else if off / 8 * 8 = 0x700070 ∧ !fenceReady s then idle s0
      else
        let r := off / 8 * 8
        .next (afterRead (answerWord s q (halfOf (if off < 0x4000 then readPublic s q.port r else readCtl s r) off q.length)) off)

/-- A posted write to a BAR0 register or doorbell that carries poison is dropped (R278). -/
def dropPoisoned (s : State) (p f : Nat) : State := aer (notePoison s p true) p f true aerPoisoned

/-- A write to PF BAR0. -/
def writePf (s : State) (q : Req) (b : Bytes) : State :=
  let off := q.offset
  let n := b.length
  if !pfAnswers s q.port off then answerUr s q
  else
    match bufAt q.port off with
    | some d => if !bufFits d n then answerUr s q else if d.rsp then s else writeRequest s d.src d.off b
    | none =>
      if !regAccess off n then answerUr s q
      else if off < 0x4000 then
        writePublic s q.port (off / 8 * 8) (regWriteOf (readPublic s q.port (off / 8 * 8)) (off % 8) n (le b))
      else writeCtlAt s off n (le b)

/-! VF BAR0 (R426 to R430) -/

/-- VF_STAGING word i (Table 17-5). -/
def vfStaging (s : State) (t i : Nat) : Nat :=
  ((upto 0 4).map (fun j => 2 ^ (16 * j) * (heldSlices s (4 * i + j) t + 2 ^ 8 * sliceQuota s (4 * i + j) t))).sum

/-- The VF status page (Table 17-5). -/
def vfStatus (s : State) (p f t r : Nat) : Nat :=
  let x := tenant s t
  match r with
  | 0x00 => (noticeGet s p f).toNat
  | 0x08 => t + 2 ^ 8 * tenCode x.st + 2 ^ 11 * b2n x.mgrCause + 2 ^ 12 * b2n x.containCause + 2 ^ 13 * p + 2 ^ 16 * f
  | 0x10 => (bucket s p f).rate + 2 ^ 8 * (bucket s p f).depth + 2 ^ 32 * (bucket s p f).demoted
  | 0x18 => b2n (s.sm.mode == .inSync)
  | 0x20 => granHeld s t + 2 ^ 18 * x.granules + 2 ^ 36 * (granList s t).entries.length
  | 0x28 => ctxCells s t + 2 ^ 18 * (cellQuota s t % 2 ^ 18)
  | 0x30 => ctxQueues s t + 2 ^ 15 * queueQuota s t
  | 0x38 => (chansOf s t).length % 32 + 2 ^ 5 * chanLimit s t
  | 0x40 => ctxConns s t + 2 ^ 17 * x.contexts
  | 0x48 => winHeld s t + 2 ^ 15 * x.windows
  | 0x50 => vfStaging s t 0
  | 0x58 => vfStaging s t 1
  | 0x60 => timeNs s
  | _ => 0

/-- The channel in a slot of the tenant's channel page. -/
def slotChan (s : State) (t slot : Nat) : Option (Nat × Chan) :=
  s.sh.chans.find? (fun e => e.2.st != .free && e.2.ctx == t && e.2.slot == some slot)

/-- A register of a channel slot (Table 17-6). -/
def vfSlot (c : Nat) (ch : Chan) (o : Nat) : Nat :=
  match o with
  | 0x00 => 1 + 2 * c
  | 0x08 => (readChan ch 0x10).getD 0
  | 0x10 => (readChan ch 0x18).getD 0
  | 0x18 => (readChan ch 0x20).getD 0
  | 0x20 => (readChan ch 0x28).getD 0
  | 0x28 => (readChan ch 0x30).getD 0
  | _ => 0

/-- Connection state as Table 17-8 and WT_CONN report it. -/
def objConn (x : Conn) (i : Nat) : Nat :=
  match i with
  | 0 => 1 + 2 * connCode x.st + 2 ^ 16 * x.nextMsg.toNat + 2 ^ 32 * x.ackedMsg.toNat
  | 1 => (x.txLimit - x.txIssued).toNat
  | _ => 0

/-- Word i of the selected object (Table 17-8); zero for an object that is not the tenant's. -/
def objWord (s : State) (t sel i : Nat) : Nat :=
  let h := fld sel 2 16
  match fld sel 0 2 with
  | 1 =>
    (match queue? s h with
     | none => 0
     | some x =>
       if x.ctx = t then
         (match i with
          | 0 => 1 + 2 ^ 2 * qmodeCode x.mode + 2 ^ 4 * x.limit + 2 ^ 22 * qCells x + 2 ^ 40 * x.items.length
          | 2 => x.displaced + 2 ^ 32 * x.refused
          | 3 => x.flushed + 2 ^ 32 * x.resetLost
          | _ => 0)
       else if x.openTid = some t ∧ !x.destroyed then
         (match i with
          | 0 => 3
          | 1 => sendCells x + 2 ^ 18 * x.sendLimit
          | _ => 0)
       else 0)
  | 2 =>
    (match rwin? s h with
     | none => 0
     | some x =>
       if x.ctx ≠ t then 0
       else
         (match i with
          | 0 => 1 + 2 ^ 32 * x.epoch
          | 1 => x.complete.length % 65536 + 2 ^ 16 * stickyWord x.sticky
          | _ => 0))
  | 3 => if (conn s h).st = .free ∨ (conn s h).ctx ≠ t then 0 else objConn (conn s h) i
  | _ => 0

/-- A register of the VF pages. -/
def readVfReg (s : State) (p f t r : Nat) : Nat :=
  if r < 0x1000 then vfStatus s p f t r
  else if 0x2000 ≤ r ∧ r < 0x2400 then
    match slotChan s t ((r - 0x2000) / 0x40) with
    | some (c, ch) => vfSlot c ch (r % 0x40)
    | none => 0
  else if r = 0x4000 then (Tab.get 0 s.fn.objSel (fnKey p f)).toNat
  else if 0x4008 ≤ r ∧ r < 0x4028 then objWord s t (Tab.get 0 s.fn.objSel (fnKey p f)).toNat ((r - 0x4008) / 8)
  else 0

/-- The reads of a port's VF fence complete: the partner holds every record of a write received on the port (R334). -/
def vfFenceReady (s : State) (p : Nat) : Bool :=
  fenceReady s || (decide (Tab.get 0 s.sm.portJsn p ≤ s.sm.jsnAcked) && !mirrorWaits s p)

/-- A read of VF BAR0. -/
def readVf (s0 s : State) (q : Req) (t : Nat) : Ans :=
  let off := q.offset
  if 0x5000 ≤ off then .next (answerUr s q)
  else if 0x3000 ≤ off ∧ off < 0x4000 then .next (answerData s q (fill q.length 0) (fun _ _ => false))
  else if !regAccess off q.length then .next (answerUr s q)
  else if off / 8 * 8 = 0x18 ∧ !vfFenceReady s q.port then idle s0
  else .next (answerWord s q (halfOf (readVfReg s q.port q.fn t (off / 8 * 8) % 2 ^ 64) off q.length))

/-- Program doorbell n of a tenant (R428). -/
def ringProgram (s : State) (t n : Nat) (v : Nat) : State :=
  raiseEvent s .doorbell (sourceKey t .doorbell n) (BitVec.ofNat 64 (v % 2 ^ 32)) none

/-- A write to a register of the VF pages. -/
def writeVfReg (s : State) (p f t r : Nat) (x : RegWrite) : State :=
  if r = 0 then clearNotice s p f x.act
  else if 0x1000 ≤ r ∧ r < 0x1200 then (if x.low then ringProgram s t ((r - 0x1000) / 8) x.rw else s)
  else if 0x2000 ≤ r ∧ r < 0x2400 then
    match slotChan s t ((r - 0x2000) / 0x40) with
    | some (c, _) =>
      if r % 0x40 = 0x10 then writeChan s t c 0x18 x
      else if r % 0x40 = 0x18 then writeChan s t c 0x20 x
      else s
    | none => s
  else if r = 0x4000 then
    { s with fn := { s.fn with objSel := Tab.set 0 s.fn.objSel (fnKey p f) (BitVec.ofNat 64 (fld x.rw 0 18)) } }
  else s

/-- A write to the registers of VF BAR0. -/
def writeVf (s : State) (q : Req) (t : Nat) (b : Bytes) : State :=
  if 0x5000 ≤ q.offset ∨ !regAccess q.offset b.length then answerUr s q
  else
    let r := q.offset / 8 * 8
    writeVfReg s q.port q.fn t r (regWriteOf (readVfReg s q.port q.fn t r) (q.offset % 8) b.length (le b))

/-- Writes of BAR0 that wait for every earlier posted write of the port to reach its ordering point: the doorbell of a pool ring and
FN_TACK (R274). -/
def waitsPosted (s : State) (q : Req) (t : Nat) : Bool :=
  let r := q.offset / 8 * 8
  let ring (c : Nat) : Bool := (chan s c).st != .free && (chan s c).ringPool
  q.offset % 8 == 0 && postedAhead s q.port &&
    (if q.fn = 0 then
       managerPort s q.port &&
         (r == 0x101028 || (decide (0x300000 ≤ r ∧ r < 0x310000) && r % 0x40 == 0x18 && ring ((r - 0x300000) / 0x40)))
     else
       decide (0x2000 ≤ r ∧ r < 0x2400) && r % 0x40 == 0x10 && (slotChan s t ((r - 0x2000) / 0x40)).any (fun e => ring e.1))

/-! The push page and the push buffer (R162, R163) -/

/-- A write of the push page forms an item. -/
def pushShape (off : Nat) (b : Bytes) : Bool :=
  let w := leAt b 0 8
  off % 64 == 0 && decide (9 ≤ b.length ∧ b.length ≤ 512) && decide (off % 4096 + b.length ≤ 4096) && fld w 14 2 == 0 &&
    fld w 19 45 == 0

/-- The item waits in the push buffer, behind the contribution lines that came before it. -/
def pushPage (s : State) (q : Req) (t cls : Nat) (b : Bytes) : State :=
  if !pushShape q.offset b then answerUr (count (notePoison s q.port q.poisoned) Reg.qmBadHost) q
  else
    let w := leAt b 0 8
    let x : HostPush := { fn := q.fn, queue := fld w 0 14, prio := fld w 16 3, bytes := b.drop 8, poison := q.poisoned
                          tag := mkTag t cls, waits := hostWaits s q.port }
    let s := { s with qm := { s.qm with pushes := Tab.upd [] s.qm.pushes q.port (fun l => l ++ [x]) } }
    if q.poisoned then aer (notePoison s q.port true) q.port q.fn false aerAdvisory else s

/-- HOST_PUSH_LINK: the oldest push of the port's buffer links once every contribution line received before it has entered its unit
(R163); one with no room under HOLD keeps waiting, and the later ones behind it; one refused for access is dropped as an Unsupported Request (Tables 06-3, 06-4). In safe state it is open whether a
push accepted before still links or is discarded (R361, log entry 67). -/
def execHostPushLink (p : Nat) (chk : QmCheck) (s0 : State) : Ans :=
  match Tab.get [] s0.qm.pushes p with
  | [] => idle s0
  | x :: rest =>
    let s := if s0.th.safe then useFree s0 else s0
    if x.waits.any (fun k => s0.ru.waiting.contains k) then idle s0
    else if s0.th.safe ∧ bit (freeWord s0).toNat 0 then .next { s with qm := { s.qm with pushes := Tab.set [] s.qm.pushes p rest } }
    else
      let s1 := qmChecked { s with qm := { s.qm with pushes := Tab.set [] s.qm.pushes p rest } } x.queue chk
      match push s1 x.queue x.prio x.tag x.bytes x.poison with
      | (.linked _, t) => .next (notePort t p s.sm.jsnSent)
      | (.access, t) => .next (aerFor (count t (Reg.hpUr p)) p x.fn true aerUr (some x.tag))
      | (.full, _) => idle s
      | (.wait, _) => .next (journalWait s)

/-! BAR4 (R302, R431) -/

/-- Eight bytes of BAR4: half a table entry, or a word of the Pending Bit Array; zero beyond the function's entries. -/
def readBar4 (s : State) (p f r : Nat) : Nat :=
  let n := fnVectors s p f
  if r < 0x8000 then
    if r / 16 < n then fld (msixEntry s p f (r / 16)).toNat (8 * (r % 16)) 64 else 0
  else
    let lo := 8 * (r - 0x8000)
    ((upto lo 64).map (fun v => if v < n ∧ pendGet s p f v then 2 ^ (v - lo) else 0)).sum

/-- The bits of a table entry that software can write: address from bit 2, data, the mask. -/
def msixBits (w : Nat) : Nat := fld w 0 97 / 4 * 4

/-- A write to BAR4: a table entry takes it, and a message that it unmasks leaves. -/
def writeBar4 (s : State) (p f off : Nat) (b : Bytes) : State :=
  let r := off / 8 * 8
  let v := r / 16
  if 0x8000 ≤ r ∨ fnVectors s p f ≤ v then s
  else
    let old := (msixEntry s p f v).toNat
    let half := (regWriteOf (readBar4 s p f r) (off % 8) b.length (le b)).rw
    let w := if r % 16 = 0 then old / 2 ^ 64 * 2 ^ 64 + half else old % 2 ^ 64 + 2 ^ 64 * half
    let m := Tab.set (BitVec.ofNat 128 (2 ^ 96)) s.fn.msix (2048 * fnKey p f + v) (BitVec.ofNat 128 (msixBits w))
    sendHeld { s with fn := { s.fn with msix := m } } p

/-! The Expansion ROM (R291) -/

/-- The place in the pool of a port's ROM image, once reads are served from the copies. -/
def romPlace (s : State) (p : Nat) : Option Nat :=
  (s.fn.romGran[p / 2]?).map (fun g => g * granuleBytes + p % 2 * 1048576)

/-- A read of the ROM image: from flash, or from its copy in the pool. -/
def readRom (s : State) (q : Req) : State :=
  match romPlace s q.port with
  | none => answerData s q (romBytes s q.port q.offset q.length) (fun _ _ => false)
  | some a =>
    let tag := mkTag mgt 1
    match check s tag (.ppa (a + q.offset)) false with
    | .allow x _ =>
      let s := eccSpan s x q.length tag
      answerData s q (poolBytes s x q.length) (fun o k => spanPoison s (x + (o - q.offset)) k)
    | .zero _ => answerData s q (fill q.length 0) (fun _ _ => false)
    | .deny g => answerCa (poolDenied s tag g) q (some tag)

/-- EXPANSION_ROM_READ. -/
def execExpansionRomRead (p off n : Nat) (s : State) : Ans :=
  let q : Req := { port := p, fn := 0, bar := 6, offset := off, length := n, write := false }
  through s q (fun s => .next (readRom s q))

/-! The commands -/

/-- A read request as its gate sees it. -/
def readReq (r : MemRead) : Req :=
  { port := r.port, fn := r.fn, bar := r.bar, offset := r.offset, length := r.length, write := false, relaxed := r.relaxed
    foreign := r.kind != .memoryRead }

/-- A posted write as its gate sees it. -/
def writeReq (w : MemWrite) : Req :=
  { port := w.port, fn := w.fn, bar := w.bar, offset := w.offset, length := w.bytes.length, write := true, poisoned := w.poisoned
    foreign := w.unsupported }

/-- A read that has arrived and been gated. -/
def hostReadServed (q : Req) (lat : Option Nat) (s0 s : State) : Ans :=
  if q.bar = 2 then .next (readWindow s0 s q lat)
  else if q.bar = 6 then .next (readRom s q)
  else if q.bar = 4 then
    .next (if regAccess q.offset q.length then
        answerWord s q (halfOf (readBar4 s q.port q.fn (q.offset / 8 * 8)) q.offset q.length)
      else answerUr s q)
  else if q.fn = 0 then readPf s0 s q
  else
    match boundTo s q.port q.fn with
    | none => idle s0
    | some (t, _) => readVf s0 s q t

/-- MEMORY_READ (R295, R423, R426, R431), with the bits of pool lines that flip before it, and its latency where the probe can record
it. -/
def execMemoryRead (r : MemRead) (upsets : Upsets) (lat : Option Nat) (s0 : State) : Ans :=
  through s0 (readReq r) (fun s => hostReadServed (readReq r) lat s0 (disturb s upsets))

/-- A posted write that has arrived and been gated. -/
def hostWriteServed (q : Req) (b : Bytes) (s0 s : State) : Ans :=
  if q.bar = 2 then
    (match writeWindow s0 s q b with
     | .next t => .next (notePort t q.port s0.sm.jsnSent)
     | r => r)
  else if q.bar = 6 then .next (answerUr (notePoison s q.port q.poisoned) q)
  else if q.bar = 0 ∧ q.fn ≠ 0 ∧ 0x3000 ≤ q.offset ∧ q.offset < 0x4000 then
    match boundTo s q.port q.fn with
    | none => idle s0
    | some (t, d) => .next (pushPage s q t d.pushClass b)
  else if q.poisoned then .next (dropPoisoned s q.port q.fn)
  else if q.bar = 4 then
    .next (if regAccess q.offset b.length then writeBar4 s q.port q.fn q.offset b else answerUr s q)
  else if q.fn = 0 then (if waitsPosted s q mgt then idle s0 else .next (writePf s q b))
  else
    match boundTo s q.port q.fn with
    | none => idle s0
    | some (t, _) => if waitsPosted s q t then idle s0 else .next (writeVf s q t b)

/-- A posted write: it waits while the port returns no credit for it (R143, R163). -/
def hostWrite (w : MemWrite) (s : State) : Ans :=
  if postedHeld s w.port then idle s else through s (writeReq w) (hostWriteServed (writeReq w) w.bytes s)

/-- MEMORY_WRITE (R295). -/
def execMemoryWrite (w : MemWrite) (s : State) : Ans := hostWrite w s

/-- REGISTER_WRITE: a write to BAR0 (R424). -/
def execRegisterWrite (who : FnRef) (off : Nat) (b : Bytes) (s : State) : Ans :=
  hostWrite { port := who.port, fn := who.fn, bar := 0, offset := off, bytes := b, poisoned := false } s

/-- PUSH_PAGE_WRITE (R162). -/
def execPushPageWrite (w : MemWrite) (s : State) : Ans :=
  if w.bar = 0 ∧ w.fn ≠ 0 ∧ 0x3000 ≤ w.offset ∧ w.offset < 0x4000 then hostWrite w s else idle s

/-- The offset in the function's BAR0 of register `o` of a channel: in the SH_ block, or in the tenant's channel page. None
when the function shows no such channel. -/
def chanReg (s : State) (who : FnRef) (c o : Nat) : Option Nat :=
  if who.fn = 0 then (if c < 1024 then some (0x300000 + 0x40 * c + o) else none)
  else
    match boundTo s who.port who.fn with
    | none => none
    | some (t, _) => if (chan s c).st != .free && (chan s c).ctx == t then (chan s c).slot.map (fun k => 0x2000 + 0x40 * k + o - 8) else none

/-- A write of 4 bytes to a register of a channel. -/
def chanWrite (who : FnRef) (c o v : Nat) (s : State) : Ans :=
  match chanReg s who c o with
  | none => idle s
  | some off => execRegisterWrite who off (toLe 4 v) s

/-- SH_CH_TAIL (R189, R190). -/
def execShChTail (who : FnRef) (c : Nat) (t : BitVec 32) (s : State) : Ans := chanWrite who c 0x18 t.toNat s

/-- PAUSE (R201). -/
def execPause (who : FnRef) (c : Nat) (s : State) : Ans := chanWrite who c 0x20 1 s

/-- RESUME (R203). -/
def execResume (who : FnRef) (c : Nat) (s : State) : Ans := chanWrite who c 0x20 2 s

/-- SKIP (R203). -/
def execSkip (who : FnRef) (c : Nat) (s : State) : Ans := chanWrite who c 0x20 4 s

/-- PROGRAM_DOORBELL (R428). -/
def execProgramDoorbell (who : FnRef) (n : Nat) (v : Word) (s : State) : Ans :=
  if who.fn = 0 ∨ 64 ≤ n then idle s else execRegisterWrite who (0x1000 + 8 * n) (toLe 8 v.toNat) s

/-- A register read by a function that has no other operands. -/
def readAt (who : FnRef) (off : Nat) (s : State) : Ans :=
  execMemoryRead { port := who.port, fn := who.fn, bar := 0, offset := off, length := 8 } [] none s

/-- SM_VF_PAIR_FENCE (R334). -/
def execSmVfPairFence (who : FnRef) (s : State) : Ans := if who.fn = 0 then idle s else readAt who 0x18 s

/-- SM_PAIR_FENCE (R334): through PF 0 of a manager port. -/
def execSmPairFence (p : Nat) (s : State) : Ans := readAt { port := p, fn := 0 } 0x700070 s

end Sys2Proof.Machine
end

