-- ==== Sys2Proof/Machine/ConfigSpace.lean ====
section
/-! DEFINITION. Configuration space (R286 to R290): what the manual gives of it, the fields that the device acts on, and the rest
as open bits. Offsets within a capability, and the fields' places, are those of the PCI Express standard (log entry 13). -/

namespace Sys2Proof.Machine

/-- A double word of configuration space as far as this manual, or a field that the device holds, gives it: the bits known and
their values. The other bits are open (`Config.configBits`). -/
structure CfgWord where
  known : Nat
  value : Nat
  deriving DecidableEq, Repr

/-- Every bit known. -/
def cfgAll (v : Nat) : CfgWord := { known := 0xFFFFFFFF, value := v }

/-- The header of an extended capability: ID, version 1, next. -/
def extCap (id version next : Nat) : CfgWord := cfgAll (id + 2 ^ 16 * version + 2 ^ 20 * next)

/-- The half of a 64-bit BAR of a power-of-two size: the address bits stored, and the type bits. -/
def barWord (s : State) (p off log2 : Nat) (high prefetch : Bool) : CfgWord :=
  let w := (cfgGet s p 0 off).toNat
  let shift := if high then log2 - 32 else log2
  if !high && decide (32 ≤ log2) then cfgAll (if prefetch then 0xC else 4)
  else cfgAll (w / 2 ^ shift * 2 ^ shift + (if high then 0 else if prefetch then 0xC else 4))

/-- The BARs of PF 0, and the VF BARs of its SR-IOV capability (Table 11-3). -/
def barOf (s : State) (p : Nat) (base off : Nat) (log0 log2 : Nat) (bar2 : Bool) : CfgWord :=
  let i := (off - base) / 4
  if i = 0 ∨ i = 1 then barWord s p off log0 (i == 1) false
  else if i = 2 ∨ i = 3 then (if bar2 then barWord s p off log2 (i == 3) true else cfgAll 0)
  else barWord s p off 16 (i == 5) false

/-- Link Control and Link Status of a port: speed code and negotiated width. -/
def linkStatusWord (s : State) (p ctl : Nat) : CfgWord :=
  { known := 0x03FFFFFF, value := ctl % 2 ^ 16 + 2 ^ 16 * (port s p).speed + 2 ^ 20 * (port s p).width }

/-- PMCSR: PowerState reads the latest value written, No_Soft_Reset 1, PME_En, PME_Status (R264, R266). -/
def pmcsrWord (s : State) (p : Nat) : Nat :=
  (if (port s p).latestD3 then 3 else 0) + 8 + ((cfgGet s p 0 Cfg.pmcsr).toNat &&& 0x8100)

/-- Registers that PF 0 and the VFs hold each for themselves. -/
def ownCfg (s : State) (p f off : Nat) : Option CfgWord :=
  let w := (cfgGet s p f off).toNat
  let pf := (cfgGet s p 0 off).toNat
  if off = Cfg.command then some { known := 0x0010FFFF, value := w % 2 ^ 16 + 0x00100000 }
  else if off = Cfg.msixCtl then
    some (cfgAll (0x11 + 2 ^ 8 * 0x60 + 2 ^ 16 * (fnVectors s p f - 1) + (w &&& 0xC0000000)))
  else if off = 0x54 then some (cfgAll 4)
  else if off = 0x58 then some (cfgAll 0x8004)
  else if off = 0x60 then some (cfgAll 0x00020010)
  else if off = 0x64 then some { known := 0x10008007, value := 0x10008002 }
  else if off = Cfg.devCtl then
    some { known := 0xFFFF, value := (w &&& 0x8F1F) + (pf &&& 0x70E0) }
  else if off = 0x6C then some { known := 0x38FFF, value := 0x20806 + 16 * portWidth s p }
  else if off = 0x84 then some { known := 0x303DF, value := 0x3001F }
  else if off = 0x100 then some (extCap 1 2 0x148)
  else if off = Cfg.aerUnc ∨ off = Cfg.aerUncMask ∨ off = Cfg.aerCor ∨ off = Cfg.aerCorMask then some (cfgAll w)
  else if off = Cfg.aerUncSev then some (cfgAll pf)
  else none

/-- Configuration space of PF 0 (Tables 11-1, 11-2, R289). -/
def pfCfg (s : State) (p off : Nat) : CfgWord :=
  let w := (cfgGet s p 0 off).toNat
  match ownCfg s p 0 off with
  | some c => c
  | none =>
    match off with
    | 0x00 => cfgAll 0x82561F3D
    | 0x08 => cfgAll (Config.stepping.toNat + 2 ^ 8 * 0x120000)
    | 0x0C => { known := 0x00FF00FF, value := w % 256 }
    | 0x2C => cfgAll (keepNat s Keep.subsys % 2 ^ 32)
    | 0x30 => cfgAll (w &&& 0xFFF00001)
    | 0x34 => cfgAll 0x40
    | 0x3C => cfgAll (w % 256)
    | 0x40 => cfgAll 0xC8035001
    | 0x44 => cfgAll (pmcsrWord s p)
    | 0x70 => linkStatusWord s p w
    | 0x88 => { known := 0xFFFF, value := w % 2 ^ 16 }
    | 0x90 => { known := 0xFFFF, value := w % 2 ^ 16 }
    | 0x148 => extCap 0x0E 1 0x150
    | 0x14C => { known := 0xFF00, value := 0 }
    | 0x150 => extCap 0x10 1 0x190
    | 0x154 => { known := 1, value := 0 }
    | 0x158 => { known := 0xFFFF, value := w % 2 ^ 16 }
    | 0x15C => cfgAll 0x00FF00FF
    | 0x160 => cfgAll (w % 2 ^ 16)
    | 0x164 => cfgAll 0x00010001
    | 0x168 => cfgAll 0x82570000
    | 0x16C => cfgAll 0x553
    | 0x170 => cfgAll w
    | 0x190 => extCap 0x19 1 0x1C0
    | 0x1C0 => extCap 0x25 1 0x1D0
    | 0x1D0 => extCap 0x26 1 0x200
    | 0x200 => extCap 0x2A 1 0x230
    | 0x230 => extCap 0x31 1 0x250
    | 0x250 => extCap 0x27 1 0x2A0
    | 0x2A0 => extCap 0x1E 1 0x2B0
    | 0x2A4 => { known := 0xFF1F, value := 0x201A }
    | 0x2A8 => cfgAll w
    | 0x2B0 => extCap 3 1 0x2C0
    | 0x2B4 => cfgAll (Config.serialNumber.toNat % 2 ^ 32)
    | 0x2B8 => cfgAll (Config.serialNumber.toNat / 2 ^ 32)
    | 0x2C0 => extCap 0x2F 1 0
    | 0x2C4 => { known := 6, value := 6 }
    | 0x2C8 => { known := 0xFFFF, value := w % 2 ^ 16 }
    | _ =>
      if 0x10 ≤ off ∧ off < 0x28 then barOf s p 0x10 off 24 38 (managerPort s p)
      else if 0x174 ≤ off ∧ off < 0x18C then barOf s p 0x174 off 16 s.fn.bar2Log2 true
      else { known := 0, value := 0 }

/-- Configuration space of a VF (R288): its own registers, and PF 0's for the rest that is shared. Capabilities that it lacks
read zero. -/
def vfCfg (s : State) (p f off : Nat) : CfgWord :=
  match ownCfg s p f off with
  | some c => if off = Cfg.command then { known := c.known, value := c.value &&& 0xFFFFFFFD } else c
  | none =>
    if off = 0 then cfgAll 0xFFFFFFFF
    else if 0x10 ≤ off ∧ off < 0x28 then cfgAll 0
    else if off = 0x30 then cfgAll 0
    else if off = 0x34 then cfgAll 0x50
    else if off = 0x148 then extCap 0x0E 1 0
    else if (0x40 ≤ off ∧ off < 0x50) ∨ (0x150 ≤ off) then cfgAll 0
    else pfCfg s p off

/-- A configuration register as it reads. -/
def readCfg (s : State) (p f off : Nat) : Nat :=
  let c := if f = 0 then pfCfg s p off else vfCfg s p f off
  let free := (Config.configBits p f off (cfgGet s p f off)).toNat
  (free &&& (0xFFFFFFFF - c.known)) ||| (c.value &&& c.known)

/-- Store the bits of a mask; the others stay. -/
def cfgStore (s : State) (p f off mask : Nat) (w : Nat) : State :=
  cfgSet s p f off (BitVec.ofNat 32 (((cfgGet s p f off).toNat &&& (0xFFFFFFFF - mask)) ||| (w &&& mask)))

/-- Bits cleared by writing 1. -/
def cfgClear (s : State) (p f off w : Nat) : State :=
  cfgSet s p f off (cfgGet s p f off &&& ~~~(BitVec.ofNat 32 w))

/-- PMCSR: a PowerState of D0 or D3hot starts a change; D1 and D2 are ignored (Table 10-1). WAKE# falls with PME_Status (R265). -/
def writePmcsr (s : State) (p w : Nat) : State :=
  let s := cfgStore s p 0 Cfg.pmcsr 0x100 w
  let s := if bit w 15 then setPort (cfgClear s p 0 Cfg.pmcsr 0x8000) p { port s p with wake := false } else s
  if fld w 0 2 = 0 then after s (execPowerstateWrite p false s)
  else if fld w 0 2 = 3 then after s (execPowerstateWrite p true s)
  else s

/-- Link Control: Retrain Link trains the link again, within the speed that HP_LINK_CFG allows (R261). -/
def writeLinkCtl (s : State) (p w : Nat) : State :=
  let s := cfgStore s p 0 Cfg.linkCtl 0xFFDF w
  if bit w 5 && (port s p).link then
    retrain s p
  else s

/-- SR-IOV Control: VF Enable cleared quiesces the VFs (R309); VF Enable set without ARI Capable Hierarchy is reported (R289). -/
def writeSriov (s : State) (p w : Nat) : State :=
  let was := cfgBit s p 0 Cfg.sriovCtl 0
  let s := if was && !bit w 0 then after s (execVfEnableClear p s) else s
  let s := cfgStore s p 0 Cfg.sriovCtl 0x1F w
  if bit w 0 && !was && !bit w 4 then
    raiseSrc { s with fn := { s.fn with ariMissing := Tab.set false s.fn.ariMissing p true } } Src.fnAriMissing
      { object := 1, index := p }
  else s

/-- Device Control: Initiate Function Level Reset acts and reads 0 (R267, R307). -/
def writeDevCtl (s : State) (p f w : Nat) : State :=
  let s := cfgStore s p f Cfg.devCtl 0x7FFF w
  if bit w 15 then after s (if f = 0 then execPfFlr p s else execInitiateFlr p f s) else s

/-- Some pending message of a function is one that it would send. -/
def wouldSend (s : State) (p f : Nat) : Bool :=
  s.fn.pend.any (fun e => e.1 / 2048 == fnKey p f && msixOpen s p f (e.1 % 2048))

/-- MSI-X Message Control: a message that it opens leaves, or raises PME on a port that holds it in D3hot (R264). -/
def writeMsixCtl (s : State) (p f w : Nat) : State :=
  let t := cfgStore s p f Cfg.msixCtl 0xC0000000 w
  sendHeld (if !wouldSend s p f && wouldSend t p f then pmeRaise t p else t) p

/-- A configuration write of a register that PF 0 and the VFs hold each. -/
def writeOwnCfg (s : State) (p f off w : Nat) : State :=
  if off = Cfg.command then cfgStore s p f off 0x0546 w
  else if off = Cfg.msixCtl then writeMsixCtl s p f w
  else if off = Cfg.devCtl then writeDevCtl s p f w
  else if off = Cfg.aerUnc ∨ off = Cfg.aerCor then cfgClear s p f off w
  else if off = Cfg.aerUncMask ∨ off = Cfg.aerCorMask then cfgStore s p f off 0xFFFFFFFF w
  else s

/-- A configuration write of PF 0. NumVFs is ignored while VF Enable is set, and above TotalVFs. -/
def writePfCfg (s : State) (p off w : Nat) : State :=
  if off = 0x44 then writePmcsr s p w
  else if off = Cfg.linkCtl then writeLinkCtl s p w
  else if off = Cfg.sriovCtl then writeSriov s p w
  else if off = Cfg.numVfs then
    (if cfgBit s p 0 Cfg.sriovCtl 0 ∨ 255 < fld w 0 16 then s else cfgStore s p 0 off 0xFFFF w)
  else if off = Cfg.aerUncSev then cfgStore s p 0 off 0xFFFFFFFF w
  else writeOwnCfg (if (ownCfg s p 0 off).isSome then s else cfgStore s p 0 off 0xFFFFFFFF w) p 0 off w

/-- CONFIGURATION_REQUEST: Request Retry Status until firmware has loaded the port's configuration and during the function's
FLR (R261, R307); else the register, or its write. -/
def execConfigurationRequest (who : FnRef) (off : Nat) (write : Option (BitVec 32)) (s : State) : Ans :=
  let p := who.port
  let f := who.fn
  if 8 ≤ p ∨ !(port s p).link ∨ mergedUpper s p ∨ (f ≠ 0 ∧ !vfPresented s p f) ∨ 256 ≤ f ∨ off % 4 ≠ 0 ∨ 4096 ≤ off then idle s
  else
    let s := leaveL1 s p
    if !s.pw.clkPll ∨ inFlr s p f then .next (emit (transmit s p 0) (.cplRetry p f))
    else
      match write with
      | none => .next (emit (transmit s p 4) (.cplData p f 4 (off % 128) (toLe 4 (readCfg s p f off)) false false (idoCompletion s p)))
      | some w =>
        let s := if f = 0 then writePfCfg s p off w.toNat else writeOwnCfg s p f off w.toNat
        .next (emit (transmit s p 0) (.cplStatus p f .sc false (idoCompletion s p)))

end Sys2Proof.Machine
end

