-- ==== Sys2Proof/Machine/Isa.lean ====
section
/-! DEFINITION. The Nguron instructions other than the attachments (chapter 02): scalar and predicate arithmetic, scratch, specials
and system registers, branches, vectors, and the SYS instructions. -/

namespace Sys2Proof.Machine

/-! Scalar instructions (Tables 02-6, 02-7) -/

/-- Count of one bits. -/
def popCount (w : Nat) : Nat := ((upto 0 64).filter (fun i => bit w i)).length

/-- Sign extension of the low n bits to 64. -/
def sext (n : Nat) (x : Word) : Word := BitVec.ofInt 64 (signed (fld x.toNat 0 n) n)

/-- Table 02-6: the result of a function on ra and rb; `d` is rd before, `p` the predicates. -/
def aluFn (fn : Nat) (a b d : Word) (p : BitVec 8) : Word :=
  let sh := b.toNat % 64
  match fn with
  | 0x00 => a + b
  | 0x01 => a - b
  | 0x02 => a &&& b
  | 0x03 => a ||| b
  | 0x04 => a ^^^ b
  | 0x05 => a &&& ~~~b
  | 0x06 => a <<< sh
  | 0x07 => a >>> sh
  | 0x08 => a.sshiftRight sh
  | 0x09 => a.rotateRight sh
  | 0x0A => a * b
  | 0x0B => BitVec.ofInt 64 (a.toInt * b.toInt / 2 ^ 64)
  | 0x0C => BitVec.ofNat 64 (a.toNat * b.toNat / 2 ^ 64)
  | 0x0D => if b = 0 then BitVec.ofNat 64 (2 ^ 64 - 1) else BitVec.ofNat 64 (a.toNat / b.toNat)
  | 0x0E => if b = 0 then a else BitVec.ofNat 64 (a.toNat % b.toNat)
  | 0x0F => if b = 0 then BitVec.ofNat 64 (2 ^ 64 - 1) else BitVec.ofInt 64 (Int.tdiv a.toInt b.toInt)
  | 0x10 => if b = 0 then a else BitVec.ofInt 64 (Int.tmod a.toInt b.toInt)
  | 0x11 => if slt b a then b else a
  | 0x12 => if slt a b then b else a
  | 0x13 => if ult b a then b else a
  | 0x14 => if ult a b then b else a
  | 0x15 => if a = 0 then 64 else BitVec.ofNat 64 (63 - Nat.log2 a.toNat)
  | 0x16 => BitVec.ofNat 64 ((firstUpto (bit a.toNat) 0 64).getD 64)
  | 0x17 => BitVec.ofNat 64 (popCount a.toNat)
  | 0x18 => BitVec.ofNat 64 (be (toLe 8 a.toNat))
  | 0x19 => sext 8 a
  | 0x1A => sext 16 a
  | 0x1B => sext 32 a
  | 0x1C => if b = 0 then d else a
  | _ => BitVec.ofNat 64 (p.toNat / 2 * 2 + 1)

/-- ALU. -/
def execAlu (t : Nat) (s : State) : Ans :=
  regOnly t .alu s (fun th w => sSet (wRd w) (aluFn (wFn w) (sGet th (wRa w)) (sGet th (wRb w)) (sGet th (wRd w)) th.p))

/-- Table 02-7 without PLOAD. -/
def pcmpFn (th : Thread) (w : Nat) : Bool :=
  let a := sGet th (wRa w)
  let b := sGet th (wRb w)
  let pa := pGet th (wRa w)
  let pb := pGet th (wRb w)
  match wFn w with
  | 0x00 => a == b
  | 0x01 => a != b
  | 0x02 => slt a b
  | 0x03 => !slt a b
  | 0x04 => ult a b
  | 0x05 => !ult a b
  | 0x06 => bit a.toNat (b.toNat % 64)
  | 0x07 => a != 0
  | 0x10 => pa && pb
  | 0x11 => pa || pb
  | 0x12 => pa != pb
  | _ => pa && !pb

/-- PCMP; PLOAD writes p1 to p7. -/
def execPcmp (t : Nat) (s : State) : Ans :=
  regOnly t .pcmp s (fun th w x =>
    if wFn w = 0x14 then { x with p := BitVec.ofNat 8 ((sGet th (wRa w)).toNat / 2 * 2 + 1) }
    else pSet (wRd w) (pcmpFn th w) x)

/-- An I-format instruction that writes rd from ra and the word. -/
def immOp (t : Nat) (op : NOp) (s : State) (f : Word → Nat → Word) : Ans :=
  regOnly t op s (fun th w => sSet (wRd w) (f (sGet th (wRa w)) w))

/-- Zero-extended immediate. -/
def immZ (w : Nat) : Word := BitVec.ofNat 64 (wImm w)

/-- ADDI. -/
def execAddi (t : Nat) (s : State) : Ans := immOp t .addi s (fun a w => a + immS w)
/-- ANDI. -/
def execAndi (t : Nat) (s : State) : Ans := immOp t .andi s (fun a w => a &&& immZ w)
/-- ORI. -/
def execOri (t : Nat) (s : State) : Ans := immOp t .ori s (fun a w => a ||| immZ w)
/-- XORI. -/
def execXori (t : Nat) (s : State) : Ans := immOp t .xori s (fun a w => a ^^^ immZ w)
/-- SLLI. -/
def execSlli (t : Nat) (s : State) : Ans := immOp t .slli s (fun a w => a <<< fld w 0 6)
/-- SRLI. -/
def execSrli (t : Nat) (s : State) : Ans := immOp t .srli s (fun a w => a >>> fld w 0 6)
/-- SRAI. -/
def execSrai (t : Nat) (s : State) : Ans := immOp t .srai s (fun a w => a.sshiftRight (fld w 0 6))

/-- MOVK0 to MOVK3: bits [16k+15:16k] replaced, k = OP − 0x10. -/
def movk (a : Word) (w : Nat) : Word :=
  let k := 16 * (wOp w - 0x10)
  BitVec.ofNat 64 (a.toNat - fld a.toNat k 16 * 2 ^ k + wImm w * 2 ^ k)

/-- MOVK. -/
def execMovk (t : Nat) (s : State) : Ans := immOp t .movk s movk

/-- An I-format compare. -/
def immCmp (t : Nat) (op : NOp) (s : State) (f : Word → Word → Bool) : Ans :=
  regOnly t op s (fun th w => pSet (wRd w) (f (sGet th (wRa w)) (immS w)))

/-- PEQI. -/
def execPeqi (t : Nat) (s : State) : Ans := immCmp t .peqi s (fun a i => a == i)
/-- PNEI. -/
def execPnei (t : Nat) (s : State) : Ans := immCmp t .pnei s (fun a i => a != i)
/-- PLTI. -/
def execPlti (t : Nat) (s : State) : Ans := immCmp t .plti s slt
/-- PGEI. -/
def execPgei (t : Nat) (s : State) : Ans := immCmp t .pgei s (fun a i => !slt a i)
/-- PLTUI. -/
def execPltui (t : Nat) (s : State) : Ans := immCmp t .pltui s ult
/-- PGEUI. -/
def execPgeui (t : Nat) (s : State) : Ans := immCmp t .pgeui s (fun a i => !ult a i)

/-! Scratch and control space (R31, R32, R37, R432) -/

/-- What an access of n bytes meets before POISON; none when it may go on. -/
def scratchFault (t : Nat) (th : Thread) (a n : Nat) : Option PFault :=
  if a % n ≠ 0 then some (alignFault a)
  else if inControl t a then
    (if n ≠ 4 ∧ n ≠ 8 then some (alignFault a)
     else if reservedOff (a - 0x1000000) then some (rangeFault a) else none)
  else if th.scratchSize < a + n then some (rangeFault a)
  else none

/-- A load of n bytes: `put` writes the destination. A read of SM_PAIR_FENCE waits for the partner (R334). -/
def loadBody (t n : Nat) (put : Nat → Bytes → Thread → Thread) (s : State) (th : Thread) (w : Nat) : TRes :=
  let a := scratchAddr th w
  match scratchFault t th a n with
  | some f => .fault s f
  | none =>
    if inControl t a ∧ (a - 0x1000000) / 8 * 8 = 0x700070 ∧ !fenceReady s then .hold s
    else if inControl t a then
      let (v, s) := engineRead s (a - 0x1000000) n
      .ok s (put (wRd w) (toLe n v))
    else if scratchPoison th a n then .fault s (poisonFault a)
    else .ok s (put (wRd w) (scratchRead th a n))

/-- A store of the bytes of the source register. -/
def storeBody (t n : Nat) (get : Thread → Nat → Bytes) (s : State) (th : Thread) (w : Nat) : TRes :=
  let a := scratchAddr th w
  match scratchFault t th a n with
  | some f => .fault s f
  | none =>
    if inControl t a then .ok (engineWrite s (a - 0x1000000) n (le (get th (wRd w)))) id
    else .ok s (scratchStore a (get th (wRd w)))

/-- A scalar destination takes the bytes zero-extended. -/
def putScalar (rd : Nat) (b : Bytes) : Thread → Thread := sSet rd (BitVec.ofNat 64 (le b))

def putVector (rd : Nat) (b : Bytes) : Thread → Thread := vSet rd (bytesLine b)

/-- The low n bytes of a scalar source. -/
def getScalar (n : Nat) (th : Thread) (rd : Nat) : Bytes := toLe n (sGet th rd).toNat

def getVector (th : Thread) (rd : Nat) : Bytes := lineBytes (vGet th rd)

/-- A scratch load or store as an instruction. -/
def memOp (t : Nat) (op : NOp) (s : State) (body : State → Thread → Nat → TRes) : Ans :=
  issue t op (fun _ => true) s body

/-- LDB. -/
def execLdb (t : Nat) (s : State) : Ans := memOp t .ldb s (loadBody t 1 putScalar)
/-- LDH. -/
def execLdh (t : Nat) (s : State) : Ans := memOp t .ldh s (loadBody t 2 putScalar)
/-- LDW. -/
def execLdw (t : Nat) (s : State) : Ans := memOp t .ldw s (loadBody t 4 putScalar)
/-- LDD. -/
def execLdd (t : Nat) (s : State) : Ans := memOp t .ldd s (loadBody t 8 putScalar)
/-- STB. -/
def execStb (t : Nat) (s : State) : Ans := memOp t .stb s (storeBody t 1 (getScalar 1))
/-- STH. -/
def execSth (t : Nat) (s : State) : Ans := memOp t .sth s (storeBody t 2 (getScalar 2))
/-- STW. -/
def execStw (t : Nat) (s : State) : Ans := memOp t .stw s (storeBody t 4 (getScalar 4))
/-- STD. -/
def execStd (t : Nat) (s : State) : Ans := memOp t .std s (storeBody t 8 (getScalar 8))
/-- VLD. -/
def execVld (t : Nat) (s : State) : Ans := memOp t .vld s (loadBody t 64 putVector)
/-- VST. -/
def execVst (t : Nat) (s : State) : Ans := memOp t .vst s (storeBody t 64 getVector)

/-! Specials and system registers (R38, Table 16-1) -/

/-- RDSP: BUDGET reads what remains after this instruction (R62). -/
def execRdsp (t : Nat) (s : State) : Ans :=
  regOnly t .rdsp s (fun th w => sSet (wRd w) (special s t (advance t th) (wImm w)))

/-- SR_MB_PEND: the sources with a doorbell not yet taken up. -/
def mbPend (s : State) : Nat := ((upto 0 9).map (fun i => if (mbox s i).pending then 2 ^ i else 0)).sum

/-- MFS: SR_TICK and SR_MB_PEND. -/
def execMfs (t : Nat) (s : State) : Ans :=
  regOnly t .mfs s (fun _ w => sSet (wRd w) (BitVec.ofNat 64 (if wImm w = 0 then s.mg.tick else mbPend s)))

/-- SR_WDT: the watchdog restarts (R406). -/
def execSrWdt (t : Nat) (s : State) : Ans :=
  issue t .mts (fun w => wImm w == 1) s (fun s _ _ =>
    .ok { s with mg := { s.mg with wdtLeft := fld (regNat s Reg.mgWdt) 0 8 } } id)

/-- SR_KP_OPEN: the keep registers open until the next tick (R418). -/
def execSrKpOpen (t : Nat) (s : State) : Ans :=
  issue t .mts (fun w => wImm w == 3) s (fun s th w =>
    .ok (if bit (sGet th (wRd w)).toNat 0 then { s with mg := { s.mg with kpOpen := true } } else s) id)

/-- SR_RESET: 0x5253 resets the device with cause MANAGEMENT; other values are ignored. -/
def execSrReset (t : Nat) (s : State) : Ans :=
  issue t .mts (fun w => wImm w == 4) s (fun s th w =>
    if sGet th (wRd w) = 0x5253 then .leave (deviceReset s 3) else .ok s id)

/-! Branches (R39, R40) -/

/-- Bytes of the thread's code section. -/
def codeLen (s : State) (t : Nat) (th : Thread) : Nat := 4 * (codeOf s t th).length

/-- BR. -/
def execBr (t : Nat) (s : State) : Ans :=
  issue t .br (fun _ => true) s (fun s th w =>
    let taken := pGet th (wPt w) != wSn w
    let target : Int := (th.pc : Int) + 4 * wOff w
    if taken ∧ (target < 0 ∨ (codeLen s t th : Int) ≤ target) then .fault s (FaultCode.fetch, BitVec.ofInt 64 target)
    else .ok s (fun x =>
      sSet (wRd w) (BitVec.ofNat 64 (th.pc + 4)) (if taken then { x with pc := target.toNat } else x)))

/-- JALR. The target is ra as it was before the link is written, also where rd and ra are one register (DEDUCED, log entry
59). -/
def execJalr (t : Nat) (s : State) : Ans :=
  issue t .jalr (fun _ => true) s (fun s th w =>
    let target := (sGet th (wRa w)).toNat
    if target % 4 ≠ 0 ∨ 2 ^ (if t = mgEngine then 18 else 15) ≤ target ∨ codeLen s t th ≤ target then
      .fault s (FaultCode.fetch, BitVec.ofNat 64 target)
    else .ok s (fun x => sSet (wRd w) (BitVec.ofNat 64 (th.pc + 4)) { x with pc := target }))

/-! Vectors (R41 to R48) -/

/-- Lane result of VARITH on bit patterns of element type `et`; `d` is the lane of vd, `sh` the scalar of a shift. -/
def varithLane (vf et : Nat) (d a b sh : Nat) : Nat :=
  let n := 8 * etSize et
  let x := signed a n
  let y := signed b n
  let k := sh % n
  match fmtOf et with
  | some f =>
    (match vf with
     | 0x0 => encodeF f false ((decodeF f a).add (decodeF f b))
     | 0x1 => encodeF f false ((decodeF f a).add (decodeF f b).neg)
     | 0x2 => encodeF f false ((decodeF f a).mul (decodeF f b))
     | 0x3 => fmin f a b
     | 0x4 => fmax f a b
     | 0x7 => a &&& b
     | 0x8 => a ||| b
     | 0x9 => a ^^^ b
     | _ => encodeF f false ((decodeF f d).add ((decodeF f a).mul (decodeF f b))))
  | none =>
    (match vf with
     | 0x0 => unsigned n (x + y)
     | 0x1 => unsigned n (x - y)
     | 0x2 => unsigned n (x * y)
     | 0x3 => if y < x then b else a
     | 0x4 => if x < y then b else a
     | 0x5 => min a b
     | 0x6 => max a b
     | 0x7 => a &&& b
     | 0x8 => a ||| b
     | 0x9 => a ^^^ b
     | 0xB => a * 2 ^ k % 2 ^ n
     | 0xC => a / 2 ^ k
     | _ => unsigned n (x / (2 ^ k : Nat)))

/-- VARITH. -/
def execVarith (t : Nat) (s : State) : Ans :=
  regOnly t .varith s (fun th w =>
    let et := wEt w
    let b := if 0xB ≤ wVf w then 0 else vGet th (wRb w)
    let sh := (sGet th (wRb w)).toNat
    let f (i : Nat) : Nat := varithLane (wVf w) et (lane (vGet th (wRd w)) (etSize et) i) (lane (vGet th (wRa w)) (etSize et) i)
      (lane b (etSize et) i) sh
    vSet (wRd w) (ofLanes et ((upto 0 (etLanes et)).map f)))

/-- The vector that VCVT writes (R44). -/
def vcvt (src dst part : Nat) (sat : Bool) (a d : Line) : Line :=
  let n := etLanes dst
  let m := etLanes src
  if etSize src ≤ etSize dst then ofLanes dst ((upto (part * n) n).map (fun i => convert src dst sat (lane a (etSize src) i)))
  else ofLanes dst ((upto 0 n).map (fun i =>
    if part * m ≤ i ∧ i < part * m + m then convert src dst sat (lane a (etSize src) (i - part * m))
    else lane d (etSize dst) i))

/-- VCVT. -/
def execVcvt (t : Nat) (s : State) : Ans :=
  regOnly t .vcvt s (fun th w =>
    vSet (wRd w) (vcvt (wEt w) (wRb w) (wVf w / 2) (bit (wVf w) 0) (vGet th (wRa w)) (vGet th (wRd w))))

/-- The pairwise sum of R45 on FP32 bit patterns, at most `fuel` halvings. -/
def pairSum : Nat → List Nat → Nat
  | 0, l => l.headD 0
  | fuel + 1, l =>
    if l.length ≤ 1 then l.headD 0
    else
      pairSum fuel (List.zipWith (fun a b => encodeF fp32 false ((decodeF fp32 a).add (decodeF fp32 b)))
        (l.take (l.length / 2)) (l.drop (l.length / 2)))

/-- Combine the lanes from the first on. -/
def foldLanes (f : Nat → Nat → Nat) : List Nat → Nat
  | [] => 0
  | a :: l => l.foldl f a

/-- VRED's result (R45). -/
def vred (vf et : Nat) (v : Line) : Word :=
  let l := lanesOf v et
  let n := 8 * etSize et
  let sgn (x : Nat) : Word := BitVec.ofInt 64 (signed x n)
  match fmtOf et, vf with
  | some _, 0 => BitVec.ofNat 64 (pairSum 6 (l.map (convert et 4 false)))
  | some f, 2 => BitVec.ofNat 64 (foldLanes (fmin f) l)
  | some f, 3 => BitVec.ofNat 64 (foldLanes (fmax f) l)
  | none, 0 => BitVec.ofInt 64 ((l.map (fun x => signed x n)).sum)
  | none, 2 => sgn (foldLanes (fun a b => if signed b n < signed a n then b else a) l)
  | none, 3 => sgn (foldLanes (fun a b => if signed a n < signed b n then b else a) l)
  | _, 1 => BitVec.ofNat 64 l.sum
  | _, 4 => BitVec.ofNat 64 (foldLanes min l)
  | _, 5 => BitVec.ofNat 64 (foldLanes max l)
  | _, 6 => BitVec.ofNat 64 (foldLanes (fun a b => a &&& b) l)
  | _, 7 => BitVec.ofNat 64 (foldLanes (fun a b => a ||| b) l)
  | _, _ => BitVec.ofNat 64 (foldLanes (fun a b => a ^^^ b) l)

/-- VRED. -/
def execVred (t : Nat) (s : State) : Ans :=
  regOnly t .vred s (fun th w => sSet (wRd w) (vred (wVf w) (wEt w) (vGet th (wRa w))))

/-- VCMP on one lane (R46). -/
def vcmpLane (vf et a b : Nat) : Bool :=
  let n := 8 * etSize et
  match fmtOf et with
  | some f =>
    if isNan f a || isNan f b then vf == 1
    else
      (match vf with
       | 0 => valueKey f a == valueKey f b
       | 1 => valueKey f a != valueKey f b
       | 2 => decide (valueKey f a < valueKey f b)
       | _ => decide (valueKey f a ≤ valueKey f b))
  | none =>
    (match vf with
     | 0 => a == b
     | 1 => a != b
     | 2 => decide (signed a n < signed b n)
     | 3 => decide (signed a n ≤ signed b n)
     | 4 => decide (a < b)
     | _ => decide (a ≤ b))

/-- VCMP. -/
def execVcmp (t : Nat) (s : State) : Ans :=
  regOnly t .vcmp s (fun th w =>
    let et := wEt w
    let f (i : Nat) : Nat :=
      if vcmpLane (wVf w) et (lane (vGet th (wRa w)) (etSize et) i) (lane (vGet th (wRb w)) (etSize et) i) then 2 ^ i else 0
    sSet (wRd w) (BitVec.ofNat 64 (((upto 0 (etLanes et)).map f).sum)))

/-- VMERGE. -/
def execVmerge (t : Nat) (s : State) : Ans :=
  regOnly t .vmerge s (fun th w =>
    let et := wEt w
    let m := (sGet th (wRb w)).toNat
    vSet (wRd w) (ofLanes et ((upto 0 (etLanes et)).map (fun i =>
      lane (vGet th (if bit m i then wRa w else wRd w)) (etSize et) i))))

/-- VMOVE (R48): a lane index at or above the lane count faults RANGE. -/
def vmoveBody (s : State) (th : Thread) (w : Nat) : TRes :=
  let et := wEt w
  let sz := etSize et
  let d := vGet th (wRd w)
  let a := vGet th (wRa w)
  let low := (sGet th (wRa w)).toNat % 2 ^ (8 * sz)
  let i := (sGet th (wRb w)).toNat
  match wVf w with
  | 0 => .ok s (vSet (wRd w) a)
  | 1 => .ok s (vSet (wRd w) (ofLanes et (List.replicate (etLanes et) low)))
  | 2 =>
    if etLanes et ≤ i then .fault s (rangeFault i)
    else .ok s (vSet (wRd w) (ofLanes et ((upto 0 (etLanes et)).map (fun k => if k = i then low else lane d sz k))))
  | 3 =>
    if etLanes et ≤ i then .fault s (rangeFault i) else .ok s (sSet (wRd w) (BitVec.ofNat 64 (lane a sz i)))
  | 4 => .ok s (vSet (wRd w) 0)
  | _ => .ok s (vSet (wRd w) (ofLanes 0 ((lanesOf (vGet th (wRb w)) 0).map (fun x => lane a 1 (x % 64)))))

/-- VMOVE. -/
def execVmove (t : Nat) (s : State) : Ans := issue t .vmove (fun _ => true) s vmoveBody

/-! SYS (R60, R61, R67) -/

/-- FENCE: every earlier attachment instruction of the thread is performed whole at its issue, and a PLD completes before the
fence may issue, so that nothing is left to wait for. -/
def execFence (t : Nat) (s : State) : Ans := regOnly t .fence s (fun _ _ x => x)

/-- YIELD: the activation ends and the thread is READY at once, with BUDGET reloaded (R60, R73, R80). -/
def execYield (t : Nat) (s : State) : Ans :=
  issue t .yield (fun _ => true) s (fun s th _ =>
    endActivation s t th (activate (activationBudget s t th) (eventWord .yield_ 0 0 0)))

/-- HALT: the thread stops, or returns to IDLE in START mode, where PC is left at the word after it (DEDUCED, log entry 59); the
management engine stops. -/
def execHalt (t : Nat) (s : State) : Ans :=
  issue t .halt (fun _ => true) s (fun s th _ =>
    let s := if t = mgEngine then { s with mg := { s.mg with running := false } } else s
    if startMode s t th then endActivation s t th (fun x => { x with mode := .idle, run := false })
    else endActivation s t th (fun x => { x with mode := .halted, pc := th.pc }))

/-- TRAP. -/
def execTrap (t : Nat) (s : State) : Ans :=
  issue t .trap (fun _ => true) s (fun s _ w => .fault s (FaultCode.trap, BitVec.ofNat 64 (wCode w)))

end Sys2Proof.Machine
end

