-- ==== Sys2Proof/Machine/Attach.lean ====
section
/-! DEFINITION. The attachment instructions (R49 to R61), the return of a pool load (R63, R82) and the stall under WT = 1
(R51, R52). Each body makes the checks of R62 step 7 in their order and then has its effect whole or not at all. -/

namespace Sys2Proof.Machine

/-! Queue instructions (R53, R54) -/

/-- The status word that an instruction writes to s[XD] (R50). -/
def status (w : Nat) (c : StatusCode) (prio : Nat) (displaced : Bool) (len : Nat) : Thread → Thread :=
  sSet (wRd w) (statusWord c prio displaced len)

/-- Operand values of s[XH], s[XA], s[XS]. -/
def xh (th : Thread) (w : Nat) : Nat := (sGet th (wRa w)).toNat
def xa (th : Thread) (w : Nat) : Nat := (sGet th (wRb w)).toNat
def xs (th : Thread) (w : Nat) : Nat := (sGet th (wXs w)).toNat

/-- OPERAND checks of a queue handle and, where the form has one, of a span, then the RANGE check of the span. -/
def queueOperands (t : Nat) (th : Thread) (w : Nat) (pushSpan span : Bool) : Option PFault :=
  let sp := spanOf t (xa th w)
  firstFault
    [(!handleOk (xh th w) 14, opFault (wRa w)),
     (span && !spanOk t (xa th w) pushSpan, opFault (wRb w)),
     (span && !spanFits th sp, rangeFault sp.addr)]

/-- Bobbin's checks of a queue that the thread may use. -/
def checkedQueue (s : State) (q : Nat) (may : Queue → Bool) (chk : QmCheck) : State :=
  match queue? s q with
  | none => s
  | some x => if may x then qmChecked s q chk else s

/-- QPUSH (R53). A poisoned span gives a poisoned item. -/
def qpushBody (t : Nat) (chk : QmCheck) (s : State) (th : Thread) (w : Nat) : TRes :=
  match queueOperands t th w true true with
  | some f => .fault s f
  | none =>
    let q := xh th w
    let sp := spanOf t (xa th w)
    let s := checkedQueue s q (fun x => mayPush x (tagCtx th.tag)) chk
    if s.th.safe then .ok (refuseItem s q) (status w .full 0 false 0)
    else match push s q sp.prio th.tag (scratchRead th sp.addr sp.len) (scratchPoison th sp.addr sp.len) with
    | (.linked d, s) => .ok s (status w .done 0 d 0)
    | (.access, s) => .fault s (accessFault 1 q)
    | (.full, s) => if wWt w then .stall s id else .ok (refuseItem s q) (status w .full 0 false 0)
    | (.wait, s) => .hold s

/-- QPUSH. -/
def execQpush (t : Nat) (chk : QmCheck) (s : State) : Ans := issue t .qpush (fun _ => true) s (qpushBody t chk)

/-- Bytes that a pop copies into scratch: poison marks stay (R32). -/
def scratchCopy (a : Nat) (b : Bytes) (th : Thread) : Thread :=
  noteDirty { th with scratch := Mem.write th.scratch a b } a b.length

/-- The queue is the thread's own. -/
def ownQueue (th : Thread) (x : Queue) : Bool := !x.destroyed && x.ctx == tagCtx th.tag

/-- The head item of a queue of the thread's own, Bobbin's checks made; a fault or a wait where there is none. -/
def withHead (t : Nat) (chk : QmCheck) (s : State) (th : Thread) (w : Nat) (span : Bool)
    (body : State → Queue → Item → TRes) : TRes :=
  match queueOperands t th w false span with
  | some f => .fault s f
  | none =>
    let q := xh th w
    let s := checkedQueue s q (ownQueue th) chk
    match queue? s q with
    | none => .fault (qmRefuse s q th.tag) (accessFault 1 q)
    | some x =>
      if !ownQueue th x then .fault (qmRefuse s q th.tag) (accessFault 1 q)
      else
        match headItem x with
        | none => if wWt w then .stall s id else .ok s (status w .empty 0 false 0)
        | some i => body s x i

/-- The head item leaves a mirrored queue once the journal has room. -/
def takeHead (s : State) (q : Nat) (x : Queue) (i : Item) (how : Nat) (f : Thread → Thread) : TRes :=
  if queueRoom s x 1 0 then .ok (unlinkItem s q x i how) f else .hold (journalWait s)

/-- QPOP (R54). -/
def qpopBody (t : Nat) (chk : QmCheck) (s : State) (th : Thread) (w : Nat) : TRes :=
  withHead t chk s th w (wXv w != 1) (fun s x i =>
    let q := xh th w
    let sp := spanOf t (xa th w)
    let n := i.bytes.length
    if wXv w = 1 then takeHead s q x i 1 (status w .done i.prio false n)
    else if i.poison then .fault s (poisonFault q)
    else if sp.len < n then .ok s (status w .toobig i.prio false n)
    else takeHead s q x i 0 (fun y => status w .done i.prio false n (scratchCopy sp.addr i.bytes y)))

/-- QPOP. -/
def execQpop (t : Nat) (chk : QmCheck) (s : State) : Ans := issue t .qpop (fun _ => true) s (qpopBody t chk)

/-- QPEEK: never removes the item; PREFIX copies what fits (R54). -/
def qpeekBody (t : Nat) (chk : QmCheck) (s : State) (th : Thread) (w : Nat) : TRes :=
  withHead t chk s th w true (fun s _ i =>
    let sp := spanOf t (xa th w)
    let n := i.bytes.length
    if i.poison then .fault s (poisonFault (xh th w))
    else if wXv w ≠ 1 ∧ sp.len < n then .ok s (status w .toobig i.prio false n)
    else .ok s (fun y => status w .done i.prio false n (scratchCopy sp.addr (i.bytes.take sp.len) y)))

/-- QPEEK. -/
def execQpeek (t : Nat) (chk : QmCheck) (s : State) : Ans := issue t .qpeek (fun _ => true) s (qpeekBody t chk)

/-! Pool instructions (R55, R63, R82) -/

/-- A pool access of a thread: OPERAND, ALIGN, then the check of R104 (a denied one is an ACCESS fault). -/
def poolAccess (s : State) (th : Thread) (w : Nat) (write : Bool) (body : Nat → TRes) : TRes :=
  let a := xh th w
  match firstFault
      [(!poolWordOk (tagCtx th.tag == mgt) a, opFault (wRa w)), (a % 64 != 0, alignFault a)] with
  | some f => .fault s f
  | none =>
    match check s th.tag (.tpa a) write with
    | .allow ppa _ => body ppa
    | .zero ppa => body ppa
    | .deny g => .fault (poolDenied s th.tag g) (accessFault 2 a)

/-- PLDs outstanding on an engine, for threads of SC0 or for the others (R82). -/
def engineLoads (s : State) (engine : Nat) (sc0 : Bool) : Nat :=
  Tab.sum (fun k x => if k / 8 = engine ∧ (tagSc x.tag == 0) = sc0 then x.plds.length else 0) s.ne.threads

/-- A PLD slot is free: 4 a thread, 16 an engine for each of the two groups of classes (R82). -/
def loadSlot (s : State) (t : Nat) (th : Thread) : Bool :=
  decide (th.plds.length < 4) && decide (engineLoads s (t / 8) (tagSc th.tag == 0) < 16)

/-- PLD is issued: the line comes later (PLD_COMPLETE). -/
def pldBody (t : Nat) (s : State) (th : Thread) (w : Nat) : TRes :=
  poolAccess s th w false (fun ppa =>
    let l : Pld := { vd := wRd w, addr := BitVec.ofNat 64 (xh th w), ppa := ppa, pc := th.pc, s := th.s, v := th.v, p := th.p }
    if loadSlot s t th then .ok s (fun y => { y with plds := y.plds ++ [l] }) else .hold s)

/-- PLD. -/
def execPld (t : Nat) (s : State) : Ans := issue t .pld (fun _ => true) s (pldBody t)

/-- A line that has come is written; a load issued later would return to registers that hold it. -/
def fillPld (k : Nat) (p : Pld) (x : Line) (th : Thread) : Thread :=
  let back (i : Nat) (q : Pld) : Pld := if k ≤ i then { q with v := Tab.set 0 q.v p.vd x } else q
  vSet p.vd x { th with plds := (th.plds.eraseIdx k).zipIdx.map (fun e => back e.2 e.1) }

/-- The thread as a faulting load finds it: at the PLD, with nothing of the later instructions (R63). BUDGET that they took is not given
back (DEDUCED, log entry 25). -/
def undoPld (p : Pld) (th : Thread) : Thread := { th with s := p.s, v := p.v, p := p.p, pc := p.pc, plds := [] }

/-- PLD_COMPLETE: the line of the thread's k-th outstanding PLD returns. A poisoned line makes the PLD fault POISON, the
oldest one first, and loads of one line return in program order (R66). BUDGET taken by the instructions that the fault
discards is not given back (DEDUCED, log entry 25). A halt or freeze that waited for the last load takes effect (R51). -/
def execPldComplete (t k : Nat) (u : Upsets) (s : State) : Ans :=
  let th := thread s t
  match th.plds[k]? with
  | none => idle s
  | some p =>
    if (th.plds.take k).any (fun q => q.ppa == p.ppa) then idle s else
    let s1 := eccSpan (disturb s u) p.ppa 64 th.tag
    if poisonAt s1 p.ppa then
      if k ≠ 0 then idle s
      else
        let s2 := setThread s1 t (undoPld p (thread s1 t))
        match pushFault s2 t (thread s2 t) (fill 40 0) with
        | none => .next (journalWait s)
        | some _ => .next (programFault s2 t (poisonFault p.addr.toNat))
    else .next (setThread s1 t (settleThread (fillPld k p (poolLine s1 p.ppa) (thread s1 t))))

/-- The bytes of a line of which those under a mask are replaced. -/
def maskBytes (mask : Nat) (old new : Bytes) : Bytes :=
  ((old.zip new).zipIdx).map (fun e => if bit mask e.2 then e.1.2 else e.1.1)

/-- PST: LINE writes the whole line and clears its mark; MASKED writes the bytes of the mask, and a mark stays unless the
mask is full (R55, R118). -/
def pstBody (s : State) (th : Thread) (w : Nat) : TRes :=
  poolAccess s th w true (fun ppa =>
    let mask := if wXv w = 1 then xa th w else 2 ^ 64 - 1
    let new := lineBytes (vGet th (wXs w))
    if mask = 0 then .ok s id
    else if !writeRoom s ppa 64 then .hold (journalWait s)
    else if mask = 2 ^ 64 - 1 then .ok (poolStore s th.tag ppa new false) id
    else
      let s := eccSpan s ppa 64 th.tag
      .ok (poolWrite s ppa (maskBytes mask (poolBytes s ppa 64) new) (poisonAt s ppa)) id)

/-- PST. -/
def execPst (t : Nat) (s : State) : Ans := issue t .pst (fun _ => true) s pstBody

/-! PRED (R56, R146) -/

/-- The full epoch against which a PRED is checked: that of the first presentation while it stalls, else the window's. -/
def predEpoch (s : State) (th : Thread) (w : Nat) : Nat :=
  match th.mode, th.predEpoch with
  | .stalled, some e => e
  | _, _ => ((rwin? s w).map (fun x => x.epoch)).getD 0

/-- The contribution line that a PRED carries. -/
def predLine (s : State) (t : Nat) (th : Thread) (w : Nat) : Contrib :=
  let win := fld (xh th w) 0 12
  { src := .thread t, tag := th.tag, window := win, offset := xa th w, epoch := predEpoch s th win, data := vGet th (wXs w), poison := false }

/-- The checks of R133 on a PRED. A stalled one has passed them: it meets its full epoch only, and a window that is no
longer the one it was checked against is STALE. -/
def predCheck (s : State) (th : Thread) (w : Nat) : Option CRefuse :=
  let h := xh th w
  if th.mode = .stalled then
    (match contribCheck s th.tag (fld h 0 12) (fld h 12 12) (xa th w) none with
     | some _ => some .stale
     | none => none)
  else contribCheck s th.tag (fld h 0 12) (fld h 12 12) (xa th w) (some (fld h 24 8))

def predBody (t : Nat) (s : State) (th : Thread) (w : Nat) : TRes :=
  let h := xh th w
  let off := xa th w
  let win := fld h 0 12
  let refuse (r : CRefuse) : State := contribRefuse s th.tag win r
  match firstFault [(!handleOk h 32, opFault (wRa w)), (off % 64 != 0, alignFault off)] with
  | some f => .fault s f
  | none =>
    match predCheck s th w with
    | some .owner => .fault (refuse .owner) (accessFault 3 win)
    | some .range => .fault (refuse .range) (rangeFault off)
    | some .stale => .ok (refuse .stale) (status w .stale 0 false 0)
    | none =>
      let k := predLine s t th w
      let full := match rwin? s win with
        | some x => x.arrival && !writeRoom s (chunkGranule s x (off / 65536) * granuleBytes) 64
        | none => false
      match presentLine s k with
      | .took _ =>
        (match serveLine s s.ru.waiting.length k with
         | none => .hold s
         | some s =>
           match presentLine s k with
           | .took s => .ok s (status w .done 0 false 0)
           | _ => .hold s)
      | .stale => .ok (refuse .stale) (status w .stale 0 false 0)
      | .wait s' =>
        let s' := if th.mode = .stalled then s' else backPressure s' k
        if full then .hold (journalWait s)
        else if wWt w then .stall s' (fun y => { y with predEpoch := some k.epoch })
        else .ok s' (status w .busy 0 false 0)

/-- PRED. -/
def execPred (t : Nat) (s : State) : Ans := issue t .pred (fun _ => true) s (predBody t)

/-! HCOPY and NSEND (R57, R58, R189, R233) -/

def hcopyBody (s : State) (th : Thread) (w : Nat) : TRes :=
  let c := xh th w
  if !handleOk c 10 then .fault s (opFault (wRa w))
  else
    match hcopy s (tagCtx th.tag) c (lineBytes (vGet th (wXs w))) with
    | .access => .fault s (accessFault 4 c)
    | .full => if wWt w then .stall s id else .ok s (status w .full 0 false 0)
    | .hold => .hold s
    | .ok s => .ok s (status w .done 0 false 0)

/-- HCOPY. -/
def execHcopy (t : Nat) (s : State) : Ans := issue t .hcopy (fun _ => true) s hcopyBody

/-- The packet TYPE of an NSEND form. -/
def nsendKind (w : Nat) : Nat := if wXv w = 0 then WType.send else if wXv w = 1 then WType.write else WType.reduce

/-- The remote operand has no reserved bit set: a remote queue, a TPA, a reduce target. -/
def remoteOk (mgtCtx : Bool) (w r : Nat) : Bool :=
  if wXv w = 0 then handleOk r 19 && fld r 14 2 == 0 else if wXv w = 1 then poolWordOk mgtCtx r else true

/-- Packets, by index, whose payload includes a marked scratch line (R232). -/
def sendPoison (th : Thread) (sp : Span) (size : Nat) : List Nat :=
  (upto 0 (cdiv sp.len size)).filter (fun i => scratchPoison th (sp.addr + size * i) (min size (sp.len - size * i)))

def nsendBody (t : Nat) (s : State) (th : Thread) (w : Nat) : TRes :=
  let c := xh th w
  let sp := spanOf t (xa th w)
  let x := conn s c
  match firstFault
      [(!handleOk c 16, opFault (wRa w)),
       (!spanOk t (xa th w) false || (wXv w == 2 && sp.len % 64 != 0), opFault (wRb w)),
       (!remoteOk (tagCtx th.tag == mgt) w (xs th w), opFault (wXs w)),
       (!spanFits th sp, rangeFault sp.addr),
       (x.st == .free || x.ctx != tagCtx th.tag, accessFault 5 c)] with
  | some f => .fault s f
  | none =>
    match weftSend s c th.tag (nsendKind w) (wXv w == 0 && wXs w == 0) (sGet th (wXs w))
        (scratchRead th sp.addr sp.len) (sendPoison th sp (2 ^ x.plog)) with
    | .closed => .ok s (status w .closed 0 false 0)
    | .busy => if wWt w then .stall s id else .ok s (status w .busy 0 false 0)
    | .stale => .ok s (status w .stale 0 false 0)
    | .ok s => .ok s (status w .done 0 false 0)

/-- NSEND. -/
def execNsend (t : Nat) (s : State) : Ans := issue t .nsend (fun _ => true) s (nsendBody t)

/-! WAITE (R59, R73, R78) -/

/-- What WAITE makes of its thread: a START-mode run without a timer ends, with PC left at the word after it (DEDUCED, log entry 59),
any other thread waits. -/
def waiteThread (start : Bool) (now v : Nat) (th : Thread) : Thread :=
  if start ∧ v = 0 then { th with mode := .idle, run := false }
  else { th with mode := .waiting, timer := if v = 0 then none else some (now + ns v) }

/-- WAITE. -/
def execWaite (t : Nat) (s : State) : Ans :=
  issue t .waite (fun _ => true) s (fun s th w =>
    if 2 ^ 32 ≤ xh th w then .fault s (opFault (wRa w))
    else endActivation s t th (waiteThread (startMode s t th) s.now (xh th w)))

/-! Stalls (R51, R52) -/

/-- The body of an instruction that can stall. -/
def stallBody (t : Nat) (chk : QmCheck) (op : NOp) : Option (State → Thread → Nat → TRes) :=
  match op with
  | .qpush => some (qpushBody t chk)
  | .qpop => some (qpopBody t chk)
  | .qpeek => some (qpeekBody t chk)
  | .pred => some (predBody t)
  | .hcopy => some hcopyBody
  | .nsend => some (nsendBody t)
  | _ => none

/-- STALL_RESUME: the stalled instruction finds what it waited for and is performed; otherwise it stalls on. -/
def execStallResume (t : Nat) (chk : QmCheck) (s : State) : Ans :=
  let th := thread s t
  if th.mode ≠ .stalled ∨ !ctxRuns s th then idle s
  else
    match fetch s t th with
    | none => idle s
    | some w =>
      match (decodeN w).bind (stallBody t chk) with
      | none => idle s
      | some body => finish s t (body s th w)

/-- The word at PC is an NSEND whose connection has left OPEN: it ends with CLOSED and no STALL fault (R233). -/
def closedSend (s : State) (th : Thread) (w : Nat) : Bool :=
  decodeN w == some .nsend && (conn s (xh th w)).st != .opened

/-- STALL: the stall passes the image's limit; the thread faults STALL, and the instruction has no effect. The management engine
has no image header and so no limit: it stalls on (DEDUCED, log entry 25). -/
def execStall (t : Nat) (s : State) : Ans :=
  let th := thread s t
  match th.mode, th.stalledAt, programAt s t th, fetch s t th with
  | .stalled, some since, some p, some w =>
    if closedSend s th w then idle s
    else takeFault (passTo s (since + ns p.stallLimit)) t (FaultCode.stall, BitVec.ofNat 64 (wOp w))
  | _, _, _, _ => idle s

end Sys2Proof.Machine
end

