-- ==== Sys2Proof/Machine/Mailbox.lean ====
section
/-! DEFINITION. The management tick (R405): pending mailbox commands taken up from their request buffers (R412, R413, Table
16-6), running ones answered, the time pair, the PTP servo (R420) and the limits of a tick. -/

namespace Sys2Proof.Machine

/-! The request envelope (R413) -/

/-- LENGTH of the request in a source's buffer. -/
def reqLength (m : Mbox) : Nat := le (Mem.read m.req 4 4)

/-- CODE of the request. -/
def reqCode (m : Mbox) : Nat := (Mem.byte m.req 0).toNat

/-- Every field that a request leaves zero is zero, and LENGTH is a multiple of 8 up to 4,032 (Table 16-4, R7). -/
def headerSound (m : Mbox) : Bool :=
  allZero (Mem.read m.req 1 1) && allZero (Mem.read m.req 8 56) && reqLength m % 8 == 0 && decide (reqLength m ≤ 4032)

def reqPayload (m : Mbox) : Bytes := Mem.read m.req 64 (reqLength m)

/-- Read fields of the widths given, each at the next multiple of its width, with zero padding; then the position. -/
def readFields : List Nat → Nat → Bytes → List Nat → Option (List Nat × Nat)
  | [], pos, _, acc => some (acc.reverse, pos)
  | w :: t, pos, b, acc =>
    let gap := (w - pos % w) % w
    if b.length < pos + gap + w ∨ !allZero (slice b pos gap) then none
    else readFields t (pos + gap + w) b (leAt b (pos + gap) w :: acc)

/-- The form of one command's payload: field widths, which may depend on the payload's own selector or count, bytes of data
after the fields, the values that fit, and the command that it spells for a source. -/
structure Form where
  code : Nat
  widths : Bytes → List Nat
  dataLen : List Nat → Nat := fun _ => 0
  fits : List Nat → Bool := fun _ => true
  run : Nat → List Nat → Bytes → State → Ans

/-- Argument i of a command. -/
def arg (l : List Nat) (i : Nat) : Nat := l.getD i 0

/-- An argument that may be NONE, AUTO, ANY or ALL, all ones in a field of w bytes. -/
def optArg (w : Nat) (l : List Nat) (i : Nat) : Option Nat := if arg l i = 2 ^ (8 * w) - 1 then none else some (arg l i)

/-- A flag argument; the flags named are 0 or 1. -/
def flagArg (l : List Nat) (i : Nat) : Bool := arg l i == 1

def flagsOk (is : List Nat) (l : List Nat) : Bool := is.all (fun i => decide (arg l i ≤ 1))

/-- Round up to a multiple of 8. -/
def up8 (n : Nat) : Nat := cdiv n 8 * 8

/-- The arguments and data of a payload in a form; none for one that does not fit it. -/
def readForm (f : Form) (b : Bytes) : Option (List Nat × Bytes) :=
  match readFields (f.widths b) 0 b [] with
  | none => none
  | some (l, pos) =>
    let n := f.dataLen l
    if b.length = up8 pos + up8 n ∧ f.fits l ∧ allZero (slice b pos (up8 pos - pos)) ∧ allZero (b.drop (up8 pos + n)) then
      some (l, slice b (up8 pos) n)
    else none

/-! The forms (Table 16-6), by family; widths by R413 from the argument ranges of each chapter's command table -/

/-- A form of fixed widths without data. -/
def plain (code : Nat) (widths : List Nat) (run : Nat → List Nat → State → Ans) : Form :=
  { code := code, widths := fun _ => widths, run := fun src l _ => run src l }

/-- A form of fixed widths, some of them flags. -/
def flagged (code : Nat) (widths flags : List Nat) (run : Nat → List Nat → State → Ans) : Form :=
  { code := code, widths := fun _ => widths, fits := flagsOk flags, run := fun src l _ => run src l }

/-- Event kinds by EVENT.KIND (Table 02-3). -/
def evKind : Nat → EvKind
  | 1 => .queue
  | 2 => .packet
  | 3 => .reduce
  | 4 => .timer
  | 5 => .doorbell
  | 6 => .yield_
  | 7 => .shuttle
  | _ => .start

def policyOf : Nat → FaultPolicy
  | 1 => .recycle
  | 2 => .stop
  | _ => .keep

/-! Commands that read host memory (R450): taken up at a tick, they run on until the host has answered (log entry 44). -/

/-- A refusal that needs none of the image's bytes is answered at once; for want of the bytes the command runs on. -/
def orFetch (s : State) (d : Done) : Done :=
  match d.2 with
  | some r => if r.status = .badImage ∧ r.detail = 0 then (s, none) else d
  | none => d

def fetchProgram (src ctx : Nat) (from_ : ImageSource) (n : Nat) (engines : BitVec 64) (s : State) : Ans :=
  .next (takeUp s src 0x01 (some (.fetchProgram ctx from_ n engines)) (fun s => orFetch s (doProgramLoad s ctx from_ n engines none)))

def fetchFlash (src : Nat) (from_ : ImageSource) (n : Nat) (s : State) : Ans :=
  .next (takeUp s src 0x52 (some (.fetchFlash from_ n)) (fun s => orFetch s (doFlashWrite s src from_ n none)))

def fetchRestore (src t p a n : Nat) (slots : List Nat) (s : State) : Ans :=
  .next (takeUp s src 0x34 (some (.fetchRestore t p a n slots)) (fun s => orFetch s (doTenantRestore s t p n slots none)))

/-- The selector of a source: 0 host memory, with its port, 1 the pool. -/
def sourceWidths (sel : Nat) : List Nat := if sel = 0 then [1, 1, 8] else [1, 8]

def programForms : List Form :=
  [{ code := 0x01, widths := fun b => [2] ++ sourceWidths (leAt b 2 1) ++ [4, 8], fits := fun l => decide (arg l 1 ≤ 1)
     run := fun src l _ =>
       if arg l 1 = 0 then fetchProgram src (arg l 0) (.host (arg l 2) (arg l 3)) (arg l 4) (BitVec.ofNat 64 (arg l 5))
       else cmdProgramLoad src (arg l 0) (.pool (arg l 2)) (arg l 3) (BitVec.ofNat 64 (arg l 4)) none },
   plain 0x02 [2] (fun src l => cmdProgramUnload src (arg l 0)),
   { code := 0x03, widths := fun _ => [2, 1, 1, 4, 2, 2, 1], fits := fun l => decide (arg l 6 ≤ 2)
     run := fun src l _ => cmdProgramStart src (arg l 0) (arg l 1) (arg l 2) (arg l 3) (arg l 4) (arg l 5) (policyOf (arg l 6)) },
   plain 0x04 [2] (fun src l => cmdProgramStop src (arg l 0)),
   { code := 0x05, widths := fun _ => [2, 1, 2], fits := fun l => decide (arg l 1 ≤ 7)
     run := fun src l _ => cmdProgramBind src (arg l 0) (evKind (arg l 1)) (arg l 2) },
   { code := 0x06, widths := fun _ => [2, 1, 2], fits := fun l => decide (arg l 1 ≤ 7)
     run := fun src l _ => cmdProgramUnbind src (arg l 0) (evKind (arg l 1)) (arg l 2) },
   plain 0x07 [1, 1] (fun src l => cmdThreadRead src (arg l 0) (arg l 1))]

def poolForms : List Form :=
  [flagged 0x08 [2, 4, 1, 1] [3] (fun src l => cmdGranuleAssign src (arg l 0) (optArg 4 l 1) (optArg 1 l 2) (flagArg l 3)),
   plain 0x09 [2, 4] (fun src l => cmdGranuleRelease src (arg l 0) (arg l 1)),
   flagged 0x0A [2, 4, 1] [2] (fun src l => cmdGranuleMirror src (arg l 0) (arg l 1) (flagArg l 2)),
   plain 0x0B [4] (fun src l => cmdGranuleRetire src (arg l 0)),
   plain 0x0C [1, 4] (fun src l => cmdGranuleLimit src (arg l 0) (arg l 1)),
   flagged 0x0D [2, 4, 1, 1] [3] (fun src l => cmdGrant src (arg l 0) (arg l 1) (arg l 2) (flagArg l 3)),
   plain 0x0E [2] (fun src l => cmdGrantRevoke src (arg l 0)),
   { code := 0x0F, widths := fun _ => [2], dataLen := fun _ => 64
     run := fun src l d => cmdKeySet src (arg l 0) (bytesLine d) }]

def reduceArgs (l : List Nat) : ReduceArgs :=
  { ctx := arg l 0, arrival := flagArg l 1, format := arg l 2, op := arg l 3, sat := flagArg l 4, rsv := flagArg l 5
    contributors := arg l 6, result := arg l 7, chunks := arg l 8, lastLines := arg l 9, cq := arg l 10
    cqPrio := arg l 11, chunkItems := flagArg l 12 }

def reduceForms : List Form :=
  [flagged 0x10 [2, 1, 1, 1, 1, 1, 2, 8, 4, 2, 2, 1, 1] [1, 4, 5, 12] (fun src l => cmdReduceCreate src (reduceArgs l)),
   plain 0x11 [2] (fun src l => cmdReduceDestroy src (arg l 0)),
   plain 0x12 [2] (fun src l => cmdReduceReset src (arg l 0)),
   plain 0x13 [2, 1, 1] (fun src l => cmdRuQuota src (arg l 0) (optArg 1 l 1) (arg l 2))]

def queueForms : List Form :=
  [flagged 0x14 [2, 1, 4, 1] [3] (fun src l => cmdQueueCreate src (arg l 0) (arg l 1) (arg l 2) (flagArg l 3)),
   plain 0x15 [2] (fun src l => cmdQueueDestroy src (arg l 0)),
   plain 0x16 [2] (fun src l => cmdQueueFlush src (arg l 0)),
   plain 0x17 [2, 1, 4] (fun src l => cmdQueueSet src (arg l 0) (arg l 1) (arg l 2)),
   plain 0x18 [2, 1, 4] (fun src l => cmdQueueOpen src (arg l 0) (arg l 1) (arg l 2)),
   plain 0x19 [2] (fun src l => cmdQueueClose src (arg l 0)),
   plain 0x1A [2, 4, 2] (fun src l => cmdQmQuota src (arg l 0) (arg l 1) (arg l 2))]

def channelArgs (l : List Nat) : ChannelArgs :=
  { ctx := arg l 0, cls := arg l 1, engineProducer := flagArg l 2, ringPool := flagArg l 3, base := arg l 4
    ringLog2 := arg l 5, port := arg l 6, fn := arg l 7, vector := optArg 2 l 8, cq := arg l 9, retry := arg l 10 }

def channelForms : List Form :=
  [flagged 0x1B [2, 1, 1, 1, 8, 1, 1, 1, 2, 2, 1] [2, 3] (fun src l => cmdChannelAssign src (channelArgs l)),
   plain 0x1C [2] (fun src l => cmdChannelRelease src (arg l 0)),
   plain 0x1D [2] (fun src l => cmdChannelStop src (arg l 0)),
   plain 0x1E [1, 1] (fun src l => cmdChannelLimit src (arg l 0) (arg l 1))]

def listenArgs (l : List Nat) : ListenArgs :=
  { ctx := arg l 0, service := arg l 1, portMask := arg l 2, cls := arg l 3, rxQ := arg l 4, reportQ := arg l 5
    payloadLog2 := arg l 6, grantLog2 := optArg 1 l 7 }

/-- The peer's address takes two words, low half first. -/
def peerArgs (l : List Nat) : PeerAddr :=
  { ip := BitVec.ofNat 128 (arg l 2 + 2 ^ 64 * arg l 3), mac := BitVec.ofNat 48 (arg l 4), vlan := optArg 2 l 5
    prio := arg l 6, dscp := arg l 7 }

def connectArgs (l : List Nat) : ConnectArgs :=
  { ctx := arg l 0, port := arg l 1, peer := peerArgs l, service := arg l 8, cls := arg l 9, rxQ := arg l 10
    reportQ := arg l 11, payloadLog2 := arg l 12, grantLog2 := optArg 1 l 13, ecn := flagArg l 14 }

def networkForms : List Form :=
  [plain 0x1F [1] (fun src l => cmdEthArrange src (arg l 0)),
   plain 0x20 [2, 2, 2, 1, 2, 2, 1, 1] (fun src l => cmdWeftListen src (listenArgs l)),
   plain 0x21 [1] (fun src l => cmdWeftUnlisten src (arg l 0)),
   { code := 0x22, widths := fun _ => [2, 1, 8, 8, 8, 2, 1, 1, 2, 1, 2, 2, 1, 1, 1]
     fits := fun l => decide (arg l 4 < 2 ^ 48) && flagsOk [14] l
     run := fun src l _ => cmdWeftConnect src (connectArgs l) },
   plain 0x23 [2] (fun src l => cmdWeftClose src (arg l 0)),
   { code := 0x24, widths := fun _ => [2, 1, 8, 2], fits := fun l => decide (arg l 2 < 2 ^ 48)
     run := fun src l _ => cmdWeftMove src (arg l 0) (arg l 1) (BitVec.ofNat 48 (arg l 2)) (optArg 2 l 3) },
   plain 0x25 [1, 4] (fun src l => cmdWeftLimit src (arg l 0) (arg l 1)),
   plain 0x26 [1, 1, 1, 2] (fun src l => cmdScAdmit src (arg l 0) (arg l 1) (arg l 2) (arg l 3)),
   plain 0x27 [1, 1] (fun src l => cmdScShare src (arg l 0) (arg l 1)),
   plain 0x28 [1, 1, 1] (fun src l => cmdScClassWeights src (arg l 0) (arg l 1) (arg l 2)),
   plain 0x29 [1] (fun src l => cmdPortRelease src (arg l 0)),
   flagged 0x2A [1, 1] [1] (fun src l => cmdPortMerge src (arg l 0) (flagArg l 1))]

def tenantForms : List Form :=
  [plain 0x2B [4, 2, 4, 1, 2, 4] (fun src l =>
     cmdTenantCreate src (optArg 4 l 0) (optArg 2 l 1) (optArg 4 l 2) (optArg 1 l 3) (optArg 2 l 4) (optArg 4 l 5)),
   plain 0x2C [1, 1, 2, 2, 1, 1] (fun src l =>
     cmdTenantBind src (arg l 0) (arg l 1) (optArg 2 l 2) (arg l 3) (arg l 4) (optArg 1 l 5)),
   plain 0x2D [1, 1] (fun src l => cmdTenantUnbind src (arg l 0) (arg l 1)),
   plain 0x2E [1] (fun src l => cmdTenantStart src (arg l 0)),
   plain 0x2F [1] (fun src l => cmdTenantFreeze src (arg l 0)),
   plain 0x30 [1] (fun src l => cmdTenantThaw src (arg l 0)),
   plain 0x31 [1] (fun src l => cmdTenantQuiesce src (arg l 0)),
   plain 0x32 [1] (fun src l => cmdTenantRemove src (arg l 0)),
   plain 0x33 [1, 1, 8, 8] (fun src l => cmdTenantSave src (arg l 0) (arg l 1) (arg l 2) (arg l 3)),
   plain 0x34 [1, 1, 8, 8, 1, 1, 1, 1, 1, 1, 1, 1] (fun src l =>
     fetchRestore src (arg l 0) (arg l 1) (arg l 2) (arg l 3) ((upto 4 8).map (arg l))),
   plain 0x35 [2, 1, 1] (fun src l => cmdWindowAlloc src (arg l 0) (arg l 1) (arg l 2)),
   plain 0x36 [2] (fun src l => cmdWindowFree src (arg l 0)),
   { code := 0x37, widths := fun _ => [2], dataLen := fun _ => 16
     run := fun src l d => cmdWindowStage src (arg l 0) (BitVec.ofNat 128 (le d)) },
   plain 0x38 [1, 1] (fun src l => cmdWindowTack src (arg l 0) (arg l 1)),
   plain 0x39 [1, 2] (fun src l => cmdWindowLimit src (arg l 0) (arg l 1)),
   plain 0x3A [1, 1, 8, 8, 8, 8] (fun src l =>
     cmdDirtyLogStart src (arg l 0) (arg l 1) (arg l 2) (arg l 3) (arg l 4) (arg l 5)),
   plain 0x3B [1, 1] (fun src l => cmdDirtyLogSwap src (arg l 0) (arg l 1)),
   plain 0x3C [1, 1] (fun src l => cmdDirtyLogStop src (arg l 0) (arg l 1))]

def pairForms : List Form :=
  [flagged 0x3D [1, 1] [0, 1] (fun src l => cmdPairConfig src (flagArg l 0) (flagArg l 1)),
   plain 0x3E [] (fun src _ => cmdPairResync src),
   plain 0x3F [1] (fun src l => cmdPairTenant src (arg l 0)),
   plain 0x40 [1] (fun src l => cmdPairUntenant src (arg l 0)),
   plain 0x41 [2, 2] (fun src l => cmdPairShadow src (arg l 0) (arg l 1)),
   plain 0x42 [] (fun src _ => cmdPairPromote src),
   plain 0x43 [] (fun src _ => cmdPairUnfence src)]

/-- Source and severity pairs of FAULT_SEVERITY. -/
def pairsOf : List Nat → List (Nat × Nat)
  | a :: b :: t => (a, b) :: pairsOf t
  | _ => []

def faultForms : List Form :=
  [{ code := 0x44, widths := fun b => 2 :: (List.replicate (leAt b 0 2) [2, 1]).flatten
     run := fun src l _ => cmdFaultSeverity src (pairsOf l.tail) },
   plain 0x45 [1, 2] (fun src l => cmdFaultAck src (optArg 1 l 0) (optArg 2 l 1)),
   plain 0x46 [1, 1] (fun src l => cmdStopEnter src (BitVec.ofNat 8 (arg l 0)) (arg l 1)),
   flagged 0x47 [1, 1] [1] (fun src l => cmdDomainPower src (arg l 0) (flagArg l 1)),
   flagged 0x48 [1, 1, 1, 1, 1, 2] [4] (fun src l =>
     cmdWakeSet src (arg l 0) (arg l 1) (arg l 2) (arg l 3) (flagArg l 4) (arg l 5)),
   plain 0x49 [] (fun src _ => cmdStopStatsClear src),
   { code := 0x4A, widths := fun _ => [1, 1], dataLen := fun l => 8 * arg l 1
     run := fun src l d => cmdLaneEqWrite src (arg l 0) ((upto 0 (arg l 1)).map (fun i => BitVec.ofNat 64 (leAt d (8 * i) 8))) }]

/-- Widths of KEEP_WRITE: the field is the selector of the value's form. -/
def keepWidths (b : Bytes) : List Nat :=
  let f := leAt b 0 1
  if f = 2 then [1, 4] else if f = 3 then [1, 2, 2] else [1, 1]

def managementForms : List Form :=
  [plain 0x50 [] (fun src _ => cmdDeviceInfo src),
   plain 0x51 [] (fun src _ => cmdDeviceReset src),
   { code := 0x52, widths := fun b => sourceWidths (leAt b 0 1) ++ [4], fits := fun l => decide (arg l 0 ≤ 1)
     run := fun src l _ =>
       if arg l 0 = 0 then fetchFlash src (.host (arg l 1) (arg l 2)) (arg l 3)
       else cmdFlashWrite src (.pool (arg l 1)) (arg l 2) none },
   { code := 0x53, widths := keepWidths, dataLen := fun l => if arg l 0 = 3 then arg l 2 else 0
     run := fun src l d =>
       if arg l 0 = 3 then cmdKeepWrite src 3 0 (arg l 1) d
       else cmdKeepWrite src (arg l 0) (BitVec.ofNat 64 (arg l 1)) 0 [] },
   plain 0x54 [1, 1, 1, 8] (fun src l =>
     cmdTimeSet src (arg l 0) (arg l 1) (arg l 2) ((optArg 8 l 3).map (fun n => BitVec.ofNat 64 n))),
   { code := 0x55, widths := fun _ => [2, 1, 2], dataLen := fun l => arg l 2
     run := fun src l d => cmdQueuePush src (arg l 0) (arg l 1) d },
   plain 0x56 [2] (fun src l => cmdQueuePop src (arg l 0))]

/-- Table 16-6. -/
def allForms : List Form :=
  programForms ++ poolForms ++ reduceForms ++ queueForms ++ channelForms ++ networkForms ++ tenantForms ++ pairForms ++
    faultForms ++ managementForms

/-! Taking up (R412) -/

/-- The state that an answer leaves. -/
def afterAns (s : State) (a : Ans) : State :=
  match a with
  | .next t => t
  | .fault _ => s
  | .refused _ => s

/-- A malformed envelope or an unknown CODE: BAD_ARG, counted, and raised at most 64 times a tick (R413, Table 13-1). -/
def badEnvelope (s : State) (src : Nat) : State :=
  let m := mbox s src
  let s := setMbox s src { m with taken := s.mg.tick }
  let s := answer s src (reqCode m) { status := .badArg }
  raiseLimited (count s Reg.mgMbBad) Src.mgMailbox 0 {}

/-- A pending command of a source is taken up (R412). -/
def takePending (s : State) (src : Nat) : State :=
  let m := mbox s src
  let code := reqCode m
  if !m.pending ∨ !takesUp s src then s
  else if !headerSound m then badEnvelope s src
  else
    match allForms.find? (fun f => f.code == code) with
    | none => badEnvelope s src
    | some f =>
      match readForm f (reqPayload m) with
      | none => takeUp s src code none (fun s => refuse s .badArg)
      | some (l, d) => afterAns s (f.run src l d s)

/-- The code under which a running command answers. -/
def runningCode (s : State) (src : Nat) (r : Running) : Nat :=
  match r with
  | .windowTack _ _ => 0x38
  | .dirtyLogStart _ _ _ _ _ _ => 0x3A
  | .dirtyLogSwap _ _ => 0x3B
  | .dirtyLogStop _ _ => 0x3C
  | .tenantFreeze _ => 0x2F
  | .tenantQuiesce _ => 0x31
  | .tenantRemove _ => 0x32
  | .tenantSave _ _ _ _ => 0x33
  | .pair => ((s.sm.replies.find? (fun w => w.src == src)).map (fun w => w.code)).getD 0x3F
  | .domainPower _ _ => 0x47
  | .fetchProgram _ _ _ _ => 0x01
  | .fetchFlash _ _ => 0x52
  | .fetchRestore _ _ _ _ _ => 0x34
  | .flashWrite => 0x52
  | .stopEnter => 0x46

/-- Whether a running command has completed, with its answer. -/
def pollRunning (s : State) (src : Nat) (r : Running) : Done :=
  match r with
  | .windowTack p f => pollWindowTack s p f
  | .dirtyLogStart t p low span a b => doDirtyLogStart s t p low span a b
  | .dirtyLogSwap t p => doDirtyLogSwap s t p
  | .dirtyLogStop t p => doDirtyLogStop s t p
  | .tenantFreeze t => pollTenantFreeze s t
  | .tenantQuiesce t => pollTenantQuiesce s t
  | .tenantRemove t => pollTenantRemove s t
  | .tenantSave t p a n => pollTenantSave s t p a n
  | .pair => pollPair s src
  | .domainPower d on => pollDomain s d on
  | .fetchProgram _ _ _ _ => (s, none)
  | .fetchFlash _ _ => (s, none)
  | .fetchRestore _ _ _ _ _ => (s, none)
  | .flashWrite => (s, none)
  | .stopEnter => (s, none)

/-- A source's running command answers in the tick in which it has completed. -/
def pollSource (s : State) (src : Nat) : State :=
  match (mbox s src).running with
  | none => s
  | some r =>
    match pollRunning s src r with
    | (t, some a) => answer t src (runningCode s src r) a
    | (t, none) => t

/-- A refused or abandoned Stop entry answers DENIED with its DETAIL. -/
def answerStop (s : State) : State :=
  match s.pw.stopAnswer with
  | none => s
  | some (src, d) =>
    answer { s with pw := { s.pw with stopAnswer := none } } src 0x46 { status := .denied, detail := d }

/-! The PTP servo (R420) -/

/-- The servo's step on a usable Sync with an offset in ns, after which the rate correction is `adj`: it steps beyond 1 µs or
on the first lock from UNKNOWN or ESTIMATED, and eight good Syncs in a row set LOCKED. -/
def ptpSync (s : State) (off adj : Int) : State :=
  let good := if off.natAbs ≤ 100 then min 8 (s.tb.goodSyncs + 1) else 0
  let locks := decide (good = 8) && !s.tb.locked
  let s := if 1000 < off.natAbs || (locks && (s.tb.unknown || s.tb.estimated)) then
      count (setTime s (unsigned 64 ((timeNs s : Int) - off))) Reg.tbSteps else s
  let s := { s with tb := { s.tb with goodSyncs := good, adj := adj, lastSync := s.now } }
  if locks then
    { s with tb := { s.tb with locked := true, estimated := false, unknown := false, uncert := 0, holdover := false } }
  else s

/-- What the PTP exchange of the tick gave: whether a usable Sync has come, its offset, and the slew within 500 ppm are free
values (log entry 45). -/
def servo (s : State) : State :=
  if s.tb.ptp && s.tb.running && s.mg.running then
    let came := bit (freeWord s).toNat 0
    let s := useFree s
    if came then
      let off := (freeWord s).toInt
      let s := useFree s
      let adj : Int := ((freeWord s).toNat % 1000000001 : Nat) - 500000000
      ptpSync (useFree s) off adj
    else s
  else s

/-- What every tick renews: the count, the watchdog, the limits of R94, R133, R161, R208, R213, R236 and R358, the lock of
the keep registers. -/
def renewTick (s : State) : State :=
  { s with
    mg := { s.mg with
      tick := s.mg.tick + 1, kpOpen := false, ibiNotify := false
      wdtLeft := if s.mg.running then s.mg.wdtLeft - 1 else s.mg.wdtLeft }
    th := { s.th with ticked := [], logTick := 0 }
    et := { s.et with ports := Tab.keep (fun _ p => decide (p ≠ {})) (Tab.mapAll (fun _ p => { p with excCount := 0 }) s.et.ports) } }

/-- A tick comes, 1 ms after the last, exact from reset onward: the limits are renewed, the time pair is written once the time base
runs, the servo acts, and the commands that have completed are answered. -/
def beginTick (s : State) : State :=
  let s := renewTick (passTo s (ms (s.mg.tick + 1)))
  let s := if s.tb.running then writeTimePair s else s
  (upto 0 9).foldl pollSource (answerStop (servo s))

/-- MANAGEMENT_TICK: every pending command is taken up, in ascending source order (R405, R412). -/
def execManagementTick (s : State) : Ans := if s.pw.inStop then idle s else .next ((upto 0 9).foldl takePending (beginTick s))

/-! The rows of the mailbox commands (R20, R412) -/

/-- The next tick as a command of a source finds it: the doorbell has been rung, and the sources before it have been served. -/
def atTick (s : State) (src : Nat) : State :=
  (upto 0 src).foldl takePending (beginTick (setMbox s src { mbox s src with pending := true, overrun := false }))

/-- The rest of the tick: the sources after it. -/
def tickRest (src : Nat) (s : State) : State := (upto (src + 1) (8 - src)).foldl takePending s

/-- A mailbox command: its source rings the doorbell, and the next management tick takes the command up (R20; log entry 74). A
doorbell during a command of the source is ignored and sets OVERRUN. Where the firmware serves no command of the source, nothing
happens. -/
def atNextTick (s : State) (src : Nat) (f : State → Ans) : Ans :=
  if mayRing s src then
    match f (atTick s src) with
    | .next t => .next (tickRest src t)
    | a => a
  else if sourceServed s src ∧ (mbox s src).running.isSome then .next (setMbox s src { mbox s src with overrun := true })
  else idle s

end Sys2Proof.Machine
end

