-- ==== Sys2Proof/Machine/Commands.lean ====
section
/-! DEFINITION. The rows of the mailbox commands (Table 16-6): each rings its source's doorbell, and the next management tick takes the
command up (R20, R412). What a command then does is its own definition in the file of its chapter. -/

namespace Sys2Proof.Machine

/-- A command whose host read has been answered comes to its end; any other begins at the next tick. -/
def atHostData (s : State) (src code : Nat) (fetch : Running) (c : Option Running) (d : State → Done) (f : State → Ans) : Ans :=
  if (mbox s src).running = some fetch then .next (complete s src code c d) else atNextTick s src f

/-- PROGRAM_LOAD: taken up at the next tick; the row that brings the host's bytes ends one that is being read. -/
def execProgramLoad (src ctx : Nat) (from_ : ImageSource) (n : Nat) (engines : BitVec 64) (host : Option Bytes) (s : State) : Ans :=
  atHostData s src 0x01 (.fetchProgram ctx from_ n engines) none (fun s => doProgramLoad s ctx from_ n engines host)
    (cmdProgramLoad src ctx from_ n engines host)

/-- PROGRAM_UNLOAD at the next tick. -/
def execProgramUnload (src h : Nat) (s : State) : Ans := atNextTick s src (cmdProgramUnload src h)

/-- PROGRAM_START at the next tick. -/
def execProgramStart (src h e n scratch cap fq : Nat) (policy : FaultPolicy) (s : State) : Ans :=
  atNextTick s src (cmdProgramStart src h e n scratch cap fq policy)

/-- PROGRAM_STOP at the next tick. -/
def execProgramStop (src i : Nat) (s : State) : Ans := atNextTick s src (cmdProgramStop src i)

/-- PROGRAM_BIND at the next tick. -/
def execProgramBind (src i : Nat) (kind : EvKind) (n : Nat) (s : State) : Ans := atNextTick s src (cmdProgramBind src i kind n)

/-- PROGRAM_UNBIND at the next tick. -/
def execProgramUnbind (src i : Nat) (kind : EvKind) (n : Nat) (s : State) : Ans := atNextTick s src (cmdProgramUnbind src i kind n)

/-- THREAD_READ at the next tick. -/
def execThreadRead (src e k : Nat) (s : State) : Ans := atNextTick s src (cmdThreadRead src e k)

/-- GRANULE_ASSIGN at the next tick. -/
def execGranuleAssign (src ctx : Nat) (index stack : Option Nat) (mirrored : Bool) (s : State) : Ans :=
  atNextTick s src (cmdGranuleAssign src ctx index stack mirrored)

/-- GRANULE_RELEASE at the next tick. -/
def execGranuleRelease (src ctx i : Nat) (s : State) : Ans := atNextTick s src (cmdGranuleRelease src ctx i)

/-- GRANULE_MIRROR at the next tick. -/
def execGranuleMirror (src ctx i : Nat) (on : Bool) (s : State) : Ans := atNextTick s src (cmdGranuleMirror src ctx i on)

/-- GRANULE_RETIRE at the next tick. -/
def execGranuleRetire (src g : Nat) (s : State) : Ans := atNextTick s src (cmdGranuleRetire src g)

/-- GRANULE_LIMIT at the next tick. -/
def execGranuleLimit (src tid limit : Nat) (s : State) : Ans := atNextTick s src (cmdGranuleLimit src tid limit)

/-- GRANT at the next tick. -/
def execGrant (src owner i grantee : Nat) (write : Bool) (s : State) : Ans := atNextTick s src (cmdGrant src owner i grantee write)

/-- GRANT_REVOKE at the next tick. -/
def execGrantRevoke (src n : Nat) (s : State) : Ans := atNextTick s src (cmdGrantRevoke src n)

/-- KEY_SET at the next tick. -/
def execKeySet (src slot : Nat) (key : BitVec 512) (s : State) : Ans := atNextTick s src (cmdKeySet src slot key)

/-- REDUCE_CREATE at the next tick. -/
def execReduceCreate (src : Nat) (a : ReduceArgs) (s : State) : Ans := atNextTick s src (cmdReduceCreate src a)

/-- REDUCE_DESTROY at the next tick. -/
def execReduceDestroy (src w : Nat) (s : State) : Ans := atNextTick s src (cmdReduceDestroy src w)

/-- REDUCE_RESET at the next tick. -/
def execReduceReset (src w : Nat) (s : State) : Ans := atNextTick s src (cmdReduceReset src w)

/-- RU_QUOTA at the next tick. -/
def execRuQuota (src ctx : Nat) (unit : Option Nat) (slices : Nat) (s : State) : Ans :=
  atNextTick s src (cmdRuQuota src ctx unit slices)

/-- QUEUE_CREATE at the next tick. -/
def execQueueCreate (src ctx mode limit : Nat) (mirrored : Bool) (s : State) : Ans :=
  atNextTick s src (cmdQueueCreate src ctx mode limit mirrored)

/-- QUEUE_DESTROY at the next tick. -/
def execQueueDestroy (src q : Nat) (s : State) : Ans := atNextTick s src (cmdQueueDestroy src q)

/-- QUEUE_FLUSH at the next tick. -/
def execQueueFlush (src q : Nat) (s : State) : Ans := atNextTick s src (cmdQueueFlush src q)

/-- QUEUE_SET at the next tick. -/
def execQueueSet (src q mode limit : Nat) (s : State) : Ans := atNextTick s src (cmdQueueSet src q mode limit)

/-- QUEUE_OPEN at the next tick. -/
def execQueueOpen (src q sender lim : Nat) (s : State) : Ans := atNextTick s src (cmdQueueOpen src q sender lim)

/-- QUEUE_CLOSE at the next tick. -/
def execQueueClose (src q : Nat) (s : State) : Ans := atNextTick s src (cmdQueueClose src q)

/-- QM_QUOTA at the next tick. -/
def execQmQuota (src ctx cells queues : Nat) (s : State) : Ans := atNextTick s src (cmdQmQuota src ctx cells queues)

/-- CHANNEL_ASSIGN at the next tick. -/
def execChannelAssign (src : Nat) (a : ChannelArgs) (s : State) : Ans := atNextTick s src (cmdChannelAssign src a)

/-- CHANNEL_RELEASE at the next tick. -/
def execChannelRelease (src c : Nat) (s : State) : Ans := atNextTick s src (cmdChannelRelease src c)

/-- CHANNEL_STOP at the next tick. -/
def execChannelStop (src c : Nat) (s : State) : Ans := atNextTick s src (cmdChannelStop src c)

/-- CHANNEL_LIMIT at the next tick. -/
def execChannelLimit (src tid limit : Nat) (s : State) : Ans := atNextTick s src (cmdChannelLimit src tid limit)

/-- ETH_ARRANGE at the next tick. -/
def execEthArrange (src a : Nat) (s : State) : Ans := atNextTick s src (cmdEthArrange src a)

/-- WEFT_LISTEN at the next tick. -/
def execWeftListen (src : Nat) (a : ListenArgs) (s : State) : Ans := atNextTick s src (cmdWeftListen src a)

/-- WEFT_UNLISTEN at the next tick. -/
def execWeftUnlisten (src n : Nat) (s : State) : Ans := atNextTick s src (cmdWeftUnlisten src n)

/-- WEFT_CONNECT at the next tick. -/
def execWeftConnect (src : Nat) (a : ConnectArgs) (s : State) : Ans := atNextTick s src (cmdWeftConnect src a)

/-- WEFT_CLOSE at the next tick. -/
def execWeftClose (src c : Nat) (s : State) : Ans := atNextTick s src (cmdWeftClose src c)

/-- WEFT_MOVE at the next tick. -/
def execWeftMove (src c port : Nat) (mac : BitVec 48) (vlan : Option Nat) (s : State) : Ans :=
  atNextTick s src (cmdWeftMove src c port mac vlan)

/-- WEFT_LIMIT at the next tick. -/
def execWeftLimit (src tid n : Nat) (s : State) : Ans := atNextTick s src (cmdWeftLimit src tid n)

/-- SC_ADMIT at the next tick. -/
def execScAdmit (src p f rate depth : Nat) (s : State) : Ans := atNextTick s src (cmdScAdmit src p f rate depth)

/-- SC_SHARE at the next tick. -/
def execScShare (src tid w : Nat) (s : State) : Ans := atNextTick s src (cmdScShare src tid w)

/-- SC_CLASS_WEIGHTS at the next tick. -/
def execScClassWeights (src a b c : Nat) (s : State) : Ans := atNextTick s src (cmdScClassWeights src a b c)

/-- PORT_RELEASE at the next tick. -/
def execPortRelease (src p : Nat) (s : State) : Ans := atNextTick s src (cmdPortRelease src p)

/-- PORT_MERGE at the next tick. -/
def execPortMerge (src pair : Nat) (on : Bool) (s : State) : Ans := atNextTick s src (cmdPortMerge src pair on)

/-- TENANT_CREATE at the next tick. -/
def execTenantCreate (src : Nat) (cells queues granules channels windows contexts : Option Nat) (s : State) : Ans :=
  atNextTick s src (cmdTenantCreate src cells queues granules channels windows contexts)

/-- TENANT_BIND at the next tick. -/
def execTenantBind (src t p : Nat) (vf : Option Nat) (vectors cls : Nat) (replace : Option Nat) (s : State) : Ans :=
  atNextTick s src (cmdTenantBind src t p vf vectors cls replace)

/-- TENANT_UNBIND at the next tick. -/
def execTenantUnbind (src t p : Nat) (s : State) : Ans := atNextTick s src (cmdTenantUnbind src t p)

/-- TENANT_START at the next tick. -/
def execTenantStart (src t : Nat) (s : State) : Ans := atNextTick s src (cmdTenantStart src t)

/-- TENANT_FREEZE at the next tick. -/
def execTenantFreeze (src t : Nat) (s : State) : Ans := atNextTick s src (cmdTenantFreeze src t)

/-- TENANT_THAW at the next tick. -/
def execTenantThaw (src t : Nat) (s : State) : Ans := atNextTick s src (cmdTenantThaw src t)

/-- TENANT_QUIESCE at the next tick. -/
def execTenantQuiesce (src t : Nat) (s : State) : Ans := atNextTick s src (cmdTenantQuiesce src t)

/-- TENANT_REMOVE at the next tick. -/
def execTenantRemove (src t : Nat) (s : State) : Ans := atNextTick s src (cmdTenantRemove src t)

/-- TENANT_SAVE at the next tick. -/
def execTenantSave (src t p a n : Nat) (s : State) : Ans := atNextTick s src (cmdTenantSave src t p a n)

/-- TENANT_RESTORE: taken up at the next tick; the row that brings the host's bytes ends one that is being read. -/
def execTenantRestore (src t p a n : Nat) (slots : List Nat) (host : Option Bytes) (s : State) : Ans :=
  atHostData s src 0x34 (.fetchRestore t p a n slots) none (fun s => doTenantRestore s t p n slots host)
    (cmdTenantRestore src t p a n slots host)

/-- WINDOW_ALLOC at the next tick. -/
def execWindowAlloc (src ctx p f : Nat) (s : State) : Ans := atNextTick s src (cmdWindowAlloc src ctx p f)

/-- WINDOW_FREE at the next tick. -/
def execWindowFree (src i : Nat) (s : State) : Ans := atNextTick s src (cmdWindowFree src i)

/-- WINDOW_STAGE at the next tick. -/
def execWindowStage (src i : Nat) (e : BitVec 128) (s : State) : Ans := atNextTick s src (cmdWindowStage src i e)

/-- WINDOW_TACK at the next tick. -/
def execWindowTack (src p f : Nat) (s : State) : Ans := atNextTick s src (cmdWindowTack src p f)

/-- WINDOW_LIMIT at the next tick. -/
def execWindowLimit (src tid limit : Nat) (s : State) : Ans := atNextTick s src (cmdWindowLimit src tid limit)

/-- DIRTY_LOG_START at the next tick. -/
def execDirtyLogStart (src tid p low span a b : Nat) (s : State) : Ans := atNextTick s src (cmdDirtyLogStart src tid p low span a b)

/-- DIRTY_LOG_SWAP at the next tick. -/
def execDirtyLogSwap (src tid p : Nat) (s : State) : Ans := atNextTick s src (cmdDirtyLogSwap src tid p)

/-- DIRTY_LOG_STOP at the next tick. -/
def execDirtyLogStop (src tid p : Nat) (s : State) : Ans := atNextTick s src (cmdDirtyLogStop src tid p)

/-- PAIR_CONFIG at the next tick. -/
def execPairConfig (src : Nat) (enable role : Bool) (s : State) : Ans := atNextTick s src (cmdPairConfig src enable role)

/-- PAIR_RESYNC at the next tick. -/
def execPairResync (src : Nat) (s : State) : Ans := atNextTick s src (cmdPairResync src)

/-- PAIR_TENANT at the next tick. -/
def execPairTenant (src t : Nat) (s : State) : Ans := atNextTick s src (cmdPairTenant src t)

/-- PAIR_UNTENANT at the next tick. -/
def execPairUntenant (src t : Nat) (s : State) : Ans := atNextTick s src (cmdPairUntenant src t)

/-- PAIR_SHADOW at the next tick. -/
def execPairShadow (src i pi : Nat) (s : State) : Ans := atNextTick s src (cmdPairShadow src i pi)

/-- PAIR_PROMOTE at the next tick. -/
def execPairPromote (src : Nat) (s : State) : Ans := atNextTick s src (cmdPairPromote src)

/-- PAIR_UNFENCE at the next tick. -/
def execPairUnfence (src : Nat) (s : State) : Ans := atNextTick s src (cmdPairUnfence src)

/-- FAULT_SEVERITY at the next tick. -/
def execFaultSeverity (src : Nat) (l : List (Nat × Nat)) (s : State) : Ans := atNextTick s src (cmdFaultSeverity src l)

/-- FAULT_ACK at the next tick. -/
def execFaultAck (src : Nat) (entry source : Option Nat) (s : State) : Ans := atNextTick s src (cmdFaultAck src entry source)

/-- STOP_ENTER at the next tick. -/
def execStopEnter (src : Nat) (mask : BitVec 8) (seam : Nat) (s : State) : Ans := atNextTick s src (cmdStopEnter src mask seam)

/-- DOMAIN_POWER at the next tick. -/
def execDomainPower (src d : Nat) (on : Bool) (s : State) : Ans := atNextTick s src (cmdDomainPower src d on)

/-- WAKE_SET at the next tick. -/
def execWakeSet (src threshold hyst polarity debounce : Nat) (enable : Bool) (wait : Nat) (s : State) : Ans :=
  atNextTick s src (cmdWakeSet src threshold hyst polarity debounce enable wait)

/-- STOP_STATS_CLEAR at the next tick. -/
def execStopStatsClear (src : Nat) (s : State) : Ans := atNextTick s src (cmdStopStatsClear src)

/-- LANE_EQ_WRITE at the next tick. -/
def execLaneEqWrite (src first : Nat) (l : List EqEntry) (s : State) : Ans := atNextTick s src (cmdLaneEqWrite src first l)

/-- DEVICE_INFO at the next tick. -/
def execDeviceInfo (src : Nat) (s : State) : Ans := atNextTick s src (cmdDeviceInfo src)

/-- DEVICE_RESET at the next tick. -/
def execDeviceReset (src : Nat) (s : State) : Ans := atNextTick s src (cmdDeviceReset src)

/-- FLASH_WRITE: taken up at the next tick; the row that brings the host's bytes ends one that is being read. -/
def execFlashWrite (src : Nat) (from_ : ImageSource) (n : Nat) (host : Option Bytes) (s : State) : Ans :=
  atHostData s src 0x52 (.fetchFlash from_ n) (some .flashWrite) (fun s => doFlashWrite s src from_ n host)
    (cmdFlashWrite src from_ n host)

/-- KEEP_WRITE at the next tick. -/
def execKeepWrite (src field : Nat) (v : Word) (off : Nat) (b : Bytes) (s : State) : Ans :=
  atNextTick s src (cmdKeepWrite src field v off b)

/-- TIME_SET at the next tick. -/
def execTimeSet (src mode p d : Nat) (step : Option (BitVec 64)) (s : State) : Ans := atNextTick s src (cmdTimeSet src mode p d step)

/-- QUEUE_PUSH at the next tick. -/
def execQueuePush (src q prio : Nat) (b : Bytes) (s : State) : Ans := atNextTick s src (cmdQueuePush src q prio b)

/-- QUEUE_POP at the next tick. -/
def execQueuePop (src q : Nat) (s : State) : Ans := atNextTick s src (cmdQueuePop src q)

end Sys2Proof.Machine
end

