-- ==== Sys2Proof/Machine/Dispatch.lean ====
section
/-! DEFINITION. One arm per command: a direct call of its meaning. -/

namespace Sys2Proof.Machine

def exec (i : Instr) (s : State) : Host.Outcome State Fault Refusal :=
  match i with
  | .alu x0 => Sys2Proof.Machine.execAlu x0 s
  | .pcmp x0 => Sys2Proof.Machine.execPcmp x0 s
  | .jalr x0 => Sys2Proof.Machine.execJalr x0 s
  | .addi x0 => Sys2Proof.Machine.execAddi x0 s
  | .andi x0 => Sys2Proof.Machine.execAndi x0 s
  | .ori x0 => Sys2Proof.Machine.execOri x0 s
  | .xori x0 => Sys2Proof.Machine.execXori x0 s
  | .slli x0 => Sys2Proof.Machine.execSlli x0 s
  | .srli x0 => Sys2Proof.Machine.execSrli x0 s
  | .srai x0 => Sys2Proof.Machine.execSrai x0 s
  | .movk x0 => Sys2Proof.Machine.execMovk x0 s
  | .peqi x0 => Sys2Proof.Machine.execPeqi x0 s
  | .pnei x0 => Sys2Proof.Machine.execPnei x0 s
  | .plti x0 => Sys2Proof.Machine.execPlti x0 s
  | .pgei x0 => Sys2Proof.Machine.execPgei x0 s
  | .pltui x0 => Sys2Proof.Machine.execPltui x0 s
  | .pgeui x0 => Sys2Proof.Machine.execPgeui x0 s
  | .ldb x0 => Sys2Proof.Machine.execLdb x0 s
  | .ldh x0 => Sys2Proof.Machine.execLdh x0 s
  | .ldw x0 => Sys2Proof.Machine.execLdw x0 s
  | .ldd x0 => Sys2Proof.Machine.execLdd x0 s
  | .stb x0 => Sys2Proof.Machine.execStb x0 s
  | .sth x0 => Sys2Proof.Machine.execSth x0 s
  | .stw x0 => Sys2Proof.Machine.execStw x0 s
  | .std x0 => Sys2Proof.Machine.execStd x0 s
  | .vld x0 => Sys2Proof.Machine.execVld x0 s
  | .vst x0 => Sys2Proof.Machine.execVst x0 s
  | .rdsp x0 => Sys2Proof.Machine.execRdsp x0 s
  | .mfs x0 => Sys2Proof.Machine.execMfs x0 s
  | .srWdt x0 => Sys2Proof.Machine.execSrWdt x0 s
  | .srKpOpen x0 => Sys2Proof.Machine.execSrKpOpen x0 s
  | .srReset x0 => Sys2Proof.Machine.execSrReset x0 s
  | .br x0 => Sys2Proof.Machine.execBr x0 s
  | .fence x0 => Sys2Proof.Machine.execFence x0 s
  | .yield_ x0 => Sys2Proof.Machine.execYield x0 s
  | .halt x0 => Sys2Proof.Machine.execHalt x0 s
  | .trap x0 => Sys2Proof.Machine.execTrap x0 s
  | .varith x0 => Sys2Proof.Machine.execVarith x0 s
  | .vcvt x0 => Sys2Proof.Machine.execVcvt x0 s
  | .vred x0 => Sys2Proof.Machine.execVred x0 s
  | .vcmp x0 => Sys2Proof.Machine.execVcmp x0 s
  | .vmerge x0 => Sys2Proof.Machine.execVmerge x0 s
  | .vmove x0 => Sys2Proof.Machine.execVmove x0 s
  | .nsend x0 => Sys2Proof.Machine.execNsend x0 s
  | .waite x0 => Sys2Proof.Machine.execWaite x0 s
  | .qpush x0 x1 => Sys2Proof.Machine.execQpush x0 x1 s
  | .qpop x0 x1 => Sys2Proof.Machine.execQpop x0 x1 s
  | .qpeek x0 x1 => Sys2Proof.Machine.execQpeek x0 x1 s
  | .pld x0 => Sys2Proof.Machine.execPld x0 s
  | .pldComplete x0 x1 x2 => Sys2Proof.Machine.execPldComplete x0 x1 x2 s
  | .pst x0 => Sys2Proof.Machine.execPst x0 s
  | .pred x0 => Sys2Proof.Machine.execPred x0 s
  | .hcopy x0 => Sys2Proof.Machine.execHcopy x0 s
  | .stallResume x0 x1 => Sys2Proof.Machine.execStallResume x0 x1 s
  | .stall x0 => Sys2Proof.Machine.execStall x0 s
  | .activation x0 => Sys2Proof.Machine.execActivation x0 s
  | .timer x0 => Sys2Proof.Machine.execTimer x0 s
  | .programLoad x0 x1 x2 x3 x4 x5 => Sys2Proof.Machine.execProgramLoad x0 x1 x2 x3 x4 x5 s
  | .programUnload x0 x1 => Sys2Proof.Machine.execProgramUnload x0 x1 s
  | .programStart x0 x1 x2 x3 x4 x5 x6 x7 => Sys2Proof.Machine.execProgramStart x0 x1 x2 x3 x4 x5 x6 x7 s
  | .programStop x0 x1 => Sys2Proof.Machine.execProgramStop x0 x1 s
  | .programBind x0 x1 x2 x3 => Sys2Proof.Machine.execProgramBind x0 x1 x2 x3 s
  | .programUnbind x0 x1 x2 x3 => Sys2Proof.Machine.execProgramUnbind x0 x1 x2 x3 s
  | .threadRead x0 x1 x2 => Sys2Proof.Machine.execThreadRead x0 x1 x2 s
  | .granuleAssign x0 x1 x2 x3 x4 => Sys2Proof.Machine.execGranuleAssign x0 x1 x2 x3 x4 s
  | .granuleRelease x0 x1 x2 => Sys2Proof.Machine.execGranuleRelease x0 x1 x2 s
  | .granuleMirror x0 x1 x2 x3 => Sys2Proof.Machine.execGranuleMirror x0 x1 x2 x3 s
  | .granuleRetire x0 x1 => Sys2Proof.Machine.execGranuleRetire x0 x1 s
  | .granuleLimit x0 x1 x2 => Sys2Proof.Machine.execGranuleLimit x0 x1 x2 s
  | .grant x0 x1 x2 x3 x4 => Sys2Proof.Machine.execGrant x0 x1 x2 x3 x4 s
  | .grantRevoke x0 x1 => Sys2Proof.Machine.execGrantRevoke x0 x1 s
  | .keySet x0 x1 x2 => Sys2Proof.Machine.execKeySet x0 x1 x2 s
  | .scrubStart x0 => Sys2Proof.Machine.execScrubStart x0 s
  | .scrubComplete x0 => Sys2Proof.Machine.execScrubComplete x0 s
  | .patrolRead x0 x1 => Sys2Proof.Machine.execPatrolRead x0 x1 s
  | .reduceCreate x0 x1 => Sys2Proof.Machine.execReduceCreate x0 x1 s
  | .reduceDestroy x0 x1 => Sys2Proof.Machine.execReduceDestroy x0 x1 s
  | .reduceReset x0 x1 => Sys2Proof.Machine.execReduceReset x0 x1 s
  | .ruQuota x0 x1 x2 x3 => Sys2Proof.Machine.execRuQuota x0 x1 x2 x3 s
  | .contributionAccept x0 x1 => Sys2Proof.Machine.execContributionAccept x0 x1 s
  | .chunkComplete x0 x1 x2 => Sys2Proof.Machine.execChunkComplete x0 x1 x2 s
  | .completionItemLink x0 x1 => Sys2Proof.Machine.execCompletionItemLink x0 x1 s
  | .queueCreate x0 x1 x2 x3 x4 => Sys2Proof.Machine.execQueueCreate x0 x1 x2 x3 x4 s
  | .queueDestroy x0 x1 => Sys2Proof.Machine.execQueueDestroy x0 x1 s
  | .queueFlush x0 x1 => Sys2Proof.Machine.execQueueFlush x0 x1 s
  | .flush x0 => Sys2Proof.Machine.execFlush x0 s
  | .queueSet x0 x1 x2 x3 => Sys2Proof.Machine.execQueueSet x0 x1 x2 x3 s
  | .queueOpen x0 x1 x2 x3 => Sys2Proof.Machine.execQueueOpen x0 x1 x2 x3 s
  | .queueClose x0 x1 => Sys2Proof.Machine.execQueueClose x0 x1 s
  | .openingClose x0 => Sys2Proof.Machine.execOpeningClose x0 s
  | .qmQuota x0 x1 x2 x3 => Sys2Proof.Machine.execQmQuota x0 x1 x2 x3 s
  | .sweepEnd => Sys2Proof.Machine.execSweepEnd s
  | .hostPushLink x0 x1 => Sys2Proof.Machine.execHostPushLink x0 x1 s
  | .pushPageWrite x0 => Sys2Proof.Machine.execPushPageWrite x0 s
  | .channelAssign x0 x1 => Sys2Proof.Machine.execChannelAssign x0 x1 s
  | .channelRelease x0 x1 => Sys2Proof.Machine.execChannelRelease x0 x1 s
  | .channelStop x0 x1 => Sys2Proof.Machine.execChannelStop x0 x1 s
  | .channelLimit x0 x1 x2 => Sys2Proof.Machine.execChannelLimit x0 x1 x2 s
  | .shChTail x0 x1 x2 => Sys2Proof.Machine.execShChTail x0 x1 x2 s
  | .pause x0 x1 => Sys2Proof.Machine.execPause x0 x1 s
  | .resume x0 x1 => Sys2Proof.Machine.execResume x0 x1 s
  | .skip x0 x1 => Sys2Proof.Machine.execSkip x0 x1 s
  | .paused x0 => Sys2Proof.Machine.execPaused x0 s
  | .descriptorFetch x0 x1 => Sys2Proof.Machine.execDescriptorFetch x0 x1 s
  | .tailBufferWriteThrough x0 => Sys2Proof.Machine.execTailBufferWriteThrough x0 s
  | .beatIssue x0 => Sys2Proof.Machine.execBeatIssue x0 s
  | .beatComplete x0 x1 x2 => Sys2Proof.Machine.execBeatComplete x0 x1 x2 s
  | .retry x0 x1 => Sys2Proof.Machine.execRetry x0 x1 s
  | .descriptorRetire x0 => Sys2Proof.Machine.execDescriptorRetire x0 s
  | .ethArrange x0 x1 => Sys2Proof.Machine.execEthArrange x0 x1 s
  | .weftListen x0 x1 => Sys2Proof.Machine.execWeftListen x0 x1 s
  | .weftUnlisten x0 x1 => Sys2Proof.Machine.execWeftUnlisten x0 x1 s
  | .weftConnect x0 x1 => Sys2Proof.Machine.execWeftConnect x0 x1 s
  | .weftClose x0 x1 => Sys2Proof.Machine.execWeftClose x0 x1 s
  | .weftMove x0 x1 x2 x3 x4 => Sys2Proof.Machine.execWeftMove x0 x1 x2 x3 x4 s
  | .weftLimit x0 x1 x2 => Sys2Proof.Machine.execWeftLimit x0 x1 x2 s
  | .frameReceive x0 => Sys2Proof.Machine.execFrameReceive x0 s
  | .frameTransmit x0 => Sys2Proof.Machine.execFrameTransmit x0 s
  | .etLink x0 x1 => Sys2Proof.Machine.execEtLink x0 x1 s
  | .send x0 => Sys2Proof.Machine.execSend x0 s
  | .write x0 => Sys2Proof.Machine.execWrite x0 s
  | .reduce x0 => Sys2Proof.Machine.execReduce x0 s
  | .heldPacketDelivery x0 x1 => Sys2Proof.Machine.execHeldPacketDelivery x0 x1 s
  | .ack x0 => Sys2Proof.Machine.execAck x0 s
  | .nak x0 => Sys2Proof.Machine.execNak x0 s
  | .credret x0 => Sys2Proof.Machine.execCredret x0 s
  | .connect x0 => Sys2Proof.Machine.execConnect x0 s
  | .accept x0 => Sys2Proof.Machine.execAccept x0 s
  | .reject x0 => Sys2Proof.Machine.execReject x0 s
  | .close x0 => Sys2Proof.Machine.execClose x0 s
  | .closeAck x0 => Sys2Proof.Machine.execCloseAck x0 s
  | .packetTransmit x0 => Sys2Proof.Machine.execPacketTransmit x0 s
  | .creditGrant x0 => Sys2Proof.Machine.execCreditGrant x0 s
  | .ackTimer x0 => Sys2Proof.Machine.execAckTimer x0 s
  | .retransmissionTimeout x0 x1 => Sys2Proof.Machine.execRetransmissionTimeout x0 x1 s
  | .heldAckTimer x0 => Sys2Proof.Machine.execHeldAckTimer x0 s
  | .connectRetry x0 => Sys2Proof.Machine.execConnectRetry x0 s
  | .closingTimeout x0 => Sys2Proof.Machine.execClosingTimeout x0 s
  | .closedHoldExpiry x0 => Sys2Proof.Machine.execClosedHoldExpiry x0 s
  | .idleReclaim x0 => Sys2Proof.Machine.execIdleReclaim x0 s
  | .reclaimRepeat x0 => Sys2Proof.Machine.execReclaimRepeat x0 s
  | .rateStep x0 => Sys2Proof.Machine.execRateStep x0 s
  | .scAdmit x0 x1 x2 x3 x4 => Sys2Proof.Machine.execScAdmit x0 x1 x2 x3 x4 s
  | .scShare x0 x1 x2 => Sys2Proof.Machine.execScShare x0 x1 x2 s
  | .scClassWeights x0 x1 x2 x3 => Sys2Proof.Machine.execScClassWeights x0 x1 x2 x3 s
  | .schedulingEpoch => Sys2Proof.Machine.execSchedulingEpoch s
  | .clearMax x0 => Sys2Proof.Machine.execClearMax x0 s
  | .memoryRead x0 x1 x2 => Sys2Proof.Machine.execMemoryRead x0 x1 x2 s
  | .memoryWrite x0 => Sys2Proof.Machine.execMemoryWrite x0 s
  | .expansionRomRead x0 x1 x2 => Sys2Proof.Machine.execExpansionRomRead x0 x1 x2 s
  | .configurationRequest x0 x1 x2 => Sys2Proof.Machine.execConfigurationRequest x0 x1 x2 s
  | .completion x0 x1 x2 x3 x4 x5 => Sys2Proof.Machine.execCompletion x0 x1 x2 x3 x4 x5 s
  | .completionTimeout x0 x1 => Sys2Proof.Machine.execCompletionTimeout x0 x1 s
  | .quarantineEnd x0 x1 => Sys2Proof.Machine.execQuarantineEnd x0 x1 s
  | .powerstateWrite x0 x1 => Sys2Proof.Machine.execPowerstateWrite x0 x1 s
  | .powerstateStepEnd x0 => Sys2Proof.Machine.execPowerstateStepEnd x0 s
  | .l1Idle x0 => Sys2Proof.Machine.execL1Idle x0 s
  | .l0pNarrow x0 => Sys2Proof.Machine.execL0pNarrow x0 s
  | .perstAssert x0 => Sys2Proof.Machine.execPerstAssert x0 s
  | .perstDeassert x0 => Sys2Proof.Machine.execPerstDeassert x0 s
  | .hotReset x0 => Sys2Proof.Machine.execHotReset x0 s
  | .linkUp x0 x1 x2 x3 x4 => Sys2Proof.Machine.execLinkUp x0 x1 x2 x3 x4 s
  | .linkDown x0 => Sys2Proof.Machine.execLinkDown x0 s
  | .partnerDetected x0 => Sys2Proof.Machine.execPartnerDetected x0 s
  | .portRelease x0 x1 => Sys2Proof.Machine.execPortRelease x0 x1 s
  | .portMerge x0 x1 x2 => Sys2Proof.Machine.execPortMerge x0 x1 x2 s
  | .initiateFlr x0 x1 => Sys2Proof.Machine.execInitiateFlr x0 x1 s
  | .pfFlr x0 => Sys2Proof.Machine.execPfFlr x0 s
  | .flrComplete x0 => Sys2Proof.Machine.execFlrComplete x0 s
  | .vfEnableClear x0 => Sys2Proof.Machine.execVfEnableClear x0 s
  | .noticePush => Sys2Proof.Machine.execNoticePush s
  | .basting x0 x1 x2 => Sys2Proof.Machine.execBasting x0 x1 x2 s
  | .fnTack x0 x1 => Sys2Proof.Machine.execFnTack x0 x1 s
  | .oldMappingDrained x0 x1 => Sys2Proof.Machine.execOldMappingDrained x0 x1 s
  | .tenantCreate x0 x1 x2 x3 x4 x5 x6 => Sys2Proof.Machine.execTenantCreate x0 x1 x2 x3 x4 x5 x6 s
  | .tenantBind x0 x1 x2 x3 x4 x5 x6 => Sys2Proof.Machine.execTenantBind x0 x1 x2 x3 x4 x5 x6 s
  | .tenantUnbind x0 x1 x2 => Sys2Proof.Machine.execTenantUnbind x0 x1 x2 s
  | .tenantStart x0 x1 => Sys2Proof.Machine.execTenantStart x0 x1 s
  | .tenantFreeze x0 x1 => Sys2Proof.Machine.execTenantFreeze x0 x1 s
  | .tenantThaw x0 x1 => Sys2Proof.Machine.execTenantThaw x0 x1 s
  | .tenantQuiesce x0 x1 => Sys2Proof.Machine.execTenantQuiesce x0 x1 s
  | .tenantRemove x0 x1 => Sys2Proof.Machine.execTenantRemove x0 x1 s
  | .tenantSave x0 x1 x2 x3 x4 => Sys2Proof.Machine.execTenantSave x0 x1 x2 x3 x4 s
  | .tenantRestore x0 x1 x2 x3 x4 x5 x6 => Sys2Proof.Machine.execTenantRestore x0 x1 x2 x3 x4 x5 x6 s
  | .windowAlloc x0 x1 x2 x3 => Sys2Proof.Machine.execWindowAlloc x0 x1 x2 x3 s
  | .windowFree x0 x1 => Sys2Proof.Machine.execWindowFree x0 x1 s
  | .windowStage x0 x1 x2 => Sys2Proof.Machine.execWindowStage x0 x1 x2 s
  | .windowTack x0 x1 x2 => Sys2Proof.Machine.execWindowTack x0 x1 x2 s
  | .windowLimit x0 x1 x2 => Sys2Proof.Machine.execWindowLimit x0 x1 x2 s
  | .dirtyLogStart x0 x1 x2 x3 x4 x5 x6 => Sys2Proof.Machine.execDirtyLogStart x0 x1 x2 x3 x4 x5 x6 s
  | .dirtyLogSwap x0 x1 x2 => Sys2Proof.Machine.execDirtyLogSwap x0 x1 x2 s
  | .dirtyLogStop x0 x1 x2 => Sys2Proof.Machine.execDirtyLogStop x0 x1 x2 s
  | .dirtyLineWrite x0 x1 => Sys2Proof.Machine.execDirtyLineWrite x0 x1 s
  | .programDoorbell x0 x1 x2 => Sys2Proof.Machine.execProgramDoorbell x0 x1 x2 s
  | .smVfPairFence x0 => Sys2Proof.Machine.execSmVfPairFence x0 s
  | .smPairFence x0 => Sys2Proof.Machine.execSmPairFence x0 s
  | .pairConfig x0 x1 x2 => Sys2Proof.Machine.execPairConfig x0 x1 x2 s
  | .pairResync x0 => Sys2Proof.Machine.execPairResync x0 s
  | .pairTenant x0 x1 => Sys2Proof.Machine.execPairTenant x0 x1 s
  | .pairUntenant x0 x1 => Sys2Proof.Machine.execPairUntenant x0 x1 s
  | .pairShadow x0 x1 x2 => Sys2Proof.Machine.execPairShadow x0 x1 x2 s
  | .pairPromote x0 => Sys2Proof.Machine.execPairPromote x0 s
  | .pairUnfence x0 => Sys2Proof.Machine.execPairUnfence x0 s
  | .partnerReplyTimeout x0 => Sys2Proof.Machine.execPartnerReplyTimeout x0 s
  | .seamFrame x0 => Sys2Proof.Machine.execSeamFrame x0 s
  | .lineWrite x0 => Sys2Proof.Machine.execLineWrite x0 s
  | .granuleZero x0 => Sys2Proof.Machine.execGranuleZero x0 s
  | .granuleMap x0 => Sys2Proof.Machine.execGranuleMap x0 s
  | .queueLink x0 => Sys2Proof.Machine.execQueueLink x0 s
  | .queueUnlink x0 => Sys2Proof.Machine.execQueueUnlink x0 s
  | .queueReset x0 => Sys2Proof.Machine.execQueueReset x0 s
  | .object x0 => Sys2Proof.Machine.execObject x0 s
  | .thread x0 => Sys2Proof.Machine.execThread x0 s
  | .scratch x0 => Sys2Proof.Machine.execScratch x0 s
  | .mark x0 => Sys2Proof.Machine.execMark x0 s
  | .hello x0 => Sys2Proof.Machine.execHello x0 s
  | .heartbeat x0 x1 => Sys2Proof.Machine.execHeartbeat x0 x1 s
  | .resend x0 => Sys2Proof.Machine.execResend x0 s
  | .failover => Sys2Proof.Machine.execFailover s
  | .mapFail x0 => Sys2Proof.Machine.execMapFail x0 s
  | .resync x0 => Sys2Proof.Machine.execResync x0 s
  | .reply x0 x1 x2 => Sys2Proof.Machine.execReply x0 x1 x2 s
  | .heartbeatSend => Sys2Proof.Machine.execHeartbeatSend s
  | .heartbeatLost => Sys2Proof.Machine.execHeartbeatLost s
  | .fenceWaitEnd => Sys2Proof.Machine.execFenceWaitEnd s
  | .fenceIn x0 => Sys2Proof.Machine.execFenceIn x0 s
  | .settleEnd => Sys2Proof.Machine.execSettleEnd s
  | .promoted => Sys2Proof.Machine.execPromoted s
  | .resyncCopyDone => Sys2Proof.Machine.execResyncCopyDone s
  | .seamStepPass => Sys2Proof.Machine.execSeamStepPass s
  | .seamStepFail => Sys2Proof.Machine.execSeamStepFail s
  | .seamRetry => Sys2Proof.Machine.execSeamRetry s
  | .seamLinkDown => Sys2Proof.Machine.execSeamLinkDown s
  | .sourceRaise x0 x1 x2 x3 x4 => Sys2Proof.Machine.execSourceRaise x0 x1 x2 x3 x4 s
  | .recordForm => Sys2Proof.Machine.execRecordForm s
  | .historyWrite => Sys2Proof.Machine.execHistoryWrite s
  | .thTack => Sys2Proof.Machine.execThTack s
  | .thSrcCfg x0 x1 => Sys2Proof.Machine.execThSrcCfg x0 x1 s
  | .thForce x0 => Sys2Proof.Machine.execThForce x0 s
  | .thHistAck x0 => Sys2Proof.Machine.execThHistAck x0 s
  | .faultSeverity x0 x1 => Sys2Proof.Machine.execFaultSeverity x0 x1 s
  | .faultAck x0 x1 x2 => Sys2Proof.Machine.execFaultAck x0 x1 x2 s
  | .stopEnter x0 x1 x2 => Sys2Proof.Machine.execStopEnter x0 x1 x2 s
  | .abortPoint x0 => Sys2Proof.Machine.execAbortPoint x0 s
  | .pointOfNoReturn => Sys2Proof.Machine.execPointOfNoReturn s
  | .domainPower x0 x1 x2 => Sys2Proof.Machine.execDomainPower x0 x1 x2 s
  | .domainSwitchDone x0 => Sys2Proof.Machine.execDomainSwitchDone x0 s
  | .pwDomainTimeout x0 => Sys2Proof.Machine.execPwDomainTimeout x0 s
  | .wakeSet x0 x1 x2 x3 x4 x5 x6 => Sys2Proof.Machine.execWakeSet x0 x1 x2 x3 x4 x5 x6 s
  | .stopStatsClear x0 => Sys2Proof.Machine.execStopStatsClear x0 s
  | .wakeSense x0 => Sys2Proof.Machine.execWakeSense x0 s
  | .mainPg => Sys2Proof.Machine.execMainPg s
  | .wakeWaitTimeout => Sys2Proof.Machine.execWakeWaitTimeout s
  | .brownout x0 => Sys2Proof.Machine.execBrownout x0 s
  | .devResetN => Sys2Proof.Machine.execDevResetN s
  | .boot x0 x1 x2 x3 => Sys2Proof.Machine.execBoot x0 x1 x2 x3 s
  | .mgWatchdog => Sys2Proof.Machine.execMgWatchdog s
  | .pllLock x0 => Sys2Proof.Machine.execPllLock x0 s
  | .ckClkSel x0 => Sys2Proof.Machine.execCkClkSel x0 s
  | .ckPllUnlock x0 => Sys2Proof.Machine.execCkPllUnlock x0 s
  | .ckFreq x0 => Sys2Proof.Machine.execCkFreq x0 s
  | .pwSupplyUv x0 => Sys2Proof.Machine.execPwSupplyUv x0 s
  | .pwOvertemp => Sys2Proof.Machine.execPwOvertemp s
  | .thermtripN => Sys2Proof.Machine.execThermtripN s
  | .mcTrainFail x0 => Sys2Proof.Machine.execMcTrainFail x0 s
  | .zeroFillComplete => Sys2Proof.Machine.execZeroFillComplete s
  | .crystalStop => Sys2Proof.Machine.execCrystalStop s
  | .holdover => Sys2Proof.Machine.execHoldover s
  | .laneEqWrite x0 x1 x2 => Sys2Proof.Machine.execLaneEqWrite x0 x1 x2 s
  | .lnLaneCtrl x0 x1 => Sys2Proof.Machine.execLnLaneCtrl x0 x1 s
  | .lnSlip x0 x1 => Sys2Proof.Machine.execLnSlip x0 x1 s
  | .clear x0 => Sys2Proof.Machine.execClear x0 s
  | .inject x0 => Sys2Proof.Machine.execInject x0 s
  | .prbsLock x0 => Sys2Proof.Machine.execPrbsLock x0 s
  | .prbsLockLoss x0 => Sys2Proof.Machine.execPrbsLockLoss x0 s
  | .lnLockLost x0 => Sys2Proof.Machine.execLnLockLost x0 s
  | .managementTick => Sys2Proof.Machine.execManagementTick s
  | .mgMbDoorbell x0 x1 => Sys2Proof.Machine.execMgMbDoorbell x0 x1 s
  | .mgMbRsp x0 x1 => Sys2Proof.Machine.execMgMbRsp x0 x1 s
  | .hpLateLog x0 => Sys2Proof.Machine.execHpLateLog x0 s
  | .etTxTsId x0 => Sys2Proof.Machine.execEtTxTsId x0 s
  | .deviceInfo x0 => Sys2Proof.Machine.execDeviceInfo x0 s
  | .deviceReset x0 => Sys2Proof.Machine.execDeviceReset x0 s
  | .flashWrite x0 x1 x2 x3 => Sys2Proof.Machine.execFlashWrite x0 x1 x2 x3 s
  | .keepWrite x0 x1 x2 x3 x4 => Sys2Proof.Machine.execKeepWrite x0 x1 x2 x3 x4 s
  | .timeSet x0 x1 x2 x3 x4 => Sys2Proof.Machine.execTimeSet x0 x1 x2 x3 x4 s
  | .queuePush x0 x1 x2 x3 => Sys2Proof.Machine.execQueuePush x0 x1 x2 x3 s
  | .queuePop x0 x1 => Sys2Proof.Machine.execQueuePop x0 x1 s
  | .requestBufferWrite x0 x1 => Sys2Proof.Machine.execRequestBufferWrite x0 x1 s
  | .responseBufferRead x0 x1 => Sys2Proof.Machine.execResponseBufferRead x0 x1 s
  | .bmcDoorbell => Sys2Proof.Machine.execBmcDoorbell s
  | .statusRead => Sys2Proof.Machine.execStatusRead s
  | .entdaa x0 => Sys2Proof.Machine.execEntdaa x0 s
  | .setdasa x0 => Sys2Proof.Machine.execSetdasa x0 s
  | .rstdaa => Sys2Proof.Machine.execRstdaa s
  | .enec => Sys2Proof.Machine.execEnec s
  | .disec => Sys2Proof.Machine.execDisec s
  | .getpid => Sys2Proof.Machine.execGetpid s
  | .getbcr => Sys2Proof.Machine.execGetbcr s
  | .getdcr => Sys2Proof.Machine.execGetdcr s
  | .getstatus => Sys2Proof.Machine.execGetstatus s
  | .getmxds => Sys2Proof.Machine.execGetmxds s
  | .registerWrite x0 x1 x2 => Sys2Proof.Machine.execRegisterWrite x0 x1 x2 s
  | .vaon x0 => Sys2Proof.Machine.execVaon x0 s
  | .mcHot x0 x1 x2 => Sys2Proof.Machine.execMcHot x0 x1 x2 s
  | .hbmTrained x0 x1 => Sys2Proof.Machine.execHbmTrained x0 x1 s
  | .lastCellFreed x0 => Sys2Proof.Machine.execLastCellFreed x0 s
  | .flashWriteComplete x0 => Sys2Proof.Machine.execFlashWriteComplete x0 s
  | .heartbeatMiss => Sys2Proof.Machine.execHeartbeatMiss s
  | .pauseQuantaExpiry x0 x1 => Sys2Proof.Machine.execPauseQuantaExpiry x0 x1 s
  | .linkError x0 x1 => Sys2Proof.Machine.execLinkError x0 x1 s
  | .partnerL1Request x0 x1 x2 => Sys2Proof.Machine.execPartnerL1Request x0 x1 x2 s
  | .postedCredit x0 => Sys2Proof.Machine.execPostedCredit x0 s

end Sys2Proof.Machine
end

