-- ==== Sys2Proof/Machine/Step.lean ====
section
/-! DEFINITION. One step: the command at the front of the queue has its effect on the state with the queue's rest. On an
empty queue one FCLK cycle passes (log entry 1). -/

namespace Sys2Proof.Machine

/-- Take the command at the front of the queue; with none waiting, one FCLK cycle passes. -/
def step (s : State) : Host.Outcome State Fault Refusal :=
  match s.pending with
  | [] => .next (passCycles s 1)
  | c :: rest => exec c { s with pending := rest }

/-- Put the command that a word spells at the front of the queue; the state itself where the word spells none. -/
def State.withFetchWord (s : State) (nbits w : Nat) : State :=
  match Sys2Proof.decodeTableWord nbits w with
  | some c => { s with pending := c :: s.pending }
  | none => s

end Sys2Proof.Machine
end

