-- ==== Sys2Proof/WellFormed.lean ====
section
/-! DEFINITION. Which commands are well formed: every operand fits the field in which the command carries it (the handle and
field widths of Table 02-11, R412, R413 and Tables 12-5 and 16-4). A command that is not can never be sent; the meanings
answer it all the same. -/

namespace Sys2Proof

/-- A number below a bound. -/
def below (bound n : Nat) : Bool := decide (n < bound)

/-- A number that fits w bytes. -/
def fits (w n : Nat) : Bool := decide (n < 2 ^ (8 * w))

/-- A number below a bound, where one is given. -/
def optBelow (bound : Nat) : Option Nat → Bool
  | some n => below bound n
  | none => true

def lengthOk {α : Type} (most : Nat) (l : List α) : Bool := decide (l.length ≤ most)

def fnRefOk (f : FnRef) : Bool := below 8 f.port && below 256 f.fn

def imageOk : ImageSource → Bool
  | .host port addr => below 256 port && fits 8 addr
  | .pool addr => fits 8 addr

/-- A request lies within a BAR of at most 2^40 bytes; a payload has at most 4,096 bytes. -/
def memReadOk (r : MemRead) : Bool :=
  below 8 r.port && below 256 r.fn && below 6 r.bar && below (2 ^ 40) r.offset && below 4097 r.length

def memWriteOk (w : MemWrite) : Bool :=
  below 8 w.port && below 256 w.fn && below 6 w.bar && below (2 ^ 40) w.offset && lengthOk 4096 w.bytes

def packetOk (p : WeftPacket) : Bool :=
  below 16 p.port && below 65536 p.udpSrc && optBelow 4096 p.vlan && below 8 p.prio && below 64 p.dscp

def frameOk (f : EthFrame) : Bool := below 16 f.port

def recordOk (r : SeamRecord) : Bool := fits 8 r.jsn && lengthOk 65535 r.body

def seamFrameOk (f : SeamFrame) : Bool := below 256 f.kind && fits 4 f.fsn && fits 8 f.ackJsn

def helloOk (m : HelloMsg) : Bool := below 256 m.highest && below 4 m.arrange && below 16 m.merge && fits 4 m.stepFsn

def reduceArgsOk (a : ReduceArgs) : Bool :=
  below 257 a.ctx && fits 1 a.format && fits 1 a.op && fits 2 a.contributors && fits 8 a.result && fits 4 a.chunks &&
    fits 2 a.lastLines && fits 2 a.cq && fits 1 a.cqPrio

def channelArgsOk (a : ChannelArgs) : Bool :=
  below 257 a.ctx && fits 1 a.cls && fits 8 a.base && fits 1 a.ringLog2 && fits 1 a.port && below 256 a.fn &&
    optBelow 65536 a.vector && fits 2 a.cq && fits 1 a.retry

def listenArgsOk (a : ListenArgs) : Bool :=
  below 257 a.ctx && fits 2 a.service && fits 2 a.portMask && fits 1 a.cls && fits 2 a.rxQ && fits 2 a.reportQ &&
    fits 1 a.payloadLog2 && optBelow 256 a.grantLog2

def peerAddrOk (p : PeerAddr) : Bool := optBelow 65536 p.vlan && fits 1 p.prio && fits 1 p.dscp

def connectArgsOk (a : ConnectArgs) : Bool :=
  below 257 a.ctx && below 256 a.port && peerAddrOk a.peer && fits 2 a.service && fits 1 a.cls && fits 2 a.rxQ &&
    fits 2 a.reportQ && fits 1 a.payloadLog2 && optBelow 256 a.grantLog2

/-- FAULT_SEVERITY carries at most 64 pairs of source and severity. -/
def pairsOk (l : List (Nat × Nat)) : Bool := lengthOk 64 l && l.all (fun e => below 65536 e.1 && below 256 e.2)

/-- TENANT_RESTORE names ports for the binding slots 0 to 7. -/
def slotsOk (l : List Nat) : Bool := lengthOk 8 l && l.all (below 256)

/-- Every operand fits its field. -/
def wellFormed (i : Instr) : Bool :=
  match i with
  | .alu t | .pcmp t | .jalr t | .addi t | .andi t | .ori t | .xori t | .slli t | .srli t | .srai t | .movk t
  | .peqi t | .pnei t | .plti t | .pgei t | .pltui t | .pgeui t | .ldb t | .ldh t | .ldw t | .ldd t | .stb t | .sth t
  | .stw t | .std t | .vld t | .vst t | .rdsp t | .mfs t | .srWdt t | .srKpOpen t | .srReset t | .br t | .fence t
  | .yield_ t | .halt t | .trap t | .varith t | .vcvt t | .vred t | .vcmp t | .vmerge t | .vmove t | .nsend t
  | .waite t | .qpush t _ | .qpop t _ | .qpeek t _ | .pld t | .pst t | .pred t | .hcopy t | .stallResume t _
  | .stall t | .activation t | .timer t => below 513 t
  | .pldComplete t k _ => below 513 t && below 4 k
  | .programLoad src ctx from_ length _ _ => below 9 src && below 257 ctx && imageOk from_ && fits 8 length
  | .programUnload src program => below 9 src && below 1024 program
  | .programStart src program engine threads scratch budgetCap faultQueue _ =>
    below 9 src && below 1024 program && below 64 engine && fits 1 threads && fits 4 scratch && fits 2 budgetCap && fits 2 faultQueue
  | .programStop src inst => below 9 src && below 512 inst
  | .programBind src inst _ source | .programUnbind src inst _ source => below 9 src && below 512 inst && fits 2 source
  | .threadRead src engine thread => below 9 src && below 64 engine && below 8 thread
  | .granuleAssign src ctx index stack _ => below 9 src && below 257 ctx && optBelow 131072 index && optBelow 8 stack
  | .granuleRelease src ctx index | .granuleMirror src ctx index _ => below 9 src && below 257 ctx && below 131072 index
  | .granuleRetire src granule => below 9 src && below 131072 granule
  | .granuleLimit src tid limit | .channelLimit src tid limit | .windowLimit src tid limit =>
    below 9 src && below 256 tid && fits 4 limit
  | .grant src owner index grantee _ => below 9 src && below 257 owner && below 131072 index && below 256 grantee
  | .grantRevoke src grant => below 9 src && below 4096 grant
  | .keySet src slot _ => below 9 src && below 257 slot
  | .scrubStart stack | .scrubComplete stack | .mcTrainFail stack | .mcHot stack _ _ | .hbmTrained stack _ =>
    below 8 stack
  | .patrolRead line _ => below 4294967296 line
  | .reduceCreate src args => below 9 src && reduceArgsOk args
  | .reduceDestroy src window | .reduceReset src window => below 9 src && below 4096 window
  | .ruQuota src ctx unit slices => below 9 src && below 257 ctx && optBelow 8 unit && fits 1 slices
  | .contributionAccept _ _ | .sweepEnd | .schedulingEpoch | .noticePush | .failover | .resync _ | .heartbeatSend
  | .heartbeatLost | .fenceWaitEnd | .fenceIn _ | .settleEnd | .promoted | .resyncCopyDone | .seamStepPass
  | .seamStepFail | .seamRetry | .seamLinkDown | .recordForm | .historyWrite | .thTack | .thForce _ | .thHistAck _
  | .abortPoint _ | .pointOfNoReturn | .wakeSense _ | .mainPg | .wakeWaitTimeout | .brownout _ | .devResetN
  | .boot _ _ _ _ | .mgWatchdog | .ckClkSel _ | .pwSupplyUv _ | .pwOvertemp | .thermtripN | .zeroFillComplete
  | .crystalStop | .holdover | .managementTick | .bmcDoorbell | .statusRead | .rstdaa | .enec | .disec | .getpid
  | .getbcr | .getdcr | .getstatus | .getmxds | .vaon _ | .flashWriteComplete _ | .heartbeatMiss => true
  | .chunkComplete window chunk _ | .completionItemLink window chunk => below 4096 window && below 65536 chunk
  | .queueCreate src ctx mode limit _ => below 9 src && below 257 ctx && fits 1 mode && fits 4 limit
  | .queueDestroy src queue | .queueFlush src queue | .queueClose src queue | .queuePop src queue =>
    below 9 src && below 16384 queue
  | .flush queue | .openingClose queue | .lastCellFreed queue => below 16384 queue
  | .queueSet src queue mode limit => below 9 src && below 16384 queue && fits 1 mode && fits 4 limit
  | .queueOpen src queue sender sendLimit => below 9 src && below 16384 queue && below 256 sender && fits 4 sendLimit
  | .qmQuota src ctx cells queues => below 9 src && below 257 ctx && fits 4 cells && fits 2 queues
  | .hostPushLink port _ | .clearMax port | .powerstateWrite port _ | .powerstateStepEnd port | .l1Idle port
  | .l0pNarrow port | .perstAssert port | .perstDeassert port | .hotReset port | .linkDown port
  | .partnerDetected port | .pfFlr port | .vfEnableClear port | .basting port _ _ | .fnTack port _
  | .smPairFence port | .hpLateLog port | .linkError port _ | .postedCredit port => below 8 port
  | .pushPageWrite w | .memoryWrite w => memWriteOk w
  | .channelAssign src args => below 9 src && channelArgsOk args
  | .channelRelease src channel | .channelStop src channel => below 9 src && below 1024 channel
  | .shChTail who channel _ | .pause who channel | .resume who channel | .skip who channel =>
    fnRefOk who && below 1024 channel
  | .paused channel | .descriptorFetch channel _ | .tailBufferWriteThrough channel | .beatIssue channel
  | .beatComplete channel _ _ | .retry channel _ | .descriptorRetire channel => below 1024 channel
  | .ethArrange src arrangement => below 9 src && below 4 arrangement
  | .weftListen src args => below 9 src && listenArgsOk args
  | .weftUnlisten src listener => below 9 src && below 256 listener
  | .weftConnect src args => below 9 src && connectArgsOk args
  | .weftClose src conn => below 9 src && below 65536 conn
  | .weftMove src conn port _ vlan => below 9 src && below 65536 conn && below 16 port && optBelow 4096 vlan
  | .weftLimit src tid contexts => below 9 src && below 256 tid && fits 4 contexts
  | .frameReceive frame => frameOk frame
  | .frameTransmit port | .etLink port _ | .etTxTsId port => below 16 port
  | .send p | .write p | .reduce p | .ack p | .nak p | .credret p | .connect p | .accept p | .reject p | .close p
  | .closeAck p => packetOk p
  | .heldPacketDelivery conn psn | .retransmissionTimeout conn psn => below 65536 conn && below 16777216 psn
  | .packetTransmit conn | .creditGrant conn | .ackTimer conn | .heldAckTimer conn | .connectRetry conn
  | .closingTimeout conn | .closedHoldExpiry conn | .idleReclaim conn | .reclaimRepeat conn | .rateStep conn =>
    below 65536 conn
  | .scAdmit src port fn rate depth => below 9 src && below 8 port && below 256 fn && fits 1 rate && fits 2 depth
  | .scShare src tid weight => below 9 src && below 256 tid && fits 1 weight
  | .scClassWeights src sc1 sc2 sc3 => below 9 src && fits 1 sc1 && fits 1 sc2 && fits 1 sc3
  | .memoryRead r _ _ => memReadOk r
  | .expansionRomRead port offset length => below 8 port && below 16777216 offset && below 4097 length
  | .configurationRequest who offset _ => fnRefOk who && below 4096 offset
  | .completion port fn tag head bytes _ =>
    below 8 port && below 256 fn && below 16384 tag && below 4097 head.byteCount && below 128 head.lowerAddr && lengthOk 4096 bytes
  | .completionTimeout port tag | .quarantineEnd port tag =>
    below 8 port && below 16384 tag
  | .linkUp port speed width _ _ => below 8 port && below 8 speed && below 17 width
  | .portRelease src port => below 9 src && below 8 port
  | .portMerge src pair _ => below 9 src && below 4 pair
  | .initiateFlr port fn | .oldMappingDrained port fn => below 8 port && below 256 fn
  | .flrComplete tid => below 256 tid
  | .tenantCreate src cells queues granules channels windows contexts =>
    below 9 src && optBelow (2 ^ 32) cells && optBelow 65536 queues && optBelow (2 ^ 32) granules && optBelow 256 channels && optBelow 65536 windows && optBelow (2 ^ 32) contexts
  | .tenantBind src tid port vf vectors pushClass replace =>
    below 9 src && below 256 tid && below 8 port && optBelow 256 vf && fits 2 vectors && fits 1 pushClass && optBelow 8 replace
  | .tenantUnbind src tid port | .dirtyLogSwap src tid port | .dirtyLogStop src tid port =>
    below 9 src && below 256 tid && below 8 port
  | .tenantStart src tid | .tenantFreeze src tid | .tenantThaw src tid | .tenantQuiesce src tid
  | .tenantRemove src tid | .pairTenant src tid | .pairUntenant src tid => below 9 src && below 256 tid
  | .tenantSave src tid port addr length => below 9 src && below 256 tid && below 8 port && fits 8 addr && fits 8 length
  | .tenantRestore src tid port addr length slots _ =>
    below 9 src && below 256 tid && below 8 port && fits 8 addr && fits 8 length && slotsOk slots
  | .windowAlloc src ctx port fn => below 9 src && below 257 ctx && below 8 port && below 256 fn
  | .windowFree src window | .windowStage src window _ => below 9 src && below 16384 window
  | .windowTack src port fn => below 9 src && below 8 port && below 256 fn
  | .dirtyLogStart src tid port low span bitmapA bitmapB =>
    below 9 src && below 256 tid && below 8 port && fits 8 low && fits 8 span && fits 8 bitmapA && fits 8 bitmapB
  | .dirtyLineWrite tid port => below 256 tid && below 8 port
  | .programDoorbell who n _ => fnRefOk who && below 32 n
  | .smVfPairFence who => fnRefOk who
  | .pairConfig src _ _ | .pairResync src | .pairPromote src | .pairUnfence src | .partnerReplyTimeout src
  | .stopStatsClear src | .deviceInfo src | .deviceReset src => below 9 src
  | .pairShadow src inst partnerInst => below 9 src && below 512 inst && below 512 partnerInst
  | .seamFrame f => seamFrameOk f
  | .lineWrite r | .granuleZero r | .granuleMap r | .queueLink r | .queueUnlink r | .queueReset r | .object r
  | .thread r | .scratch r | .mark r => recordOk r
  | .hello m => helloOk m
  | .heartbeat count pairState => below 4294967296 count && below 8 pairState
  | .resend jsn => fits 8 jsn
  | .mapFail granule => below 131072 granule
  | .reply code status tid => below 256 code && below 256 status && below 256 tid
  | .sourceRaise source _ object index _ => below 1024 source && below 16 object && below 1048576 index
  | .thSrcCfg source _ => below 1024 source
  | .faultSeverity src pairs => below 9 src && pairsOk pairs
  | .faultAck src entry source => below 9 src && optBelow 256 entry && optBelow 1024 source
  | .stopEnter src _ seamAction => below 9 src && below 256 seamAction
  | .domainPower src domain _ => below 9 src && below 150 domain
  | .domainSwitchDone domain | .pwDomainTimeout domain => below 150 domain
  | .wakeSet src threshold hyst polarity debounce _ wait =>
    below 9 src && fits 1 threshold && fits 1 hyst && fits 1 polarity && fits 1 debounce && fits 2 wait
  | .pllLock pll | .ckPllUnlock pll => below 36 pll
  | .ckFreq clock => below 8 clock
  | .laneEqWrite src first entries => below 9 src && fits 1 first && lengthOk 96 entries
  | .lnLaneCtrl lane _ | .lnSlip lane _ | .clear lane | .inject lane | .prbsLock lane | .prbsLockLoss lane
  | .lnLockLost lane => below 96 lane
  | .mgMbDoorbell port src | .mgMbRsp port src => below 8 port && below 9 src
  | .flashWrite src from_ length _ => below 9 src && imageOk from_ && fits 8 length
  | .keepWrite src field _ offset bytes => below 9 src && fits 1 field && below 65536 offset && lengthOk 4096 bytes
  | .timeSet src mode port domain _ => below 9 src && fits 1 mode && below 16 port && below 256 domain
  | .queuePush src queue prio bytes => below 9 src && below 16384 queue && below 8 prio && lengthOk 4096 bytes
  | .requestBufferWrite offset bytes => below 65536 offset && lengthOk 4096 bytes
  | .responseBufferRead offset length => below 65536 offset && below 65536 length
  | .entdaa address | .setdasa address => below 128 address
  | .registerWrite who offset bytes => fnRefOk who && below 33554432 offset && lengthOk 4096 bytes
  | .pauseQuantaExpiry port prio => below 16 port && below 9 prio
  | .partnerL1Request port _ width => below 8 port && optBelow 17 width

end Sys2Proof
end

