-- ==== Sys2Proof/Safety.lean ====
section
/-! DEFINITION. The terms that the statements use: what a sound state is, when a command meets what its rule asks for, and the
next state of a command that does. -/

namespace Sys2Proof.Machine

/-- The canonical form of the pool: bytes and line marks (R113). -/
def PoolForm (m : MpState) : Prop :=
  Memory.wf m.pool = true ∧ Tab.wf false m.poison = true ∧ Tab.wf false m.written = true

/-- The command goes on, to a next state that satisfies a predicate. -/
def Answers (a : Ans) (p : State → Prop) : Prop := ∃ t, a = .next t ∧ p t

/-! Instructions -/

/-- Checks 1 to 4 of R62 pass for the word w at PC of thread t, of operation op, and no outstanding PLD holds it. -/
structure Issues (s : State) (t : Nat) (op : NOp) (w : Nat) : Prop where
  may : mayRun (thread s t) = true
  runs : ctxRuns s (thread s t) = true
  budget : t = mgEngine ∨ (thread s t).budget ≠ 0
  word : fetch s t (thread s t) = some w
  legal : decodeN w = some op
  reads : op = .mfs → t = mgEngine ∧ mfsOk (wImm w) = true
  writes : op = .mts → t = mgEngine ∧ mtsOk (wImm w) = true
  free : held t (thread s t) op w = false

/-- The word is issued and its guard is true (R35). -/
structure Performs (s : State) (t : Nat) (op : NOp) (w : Nat) : Prop where
  issues : Issues s t op w
  guard : guardTrue (thread s t) op w = true

/-- The state after an instruction of thread t that changes its own thread only: PC and BUDGET move on (R62), the change is
made, and the engine counts the issue. -/
def issued (s : State) (t : Nat) (f : Thread → Thread) : State :=
  countIssue (setThread s t (f (advance t (thread s t)))) t

/-! Queues -/

/-- A push of n bytes under a tag finds room in the queue without a discard (R161, R164). -/
structure Admits (s : State) (q prio : Nat) (tag : BitVec 11) (n : Nat) : Prop where
  found : ∃ x, queue? s q = some x ∧ mayPush x (tagCtx tag) = true ∧ discards s q x tag prio (cellsOf n) = some [] ∧
    queueRoom s x 1 n = true

/-- The state in which an item has been linked and its event raised. -/
def pushed (s : State) (q prio : Nat) (tag : BitVec 11) (b : Bytes) (poison : Bool) : State :=
  raiseEvent (linkItem s q prio tag b poison) .queue q 0 none

/-! Mailbox commands -/

/-- The source rings its doorbell with a command, and s is the state in which the next management tick comes to the source (R20, R412;
log entry 74). -/
structure Rings (r : State) (src : Nat) (s : State) : Prop where
  may : mayRing r src = true
  tick : atTick r src = s

/-- The source's command can be taken up now (R412), and neither BOOT nor recovery answers it BUSY (R378, R409). -/
structure Served (s : State) (src code : Nat) : Prop where
  takes : takesUp s src = true
  open_ : notReady s code = false

/-- The state in which a command of a source has been taken up. -/
def accepted (s : State) (src : Nat) : State :=
  setMbox s src { mbox s src with taken := s.mg.tick, pending := false }

/-- A command of a source has the effect f and answers OK with results. -/
def answered (s : State) (src code : Nat) (results : List (Nat × Nat)) (f : State → State) : State :=
  answer (f (accepted s src)) src code { status := .ok, results := results }

/-- The tenant that a command names, or the management context, is neither gone nor FROZEN. -/
def Live (s : State) (ctx : Nat) : Prop := ctx ≤ mgt ∧ ctxMissing s ctx = false ∧ ctxFrozen s ctx = false

/-- A field of a packed payload: a width of 1, 2, 4 or 8 bytes and a value that fits it (R413). -/
def FieldFits (f : Nat × Nat) : Prop := (f.1 = 1 ∨ f.1 = 2 ∨ f.1 = 4 ∨ f.1 = 8) ∧ f.2 < 2 ^ (8 * f.1)

/-! Accesses of a host -/

/-- A posted write of n bytes to BAR0 of a function is received and served (R143, R163, R279, R305). -/
structure Posts (s : State) (who : FnRef) (off n : Nat) : Prop where
  credit : postedHeld s who.port = false
  served : gate s who.port who.fn 0 off n true = .serve

/-- A posted write of n bytes to the control space through PF 0 of a manager port is received and served (R423). -/
structure Controls (s : State) (who : FnRef) (off n : Nat) : Prop where
  posts : Posts s who off n
  pf : who.fn = 0
  manager : managerPort s who.port = true

/-- A Weft packet of a TYPE that passes the checks of every packet (R236): its port's link is up, the device is not in safe state,
its CRC is right and no field is malformed. -/
structure Arrives (s : State) (w : WeftPacket) (kind : Nat) : Prop where
  kind : (parseWeft w).kind = kind
  link : (etPort s w.port).link = true
  safe : s.th.safe = false
  crc : crcGood w.bytes = true
  shape : malformed (parseWeft w) w.bytes = false

/-- It also comes from the peer of an OPEN or CLOSING context and carries the context's access tag (R222). -/
structure ForConn (s : State) (w : WeftPacket) (kind : Nat) : Prop where
  arrives : Arrives s w kind
  st : (conn s (parseWeft w).dst).st = .opened ∨ (conn s (parseWeft w).dst).st = .closing
  peer : fromPeer s (conn s (parseWeft w).dst) (parseWeft w) = true
  tag : (parseWeft w).tag = (conn s (parseWeft w).dst).localTag

end Sys2Proof.Machine
end

