-- ==== Sys2Proof/Certificates/Slice0/Obligations.lean ====
section
/-! DEFINITION. The statements for the provers, family by family in the order of the opcode table. -/

open Sys2Proof Sys2Proof.Machine


/-! Instructions of a thread (chapter 02) -/

/-- Scalar instructions complete with the register that their table gives, and change nothing else of the machine. -/
def Obligations.ScalarResults : Prop :=
  ∀ (s : State) (t w : Nat),
    let th := thread s t
    let a := sGet th (wRa w)
    (Performs s t .alu w → exec (.alu t) s = .next (issued s t
      (sSet (wRd w) (aluFn (wFn w) a (sGet th (wRb w)) (sGet th (wRd w)) th.p)))) ∧
    (Performs s t .addi w → exec (.addi t) s = .next (issued s t (sSet (wRd w) (a + immS w)))) ∧
    (Performs s t .andi w → exec (.andi t) s = .next (issued s t (sSet (wRd w) (a &&& BitVec.ofNat 64 (wImm w))))) ∧
    (Performs s t .ori w → exec (.ori t) s = .next (issued s t (sSet (wRd w) (a ||| BitVec.ofNat 64 (wImm w))))) ∧
    (Performs s t .xori w → exec (.xori t) s = .next (issued s t (sSet (wRd w) (a ^^^ BitVec.ofNat 64 (wImm w))))) ∧
    (Performs s t .slli w → exec (.slli t) s = .next (issued s t (sSet (wRd w) (a <<< wImm w)))) ∧
    (Performs s t .srli w → exec (.srli t) s = .next (issued s t (sSet (wRd w) (a >>> wImm w)))) ∧
    (Performs s t .srai w → exec (.srai t) s = .next (issued s t (sSet (wRd w) (a.sshiftRight (wImm w))))) ∧
    (Performs s t .rdsp w → exec (.rdsp t) s = .next (issued s t
      (sSet (wRd w) (special s t (advance t th) (wImm w))))) ∧
    (Performs s t .mfs w → exec (.mfs t) s = .next (issued s t
      (sSet (wRd w) (BitVec.ofNat 64 (if wImm w = 0 then s.mg.tick else mbPend s)))))

/-- Table 02-6: shift counts use the low six bits, division by zero gives all ones and leaves the dividend as remainder, and the
signed corner -2^63 / -1 wraps. MOVK replaces the 16 bits that its opcode names and keeps the others. -/
def Obligations.ScalarCorners : Prop :=
  (∀ (a b d : Word) (p : BitVec 8),
    aluFn 0x00 a b d p = a + b ∧
    aluFn 0x06 a b d p = a <<< (b.toNat % 64) ∧
    aluFn 0x08 a b d p = a.sshiftRight (b.toNat % 64) ∧
    aluFn 0x0D a 0 d p = BitVec.allOnes 64 ∧
    aluFn 0x0E a 0 d p = a ∧
    aluFn 0x0F a 0 d p = BitVec.allOnes 64 ∧
    aluFn 0x10 a 0 d p = a ∧
    aluFn 0x0F (BitVec.intMin 64) (BitVec.allOnes 64) d p = BitVec.intMin 64 ∧
    aluFn 0x10 (BitVec.intMin 64) (BitVec.allOnes 64) d p = 0 ∧
    (b ≠ 0 → aluFn 0x0D a b d p = a / b ∧ aluFn 0x0E a b d p = a % b) ∧
    aluFn 0x15 0 b d p = 64 ∧ aluFn 0x16 0 b d p = 64) ∧
  (∀ (s : State) (t w : Nat) (a : Word), Performs s t .movk w → sGet (thread s t) (wRa w) = a →
    Answers (exec (.movk t) s) (fun u =>
      u = issued s t (sSet (wRd w) (movk a w)) ∧
      ∀ i, i < 64 → (movk a w).getLsbD i =
        if 16 * (wOp w - 0x10) ≤ i ∧ i < 16 * (wOp w - 0x10) + 16 then (wImm w).testBit (i - 16 * (wOp w - 0x10))
        else a.getLsbD i))

/-- R28: s0 reads zero and discards writes; p0 reads true and discards writes; another register keeps what is written and the others
keep their values. -/
def Obligations.RegisterZero : Prop :=
  ∀ (th : Thread) (x : Word) (b : Bool) (n m : Nat),
    sGet th 0 = 0 ∧ sSet 0 x th = th ∧ pGet th 0 = true ∧ pSet 0 b th = th ∧
    (n ≠ 0 → sGet (sSet n x th) n = x) ∧ (m ≠ n → sGet (sSet n x th) m = sGet th m) ∧
    (0 < n → n < 8 → pGet (pSet n b th) n = b) ∧ (n < 8 → m < 8 → m ≠ n → pGet (pSet n b th) m = pGet th m)

/-- Comparisons write one predicate; PLOAD writes p1 to p7. Vector instructions complete: the destination takes its lanes, and
nothing else of the machine changes (R41 to R48). -/
def Obligations.PredicatesAndVectors : Prop :=
  (∀ (s : State) (t w : Nat),
    let th := thread s t
    let a := sGet th (wRa w)
    let i := immS w
    (Performs s t .pcmp w → wFn w ≠ 0x14 → exec (.pcmp t) s = .next (issued s t (pSet (wRd w) (pcmpFn th w)))) ∧
    (Performs s t .pcmp w → wFn w = 0x14 → exec (.pcmp t) s = .next (issued s t
      (fun x => { x with p := BitVec.ofNat 8 (a.toNat / 2 * 2 + 1) }))) ∧
    (Performs s t .peqi w → exec (.peqi t) s = .next (issued s t (pSet (wRd w) (a == i)))) ∧
    (Performs s t .pnei w → exec (.pnei t) s = .next (issued s t (pSet (wRd w) (a != i)))) ∧
    (Performs s t .plti w → exec (.plti t) s = .next (issued s t (pSet (wRd w) (decide (a.toInt < i.toInt))))) ∧
    (Performs s t .pgei w → exec (.pgei t) s = .next (issued s t (pSet (wRd w) (decide (i.toInt ≤ a.toInt))))) ∧
    (Performs s t .pltui w → exec (.pltui t) s = .next (issued s t (pSet (wRd w) (decide (a.toNat < i.toNat))))) ∧
    (Performs s t .pgeui w → exec (.pgeui t) s = .next (issued s t (pSet (wRd w) (decide (i.toNat ≤ a.toNat)))))) ∧
  (∀ (s : State) (t w : Nat),
    let th := thread s t
    let et := wEt w
    let a := vGet th (wRa w)
    (Performs s t .varith w → Answers (exec (.varith t) s) (fun u => ∃ v,
      u = issued s t (vSet (wRd w) v) ∧ ∀ k, k < etLanes et → lane v (etSize et) k =
        varithLane (wVf w) et (lane (vGet th (wRd w)) (etSize et) k) (lane a (etSize et) k)
          (lane (if 0xB ≤ wVf w then 0 else vGet th (wRb w)) (etSize et) k) (sGet th (wRb w)).toNat % 2 ^ (8 * etSize et))) ∧
    (Performs s t .vcvt w → exec (.vcvt t) s = .next (issued s t
      (vSet (wRd w) (vcvt et (wRb w) (wVf w / 2) (bit (wVf w) 0) a (vGet th (wRd w)))))) ∧
    (Performs s t .vred w → exec (.vred t) s = .next (issued s t (sSet (wRd w) (vred (wVf w) et a)))) ∧
    (Performs s t .vcmp w → Answers (exec (.vcmp t) s) (fun u => ∃ x : Word,
      u = issued s t (sSet (wRd w) x) ∧ ∀ k, x.getLsbD k =
        (decide (k < etLanes et) && vcmpLane (wVf w) et (lane a (etSize et) k) (lane (vGet th (wRb w)) (etSize et) k)))) ∧
    (Performs s t .vmerge w → Answers (exec (.vmerge t) s) (fun u => ∃ v,
      u = issued s t (vSet (wRd w) v) ∧ ∀ k, k < etLanes et →
        lane v (etSize et) k = lane (vGet th (if bit (sGet th (wRb w)).toNat k then wRa w else wRd w)) (etSize et) k)) ∧
    (Performs s t .vmove w → wVf w = 0 → exec (.vmove t) s = .next (issued s t (vSet (wRd w) a))) ∧
    (Performs s t .vmove w → wVf w = 3 → (sGet th (wRb w)).toNat < etLanes et →
      exec (.vmove t) s = .next (issued s t (sSet (wRd w) (BitVec.ofNat 64 (lane a (etSize et) (sGet th (wRb w)).toNat))))))

/-- R32, R37, R432: a load that is aligned, inside scratch and on no marked line writes the bytes, zero-extended, to its register. A
load of the management engine from control space writes what the register or the buffer there holds; one of SM_PAIR_FENCE waits for
the partner (R334). R32, R37, R432: a store of the management engine to control space has the effect of a write there. An aligned
store inside scratch puts the low bytes of its register at the address and changes no other byte of scratch, no register and no pool
byte; a VST clears the line's mark, a narrower store leaves it. R31, R37: a scratch access at an address that is not a multiple of
its size faults ALIGN; one that reaches a byte at or above the scratch size faults RANGE. -/
def Obligations.ScratchAccess : Prop :=
  (∀ (s : State) (t w : Nat),
    let th := thread s t
    let a := scratchAddr th w
    let sound (n : Nat) : Prop :=
      a % n = 0 ∧ inControl t a = false ∧ a + n ≤ th.scratchSize ∧ scratchPoison th a n = false
    (Performs s t .ldb w → sound 1 → exec (.ldb t) s = .next (issued s t
      (sSet (wRd w) (BitVec.ofNat 64 (le (scratchRead th a 1)))))) ∧
    (Performs s t .ldh w → sound 2 → exec (.ldh t) s = .next (issued s t
      (sSet (wRd w) (BitVec.ofNat 64 (le (scratchRead th a 2)))))) ∧
    (Performs s t .ldw w → sound 4 → exec (.ldw t) s = .next (issued s t
      (sSet (wRd w) (BitVec.ofNat 64 (le (scratchRead th a 4)))))) ∧
    (Performs s t .ldd w → sound 8 → exec (.ldd t) s = .next (issued s t
      (sSet (wRd w) (BitVec.ofNat 64 (le (scratchRead th a 8)))))) ∧
    (Performs s t .vld w → sound 64 → exec (.vld t) s = .next (issued s t
      (vSet (wRd w) (bytesLine (scratchRead th a 64))))) ∧
    (Performs s t .ldw w → a % 4 = 0 → inControl t a = true → reservedOff (a - 0x1000000) = false →
      ((a - 0x1000000) / 8 * 8 = 0x700070 → fenceReady s = true) →
      let e := engineRead s (a - 0x1000000) 4
      exec (.ldw t) s = .next (issued e.2 t (sSet (wRd w) (BitVec.ofNat 64 (le (toLe 4 e.1)))))) ∧
    (Performs s t .ldd w → a % 8 = 0 → inControl t a = true → reservedOff (a - 0x1000000) = false →
      ((a - 0x1000000) / 8 * 8 = 0x700070 → fenceReady s = true) →
      let e := engineRead s (a - 0x1000000) 8
      exec (.ldd t) s = .next (issued e.2 t (sSet (wRd w) (BitVec.ofNat 64 (le (toLe 8 e.1))))))) ∧
  (∀ (s : State) (t w : Nat),
    let th := thread s t
    let a := scratchAddr th w
    let v := (sGet th (wRd w)).toNat
    let inside (n : Nat) : Prop := a % n = 0 ∧ inControl t a = false ∧ a + n ≤ th.scratchSize
    let kept (n : Nat) (b : Bytes) : Prop :=
      scratchRead (scratchStore a b th) a n = b ∧
      (∀ j, j < a ∨ a + n ≤ j → Mem.byte (scratchStore a b th).scratch j = Mem.byte th.scratch j) ∧
      (scratchStore a b th).s = th.s ∧ (scratchStore a b th).v = th.v ∧
      (∀ l, Tab.get false (scratchStore a b th).poison l =
        (Tab.get false th.poison l && !(decide (n = 64) && decide (l = a / 64))))
    (Performs s t .stb w → inside 1 →
      exec (.stb t) s = .next (issued s t (scratchStore a (toLe 1 v))) ∧ kept 1 (toLe 1 v)) ∧
    (Performs s t .sth w → inside 2 →
      exec (.sth t) s = .next (issued s t (scratchStore a (toLe 2 v))) ∧ kept 2 (toLe 2 v)) ∧
    (Performs s t .stw w → inside 4 →
      exec (.stw t) s = .next (issued s t (scratchStore a (toLe 4 v))) ∧ kept 4 (toLe 4 v)) ∧
    (Performs s t .std w → inside 8 →
      exec (.std t) s = .next (issued s t (scratchStore a (toLe 8 v))) ∧ kept 8 (toLe 8 v)) ∧
    (Performs s t .vst w → inside 64 →
      exec (.vst t) s = .next (issued s t (scratchStore a (lineBytes (vGet th (wRd w))))) ∧ kept 64 (lineBytes (vGet th (wRd w)))) ∧
    (Performs s t .stw w → a % 4 = 0 → inControl t a = true → reservedOff (a - 0x1000000) = false →
      exec (.stw t) s = .next (issued (engineWrite s (a - 0x1000000) 4 (le (toLe 4 v))) t id)) ∧
    (Performs s t .std w → a % 8 = 0 → inControl t a = true → reservedOff (a - 0x1000000) = false →
      exec (.std t) s = .next (issued (engineWrite s (a - 0x1000000) 8 (le (toLe 8 v))) t id))) ∧
  (∀ (s : State) (t w : Nat) (i : Instr) (op : NOp) (n : Nat),
    let a := scratchAddr (thread s t) w
    (i, op, n) ∈ [(Instr.ldb t, NOp.ldb, 1), (.ldh t, .ldh, 2), (.ldw t, .ldw, 4), (.ldd t, .ldd, 8), (.vld t, .vld, 64), (.stb t, .stb, 1), (.sth t, .sth, 2), (.stw t, .stw, 4), (.std t, .std, 8), (.vst t, .vst, 64)] →
    Performs s t op w →
      (a % n ≠ 0 → exec i s = issueFault s t (FaultCode.align, BitVec.ofNat 64 a)) ∧
      (a % n = 0 → inControl t a = false → (thread s t).scratchSize < a + n →
        exec i s = issueFault s t (FaultCode.range, BitVec.ofNat 64 a)))

/-- R39, R40: a taken branch and a jump go to their target inside the code section and link PC + 4; a branch not taken goes on. -/
def Obligations.BranchTargets : Prop :=
  ∀ (s : State) (t w : Nat),
    let th := thread s t
    let link := BitVec.ofNat 64 (th.pc + 4)
    (Performs s t .br w → pGet th (wPt w) = wSn w →
      exec (.br t) s = .next (issued s t (sSet (wRd w) link))) ∧
    (∀ target : Nat, Performs s t .br w → pGet th (wPt w) ≠ wSn w → (th.pc : Int) + 4 * wOff w = target →
      target < codeLen s t th →
      exec (.br t) s = .next (issued s t (fun x => sSet (wRd w) link { x with pc := target }))) ∧
    (Performs s t .jalr w → (sGet th (wRa w)).toNat % 4 = 0 →
      (sGet th (wRa w)).toNat < 2 ^ (if t = mgEngine then 18 else 15) → (sGet th (wRa w)).toNat < codeLen s t th →
      exec (.jalr t) s = .next (issued s t (fun x => sSet (wRd w) link { x with pc := (sGet th (wRa w)).toNat })))

/-- R60, R67, R404: FENCE goes on; YIELD ends the activation and is ready again with BUDGET and EVENT reloaded; HALT stops a thread,
or returns it to IDLE in START mode; the management engine's system registers take their writes; TRAP faults. -/
def Obligations.SystemInstructions : Prop :=
  ∀ (s : State) (t w : Nat),
    let th := thread s t
    (Performs s t .fence w → exec (.fence t) s = .next (issued s t id)) ∧
    (Performs s t .yield w → mirrorsThread s t th = false → exec (.yield_ t) s = .next (issued s t
      (fun x => { x with mode := .ready, event := eventWord .yield_ 0 0 0, budget := activationBudget s t th, timer := none }))) ∧
    (Performs s t .halt w → t ≠ mgEngine → mirrorsThread s t th = false → startMode s t th = false →
      exec (.halt t) s = .next (issued s t (fun x => { x with mode := .halted, pc := th.pc }))) ∧
    (Performs s t .halt w → t ≠ mgEngine → mirrorsThread s t th = false → startMode s t th = true →
      exec (.halt t) s = .next (issued s t (fun x => { x with mode := .idle, run := false }))) ∧
    (Performs s t .halt w → t = mgEngine → exec (.halt t) s = .next (issued
      { s with mg := { s.mg with running := false } } t (fun x => { x with mode := .halted, pc := th.pc }))) ∧
    (Performs s t .mts w → wImm w = 1 → exec (.srWdt t) s = .next (issued
      { s with mg := { s.mg with wdtLeft := fld (regNat s Reg.mgWdt) 0 8 } } t id)) ∧
    (Performs s t .mts w → wImm w = 3 → (sGet th (wRd w)).getLsbD 0 = true →
      exec (.srKpOpen t) s = .next (issued { s with mg := { s.mg with kpOpen := true } } t id)) ∧
    (Performs s t .mts w → wImm w = 4 → sGet th (wRd w) = 0x5253 → exec (.srReset t) s = .next (deviceReset s 3)) ∧
    (Performs s t .trap w → th.plds = [] → pushFault s t th (fill 40 0) ≠ none →
      exec (.trap t) s = .next (programFault (spend s t) t (FaultCode.trap, BitVec.ofNat 64 (wCode w))))

/-- R32: a load that touches a marked line faults POISON with the address. R63, R64, R94: a program fault halts its thread with
registers, scratch and PC as they were; the record gives its code. -/
def Obligations.FaultsKeepState : Prop :=
  (∀ (s : State) (t w : Nat),
    let th := thread s t
    let a := scratchAddr th w
    Performs s t .ldd w → a % 8 = 0 → inControl t a = false → a + 8 ≤ th.scratchSize →
    scratchPoison th a 8 = true → th.plds = [] →
    exec (.ldd t) s = issueFault s t (FaultCode.poison, BitVec.ofNat 64 a)) ∧
  (∀ (s : State) (t : Nat) (f : PFault),
    let th := thread s t
    let r : BitVec 320 := BitVec.ofNat 320 (le (faultRecord f.1 (threadSpecial t) th.pc th.tag.toNat ((fetch s t th).getD 0)
      th.program th.inst f.2 th.event (timeNs s)))
    let u := faultThread r th
    th.mode ≠ .frozen → th.freezeDue = false →
    u.mode = .halted ∧ u.faulted = true ∧ u.fault = r ∧ u.s = th.s ∧ u.v = th.v ∧ u.p = th.p ∧ u.pc = th.pc ∧
      u.scratch = th.scratch ∧ u.poison = th.poison ∧ u.plds = [] ∧
      (f.1 < 256 → r.toNat % 256 = f.1))

/-- R35, R62: a predicated-off instruction of formats A, V and X ends at its guard: PC moves on, BUDGET falls by one on a needle
thread, and nothing else changes but the engine's count of issues. R62: the checks before the guard, in their order. -/
def Obligations.IssueChecks : Prop :=
  (∀ (s : State) (t w : Nat),
    (Issues s t .alu w → guardTrue (thread s t) .alu w = false → exec (.alu t) s = .next (issued s t id)) ∧
    (Issues s t .varith w → guardTrue (thread s t) .varith w = false → exec (.varith t) s = .next (issued s t id)) ∧
    (Issues s t .qpush w → guardTrue (thread s t) .qpush w = false →
      ∀ chk, exec (.qpush t chk) s = .next (issued s t id)) ∧
    (t ≠ mgEngine → (advance t (thread s t)).budget = (thread s t).budget - 1) ∧
    (advance t (thread s t)).pc = (thread s t).pc + 4) ∧
  (∀ (s : State) (t : Nat),
    let th := thread s t
    (t ≠ mgEngine → th.budget = 0 →
      preIssue s t th = .bad (FaultCode.budget, BitVec.ofNat 64 (activationBudget s t th))) ∧
    ((t = mgEngine ∨ th.budget ≠ 0) → fetch s t th = none →
      preIssue s t th = .bad (FaultCode.fetch, BitVec.ofNat 64 th.pc)) ∧
    (∀ w, (t = mgEngine ∨ th.budget ≠ 0) → fetch s t th = some w → decodeN w = none →
      preIssue s t th = .bad (FaultCode.illegal, 0)) ∧
    (∀ w op, t ≠ mgEngine → th.budget ≠ 0 → fetch s t th = some w → decodeN w = some op → (op = .mfs ∨ op = .mts) →
      preIssue s t th = .bad (FaultCode.priv, BitVec.ofNat 64 (wImm w))) ∧
    (∀ f, mayRun th = true → ctxRuns s th = true → preIssue s t th = .bad f → exec (.alu t) s = takeFault s t f))

/-- R50, R53, R54: QPUSH, QPOP, QDROP and QPEEK complete with DONE when they find room or an item; a QPUSH discards what the queue's
mode gives and links its item, a QPOP takes the head item away, a QPEEK leaves it; a QPOP of an empty queue answers EMPTY; a QPOP of
a queue that does not exist is refused and faults ACCESS. -/
def Obligations.QueueInstructions : Prop :=
  ∀ (s : State) (t w : Nat),
    let th := thread s t
    let q := xh th w
    let sp := spanOf t (xa th w)
    (∀ x l, Performs s t .qpush w → queueOperands t th w true true = none → s.th.safe = false → queue? s q = some x →
      mayPush x (tagCtx th.tag) = true → discards s q x th.tag sp.prio (cellsOf sp.len) = some l →
      queueRoom s x (l.length + 1) sp.len = true →
      exec (.qpush t .ok) s = .next (issued (raiseEvent (linkItem (l.foldl (displaceItem q) s) q sp.prio th.tag
        (scratchRead th sp.addr sp.len) (scratchPoison th sp.addr sp.len)) .queue q 0 none) t
        (sSet (wRd w) (statusWord .done 0 (!l.isEmpty) 0)))) ∧
    (∀ x i, Performs s t .qpop w → wXv w = 0 → queueOperands t th w false true = none → queue? s q = some x →
      ownQueue th x = true → headItem x = some i → i.poison = false → i.bytes.length ≤ sp.len →
      queueRoom s x 1 0 = true →
      exec (.qpop t .ok) s = .next (issued (unlinkItem s q x i 0) t (fun y =>
        sSet (wRd w) (statusWord .done i.prio false i.bytes.length) (scratchCopy sp.addr i.bytes y)))) ∧
    (∀ x i, Performs s t .qpop w → wXv w = 1 → queueOperands t th w false false = none → queue? s q = some x →
      ownQueue th x = true → headItem x = some i → queueRoom s x 1 0 = true →
      exec (.qpop t .ok) s = .next (issued (unlinkItem s q x i 1) t
        (sSet (wRd w) (statusWord .done i.prio false i.bytes.length)))) ∧
    (∀ x i, Performs s t .qpeek w → queueOperands t th w false true = none → queue? s q = some x →
      ownQueue th x = true → headItem x = some i → i.poison = false → (wXv w = 1 ∨ i.bytes.length ≤ sp.len) →
      exec (.qpeek t .ok) s = .next (issued s t (fun y =>
        sSet (wRd w) (statusWord .done i.prio false i.bytes.length) (scratchCopy sp.addr (i.bytes.take sp.len) y)))) ∧
    (∀ x, Performs s t .qpop w → queueOperands t th w false (wXv w != 1) = none → queue? s q = some x → ownQueue th x = true →
      headItem x = none → wWt w = false →
      exec (.qpop t .ok) s = .next (issued s t (sSet (wRd w) (statusWord .empty 0 false 0)))) ∧
    (Performs s t .qpop w → queueOperands t th w false (wXv w != 1) = none → queue? s q = none → th.plds = [] →
      exec (.qpop t .ok) s = issueFault (qmRefuse s q th.tag) t (FaultCode.access, BitVec.ofNat 64 (1 + 16 * q)))

/-- R160, R54: the head item is the oldest of the highest priority present. -/
def Obligations.HeadIsOldestOfHighest : Prop :=
  ∀ (x : Queue) (i : Item), (∀ j ∈ x.items, j.prio < 8) → headItem x = some i →
    i ∈ x.items ∧ (∀ j ∈ x.items, j.prio ≤ i.prio) ∧
      ∃ pre post, x.items = pre ++ i :: post ∧ ∀ j ∈ pre, j.prio ≠ i.prio

/-- R55, R63, R66, R82: a PLD that the check allows and that has a slot is issued and noted; PLD_COMPLETE: a line that returns clean
is written to the vector, and a halt or freeze that waited for the last load takes effect; a poisoned one makes the oldest PLD fault
POISON at its own PC. PST writes the line and clears its mark; a masked PST writes the bytes of its mask. R56, R57, R58: PRED, HCOPY
and NSEND complete: a contribution to an open chunk, which the unit's arbiter serves, is applied, a descriptor that the ring has
room for waits in the tail buffer, and a message that the credit and the pool cover waits in its context; each answers DONE. A line
of a complete chunk is in excess (R144). A full ring answers FULL. -/
def Obligations.PoolAndPosting : Prop :=
  (∀ (s : State) (t w : Nat),
    let th := thread s t
    let a := xh th w
    (∀ ppa slot, Performs s t .pld w → poolWordOk (tagCtx th.tag == mgt) a = true → a % 64 = 0 →
      check s th.tag (.tpa a) false = .allow ppa slot → loadSlot s t th = true →
      exec (.pld t) s = .next (issued s t (fun y => { y with plds := y.plds ++
        [{ vd := wRd w, addr := BitVec.ofNat 64 a, ppa := ppa, pc := th.pc, s := th.s, v := th.v, p := th.p }] }))) ∧
    (∀ k p ups, th.plds[k]? = some p → (th.plds.take k).any (fun e => e.ppa == p.ppa) = false →
      let u := eccSpan (disturb s ups) p.ppa 64 th.tag
      poisonAt u p.ppa = false →
      exec (.pldComplete t k ups) s = .next (setThread u t (settleThread (fillPld k p (poolLine u p.ppa) (thread u t))))) ∧
    (∀ p rest ups, th.plds = p :: rest →
      let u := eccSpan (disturb s ups) p.ppa 64 th.tag
      let v := setThread u t (undoPld p (thread u t))
      poisonAt u p.ppa = true → pushFault v t (thread v t) (fill 40 0) ≠ none →
      exec (.pldComplete t 0 ups) s = .next (programFault v t (FaultCode.poison, BitVec.ofNat 64 p.addr.toNat))) ∧
    (∀ ppa slot, Performs s t .pst w → wXv w = 0 → poolWordOk (tagCtx th.tag == mgt) a = true → a % 64 = 0 →
      check s th.tag (.tpa a) true = .allow ppa slot → writeRoom s ppa 64 = true →
      exec (.pst t) s = .next (issued (poolStore s th.tag ppa (lineBytes (vGet th (wXs w))) false) t id)) ∧
    (∀ ppa slot, Performs s t .pst w → wXv w = 1 → xa th w ≠ 0 → xa th w ≠ 2 ^ 64 - 1 →
      poolWordOk (tagCtx th.tag == mgt) a = true → a % 64 = 0 →
      check s th.tag (.tpa a) true = .allow ppa slot → writeRoom s ppa 64 = true →
      let u := eccSpan s ppa 64 th.tag
      exec (.pst t) s = .next (issued
        (poolWrite u ppa (maskBytes (xa th w) (poolBytes u ppa 64) (lineBytes (vGet th (wXs w)))) (poisonAt u ppa)) t id)) ∧
    (Performs s t .pst w → wXv w = 1 → xa th w = 0 → poolWordOk (tagCtx th.tag == mgt) a = true → a % 64 = 0 →
      (∃ ppa slot, check s th.tag (.tpa a) true = .allow ppa slot) →
      exec (.pst t) s = .next (issued s t id))) ∧
  (∀ (s : State) (t w : Nat),
    let th := thread s t
    let h := xh th w
    let off := xa th w
    let k : Contrib := { src := .thread t, tag := th.tag, window := h % 4096, offset := off
                         epoch := ((rwin? s (h % 4096)).map (fun x => x.epoch)).getD 0, data := vGet th (wXs w), poison := false }
    (∀ x ch u, Performs s t .pred w → h < 2 ^ 32 → off % 64 = 0 →
      contribCheck s th.tag (h % 4096) (h / 4096 % 4096) off (some (h / 2 ^ 24 % 256)) = none →
      rwin? s (h % 4096) = some x → ctxMode s x.ctx = .running → x.complete.contains (off / 65536) = false →
      (x.arrival = true → writeRoom s (chunkGranule s x (off / 65536) * granuleBytes) 64 = true) →
      chunk? s (h % 4096) (off / 65536) = some ch →
      (tagSc th.tag = 0 ∧ u = s) ∨ serveLine s s.ru.waiting.length k = some u →
      exec (.pred t) s = .next (issued (applyLine u k x (off / 65536) ch) t (sSet (wRd w) (statusWord .done 0 false 0)))) ∧
    (∀ x u, Performs s t .pred w → h < 2 ^ 32 → off % 64 = 0 →
      contribCheck s th.tag (h % 4096) (h / 4096 % 4096) off (some (h / 2 ^ 24 % 256)) = none →
      rwin? s (h % 4096) = some x → ctxMode s x.ctx = .running → x.complete.contains (off / 65536) = true →
      (tagSc th.tag = 0 ∧ u = s) ∨ serveLine s s.ru.waiting.length k = some u →
      exec (.pred t) s = .next (issued (excessLine u (h % 4096) (off / 65536) (off % 65536 / 64) x) t
        (sSet (wRd w) (statusWord .done 0 false 0)))) ∧
    (Performs s t .pred w → h < 2 ^ 32 → off % 64 = 0 →
      contribCheck s th.tag (h % 4096) (h / 4096 % 4096) off (some (h / 2 ^ 24 % 256)) = some .owner → th.plds = [] →
      exec (.pred t) s = issueFault (contribRefuse s th.tag (h % 4096) .owner) t
        (FaultCode.access, BitVec.ofNat 64 (3 + 16 * (h % 4096)))) ∧
    (Performs s t .hcopy w → h < 1024 → (chan s h).st ≠ .free → (chan s h).ctx = tagCtx th.tag → (chan s h).engineProd = true →
      ((chan s h).tail - (chan s h).head).toNat < ringSlots (chan s h) → (chan s h).tailBuf.length < 8 →
      exec (.hcopy t) s = .next (issued (setChan s h { setTail (chan s h) ((chan s h).tail + 1) with
          tailBuf := (chan s h).tailBuf ++ [((chan s h).tail.toNat, lineBytes (vGet th (wXs w)))] }) t
        (sSet (wRd w) (statusWord .done 0 false 0)))) ∧
    (Performs s t .hcopy w → h < 1024 → (chan s h).st ≠ .free → (chan s h).ctx = tagCtx th.tag → (chan s h).engineProd = true →
      ringSlots (chan s h) ≤ ((chan s h).tail - (chan s h).head).toNat → wWt w = false →
      exec (.hcopy t) s = .next (issued s t (sSet (wRd w) (statusWord .full 0 false 0)))) ∧
    (Performs s t .nsend w → h < 65536 → spanOk t off false = true → (wXv w = 2 → (spanOf t off).len % 64 = 0) →
      remoteOk (tagCtx th.tag == mgt) w (xs th w) = true → spanFits th (spanOf t off) = true →
      (conn s h).st = .opened → (conn s h).ctx = tagCtx th.tag → (nsendKind w = WType.reduce → (conn s h).staleValid = false) →
      let n := units (spanOf t off).len
      let m : TxMsg := { num := (conn s h).nextMsg, kind := nsendKind w, defq := wXv w == 0 && wXs w == 0, operand := sGet th (wXs w)
                         bytes := scratchRead th (spanOf t off).addr (spanOf t off).len
                         poison := sendPoison th (spanOf t off) (2 ^ (conn s h).plog), cells := (takeCells n s).1 }
      let x := conn (takeCells n s).2 h
      serialGe (conn s h).txLimit ((conn s h).txIssued + BitVec.ofNat 32 n) = true →
      quotaRoom s (conn s h).ctx (tagSc th.tag) n 0 = true → allocStop s = false →
      exec (.nsend t) s = .next (issued (journalConn (noteLow (setConn (takeCells n s).2 h { (conn s h) with
          nextMsg := x.nextMsg + 1, txIssued := x.txIssued + BitVec.ofNat 32 n, txMsgs := x.txMsgs ++ [m]
          staleValid := x.staleValid && !(nsendKind w == WType.reduce && x.staleWin == fld (sGet th (wXs w)).toNat 0 12) })) h) t
        (sSet (wRd w) (statusWord .done 0 false 0)))))

/-- R51, R52: a queue push under WT = 1 that finds no room stalls with PC on it and nothing of the instruction done; STALL_RESUME:
once there is room it is performed; STALL: past the image's stall limit the thread faults STALL. R59, R73, R77, R78, R80: WAITE ends
the activation and arms the timer; a timer that expires raises the thread's own event; an activation loads EVENT and BUDGET, and in
START mode starts the program afresh. -/
def Obligations.StallsAndWaits : Prop :=
  (∀ (s : State) (t w : Nat),
    let th := thread s t
    let q := xh th w
    let sp := spanOf t (xa th w)
    let b := scratchRead th sp.addr sp.len
    let bad := scratchPoison th sp.addr sp.len
    (∀ x, Performs s t .qpush w → queueOperands t th w true true = none → s.th.safe = false → queue? s q = some x →
      mayPush x (tagCtx th.tag) = true → discards s q x th.tag sp.prio (cellsOf sp.len) = none → wWt w = true →
      exec (.qpush t .ok) s = .next (setThread s t { th with mode := .stalled, stalledAt := some s.now })) ∧
    (∀ x l, th.mode = .stalled → ctxRuns s th = true → fetch s t th = some w → decodeN w = some .qpush →
      queueOperands t th w true true = none → s.th.safe = false → queue? s q = some x → mayPush x (tagCtx th.tag) = true →
      discards s q x th.tag sp.prio (cellsOf sp.len) = some l → queueRoom s x (l.length + 1) sp.len = true →
      exec (.stallResume t .ok) s = .next (issued (raiseEvent (linkItem (l.foldl (displaceItem q) s) q sp.prio th.tag b bad)
        .queue q 0 none) t (sSet (wRd w) (statusWord .done 0 (!l.isEmpty) 0)))) ∧
    (∀ since p, t ≠ mgEngine → th.mode = .stalled → th.stalledAt = some since → program? s th.program = some p →
      fetch s t th = some w → closedSend s th w = false → th.plds = [] →
      let u := passTo s (since + 8 * p.stallLimit)
      ((∀ i, inst? s th.inst = some i → i.faultQueue = mgtQueue) ∧ tagCtx th.tag ≠ mgt) ∨ pushFault u t th (fill 40 0) ≠ none →
      exec (.stall t) s = .next (programFault u t (FaultCode.stall, BitVec.ofNat 64 (wOp w))))) ∧
  (∀ (s : State) (t w : Nat),
    let th := thread s t
    (Performs s t .waite w → xh th w < 2 ^ 32 → xh th w ≠ 0 → mirrorsThread s t th = false →
      exec (.waite t) s = .next (issued s t (fun x => { x with mode := .waiting, timer := some (s.now + 8 * xh th w) }))) ∧
    (Performs s t .waite w → xh th w = 0 → mirrorsThread s t th = false → startMode s t th = false →
      exec (.waite t) s = .next (issued s t (fun x => { x with mode := .waiting, timer := none }))) ∧
    (Performs s t .waite w → 2 ^ 32 ≤ xh th w → th.plds = [] →
      exec (.waite t) s = issueFault s t (FaultCode.operand, BitVec.ofNat 64 (wRa w))) ∧
    (Performs s t .waite w → xh th w = 0 → mirrorsThread s t th = false → startMode s t th = true →
      exec (.waite t) s = .next (issued s t (fun x => { x with mode := .idle, run := false }))) ∧
    (∀ due, th.timer = some due → due ≤ s.now → th.mode = .waiting →
      exec (.timer t) s = .next (setThread s t { th with timer := none, own := th.own ++ [.timer] })) ∧
    (∀ k rest, ctxRuns s th = true → th.haltDue = false → th.freezeDue = false → th.own = k :: rest → th.mode = .waiting →
      exec (.activation t) s = .next (setThread s t { th with
        own := rest, mode := .ready, event := eventWord k 0 0 0, budget := activationBudget s t th, timer := none })) ∧
    (∀ i k b, t ≠ mgEngine → ctxRuns s th = true → th.haltDue = false → th.freezeDue = false → th.own = [] → th.mode = .idle →
      startMode s t th = true → inst? s th.inst = some i →
      nextSlot i.served (pendingSlots s th.inst) = some (k, b) →
      Answers (exec (.activation t) s) (fun u =>
        let x := thread u t
        x.mode = .ready ∧ x.s = [] ∧ x.v = [] ∧ x.p = 1 ∧ x.event = (deliver b).2 ∧ x.budget = activationBudget s t th ∧
          Tab.find u.ne.bindings k = some (deliver b).1)))

/-! Programs (chapter 03) -/

/-- PROGRAM_LOAD, PROGRAM_UNLOAD, PROGRAM_START, PROGRAM_STOP, PROGRAM_BIND, PROGRAM_UNBIND, THREAD_READ: given by a source that may
ring its doorbell, and taken up at the next tick with arguments that no rule refuses, each has its effect and answers OK (R20, Table
03-7); a PROGRAM_LOAD whose host bytes are being read ends with the row that brings them. -/
def Obligations.ProgramCommands : Prop :=
  (∀ (u : State) src ctx from_ n engines host, (mbox u src).running = some (.fetchProgram ctx from_ n engines) →
    exec (.programLoad src ctx from_ n engines host) u = .next
      (complete u src 0x01 none (fun v => doProgramLoad v ctx from_ n engines host))) ∧
  (∀ (r s : State) (src : Nat), Rings r src s →
    (∀ ctx from_ n engines host b h v, Served s src 0x01 → Live s ctx → readImage (accepted s src) ctx from_ n host = (.ok b, v) →
      imageFault v ctx b = none →
      (∀ e ∈ enginesOf engines, bit (imgClusters b) (cluster e) = true ∧ engineOn v e = true ∧
        (freeRun v e (cdiv (imgCode b) 512)).isSome = true) →
      oneOf v 0 (Tab.freeKeys v.ne.programs 0 1024) = some h →
      exec (.programLoad src ctx from_ n engines host) r = .next (tickRest src (answer (useFreeN
        { v with ne := { v.ne with programs := Tab.put v.ne.programs h (programOf ctx b
          ((enginesOf engines).map (fun e => (e, (freeRun v e (cdiv (imgCode b) 512)).getD 0)))) } } 65) src 0x01
            { status := .ok, results := [(2, h), (8, leAt b 0x28 8)] }))) ∧
    (∀ h p, Served s src 0x02 → program? s h = some p → Live s p.ctx → s.ne.insts.any (fun e => e.2.program == h) = false →
      exec (.programUnload src h) r = .next (tickRest src (answered s src 0x02 [] (fun u =>
        { u with ne := { u.ne with programs := Tab.del u.ne.programs h } })))) ∧
    (∀ h p e n scratch cap fq policy i, Served s src 0x03 → program? s h = some p → Live s p.ctx →
      startBad s p e n scratch cap fq policy = false → engineOn s e = true →
      n ≤ (freeThreads s e).length → n * scratch ≤ engScratch s e →
      (p.cls = 0 → engSc0 s e + n ≤ 4) → oneOf s 0 (Tab.freeKeys s.ne.insts 0 512) = some i →
      let ts := someOf s n 1 (freeThreads s e)
      exec (.programStart src h e n scratch cap fq policy) r = .next (tickRest src (answered s src 0x03 [(2, i)] (fun u =>
        ts.foldl (fun v t => setThread v t { startThread p h i scratch (min p.budget cap) with fault := (thread v t).fault })
          (useFreeN { u with ne := { u.ne with insts := Tab.put u.ne.insts i { program := h, engine := e, threads := ts, budgetCap := cap, faultQueue := fq, policy := policy, served := 32 * e + 31 } } } 9))))) ∧
    (∀ i x p, Served s src 0x04 → inst? s i = some x → program? s x.program = some p → Live s p.ctx →
      exec (.programStop src i) r = .next (tickRest src (answered s src 0x04 [] (fun u => stopInst u i x)))) ∧
    (∀ i x p kind n k, Served s src 0x05 → inst? s i = some x → program? s x.program = some p → Live s p.ctx →
      bindable kind x.engine = true → (kind = .doorbell → n < 64) → sourceOwned s p.ctx kind n = true →
      oneOf s 0 (Tab.freeKeys s.ne.bindings (32 * x.engine) 32) = some k → bindingOf s kind (sourceKey p.ctx kind n) = none →
      exec (.programBind src i kind n) r = .next (tickRest src (answered s src 0x05 [] (fun u => firstEvent
        (useFree { u with ne := { u.ne with bindings := Tab.put u.ne.bindings k { kind := kind, source := sourceKey p.ctx kind n, inst := i } } }) kind n)))) ∧
    (∀ i x p kind n, Served s src 0x06 → inst? s i = some x → program? s x.program = some p → Live s p.ctx →
      let hit : Binding → Bool := fun b => b.kind == kind && b.source == sourceKey p.ctx kind n && b.inst == i
      s.ne.bindings.any (fun e => hit e.2) = true →
      exec (.programUnbind src i kind n) r = .next (tickRest src (answered s src 0x06 [] (fun u => dropBindings u (fun _ b => hit b))))) ∧
    (∀ e k, Served s src 0x07 → e < 64 → k < 8 →
      (thread s (8 * e + k)).mode = .halted ∨ (thread s (8 * e + k)).mode = .frozen →
      exec (.threadRead src e k) r = .next (tickRest src (answer (accepted s src) src 0x07
        { status := .ok, data := threadDump s (8 * e + k) (thread s (8 * e + k)) }))))

/-! The memory pool (chapter 04) -/

/-- R104, R108: the access check, in its order: the management context; a grant window; a list index, which must name an OWNED
granule of the tenant; a window's PPA under its grant. An allowed access names the key slot of the granule's owner. -/
def Obligations.AccessCheck : Prop :=
  ∀ (s : State) (tag : BitVec 11) (a : Nat) (wr : Bool),
    let ctx := tagCtx tag
    let g := fld a 21 12
    let i := fld a 21 17
    (ctx = mgt → 2 ^ 38 ≤ a → check s tag (.tpa a) wr = .deny none) ∧
    (ctx = mgt → a < 2 ^ 38 → ((gran s (a / granuleBytes)).st = .owned ∨ (gran s (a / granuleBytes)).st = .retired) →
      check s tag (.tpa a) wr = .allow a (slotOf (gran s (a / granuleBytes)))) ∧
    (ctx = mgt → a < 2 ^ 38 → (gran s (a / granuleBytes)).st = .free →
      check s tag (.tpa a) wr = if wr then .deny (some (a / granuleBytes)) else .zero a) ∧
    (ctx ≠ mgt → bit a 38 = false → listAt s ctx i = none → check s tag (.tpa a) wr = .deny none) ∧
    (∀ n, ctx ≠ mgt → bit a 38 = false → listAt s ctx i = some n → listBad s ctx i = true →
      check s tag (.tpa a) wr = .deny none) ∧
    (∀ n, ctx ≠ mgt → bit a 38 = false → listAt s ctx i = some n → listBad s ctx i = false →
      check s tag (.tpa a) wr =
        if (gran s n).st = .owned ∧ (gran s n).ctx = ctx ∧ (gran s n).damaged = false
        then .allow (n * 2097152 + a % 2097152) ctx else .deny (some n)) ∧
    (ctx ≠ mgt → bit a 38 = true → Tab.find s.mp.grants g = none → check s tag (.tpa a) wr = .deny none) ∧
    (∀ e, ctx ≠ mgt → bit a 38 = true → Tab.find s.mp.grants g = some e →
      check s tag (.tpa a) wr =
        if e.grantee ≠ ctx ∨ (wr = true ∧ e.write = false) ∨ s.mp.badGrant.contains g = true ∨ (gran s e.granule).damaged = true
        then .deny (some e.granule) else .allow (e.granule * 2097152 + a % 2097152) (slotOf (gran s e.granule))) ∧
    (∀ n e, ctx ≠ mgt → Tab.find s.mp.grants n = some e →
      check s tag (.granted a n) wr =
        if e.grantee ≠ ctx ∨ (wr = true ∧ e.write = false) ∨ s.mp.badGrant.contains n = true ∨ (gran s e.granule).damaged = true ∨
          a / 2097152 ≠ e.granule
        then .deny (some e.granule) else .allow a (slotOf (gran s e.granule)))

/-- R106, R113, R114, R118: a write inside a granule that is not mirrored is read back, through the cipher, as it was written, and
every other byte reads as before; a line that it covers whole takes its mark, one that it covers in part gains it, a line that it
does not touch keeps its mark; nothing outside the pool changes. -/
def Obligations.PoolWriteFrame : Prop :=
  ∀ (s : State) (ppa : Nat) (b : Bytes) (poison : Bool),
    b ≠ [] → ppa % 2097152 + b.length ≤ 2097152 → mirrors s ppa = false →
    let u := poolWrite s ppa b poison
    poolBytes u ppa b.length = b ∧
    (∀ a, a < ppa ∨ ppa + b.length ≤ a → poolBytes u a 1 = poolBytes s a 1) ∧
    (∀ l, ppa ≤ 64 * l → 64 * l + 64 ≤ ppa + b.length → poisonAt u (64 * l) = poison) ∧
    (∀ l, 64 * l < ppa + b.length → ppa < 64 * l + 64 → (64 * l < ppa ∨ ppa + b.length < 64 * l + 64) →
      poisonAt u (64 * l) = (poison || poisonAt s (64 * l))) ∧
    (∀ l, 64 * l + 64 ≤ ppa ∨ ppa + b.length ≤ 64 * l → poisonAt u (64 * l) = poisonAt s (64 * l)) ∧
    u.ne = s.ne ∧ u.ru = s.ru ∧ u.qm = s.qm ∧ u.sh = s.sh ∧ u.wt = s.wt ∧ u.regs = s.regs ∧ u.sm = s.sm

/-- GRANULE_ASSIGN, GRANULE_RELEASE, GRANULE_MIRROR, GRANULE_RETIRE and GRANULE_LIMIT with arguments that no rule refuses have their
effect and answer OK, or UNPROTECTED for a mirrored granule outside IN_SYNC (Table 04-7, R125). R101, R109: an assigned granule is
OWNED by its context and stands at its list index; another granule's entry is unchanged. R110: a released granule is in SCRUB and
its list entry is a hole. -/
def Obligations.GranuleCommands : Prop :=
  (∀ (r s : State) (src : Nat), Rings r src s →
    (∀ ctx index stack mir i k g, Served s src 0x08 → Live s ctx → i = assignIndex s ctx index →
      i ≤ (granList s ctx).entries.length → listAt s ctx i = none → k = stack.getD (bestStack s) → k < 8 →
      lowestFree s k = some g → granHeld s ctx < granLimit s ctx → i < 131072 →
      (i = (granList s ctx).entries.length → listUsed s < 131072) →
      let u := assignGranule (accepted s src) ctx i g mir
      exec (.granuleAssign src ctx index stack mir) r = .next (tickRest src (answer
        (if mir = true ∧ enrolledCtx u ctx = true then journalObject (journalMap u g true false) ctx 7 0 else u) src 0x08
        { status := if mir = true ∧ s.sm.mode ≠ .inSync then .unprotected else .ok, results := [(4, i), (4, g)] }))) ∧
    (∀ ctx i g, Served s src 0x09 → Live s ctx → listAt s ctx i = some g → (gran s g).refs = 0 → (gran s g).grants = 0 →
      exec (.granuleRelease src ctx i) r = .next (tickRest src (answered s src 0x09 [] (fun u =>
        journalObject (releaseGranule u ctx i g) (if (gran s g).mirrored then ctx else mgt) 7 0)))) ∧
    (∀ ctx i g, Served s src 0x0A → Live s ctx → listAt s ctx i = some g → (gran s g).mirrored = false →
      let u := setGran (accepted s src) g { gran s g with mirrored := true }
      exec (.granuleMirror src ctx i true) r = .next (tickRest src (answer (journalCopy u g) src 0x0A
        { status := if (journalCopy u g).sm.mode = .inSync then .ok else .unprotected }))) ∧
    (∀ ctx i g, Served s src 0x0A → Live s ctx → listAt s ctx i = some g → (gran s g).mirrored = true →
      let u := if enrolledCtx s ctx then journalMap (accepted s src) g false false else accepted s src
      exec (.granuleMirror src ctx i false) r = .next (tickRest src (answer
        (setGran u g { gran u g with mirrored := false }) src 0x0A { status := .ok }))) ∧
    (∀ g, Served s src 0x0B → g < 131072 → (gran s g).st = .free →
      exec (.granuleRetire src g) r = .next (tickRest src (answered s src 0x0B [] (fun u =>
        setGran u g { gran u g with st := .retired })))) ∧
    (∀ g, Served s src 0x0B → g < 131072 → (gran s g).st = .scrub →
      exec (.granuleRetire src g) r = .next (tickRest src (answered s src 0x0B [] (fun u =>
        setGran u g { gran u g with retire := true })))) ∧
    (∀ tid limit, Served s src 0x0C → tid < mgt → Live s tid → limit ≤ 131072 →
      exec (.granuleLimit src tid limit) r = .next (tickRest src (answered s src 0x0C [] (fun u =>
        journalObject (setTenant u tid { tenant u tid with granules := limit }) tid 1 tid))))) ∧
  (∀ (s : State) (ctx i g h : Nat) (m : Bool),
    (i ≤ (granList s ctx).entries.length →
      let u := assignGranule s ctx i g m
      (gran u g).st = .owned ∧ (gran u g).ctx = ctx ∧ (gran u g).mirrored = m ∧ (gran u g).listIndex = i ∧
        listAt u ctx i = some g ∧ (h ≠ g → gran u h = gran s h)) ∧
    (listAt s ctx i = some g →
      let u := releaseGranule s ctx i g
      (gran u g).st = .scrub ∧ listAt u ctx i = none ∧ (h ≠ g → gran u h = gran s h) ∧
        (∀ j, j ≠ i → listAt u ctx j = listAt s ctx j)))

/-- GRANT, GRANT_REVOKE, KEY_SET, SCRUB_START, SCRUB_COMPLETE and PATROL_READ complete with their effect (R107, R108, R111, R115,
R119); the scrub of the last granule of a removed tenant frees its TID and zeroes its key slot (R304). R111, R113: every byte of a
scrubbed granule reads zero and no line of it is marked; another granule keeps its bytes and marks. -/
def Obligations.GrantsKeysScrub : Prop :=
  ((∀ (r s : State) (src : Nat), Rings r src s →
    (∀ owner i grantee wr g n, Served s src 0x0D → Live s owner → Live s grantee → grantee < mgt → grantee ≠ owner →
      (tenant s grantee).st ≠ .quiesced → listAt s owner i = some g → oneOf s 0 (Tab.freeKeys s.mp.grants 0 4096) = some n →
      (gran s g).grants < 255 →
      exec (.grant src owner i grantee wr) r = .next (tickRest src (answered s src 0x0D [(2, n)] (fun u => useFree
        (setGran { u with mp := { u.mp with grants := Tab.put u.mp.grants n ⟨wr, g, grantee, owner⟩ } } g { gran u g with grants := (gran u g).grants + 1 }))))) ∧
    (∀ n e, Served s src 0x0E → Tab.find s.mp.grants n = some e →
      exec (.grantRevoke src n) r = .next (tickRest src (answered s src 0x0E [] (fun u =>
        setGran { u with mp := { u.mp with grants := Tab.del u.mp.grants n } } e.granule
          { gran u e.granule with grants := (gran u e.granule).grants - 1 })))) ∧
    (∀ slot key, Served s src 0x0F → Live s slot → BitVec.extractLsb' 0 256 key ≠ BitVec.extractLsb' 256 256 key →
      granHeld s slot = 0 → s.mp.grants.any (fun e => e.2.owner == slot) = false →
      exec (.keySet src slot key) r = .next (tickRest src (answered s src 0x0F [] (fun u =>
        { u with mp := { u.mp with keys := Tab.put u.mp.keys slot key } }))))) ∧
  (∀ u : State,
    (∀ k g rest, (stk u k).running = none → (stk u k).order = g :: rest → granuleQuiet u g = true →
      exec (.scrubStart k) u = .next (setStk u k { stk u k with running := some g, order := rest })) ∧
    (∀ k g, (stk u k).running = some g → ((gran u g).mirrored && enrolledCtx u (gran u g).ctx) = false →
      let v := setStk (setGran (count (zeroGranule u g) Reg.mpScrubbed) g
        { st := if (gran u g).retire then .retired else .free, damaged := (gran u g).damaged }) k { stk u k with running := none }
      exec (.scrubComplete k) u = .next (if (gran u g).ctx < mgt ∧ (tenant u (gran u g).ctx).st = .removed ∧
          (tenant u (gran u g).ctx).removing = false ∧ scrubsLeft v (gran u g).ctx = false
        then freeTenant v (gran u g).ctx else v)) ∧
    (∀ line ups, (gran u (line / 32768)).st = .owned ∨ (gran u (line / 32768)).st = .retired →
      exec (.patrolRead line ups) u = .next (eccRead (disturb u ups) (64 * line) none)))) ∧
  (∀ (s : State) (g a : Nat), PoolForm s.mp →
    (a / 2097152 = g → poolBytes (zeroGranule s g) a 1 = [0] ∧ poisonAt (zeroGranule s g) a = false) ∧
    (a / 2097152 ≠ g → poolBytes (zeroGranule s g) a 1 = poolBytes s a 1 ∧
      poisonAt (zeroGranule s g) a = poisonAt s a))

/-! Reduction (chapter 05) -/

/-- REDUCE_CREATE, REDUCE_DESTROY, REDUCE_RESET and RU_QUOTA with arguments that no rule refuses have their effect and answer OK
(Table 05-9). -/
def Obligations.ReduceCommands : Prop :=
  ∀ (r s : State) (src : Nat), Rings r src s →
    (∀ (a : ReduceArgs) w, Served s src 0x10 → Live s a.ctx → legalCombo a.arrival a.format a.op = true →
      1 ≤ a.contributors → a.contributors ≤ 4096 → 1 ≤ a.chunks → a.chunks ≤ 65536 → 1 ≤ a.lastLines → a.lastLines ≤ 1024 →
      a.cqPrio ≤ 7 → a.result % 65536 = 0 → a.result + 65536 * a.chunks ≤ 2 ^ 38 →
      (queue? s a.cq).map (fun q => q.ctx) = some a.ctx → (∀ c, c < a.chunks → regionOk s a c = true) →
      lowestInHalf s s.ru.windows 2048 4096 = some w → (a.rsv = true → rsvRoom s (newWindow a) = true) →
      (∀ g ∈ regionGranules s (newWindow a), (gran s g).refs < 255) →
      exec (.reduceCreate src a) r = .next (tickRest src (answered s src 0x10 [(2, w)] (fun u => journalObject
        ((regionGranules u (newWindow a)).foldl (addRef true) (setRwin u w (newWindow a))) a.ctx 4 w)))) ∧
    (∀ w x, Served s src 0x11 → rwin? s w = some x → Live s x.ctx →
      exec (.reduceDestroy src w) r = .next (tickRest src (answered s src 0x11 [] (fun u => destroyWindow u w)))) ∧
    (∀ w x, Served s src 0x12 → rwin? s w = some x → Live s x.ctx →
      exec (.reduceReset src w) r = .next (tickRest src (answered s src 0x12 [] (fun u => resetWindow u w)))) ∧
    (∀ ctx k n, Served s src 0x13 → Live s ctx → k < 8 → n ≤ 48 →
      exec (.ruQuota src ctx (some k) n) r = .next (tickRest src (answered s src 0x13 [] (fun u => atEpoch u (.ruQuota k ctx n))))) ∧
    (∀ ctx n, Served s src 0x13 → Live s ctx → n ≤ 48 →
      exec (.ruQuota src ctx none n) r = .next (tickRest src (answered s src 0x13 [] (fun u =>
        (upto 0 8).foldl (fun v k => atEpoch v (.ruQuota k ctx n)) u))))

/-- R133: the checks of a contribution, in their order. R140, R143, R144, R146, R147, R149, R150. CONTRIBUTION_ACCEPT: the first
waiting line of its source for an open chunk, which the unit's arbiter serves (SC0 at once), is applied; a stale line of a thread, a
host or a channel is refused. CHUNK_COMPLETE: the staging of a full chunk is checked, its result lines are rounded and written, its
slices freed, its event raised and its items linked. COMPLETION_ITEM_LINK: the items that waited are linked, those of the chunk too.
-/
def Obligations.Contributions : Prop :=
  (∀ (s : State) (tag : BitVec 11) (w c o e : Nat) (x : RWin),
    (rwin? s w = none → contribCheck s tag w c o (some e) = some .owner) ∧
    (rwin? s w = some x → x.ctx ≠ tagCtx tag → contribCheck s tag w c o (some e) = some .owner) ∧
    (rwin? s w = some x → x.contribM1 < c → contribCheck s tag w c o (some e) = some .owner) ∧
    (rwin? s w = some x → x.ctx = tagCtx tag → c ≤ x.contribM1 → offRange x o = true →
      contribCheck s tag w c o (some e) = some .range) ∧
    (rwin? s w = some x → x.ctx = tagCtx tag → c ≤ x.contribM1 → offRange x o = false → e % 256 ≠ x.epoch % 256 →
      contribCheck s tag w c o (some e) = some .stale) ∧
    (rwin? s w = some x → x.ctx = tagCtx tag → c ≤ x.contribM1 → offRange x o = false → e % 256 = x.epoch % 256 →
      contribCheck s tag w c o (some e) = none)) ∧
  (∀ (s : State) (w c : Nat),
    (∀ i k x ch, s.ru.waiting[i]? = some k → aheadOf s.ru.waiting i k = false → s.th.safe = false → tagSc k.tag = 0 →
      rwin? s k.window = some x → x.epoch = k.epoch → ctxMode s x.ctx = .running → x.complete.contains (k.offset / 65536) = false →
      x.arrival = false → chunk? s k.window (k.offset / 65536) = some ch → (∀ p f, k.src ≠ .host p f) →
      exec (.contributionAccept i .ok) s = .next (applyLine { s with ru := { s.ru with waiting := s.ru.waiting.eraseIdx i } }
        k x (k.offset / 65536) ch)) ∧
    (∀ i k x ch u, s.ru.waiting[i]? = some k → aheadOf s.ru.waiting i k = false → s.th.safe = false →
      rwin? s k.window = some x → x.epoch = k.epoch → ctxMode s x.ctx = .running → x.complete.contains (k.offset / 65536) = false →
      (x.arrival = true → writeRoom s (chunkGranule s x (k.offset / 65536) * granuleBytes) 64 = true) →
      chunk? s k.window (k.offset / 65536) = some ch → serveLine s i k = some u →
      let t := applyLine { u with ru := { u.ru with waiting := u.ru.waiting.eraseIdx i } } k x (k.offset / 65536) ch
      exec (.contributionAccept i .ok) s = .next (match k.src with
        | .host p _ => notePort t p s.sm.jsnSent
        | _ => t)) ∧
    (∀ i k x, s.ru.waiting[i]? = some k → aheadOf s.ru.waiting i k = false → s.th.safe = false → rwin? s k.window = some x →
      x.epoch ≠ k.epoch → ((∃ n, k.src = .thread n) ∨ (∃ p f, k.src = .host p f) ∨ (∃ n, k.src = .shuttle n)) →
      exec (.contributionAccept i .ok) s = .next (contribRefuse
        { s with ru := { s.ru with waiting := s.ru.waiting.eraseIdx i } } k.tag k.window .stale)) ∧
    (∀ i k ecc u t, s.ru.waiting[i]? = some k → aheadOf s.ru.waiting i k = false → s.th.safe = false → (∃ n, k.src = .thread n) →
      serveLine s i k = some u →
      presentLine (stageEcc { u with ru := { u.ru with waiting := u.ru.waiting.eraseIdx i } } ecc k.tag k.window)
        (if ecc = .uncorrectable then { k with poison := true } else k) = .took t →
      exec (.contributionAccept i ecc) s = .next t) ∧
    (∀ x k ecc, rwin? s w = some x → chunk? s w c = some k → k.phase = .full → ctxMode s x.ctx ≠ .frozen →
      mirrors s (chunkGranule s x c * granuleBytes) = false →
      let u := (ecc.filter (fun e => decide (e.1 < chunkLines x c))).foldl (stageLines (mkTag x.ctx 1) w c) s
      let j := (chunk? u w c).getD k
      let v := if x.arrival then u else (upto 0 (chunkLines x c)).foldl (writeResult w c x j) u
      let fl := ((chunk? v w c).map (fun e => e.flags)).getD 0
      let v := setChunk v w c { j with phase := .items, slices := 0, accs := [], flags := fl }
      let y := (rwin? v w).getD x
      let v := setRwin v w { y with sticky := y.sticky ||| fl, complete := y.complete ++ [c] }
      exec (.chunkComplete w c ecc) s = .next (linkItems (journalObject
        (raiseEvent (count v (Reg.ruChunksDone j.unit)) .reduce w (BitVec.ofNat 64 c) none) y.ctx 4 w) w c)) ∧
    (∀ k, s.ru.owed = [] → chunk? s w c = some k → k.phase = .items → ctxMode s (winCtx s w) ≠ .frozen →
      exec (.completionItemLink w c) s = .next (linkItems s w c)) ∧
    (∀ k, let u := linkOwed w s.ru.owed s []
      chunk? u w c = some k → k.phase ≠ .items → exec (.completionItemLink w c) s = .next u))

/-- R144, R150: a line that an open EXACT chunk takes is counted once more and each of its elements is applied to its accumulator;
the counts and accumulators of other lines are unchanged. -/
def Obligations.LineIsCounted : Prop :=
  ∀ (s t : State) (k : Contrib) (x : RWin) (c l : Nat) (ch : Chunk),
    rwin? s k.window = some x → x.epoch = k.epoch → ctxMode s x.ctx = .running → c = k.offset / 65536 →
    l = k.offset % 65536 / 64 → x.complete.contains c = false → x.arrival = false → x.format ≤ 8 →
    chunk? s k.window c = some ch → Tab.get 0 ch.counts l ≤ x.contribM1 → presentLine s k = .took t →
    ∃ d, chunk? t k.window c = some d ∧ Tab.get 0 d.counts l = Tab.get 0 ch.counts l + 1 ∧
      (∀ j, j ≠ l → Tab.get 0 d.counts j = Tab.get 0 ch.counts j) ∧
      (∀ j, j < etLanes x.format → Tab.get {} d.accs (etLanes x.format * l + j) =
        accApply x.format x.op (lane k.data (etSize x.format) j) (Tab.get {} ch.accs (etLanes x.format * l + j))) ∧
      (∀ i, i / etLanes x.format ≠ l → Tab.get {} d.accs i = Tab.get {} ch.accs i)

/-- R135: an EXACT SUM does not depend on the order in which elements arrive. R136: an EXACT SUM of integers clamps to the range of
the format and sets OVF exactly when it clamps; a NaN element, or infinities of both signs, give the default NaN. -/
def Obligations.ReductionValues : Prop :=
  (∀ (format : Nat) (els els' : List Nat) (a : Acc), List.Perm els els' →
    els.foldl (fun r e => accSum format e r) a = els'.foldl (fun r e => accSum format e r) a) ∧
  (∀ (a : Acc) (sat : Bool) (format : Nat) (f : FFmt),
    (format ≤ 3 → ((roundElem format 0 sat a).2 = 0 ↔
      -(2 ^ (8 * etSize format - 1) : Int) ≤ a.val ∧ a.val < 2 ^ (8 * etSize format - 1))) ∧
    (fmtOf format = some f → (a.nan = true ∨ (a.pinf = true ∧ a.ninf = true)) →
      roundElem format 0 sat a = (f.qnan, 2)) ∧
    (fmtOf format = some f → a.nan = false → a.pinf = true → a.ninf = false →
      roundElem format 0 sat a = (overflowF f sat false, 0)))

/-! Queues (chapter 06) -/

/-- QUEUE_CREATE, QUEUE_DESTROY, QUEUE_FLUSH, QUEUE_SET, QUEUE_OPEN, QUEUE_CLOSE and QM_QUOTA with arguments that no rule refuses
have their effect and answer OK, or UNPROTECTED for a mirrored queue outside IN_SYNC (Table 06-8); QUEUE_SET and QM_QUOTA take
effect at the next epoch (R171). -/
def Obligations.QueueCommands : Prop :=
  ∀ (r s : State) (src q : Nat) (x : Queue), Rings r src s →
    let present : Prop := queue? s q = some x ∧ Live s x.ctx ∧ x.destroyed = false ∧ x.destroyReq = false
    let owner := if x.mirrored then x.ctx else mgt
    (∀ ctx mode m limit mir h, Served s src 0x14 → Live s ctx → qmodeOf mode = some m → limitOk limit = true →
      lowestInHalf s s.qm.queues 8192 16383 = some h → ctxQueues s ctx < queueQuota s ctx →
      let u := setQueue (accepted s src) h { ctx := ctx, mode := m, limit := limit, mirrored := mir }
      exec (.queueCreate src ctx mode limit mir) r = .next (tickRest src (answer
        (if mir = true then journalObject u ctx 2 h else u) src 0x14
        { status := if mir = true ∧ s.sm.mode ≠ .inSync then .unprotected else .ok, results := [(2, h)] }))) ∧
    (Served s src 0x15 → present → q ≠ mgtQueue → queueInUse s q = false →
      exec (.queueDestroy src q) r = .next (tickRest src (answered s src 0x15 [] (fun u =>
        journalObject (setQueue u q { x with flushReq := true, destroyReq := true }) owner 2 q)))) ∧
    (Served s src 0x16 → present → exec (.queueFlush src q) r = .next (tickRest src (answered s src 0x16 [] (fun u =>
      setQueue u q { x with flushReq := true })))) ∧
    (∀ mode m limit, Served s src 0x17 → present → qmodeOf mode = some m → limitOk limit = true →
      (0 < x.sendLimit → x.sendLimit + 64 ≤ limit) → q ≠ mgtQueue →
      exec (.queueSet src q mode limit) r = .next (tickRest src (answered s src 0x17 [] (fun u =>
        { u with epochs := u.epochs ++ [.queueSet q m limit] })))) ∧
    (∀ sender lim, Served s src 0x18 → present → Live s sender → sender < mgt → sender ≠ x.ctx →
      (tenant s sender).st ≠ .quiesced → 64 ≤ lim → lim + 64 ≤ x.limit → q ≠ mgtQueue → x.openTid = none →
      withinQuota s x.ctx lim 0 = true → (lim : Int) ≤ sharedFree s →
      exec (.queueOpen src q sender lim) r = .next (tickRest src (answered s src 0x18 [] (fun u =>
        journalObject (setQueue u q { x with openTid := some sender, sendLimit := lim }) owner 2 q)))) ∧
    (Served s src 0x19 → present → x.openTid.isSome = true → x.closing = false → x.closeReq = false →
      exec (.queueClose src q) r = .next (tickRest src (answered s src 0x19 [] (fun u => setQueue u q { x with closeReq := true })))) ∧
    (∀ ctx cells n, Served s src 0x1A → Live s ctx → 64 ≤ cells → cells ≤ 262144 → n ≤ 16383 →
      exec (.qmQuota src ctx cells n) r = .next (tickRest src (answered s src 0x1A [] (fun u =>
        { u with epochs := u.epochs ++ [.qmQuota ctx cells n] }))))

/-- R168, R174, R176, R178, R179: FLUSH discards the items of its queue and counts them; OPENING_CLOSE closes an opening at the
boundary; SWEEP_END frees the cells of an older generation, and resets a queue once more that a second mismatch has blocked;
LAST_CELL_FREED frees the flushed cells, and a destroyed queue that holds nothing. R162, R163: PUSH_PAGE_WRITE: a well-formed write
of the push page joins the port's push buffer, behind the contribution lines of the port that wait; HOST_PUSH_LINK: the oldest entry
links once those lines are gone, waits without room, or is refused as an Unsupported Request. -/
def Obligations.QueueEvents : Prop :=
  (∀ (s : State) (q : Nat) (x : Queue), queue? s q = some x →
    (x.flushReq = true → s.th.safe = false → exec (.flush q) s = .next (flushQueue s q)) ∧
    (∃ y, queue? (flushQueue s q) q = some y ∧ y.items = [] ∧ y.gen = x.gen ∧ y.flushReq = false ∧
      y.destroyed = (x.destroyed || x.destroyReq) ∧ y.flushed = min (x.flushed + x.items.length) (2 ^ 32 - 1) ∧
      (∀ g ∈ y.prog, g.2.fate ≠ .link)) ∧
    (x.closeReq = true →
      exec (.openingClose q) s = .next (setQueue s q (settleOpening { x with closeReq := false, closing := true }))) ∧
    (∀ rest, s.qm.sweeps = none :: rest → exec .sweepEnd s = .next { s with qm := { s.qm with sweeps := rest } }) ∧
    (∀ rest, s.qm.sweeps = some q :: rest →
      let u := giveCells (setQueue { s with qm := { s.qm with sweeps := rest } } q
        (settleOpening { x with stale := x.stale.filter (fun g => g.gen == x.gen), blocked := false }))
        ((x.stale.filter (fun g => g.gen != x.gen)).flatMap (fun g => g.cells))
      exec .sweepEnd s = .next (if x.blocked then resetQueue u q else u)) ∧
    (x.destroyed = true → x.items = [] → x.prog = [] → x.stale = [] → creditHeld s q x true = 0 → creditHeld s q x false = 0 →
      s.th.safe = false →
      ∃ u, exec (.lastCellFreed q) s = .next u ∧ queue? u q = none ∧
        u.qm.freed = (giveCells s (x.draining.flatMap (fun g => g.cells))).qm.freed) ∧
    (x.destroyed = false → x.draining ≠ [] → s.th.safe = false →
      exec (.lastCellFreed q) s = .next (giveCells (setQueue s q { x with draining := [] })
        (x.draining.flatMap (fun g => g.cells))))) ∧
  (∀ (s : State) (p : Nat),
    (∀ w : MemWrite, w.bar = 0 → w.fn ≠ 0 → 0x3000 ≤ w.offset → w.offset < 0x4000 → postedHeld s w.port = false →
      gate s w.port w.fn 0 w.offset w.bytes.length true = .serve → w.unsupported = false →
      ∀ t b, boundTo s w.port w.fn = some (t, b) → pushShape w.offset w.bytes = true → w.poisoned = false →
      let x : HostPush := ⟨w.fn, fld (leAt w.bytes 0 8) 0 14, fld (leAt w.bytes 0 8) 16 3, w.bytes.drop 8, false,
        mkTag t b.pushClass, hostWaits (leaveL1 s w.port) w.port⟩
      exec (.pushPageWrite w) s = .next { leaveL1 s w.port with qm := { s.qm with
        pushes := Tab.upd [] s.qm.pushes w.port (fun l => l ++ [x]) } }) ∧
    (∀ x rest, Tab.get [] s.qm.pushes p = x :: rest → s.th.safe = false → (∀ k ∈ x.waits, k ∉ s.ru.waiting) →
      let u := { s with qm := { s.qm with pushes := Tab.set [] s.qm.pushes p rest } }
      let a := push u x.queue x.prio x.tag x.bytes x.poison
      (Admits u x.queue x.prio x.tag x.bytes.length →
        exec (.hostPushLink p .ok) s = .next (notePort (pushed u x.queue x.prio x.tag x.bytes x.poison) p s.sm.jsnSent)) ∧
      (∀ d, a.1 = .linked d → exec (.hostPushLink p .ok) s = .next (notePort a.2 p s.sm.jsnSent)) ∧
      (a.1 = .full → exec (.hostPushLink p .ok) s = .next s) ∧
      (a.1 = .access → exec (.hostPushLink p .ok) s =
        .next (aerFor (count a.2 (Reg.hpUr p)) p x.fn true aerUr (some x.tag)))) ∧
    (∀ x rest k, Tab.get [] s.qm.pushes p = x :: rest → k ∈ x.waits → k ∈ s.ru.waiting → exec (.hostPushLink p .ok) s = .next s))

/-- R161 to R166: a push links its item at the end of the queue when it has room without a discard; a producer that is neither owner
nor sender is refused; without room nothing changes. R165: OVERWRITE and SHED discard items of the owner only, SHED only of a lower
priority than the push; HOLD discards none. -/
def Obligations.QueueRules : Prop :=
  (∀ (s : State) (q prio : Nat) (tag : BitVec 11) (b : Bytes) (poison : Bool),
    (queue? s q = none → push s q prio tag b poison = (.access, qmRefuse s q tag)) ∧
    (∀ x, queue? s q = some x → mayPush x (tagCtx tag) = false → push s q prio tag b poison = (.access, qmRefuse s q tag)) ∧
    (∀ x, queue? s q = some x → mayPush x (tagCtx tag) = true → discards s q x tag prio (cellsOf b.length) = none →
      push s q prio tag b poison = (.full, s)) ∧
    (∀ x, queue? s q = some x → Admits s q prio tag b.length →
      push s q prio tag b poison = (.linked false, pushed s q prio tag b poison) ∧
        ∃ y i, queue? (push s q prio tag b poison).2 q = some y ∧ y.items = x.items ++ [i] ∧ i.bytes = b ∧ i.prio = prio ∧
          i.poison = poison ∧ i.tag = tag ∧ i.cells.length = cellsOf b.length)) ∧
  (∀ (s : State) (q : Nat) (x : Queue) (tag : BitVec 11) (prio n : Nat) (l : List Item),
    discards s q x tag prio n = some l →
      (x.mode = .hold → l = []) ∧ (tagCtx tag ≠ x.ctx → l = []) ∧
      (∀ i ∈ l, i ∈ x.items ∧ tagCtx i.tag = x.ctx) ∧
      (x.mode = .shed → ∀ i ∈ l, i.prio < prio) ∧
      (∀ i ∈ l, ∀ j ∈ x.items, tagCtx j.tag = x.ctx → j.prio < i.prio → i.prio < 8 → j ∈ l))

/-! Shuttle (chapter 07) -/

/-- CHANNEL_ASSIGN, CHANNEL_RELEASE, CHANNEL_STOP and CHANNEL_LIMIT with arguments that no rule refuses have their effect and answer
OK (Table 07-8, R185, R202). R189, R190, R201, R203, R429: the writes of SH_CH_TAIL and of PAUSE, RESUME and SKIP reach the channel,
through PF 0 of a manager port and through the channel page of its owner's VF. -/
def Obligations.ChannelCommands : Prop :=
  (∀ (r s : State) (src c : Nat), Rings r src s →
    (∀ (a : ChannelArgs) n, Served s src 0x1B → Live s a.ctx → assignBad s a = false →
      lowestInHalf s s.sh.chans 504 1008 = some n → (a.ctx < mgt → (chansOf s a.ctx).length < chanLimit s a.ctx) →
      exec (.channelAssign src a) r = .next (tickRest src (answered s src 0x1B [(2, n)] (fun u => journalChan (setChan u n
        { st := .idle, cls := a.cls, ctx := a.ctx, engineProd := a.engineProducer, ringPool := a.ringPool, base := a.base,
          log2 := a.ringLog2, retry := a.retry, port := a.port, fn := a.fn, cq := a.cq, vector := a.vector,
          slot := if a.ctx = mgt then none else freeSlot s a.ctx }) n)))) ∧
    (Served s src 0x1C → (chan s c).st = .idle ∨ (chan s c).st = .halted → Live s (chan s c).ctx → (chan s c).system = false →
      bindingOf s .shuttle c = none →
      exec (.channelRelease src c) r = .next (tickRest src (answered s src 0x1C [] (fun u => setChan u c {})))) ∧
    (Served s src 0x1D → (chan s c).st ≠ .free → Live s (chan s c).ctx →
      exec (.channelStop src c) r = .next (tickRest src (answered s src 0x1D [] (fun u =>
        journalChan (setChan u c (stopChan (chan s c))) c)))) ∧
    (∀ tid limit, Served s src 0x1E → tid < mgt → Live s tid → limit ≤ 16 →
      exec (.channelLimit src tid limit) r = .next (tickRest src (answered s src 0x1E [] (fun u => journalObject
        { u with sh := { u.sh with limits := Tab.set 4 u.sh.limits tid limit } } tid 1 tid))))) ∧
  (∀ (s : State) (who : FnRef) (c : Nat) (tail : BitVec 32),
    let u := leaveL1 s who.port
    (c < 1024 → Controls s who (0x300018 + 0x40 * c) 4 → ((chan s c).ringPool = true → postedAhead s who.port = false) →
      exec (.shChTail who c tail) s = .next (doorbell u mgt c tail)) ∧
    (c < 1024 → Controls s who (0x300020 + 0x40 * c) 4 →
      exec (.pause who c) s = .next (pauseWrite u c) ∧
      exec (.resume who c) s = .next (resumeWrite u c) ∧
      exec (.skip who c) s = .next (skipWrite u c)) ∧
    (∀ t b k, who.fn ≠ 0 → boundTo s who.port who.fn = some (t, b) → (chan s c).slot = some k → k < 16 →
      (chan s c).st ≠ .free → (chan s c).ctx = t → slotChan s t k = some (c, chan s c) →
      (Posts s who (0x2010 + 0x40 * k) 4 → ((chan s c).ringPool = true → postedAhead s who.port = false) →
        exec (.shChTail who c tail) s = .next (doorbell u t c tail)) ∧
      (Posts s who (0x2018 + 0x40 * k) 4 →
        exec (.pause who c) s = .next (pauseWrite u c) ∧
        exec (.resume who c) s = .next (resumeWrite u c) ∧
        exec (.skip who c) s = .next (skipWrite u c))))

/-- R186, R189, R191, R206: DESCRIPTOR_FETCH: a slot of a pool or host ring is fetched and joins the channel's descriptors;
TAIL_BUFFER_WRITE_THROUGH: the tail buffer's oldest entry goes to its slot; DESCRIPTOR_RETIRE: a complete head descriptor of an
ACTIVE or STOPPING channel retires, and HEAD moves on; PAUSED: a channel that pauses or stops comes to rest. R183, R192, R195, R196:
BEAT_ISSUE: the next beat of a started descriptor is issued when the engine serves the channel; BEAT_COMPLETE: a beat whose answer
comes gives back its tag and is delivered when it may be; RETRY: a failed beat is issued again with a new tag after its back-off. -/
def Obligations.ChannelSteps : Prop :=
  (∀ (s : State) (c : Nat),
    let ch := chan s c
    let pos := ch.head.toNat
    let ready : Prop := fetches s ch = true ∧ ch.fetched = [] ∧ ch.halting = 0 ∧ ch.head ≠ ch.tail ∧ ch.fetchErr = none
    (∀ host ppa k, ready → ch.ringPool = true → ch.tailBuf = [] → host ≠ .timeout →
      check s (chTag ch) (chPoolAddr ch (slotAddr ch pos)) false = .allow ppa k →
      let u := eccSpan s ppa 64 (chTag ch)
      poisonAt u ppa = false → exec (.descriptorFetch c host) s = .next (gotDesc u c pos (poolBytes u ppa 64))) ∧
    (∀ b n u, ready → ch.ringPool = false → b.length = 64 → sendRead s c ch pos (slotAddr ch pos) 64 = some (n, u) →
      exec (.descriptorFetch c (.data b false)) s = .next (gotDesc (giveTag u ch.port n) c pos b)) ∧
    (∀ k b, ch.fetched = [] → (ch.st = .active ∨ ch.st = .stopping) → descBad s ch { pos := k, bytes := b } = false →
      gotDesc s c k b = setChan s c { ch with fetched := [{ pos := k, bytes := b }], fetchErr := none }) ∧
    (∀ p b rest ppa k, ch.tailBuf = (p, b) :: rest → writeRoom s ppa 64 = true →
      check s (chTag ch) (chPoolAddr ch (slotAddr ch p)) true = .allow ppa k →
      exec (.tailBufferWriteThrough c) s = .next (poolStore (setChan s c { ch with tailBuf := rest }) (chTag ch) ppa b false)) ∧
    (∀ p b rest g, ch.tailBuf = (p, b) :: rest → ch.st ≠ .halted →
      check s (chTag ch) (chPoolAddr ch (slotAddr ch p)) true = .deny g →
      exec (.tailBufferWriteThrough c) s = .next (errorHalt (poolDenied s (chTag ch) g) c 0x81 p none)) ∧
    (∀ u v d rest, s.th.safe = false → ch.owed = none → settleHead s c = u → (chan u c).fetched = d :: rest →
      ((chan u c).st = .active ∨ (chan u c).st = .stopping) → 0 < d.code → d.code < 0x80 → headComplete (chan u c) d = true →
      slotReady u (chan u c) d.pos = true → ((chan u c).ringPool = false ∧ v = hostTlp (chan u c) false false u (slotAddr (chan u c) d.pos + 0x28) (slotStatus (chan u c) d)) ∨
        writeSlot u (chan u c) d = some v → dFlag d 1 = false →
      let w := if dFlag d 0 then chanSignal v c (chan u c) (descIndex (chan u c) d.pos) false else v
      exec (.descriptorRetire c) s = .next (journalChan (setChan w c (advanceHead (chan w c))) c)) ∧
    (∀ u, settleHead s c = u → (chan u c).st = .pausing → (chan u c).fetched = [] → (chan u c).stopReq = false →
      exec (.paused c) s = .next (journalChan (setChan u c { dropFetched (chan u c) with st := .paused }) c)) ∧
    (∀ u, settleHead s c = u → (chan u c).st = .pausing → (chan u c).fetched = [] → (chan u c).stopReq = true →
      exec (.paused c) s = .next (journalChan (setChan u c (haltChan (chan u c) 5)) c))) ∧
  (∀ (s : State) (c : Nat),
    let ch := chan s c
    (∀ j d v, nextDesc ch.fetched 0 = some (j, d) → mayIssue s ch j d = true → d.started = true → d.code = 0 →
      d.issued < d.length → readAhead s (c % 16) + (nextBeat s ch d).2 ≤ 32768 →
      (tagSc (chTag ch) = 0 ∧ v = s) ∨ serve s (8 + c % 16) { tag := chTag ch, len := (nextBeat s ch d).2 } (readyBeats s c) = some v →
      (∀ u, issueBeat s c j d = some u → exec (.beatIssue c) s = .next { settleHead u c with sc := v.sc }) ∧
      (∀ i, dSrc d = 3 → d.item = some i →
        let b : Beat := {
          off := (nextBeat s ch d).1, len := (nextBeat s ch d).2, st := .arrived,
          parts := [(0, (slice i.bytes (nextBeat s ch d).1 (nextBeat s ch d).2, i.poison))] }
        exec (.beatIssue c) s = .next { settleHead (setDesc s c j { d with
          issued := d.issued + b.len, beats := d.beats ++ [b] }) c with sc := v.sc })) ∧
    (∀ k j i d b t a x, s.th.safe = false → (beatsIn ch (fun b => b.st == .waiting || b.st == .arrived))[k]? = some (j, i) →
      ch.fetched[j]? = some d → d.beats[i]? = some b → b.st = .waiting → b.tag = some t →
      Tab.find (port s ch.port).active t = some a → a.got + x.length = b.len →
      exec (.beatComplete c k (.data x false)) s = .next (settleHead (tryDeliver
        (pieceArrived (giveTag s ch.port t) c j i d b a.got x false true) c j i) c)) ∧
    (∀ pos addr len, portSends s ch.port = true → (port s ch.port).active.length < tagSpace s ch.port / 2 →
      (port s ch.port).fresh < tagSpace s ch.port → ∃ u, sendRead s c ch pos addr len = some ((port s ch.port).fresh, u)) ∧
    (∀ k j i d b n u, (beatsIn ch (fun b => b.st == .retry))[k]? = some (j, i) → ch.fetched[j]? = some d →
      d.beats[i]? = some b → chanRuns s ch = true → ch.st = .active →
      sendRead (passTo s b.due) c ch d.pos (dSrcA d + b.off) b.len = some (n, u) →
      exec (.retry c k) s = .next (setDesc (count u Reg.shRetryCnt) c j
        { d with beats := d.beats.set i { b with st := .waiting, tag := some n } })))

/-- R190, R201, R203: a doorbell of the owner that does not go back and does not overfill the ring sets TAIL and wakes an IDLE
channel, any other is ignored and counted; PAUSE of an IDLE channel takes effect at once; RESUME of a PAUSED channel lets it run
from HEAD; SKIP of a HALTED channel moves HEAD past the descriptor. R193: a beat of a host source stays within the maximum read
request size and a 4 KB block; a beat of another source stays within a line; the beats of a descriptor never go beyond its length.
-/
def Obligations.ChannelRules : Prop :=
  (∀ (s : State) (c : Nat) (t : BitVec 32),
    let ch := chan s c
    (ch.st ≠ .free → ch.engineProd = false → ch.system = false → (t - ch.head).toNat ≤ 2 ^ ch.log2 →
      (ch.tail - ch.head).toNat ≤ (t - ch.head).toNat →
      doorbell s ch.ctx c t =
        setChan s c { ch with tail := t, st := if ch.st = .idle ∧ ch.head ≠ t then .active else ch.st }) ∧
    (ch.st = .free ∨ ch.engineProd = true ∨ ch.system = true ∨ 2 ^ ch.log2 < (t - ch.head).toNat ∨ (t - ch.head).toNat < (ch.tail - ch.head).toNat →
      doorbell s ch.ctx c t = raiseLimited (count s Reg.shBadDb) Src.shDoorbell ch.ctx
        { tag := some (mkTag ch.ctx 1), object := 4, index := c }) ∧
    (ch.st = .idle → ch.system = false →
      pauseWrite s c = journalChan (setChan s c { ch with ownerPause := true, st := .paused }) c) ∧
    (ch.st = .paused → ch.freezePause = false → s.th.safe = false →
      resumeWrite s c = setChan s c { ch with
        ownerPause := false, st := if ch.head = ch.tail then .idle else .active, stopReq := false }) ∧
    (ch.st = .halted → ch.freezePause = false → s.th.safe = false → ch.head ≠ ch.tail →
      chan (skipWrite s c) c = { ch with
        head := ch.head + 1, progress := 0, kept := passKept ch, fetched := [], ownerPause := false,
        st := if ch.head + 1 = ch.tail then .idle else .active, stopReq := false }) ∧
    (advanceHead ch).head = ch.head + 1 ∧
    (ch.st ≠ .stopping → (advanceHead ch).progress = 0 ∧ (advanceHead ch).fetched = ch.fetched.drop 1)) ∧
  (∀ (s : State) (ch : Chan) (d : Desc), d.issued < d.length →
    let (off, n) := nextBeat s ch d
    off + n ≤ d.length ∧
    (d.descending = false → off = d.issued ∧
      (dSrc d = 0 → n ≤ maxReadReq s ch.port ∧ (dSrcA d + off) % 4096 + n ≤ 4096) ∧
      (dSrc d ≠ 0 → (dSrcA d + off) % 64 + n ≤ 64 ∧ 0 < n)) ∧
    (d.descending = true → 0 < n ∧ n ≤ 64 ∧ off + n + d.issued = d.length))

/-! The network (chapter 08) -/

/-- ETH_ARRANGE, WEFT_LISTEN, WEFT_UNLISTEN, WEFT_CONNECT, WEFT_CLOSE, WEFT_MOVE and WEFT_LIMIT with arguments that no rule refuses
have their effect and answer OK (Table 08-13, R216, R218, R219). -/
def Obligations.NetworkCommands : Prop :=
  ∀ (r s : State) (src c : Nat), Rings r src s →
    let x := conn s c
    (∀ a, Served s src 0x1F → a ≤ 3 → s.wt.conns.any (fun e => e.2.st != .free && e.2.st != .closed) = false →
      keepBusy s = false →
      exec (.ethArrange src a) r = .next (tickRest src (answered s src 0x1F [] (fun u =>
        keepWrite (applyArrangement u a) Keep.ethArrange (BitVec.ofNat 64 a))))) ∧
    (∀ (a : ListenArgs) n, Served s src 0x20 → Live s a.ctx → a.service ≤ 65535 → maskOk s a.portMask = true → 1 ≤ a.cls →
      a.cls ≤ 3 → ownsQueue s a.ctx a.rxQ = true → ownsQueue s a.ctx a.reportQ = true → 8 ≤ a.payloadLog2 →
      a.payloadLog2 ≤ 13 → grantLogOf a.grantLog2 ≤ 15 → oneOf s 0 (Tab.freeKeys s.wt.listeners 0 256) = some n →
      s.wt.listeners.any (fun e => e.2.service == a.service && (e.2.portMask &&& a.portMask) != 0) = false →
      exec (.weftListen src a) r = .next (tickRest src (answered s src 0x20 [(1, n)] (fun u => useFree
        { u with wt := { u.wt with listeners := Tab.put u.wt.listeners n {
          ctx := a.ctx, service := a.service, portMask := a.portMask, cls := a.cls, rxQ := a.rxQ, reportQ := a.reportQ,
          plog := a.payloadLog2, grantLog := grantLogOf a.grantLog2 } } })))) ∧
    (∀ n l, Served s src 0x21 → Tab.find s.wt.listeners n = some l → Live s l.ctx →
      exec (.weftUnlisten src n) r = .next (tickRest src (answered s src 0x21 [] (fun u =>
        { u with wt := { u.wt with listeners := Tab.del u.wt.listeners n } })))) ∧
    (∀ (a : ConnectArgs) n k, Served s src 0x22 → Live s a.ctx → a.port < etPorts s.et.arrangement → a.service ≤ 65535 →
      1 ≤ a.cls → a.cls ≤ 3 → ownsQueue s a.ctx a.rxQ = true → ownsQueue s a.ctx a.reportQ = true → 8 ≤ a.payloadLog2 →
      a.payloadLog2 ≤ 13 → grantLogOf a.grantLog2 ≤ 15 → a.peer.prio ≤ 7 → a.peer.dscp ≤ 63 → a.peer.vlan.getD 0 ≤ 4095 →
      fullFrame a.peer a.payloadLog2 ≤ fld (regNat s (Reg.etMaxFrame a.port)) 0 14 →
      lowestInHalf s s.wt.conns 32768 65536 = some n → connRoom s a.ctx = true → peerFor s a.peer = some k →
      exec (.weftConnect src a) r = .next (tickRest src (answered s src 0x22 [(2, n)] (fun u =>
        let v := usePeer u k a.peer
        journalConn (sendConnect (setConn (useFree (useFree v)) n (connecting v a k)) n) n)))) ∧
    (Served s src 0x23 → x.st ≠ .free → x.st ≠ .closed → Live s x.ctx →
      exec (.weftClose src c) r = .next (tickRest src (answered s src 0x23 [] (fun u => startClose u c CloseReason.loc)))) ∧
    (∀ port mac vlan e k, Served s src 0x24 → x.st = .opened → Live s x.ctx → port < etPorts s.et.arrangement →
      vlan.getD 0 ≤ 4095 → peer? s x.peer = some e → peerFor (dropPeer s x.peer) ⟨e.ip, mac, vlan, e.prio, e.dscp⟩ = some k →
      exec (.weftMove src c port mac vlan) r = .next (tickRest src (answered s src 0x24 [] (fun u => journalConn (setConn
        (usePeer (dropPeer u x.peer) k ⟨e.ip, mac, vlan, e.prio, e.dscp⟩) c { x with port := port, peer := k }) c)))) ∧
    (∀ tid n, Served s src 0x25 → tid < mgt → Live s tid → n ≤ 65536 →
      exec (.weftLimit src tid n) r = .next (tickRest src (answered s src 0x25 [] (fun u =>
        journalObject (setTenant u tid { tenant u tid with contexts := n }) tid 1 tid))))

/-- R211 to R213, R237: FRAME_RECEIVE, FRAME_TRANSMIT, ET_LINK, ET_TX_TS_ID and PAUSE_QUANTA_EXPIRY: a received frame is counted and
classified; a frame item of the management engine leaves its port; a link change, a timestamp read and the end of a pause take
effect. -/
def Obligations.FrameSteps : Prop :=
  ∀ (s : State) (p : Nat),
    (∀ f : EthFrame, (etPort s f.port).link = true → s.th.safe = false → f.fcsOk = false →
      exec (.frameReceive f) s = .next (portViolation (count s (Reg.etRxFrames f.port)) f.port (Reg.etFcsErr f.port))) ∧
    (∀ f : EthFrame, (etPort s f.port).link = true → s.th.safe = false → f.fcsOk = true →
      exec (.frameReceive f) s = classify s f) ∧
    (∀ f : EthFrame, (etPort s f.port).link = true → s.th.safe = false → f.fcsOk = true →
      f.bytes.length + 4 ≤ fld (regNat s (Reg.etMaxFrame f.port)) 0 14 → (parseFrame f.bytes).tags ≠ 2 →
      (parseFrame f.bytes).fragment = false → (parseFrame f.bytes).etherType = 0x8808 →
      exec (.frameReceive f) s =
        .next (takePause (count s (Reg.etRxFrames f.port)) f.port f.bytes (parseFrame f.bytes))) ∧
    (∀ x i b, queue? s s.et.queue = some x → headItem x = some i → x.ctx = mgt → s.th.safe = false → i.poison = false →
      16 ≤ i.bytes.length → i.bytes.length = 16 + leAt i.bytes 2 2 → p = leAt i.bytes 0 1 % 16 →
      b = slice i.bytes 16 (leAt i.bytes 2 2) → (etPort s p).link = true →
      prioPaused s p (parseFrame b).prio = false →
      let u := count (emit (unlinkItem s s.et.queue x i 0) (.frame p b)) (Reg.etTxFrames p)
      exec (.frameTransmit p) s = .next (if bit (leAt i.bytes 0 1) 5 then recordStamp u p b else u)) ∧
    (∀ up, p < etPorts s.et.arrangement → (etPort s p).link ≠ up → s.et.applied = true →
      (up = true → s.th.safe = false ∧ anyTest s (portLanes s p).1 (portLanes s p).2 = false) →
      exec (.etLink p up) s = .next (linkChange s p up)) ∧
    exec (.etTxTsId p) s = .next (setEtPort s p { etPort s p with txTs := (etPort s p).txTs.drop 1 }) ∧
    (∀ prio, prio ∈ (etPort s p).paused →
      exec (.pauseQuantaExpiry p prio) s = .next (releaseFrames (setEtPort s p { etPort s p with
        paused := (etPort s p).paused.filter (fun q => q != prio) }) p))

/-- R222, R225, R228, R236: a data packet of the peer, inside the window, not a duplicate and within the credit, is accepted; a held
packet that its target takes is acknowledged. R228, R230: HELD_PACKET_DELIVERY: a held WRITE packet is delivered when its target
takes it, and acknowledged; the item of a held SEND message links when its queue takes it. -/
def Obligations.DataPackets : Prop :=
  (∀ (s : State) (w : WeftPacket) (kind : Nat) (i : Instr),
    (i, kind) ∈ [(Instr.send w, 1), (.write w, 2), (.reduce w, 3)] →
    let p := parseWeft w
    let x := conn s p.dst
    let u := count s (Reg.etRxFrames w.port)
    ForConn s w kind → dataShape x.plog p = true → lineShape p = true →
    (psnDiff p.psn x.expPsn < 64 → psnDiff p.psn x.expPsn < wtWindow s → wtWindow s ≤ 2 ^ 22 →
      (∀ k ∈ x.rxPkts, k.psn ≠ p.psn) → units p.payload.length ≤ (x.rxLimit - x.rxCount).toNat →
      exec i s = .next (acceptData u p x)) ∧
    (wtWindow s ≤ 2 ^ 22 → 2 ^ 24 - wtWindow s ≤ psnDiff p.psn x.expPsn →
      exec i s = .next (sendAck (count u Reg.wtDup) p.dst false)) ∧
    (wtWindow s ≤ psnDiff p.psn x.expPsn → psnDiff p.psn x.expPsn < 2 ^ 24 - wtWindow s →
      exec i s = .next (violation u p.dst Reg.wtOow))) ∧
  (∀ (s : State) (c : Nat) (k : RxPkt) (m : RxMsg),
    let x := conn s c
    s.th.safe = false → x.rxPkts.find? (fun p => p.psn.toNat == k.psn.toNat && !p.delivered) = some k →
    x.rxMsgs.find? (fun n => n.num == k.msg) = some m →
    let done (u : State) : State :=
      if (conn u c).rxPkts.any (fun j => j.psn == k.psn && !j.delivered) then u else sendAck (journalConn u c) c false
    (m.kind = WType.send → exec (.heldPacketDelivery c k.psn.toNat) s = .next (done (advanceMsgs c 66 s))) ∧
    (∀ t, m.kind = WType.write → takeWrite s x m k.off (Tab.get [] m.parts k.off) k.poison = .took t →
      exec (.heldPacketDelivery c k.psn.toNat) s = .next (done (advanceMsgs c 66 (markDelivered t c k.psn)))))

/-- R216, R218, R224, R226, R227, R234: a control packet of the peer has its effect on the context: ACK, NAK, CREDRET, CONNECT,
ACCEPT, REJECT, CLOSE and CLOSE_ACK. -/
def Obligations.ControlPackets : Prop :=
  ∀ (s : State) (w : WeftPacket),
    let p := parseWeft w
    let x := conn s p.dst
    let u := count s (Reg.etRxFrames w.port)
    let asked : Prop := Arrives s w 7 ∧ acceptedBefore s p = none ∧ reservedSet p w.bytes = false ∧ 8 ≤ fld p.w0 16 4 ∧
      fld p.w0 16 4 ≤ 13
    (ForConn s w 4 → exec (.ack w) s = .next (takeAck u p x)) ∧
    (Arrives s w 5 → nakNoConnOk s x p = true → exec (.nak w) s =
      .next (enterClosed (failMsg u p.dst (BitVec.ofNat 16 p.w1) 1 p.w2) p.dst CloseReason.peer)) ∧
    (Arrives s w 5 → nakNoConnOk s x p = false → nakOk s x p = true → fld p.w0 24 8 = 2 →
      exec (.nak w) s = .next (trySendClose (failMsg (journalConn u p.dst) p.dst (BitVec.ofNat 16 p.w1) 2 p.w2) p.dst)) ∧
    (∀ l, ForConn s w 6 → x.reclaim = some l →
      exec (.credret w) s = .next (journalConn (setConn u p.dst { x with
        rxLimit := serialMax l (BitVec.ofNat 32 p.w0), reclaim := none, reclaimDue := none }) p.dst)) ∧
    (∀ li l c n, asked → listenerOf s p.port (fld p.w0 0 16) = some (li, l) →
      lowestInHalf s s.wt.conns 32768 65536 = some c → peerFor s (sourceAddr p) = some n → connRoom s l.ctx = true →
      exec (.connect w) s = .next (acceptConn u p c n li l)) ∧
    (asked → listenerOf s p.port (fld p.w0 0 16) = none →
      exec (.connect w) s = .next (rejectTo (portViolation u p.port Reg.wtReject) p 2)) ∧
    (Arrives s w 8 → answersConnect s x p = true → p.tag = x.localTag →
      exec (.accept w) s = .next (report (journalConn (setConn u p.dst { x with
        st := .opened, peerConn := p.src, peerTag := BitVec.ofNat 32 p.w1, expPsn := BitVec.ofNat 24 p.w2,
        plog := min x.plog (fld p.w0 16 4), connectDue := none, lastData := s.now }) p.dst) p.dst 1 0 0 0 0)) ∧
    (Arrives s w 9 → answersConnect s x p = true → p.tag = x.localTag →
      exec (.reject w) s = .next (enterClosed (report u p.dst 3 (fld p.w0 16 8) 0 0 0) p.dst CloseReason.peer)) ∧
    (ForConn s w 10 → exec (.close w) s =
      .next (enterClosed (sendControl u p.dst WType.closeAck 0 (words 0 0 0 0)) p.dst CloseReason.peer)) ∧
    (ForConn s w 11 → x.closeSent = true → exec (.closeAck w) s = .next (enterClosed u p.dst x.closeReason))

/-- R225, R227, R229, R235: PACKET_TRANSMIT, RETRANSMISSION_TIMEOUT and RATE_STEP: a packet is sent for the first time, in order,
within the window, or again; a silent packet goes again with RTO doubled, and after RETRY_MAX silences the connection gives up.
R216, R218, R221, R224, R226, R228: CREDIT_GRANT, IDLE_RECLAIM, RECLAIM_REPEAT, ACK_TIMER, HELD_ACK_TIMER, CONNECT_RETRY,
CLOSING_TIMEOUT and CLOSED_HOLD_EXPIRY: credit is granted as there is room; the timers of a context act when they expire. -/
def Obligations.TransmissionAndTimers : Prop :=
  (∀ (s : State) (c : Nat),
    let x := conn s c
    let may : Prop := (x.st = .opened ∨ x.st = .closing) ∧ s.th.safe = false ∧ (etPort s x.port).link = true ∧
      txPaused s x = false
    (∀ k, may → x.txPkts.find? (fun k => k.again) = some k → exec (.packetTransmit c) s = .next (resend s c k.psn)) ∧
    (∀ m, may → x.txPkts.find? (fun k => k.again) = none → nextMsg x = some m → ctxMode s x.ctx = .running →
      x.txPkts.length < wtWindow s →
      exec (.packetTransmit c) s = .next (journalConn (setConn (emitData s c x m m.sent x.nextPsn) c { x with
        nextPsn := x.nextPsn + 1,
        txPkts := x.txPkts ++ [{ psn := x.nextPsn, msg := m.num, idx := m.sent, sentAt := s.now, due := some (s.now + us x.rto) }],
        txMsgs := x.txMsgs.map (fun n => if n.num = m.num then { n with sent := n.sent + 1 } else n) }) c)) ∧
    (∀ k d, s.th.safe = false → x.txPkts.find? (fun j => j.psn.toNat == k.psn.toNat) = some k → k.due = some d →
      wtRetryMax s ≤ x.timeouts →
      exec (.retransmissionTimeout c k.psn.toNat) s = .next (giveUp (passTo s d) c CloseReason.timeout)) ∧
    (∀ k d, s.th.safe = false → x.txPkts = [k] → k.due = some d → x.timeouts < wtRetryMax s →
      let u := passTo s d
      let rto := min 1000 (2 * x.rto)
      let v := setConn u c { x with
        timeouts := x.timeouts + 1, rto := rto,
        txPkts := [{ k with due := some (us rto + u.now), again := k.again || decide (d ≤ u.now) }] }
      exec (.retransmissionTimeout c k.psn.toNat) s = .next (if txPaused v x then v else resend v c k.psn)) ∧
    ((x.st = .opened ∨ x.st = .closing) → x.rate < lineRate s →
      exec (.rateStep c) s = .next (setConn (passTo s x.rateDue) c { x with
        rate := min (lineRate s) (x.rate + wtRateStep s), rateDue := (passTo s x.rateDue).now + us 10 }))) ∧
  (∀ (s : State) (c : Nat),
    let x := conn s c
    let live : Prop := (x.st = .opened ∨ x.st = .closing) ∧ s.th.safe = false
    (grants s x = true → 0 < grantWant s x →
      grantWant s x + ((wanting s c x).map (fun e => e.2.1)).sum ≤ asideLeft s x.port →
      exec (.creditGrant c) s = .next (sendAck (journalConn (raiseLimit s c (grantWant s x)) c) c false)) ∧
    (live → x.rxLimit ≠ x.rxCount → x.reclaim = none → overQuota s x = false →
      let u := passTo s (x.lastData + us (wtIdle s))
      exec (.idleReclaim c) s = .next (sendAck
        (setConn u c { x with reclaim := some x.rxCount, reclaimDue := some (u.now + us x.rto) }) c true)) ∧
    (∀ d, live → x.reclaimDue = some d →
      exec (.reclaimRepeat c) s = .next (sendAck
        (setConn (passTo s d) c { x with reclaimDue := some ((passTo s d).now + us x.rto) }) c true)) ∧
    (∀ d, live → x.ackDue = some d → exec (.ackTimer c) s = .next (sendAck (passTo s d) c false)) ∧
    (∀ d, live → x.heldDue = some d → heldNext x = true →
      exec (.heldAckTimer c) s = .next (sendAck
        (setConn (passTo s d) c { x with heldDue := some ((passTo s d).now + us (wtRtoMin s)) }) c false)) ∧
    (∀ d, s.th.safe = false → x.connectDue = some d → x.tries < 8 →
      exec (.connectRetry c) s = .next (sendConnect (setConn (passTo s d) c { x with
        tries := x.tries + 1, connectDue := some ((passTo s d).now + us 100) }) c)) ∧
    (∀ d, s.th.safe = false → x.connectDue = some d → 8 ≤ x.tries →
      exec (.connectRetry c) s = .next (enterClosed (passTo s d) c CloseReason.timeout)) ∧
    (∀ d, x.closeDue = some d →
      exec (.closingTimeout c) s = .next (enterClosed (passTo s d) c x.closeReason)) ∧
    (x.st = .closed →
      exec (.closedHoldExpiry c) s = .next (setConn (dropPeer (passTo s (x.closedAt + ms 10)) x.peer) c {})))

/-- Table 08-5, R214: every packet ends with its CRC-32C, so that a receiver finds it good; the header gives version, TYPE, target
and PSN. -/
def Obligations.PacketFormat : Prop :=
  ∀ (w : WeftPacket) (kind flags dst psn tag src : Nat) (part payload : Bytes),
    kind < 16 → flags < 256 → dst < 65536 → psn < 2 ^ 24 → tag < 2 ^ 32 → src < 65536 → part.length = 16 →
    payload.length < 65536 → w.bytes = weftBytes kind flags dst psn tag src part payload →
    let p := parseWeft w
    crcGood w.bytes = true ∧ p.kind = kind ∧ p.flags = flags ∧ p.dst = dst ∧ p.psn.toNat = psn ∧ p.tag.toNat = tag ∧
      p.src = src ∧ p.payload = payload ∧ w.bytes.length = 36 + payload.length

/-! Service classes (chapter 09) -/

/-- SC_ADMIT, SC_SHARE and SC_CLASS_WEIGHTS wait for the next scheduling epoch and answer OK (Table 09-4, R254); the epoch applies
the waiting changes in order at the next multiple of 1,600 cycles (SCHEDULING_EPOCH); CLEAR_MAX zeroes the port's SC_LAT_MAX. R245,
R246: a bucket never holds more than DEPTH; a request that finds its bytes, of a function whose RATE is not 0, is SC0 and is
charged; any other is demoted to SC1 and takes nothing. -/
def Obligations.ServiceClasses : Prop :=
  ((∀ (r s : State) (src : Nat), Rings r src s →
    (∀ p f rate depth, Served s src 0x26 → p < 8 → f < 256 → fnBound s p f = true → 64 ≤ depth → depth ≤ 4096 →
      rateSumAfter s p - rateAfter s p f + rate ≤ rateLimit s p →
      exec (.scAdmit src p f rate depth) r = .next (tickRest src (answered s src 0x26 [] (fun u =>
        { u with epochs := u.epochs ++ [.setBucket p f rate depth] })))) ∧
    (∀ tid w, Served s src 0x27 → tid < mgt → Live s tid → 1 ≤ w → w ≤ 255 →
      exec (.scShare src tid w) r = .next (tickRest src (answered s src 0x27 [] (fun u => { u with epochs := u.epochs ++ [.share tid w] })))) ∧
    (∀ a b c, Served s src 0x28 → 1 ≤ a → a ≤ 255 → 1 ≤ b → b ≤ 255 → 1 ≤ c → c ≤ 255 →
      exec (.scClassWeights src a b c) r = .next (tickRest src (answered s src 0x28 [] (fun u =>
        { u with epochs := u.epochs ++ [.classWeights a b c] }))))) ∧
  (∀ v : State,
    (let u := passCycles v (1600 - v.cycle % 1600)
     exec .schedulingEpoch v = .next (u.epochs.foldl applyChange { u with epochs := [] }) ∧ u.cycle % 1600 = 0 ∧
        v.cycle < u.cycle ∧ u.cycle ≤ v.cycle + 1600) ∧
    (∀ p, p < 8 → exec (.clearMax p) v = .next (regSet v (Reg.scLatMax p) 0)))) ∧
  (∀ (s : State) (p f len : Nat),
    let b := creditBucket s.cycle (bucket s p f)
    let r := admitBytes s p f len
    b.tokens ≤ 64 * (bucket s p f).depth ∧
    (b.rate ≠ 0 → 64 * len ≤ b.tokens →
      r.1 = 0 ∧ (bucket r.2 p f).tokens = b.tokens - 64 * len ∧ (bucket r.2 p f).demoted = b.demoted) ∧
    (b.rate = 0 ∨ b.tokens < 64 * len →
      r.1 = 1 ∧ (bucket r.2 p f).tokens = b.tokens ∧ (bucket r.2 p f).demoted = min (b.demoted + 1) (2 ^ 32 - 1)) ∧
    (∀ q g, fnKey q g ≠ fnKey p f → bucket r.2 q g = bucket s q g))

/-! Host ports, functions and tenants (chapters 10, 11 and 17) -/

/-- R272, R278, R295, R423, R426, R431: a served memory request has its effect (MEMORY_READ, MEMORY_WRITE, REGISTER_WRITE): a read
through a window, a register or a table entry answers with data, a write through a window stores its bytes, a register or a table
entry takes it. R261, R275, R286, R291, R307: the Expansion ROM and the configuration space answer (EXPANSION_ROM_READ,
CONFIGURATION_REQUEST). -/
def Obligations.MemoryAndConfiguration : Prop :=
  (∀ (s : State),
    (∀ (r : MemRead) ups lat, r.bar = 2 → r.kind = .memoryRead → gate s r.port r.fn 2 r.offset r.length false = .serve →
      exec (.memoryRead r ups lat) s = .next (readWindow s (disturb (leaveL1 s r.port) ups) (readReq r) lat)) ∧
    (∀ (r : MemRead) ups k w x c a key, r.bar = 2 → r.kind = .memoryRead →
      gate s r.port r.fn 2 r.offset r.length false = .serve → wClass w.live = c → c ≠ 0 →
      let u := disturb (leaveL1 s r.port) ups
      let tag := mkTag w.ctx c
      windowAt u r.port r.fn r.offset = some (k, w, x) → windowAllows w x r.length false = true →
      windowCheck u w tag x false = .allow a key →
      let v := eccSpan u a r.length tag
      exec (.memoryRead r ups none) s = .next (answerData v (readReq r) (poolBytes v a r.length)
        (fun o n => spanPoison v (a + (o - r.offset)) n))) ∧
    (∀ (r : MemRead) ups lat, r.bar = 4 → r.kind = .memoryRead → gate s r.port r.fn 4 r.offset r.length false = .serve →
      regAccess r.offset r.length = true →
      let u := disturb (leaveL1 s r.port) ups
      exec (.memoryRead r ups lat) s = .next (answerWord u (readReq r)
        (halfOf (readBar4 u r.port r.fn (r.offset / 8 * 8)) r.offset r.length))) ∧
    (∀ (r : MemRead) ups lat t b, r.bar = 0 → r.fn ≠ 0 → r.kind = .memoryRead →
      gate s r.port r.fn 0 r.offset r.length false = .serve → boundTo s r.port r.fn = some (t, b) → r.offset < 0x3000 →
      regAccess r.offset r.length = true → r.offset / 8 * 8 ≠ 0x18 →
      let u := disturb (leaveL1 s r.port) ups
      exec (.memoryRead r ups lat) s = .next (answerWord u (readReq r)
        (halfOf (readVfReg u r.port r.fn t (r.offset / 8 * 8) % 2 ^ 64) r.offset r.length))) ∧
    (∀ (w : MemWrite) k x win off ppa key, w.bar = 2 → w.poisoned = false → w.unsupported = false → postedHeld s w.port = false →
      gate s w.port w.fn 2 w.offset w.bytes.length true = .serve →
      let u := leaveL1 s w.port
      windowAt u w.port w.fn w.offset = some (k, win, off) →
      windowAllows win off w.bytes.length true = true → wKind win.live ≠ 2 → wClass win.live = x → x ≠ 0 →
      windowCheck u win (mkTag win.ctx x) off true = .allow ppa key → writeRoom u ppa w.bytes.length = true →
      exec (.memoryWrite w) s =
        .next (notePort (poolStore u (mkTag win.ctx x) ppa w.bytes false) w.port s.sm.jsnSent)) ∧
    (∀ (w : MemWrite), w.bar = 4 → w.poisoned = false → w.unsupported = false → postedHeld s w.port = false →
      gate s w.port w.fn 4 w.offset w.bytes.length true = .serve → regAccess w.offset w.bytes.length = true →
      exec (.memoryWrite w) s = .next (writeBar4 (leaveL1 s w.port) w.port w.fn w.offset w.bytes)) ∧
    (∀ who off b,
      let q := writeReq { port := who.port, fn := who.fn, bar := 0, offset := off, bytes := b, poisoned := false }
      let u := leaveL1 s who.port
      (who.fn = 0 → Posts s who off b.length → waitsPosted u q mgt = false →
        exec (.registerWrite who off b) s = .next (writePf u q b)) ∧
      (∀ t d, who.fn ≠ 0 → Posts s who off b.length → boundTo s who.port who.fn = some (t, d) →
        off < 0x3000 ∨ 0x4000 ≤ off → waitsPosted u q t = false →
        exec (.registerWrite who off b) s = .next (writeVf u q t b)))) ∧
  (∀ (s : State) (who : FnRef) (off : Nat),
    let u := leaveL1 s who.port
    let here : Prop := who.port < 8 ∧ (port s who.port).link = true ∧ mergedUpper s who.port = false ∧
      (who.fn = 0 ∨ (vfPresented s who.port who.fn = true ∧ who.fn < 256)) ∧ off % 4 = 0 ∧ off < 4096
    let ready : Prop := s.pw.clkPll = true ∧ inFlr s who.port who.fn = false
    (∀ p n, gate s p 0 6 off n false = .serve → romPlace s p = none →
      exec (.expansionRomRead p off n) s = .next (answerData (leaveL1 s p)
        { port := p, fn := 0, bar := 6, offset := off, length := n, write := false } (romBytes (leaveL1 s p) p off n)
        (fun _ _ => false))) ∧
    (here → ¬ready → ∀ w, exec (.configurationRequest who off w) s =
      .next (emit (transmit u who.port 0) (.cplRetry who.port who.fn))) ∧
    (here → ready → exec (.configurationRequest who off none) s = .next (emit (transmit u who.port 4)
      (.cplData who.port who.fn 4 (off % 128) (toLe 4 (readCfg u who.port who.fn off)) false false (idoCompletion u who.port)))) ∧
    (∀ w, here → ready →
      let v := if who.fn = 0 then writePfCfg u who.port off w.toNat else writeOwnCfg u who.port who.fn off w.toNat
      exec (.configurationRequest who off (some w)) s =
        .next (emit (transmit v who.port 0) (.cplStatus who.port who.fn .sc false (idoCompletion v who.port)))))

/-- Table 10-8, R264, R279, R305, Table 13-4: the requests that are not served, each with its answer. -/
def Obligations.RequestGate : Prop :=
  ∀ (s : State) (p f bar off n : Nat) (wr : Bool),
    let there : Prop := p < 8 ∧ (port s p).link = true ∧ mergedUpper s p = false ∧ (f = 0 ∨ vfPresented s p f = true) ∧ f < 256 ∧
      0 < n ∧ off + n ≤ barSize s p f bar
    let formed : Prop := off % 4096 + n ≤ 4096 ∧ (wr = true → n ≤ maxPayload s p)
    (there → 4096 < off % 4096 + n → gate s p f bar off n wr = .malformed) ∧
    (there → formed → (port s p).d3 = true → gate s p f bar off n wr = .unsupported false) ∧
    (there → formed → (port s p).d3 = false → (port s p).step = .none → s.th.safe = true →
      safeServed s p f bar off wr = false → gate s p f bar off n wr = .abort) ∧
    (there → formed → (port s p).d3 = false → (port s p).step = .none → s.th.safe = false → f ≠ 0 → boundTo s p f = none →
      gate s p f bar off n wr = .unsupported false) ∧
    (∀ t b, there → formed → (port s p).d3 = false → (port s p).step = .none → s.th.safe = false → f ≠ 0 →
      boundTo s p f = some (t, b) → inFlr s p f = false → bar ≠ 0 → ctxMode s t = .frozen →
      gate s p f bar off n wr = .unsupported true) ∧
    (there → formed → (port s p).d3 = false → (port s p).step = .none → s.th.safe = false → f = 0 →
      gate s p f bar off n wr = .serve) ∧
    (there → ∀ q : Req, q.port = p → q.fn = f → q.foreign = true → gateOf s q = .unsupported false)

/-- R269, R271, R272, R276: COMPLETION, COMPLETION_TIMEOUT, QUARANTINE_END and HP_LATE_LOG: a completion that matches an active tag
completes its beat; one for a quarantined tag is late, another unexpected; a silent request times out; a quarantine ends. R269: a
tag is given while fewer than half of the tags are active, and never one that is active or in quarantine. -/
def Obligations.CompletionsAndTags : Prop :=
  (∀ (s : State) (p fn t : Nat),
    let h := port s p
    (∀ a st bc la b, h.link = true → Tab.find h.active t = some a →
      exec (.completion p fn t ⟨st, bc, la⟩ b false) s = .next (takeCompletion s p t a st bc la b false)) ∧
    (∀ st bc la b poison e, h.link = true → Tab.find h.active t = none → Tab.find h.quarantine t = some e →
      h.lateLog.length < 16 →
      exec (.completion p fn t ⟨st, bc, la⟩ b poison) s = .next (raiseSrc
        (setPort (count s (Reg.hpLateCpl p)) p { h with lateLog := h.lateLog ++ [(t, e.2)] }) Src.hpLateCpl
        { object := 2, index := e.2 + 256 * p })) ∧
    (∀ st bc la b poison, h.link = true → Tab.find h.active t = none → Tab.find h.quarantine t = none →
      exec (.completion p fn t ⟨st, bc, la⟩ b poison) s = .next (aer (count s (Reg.hpUnexpCpl p)) p fn true aerUnexpCpl)) ∧
    (∀ a n, Tab.find h.active t = some a → cplTimeout s p = some n →
      exec (.completionTimeout p t) s = .next (failBeat (tagTimeout (passTo s (a.sent + n)) p t a.fn) t a)) ∧
    (∀ d f, Tab.find h.quarantine t = some (d, f) →
      exec (.quarantineEnd p t) s = .next (setPort (passTo s d) p { h with
        quarantine := Tab.del h.quarantine t, freed := h.freed ++ [t] })) ∧
    exec (.hpLateLog p) s = .next (setPort s p { h with lateLog := h.lateLog.drop 1 })) ∧
  (∀ (s t : State) (p n : Nat),
    let h := port s p
    (∀ k, k ∈ h.freed → Tab.find h.active k = none ∧ Tab.find h.quarantine k = none ∧ k < h.fresh) →
    (∀ k, h.fresh ≤ k → Tab.find h.active k = none ∧ Tab.find h.quarantine k = none) →
    takeTag s p = some (n, t) →
      n < tagSpace s p ∧ h.active.length < tagSpace s p / 2 ∧ Tab.find h.active n = none ∧ Tab.find h.quarantine n = none ∧
        (port t p).active = h.active)

/-- R262 to R266: POWERSTATE_WRITE, POWERSTATE_STEP_END, L1_IDLE, L0P_NARROW, PARTNER_L1_REQUEST and POSTED_CREDIT: PowerState
changes go through the steps of Table 10-2; L1, L0p and the partner's requests take effect. R260, R261, R265, R267, R268, R279 to
R282: resets, link changes, containment and their commands: PERST_ASSERT, PERST_DEASSERT, HOT_RESET, LINK_UP, LINK_DOWN,
PARTNER_DETECTED, LINK_ERROR, PORT_RELEASE and PORT_MERGE. -/
def Obligations.PortPowerAndResets : Prop :=
  (∀ (s : State) (p : Nat),
    let h := port s p
    (∀ d3, p < 8 → h.step ≠ .none → exec (.powerstateWrite p d3) s = .next (setPort s p { h with latestD3 := d3 })) ∧
    (p < 8 → h.step = .none → h.d3 = false → exec (.powerstateWrite p true) s =
      .next (setPort s p { h with latestD3 := true, startD3 := false, step := .drain, stepDue := s.now + ms 8 })) ∧
    (p < 8 → h.step = .none → h.d3 = true → exec (.powerstateWrite p false) s =
      .next (setPort s p { h with latestD3 := false, startD3 := true, step := .resume, stepDue := s.now + us 10 })) ∧
    (h.step = .drain → h.active = [] → h.latestD3 = true →
      exec (.powerstateStepEnd p) s = .next (setPort s p { h with step := .enter, stepDue := s.now + us 1 })) ∧
    (h.step = .enter → h.latestD3 = true → exec (.powerstateStepEnd p) s = .next (pmSettle s p true)) ∧
    (h.step = .resume → h.latestD3 = false → exec (.powerstateStepEnd p) s =
      .next (pmSettle (sendHeld (setPort s p { h with d3 := false, step := .none }) p) p false)) ∧
    (h.link = true → h.l1 = false → cfgBit s p 0 Cfg.linkCtl 1 = true → fld (regNat s (Reg.hpLinkCfg p)) 3 10 ≠ 0 →
      l1Refused s p = false → exec (.l1Idle p) s = .next (enterL1 s p)) ∧
    (h.link = true → h.flit = true → h.l1 = false → bit (regNat s (Reg.hpLinkCfg p)) 13 = true → 4 ≤ h.l0pWidth →
      exec (.l0pNarrow p) s = .next (setPort s p { h with l0pWidth := h.l0pWidth / 2, txQueued := 0 })) ∧
    (∀ l1, h.link = true → exec (.partnerL1Request p l1 none) s =
      .next (if l1 = true ∧ l1Refused s p = false then enterL1 s p else setPort s p { h with l1 := false })) ∧
    (∀ l1 w, h.link = true → h.flit = true → w ∈ [2, 4, 8, 16] → w ≤ h.width → exec (.partnerL1Request p l1 (some w)) s =
      .next (setPort s p { h with l0pWidth := w, txQueued := 0 })) ∧
    (h.link = true →
      let u := transmit s p (4 * h.creditWait.length)
      exec (.postedCredit p) s = .next (sendHeld
        (emitAll (setPort u p { port u p with creditWait := [] }) (h.creditWait.map (fun f => Output.msix p f 0))) p))) ∧
  (∀ (s : State) (p : Nat),
    let h := port s p
    (p < 8 → mergedUpper s p = false → h.perst = false → h.d3cold = false → h.d3 = false →
      exec (.perstAssert p) s = .next (containPort
        (resetFns (dropLink (setPort s p { h with perst := true }) p) p false) p 2)) ∧
    (mergedUpper s p = false → h.perst = true → h.d3cold = false →
      exec (.perstDeassert p) s = .next (setPort s p { h with perst := false })) ∧
    (mergedUpper s p = false → h.link = true → h.d3 = false →
      exec (.hotReset p) s = .next (containPort (resetFns (dropLink s p) p false) p 3)) ∧
    (∀ speed width flit rev, p < 8 → h.link = false → h.perst = false → h.ltssmHeld = false → mergedUpper s p = false →
      (dom s p).st = .on → 0 < speed → speed ≤ speedCap s p → width ∈ [1, 2, 4, 8, 16] → width ≤ portWidth s p →
      anyTest s (8 * p) (portWidth s p) = false →
      exec (.linkUp p speed width flit rev) s = .next (sendHeld (adaptLanes (setPort s p { h with
        link := true, flit := flit || speed == 6, speed := speed, width := width, l0pWidth := width, l1 := false,
        reversed := rev, d3cold := false, wake := false }) (8 * p) width) p)) ∧
    (h.link = true → h.d3 = false → exec (.linkDown p) s = .next (containPort
      (setPort (dropLink s p) p { port (dropLink s p) p with ltssmHeld := true, inserted := false }) p 4)) ∧
    (h.ltssmHeld = true → h.perst = false → h.inserted = false → mergedUpper s p = false →
      exec (.partnerDetected p) s = .next (raiseSrc (switchOn (setPort s p { h with inserted := true })
        (portDomains s p)) Src.hpInserted { object := 1, index := p })) ∧
    (∀ e, h.link = true → e ≠ .malformedTlp →
      exec (.linkError p e) s = .next (aer s p 0 (linkErrBit e).1 (linkErrBit e).2)) ∧
    (∀ r src, Rings r src s → Served s src 0x29 → p < 8 → h.contained = true → mergedUpper s p = false →
      exec (.portRelease src p) r = .next (tickRest src (answered s src 0x29 [] (fun u =>
        let v := sendHeld (setPort u p { h with contained := false, ltssmHeld := false, inserted := false }) p
        (boundOn v p).foldl uncontain v)))) ∧
    (∀ r src pair on, Rings r src s → Served s src 0x2A → pair < 4 → keepBusy s = false →
      exec (.portMerge src pair on) r = .next (tickRest src (answered s src 0x2A [] (fun u =>
        keepWrite u Keep.portMerge (BitVec.ofNat 64 (putBit (keepNat u Keep.portMerge) pair on)))))))

/-- R296 to R301: WINDOW_ALLOC, WINDOW_FREE, WINDOW_STAGE, WINDOW_TACK and WINDOW_LIMIT with arguments that no rule refuses have
their effect and answer OK; the same BASTING and FN_TACK come through registers; OLD_MAPPING_DRAINED lets the granules of the old
mapping go. -/
def Obligations.WindowCommands : Prop :=
  (∀ (r s : State) (src i : Nat), Rings r src s →
    (∀ ctx p f n, Served s src 0x35 → Live s ctx → p < 8 → fnOwned s ctx p f = true → managerPort s p = true ∨ ctx ≠ mgt →
      mergedUpper s p = false → Tab.lowestFree s.fn.windows 0 16384 = some n → winHeld s ctx < winLimit s ctx →
      let e := BitVec.ofNat 128 (2 ^ 7 * p + 2 ^ 10 * f)
      exec (.windowAlloc src ctx p f) r = .next (tickRest src (answered s src 0x35 [(2, n)] (fun u =>
        setWindow u n { ctx := ctx, port := p, fn := f, live := e, staged := e })))) ∧
    (∀ w, Served s src 0x36 → window? s i = some w → ctxFrozen s w.ctx = false → wValid w.live = false →
      (tack s w.port w.fn).draining = none →
      exec (.windowFree src i) r = .next (tickRest src (answered s src 0x36 [] (fun u =>
        { u with fn := { u.fn with windows := Tab.del u.fn.windows i } })))) ∧
    (∀ w e, Served s src 0x37 → fld e.toNat 54 10 = 0 → fld e.toNat 88 40 = 0 → window? s i = some w → ctxFrozen s w.ctx = false → (tack s w.port w.fn).held = false →
      exec (.windowStage src i e) r = .next (tickRest src (answered s src 0x37 [] (fun u => setWindow u i
        (stageHalf (stageHalf w false (fld e.toNat 0 64)) true (fld e.toNat 64 64)))))) ∧
    (∀ p f, Served s src 0x38 → p < 8 → f < 256 → mergedUpper s p = false → boundTo s p f = none → (tack s p f).held = false →
      (tack s p f).draining = none → (tack (applyTack (accepted s src) p f) p f).last = 0 →
      exec (.windowTack src p f) r = .next (tickRest src (answered s src 0x38 [] (fun u => applyTack u p f)))) ∧
    (∀ tid n, Served s src 0x39 → tid < mgt → Live s tid → n ≤ 16384 →
      exec (.windowLimit src tid n) r = .next (tickRest src (answered s src 0x39 [] (fun u =>
        journalObject (setTenant u tid { tenant u tid with windows := n }) tid 1 tid))))) ∧
  (∀ s : State,
    (∀ p half v w, managerPort s p = true → window? s (regNat s Reg.fnWinSel) = some w → (tack s w.port w.fn).held = false →
      exec (.basting p half v) s = .next (setWindow s (regNat s Reg.fnWinSel) (stageHalf w half v.toNat))) ∧
    (∀ p (v : Word), managerPort s p = true → postedAhead s p = false → (tack s (fld v.toNat 0 3) (fld v.toNat 3 8)).held = false →
      (tack s (fld v.toNat 0 3) (fld v.toNat 3 8)).draining = none →
      exec (.fnTack p v) s = .next (applyTack s (fld v.toNat 0 3) (fld v.toNat 3 8))) ∧
    (∀ p f l, (tack s p f).draining = some l → (tack s p f).waits.any (fun k => s.ru.waiting.contains k) = false →
      let u := setTack (l.foldl (addRef false) s) p f { tack s p f with draining := none, waits := [], held := false }
      exec (.oldMappingDrained p f) s = .next (if (tack s p f).held then applyTack u p f else u)))

/-- R297: a tack makes every staged window of its function live at once, or none of them. -/
def Obligations.TackIsAtomic : Prop :=
  ∀ (s : State) (p f i : Nat) (w : Window), window? s i = some w → w.port = p → w.fn = f → Tab.sorted s.fn.windows = true →
    let u := applyTack s p f
    ((tack u p f).last = 0 → ∃ x, window? u i = some x ∧ x.stagedFlag = false ∧
      x.live = (if w.stagedFlag then w.staged else w.live)) ∧
    ((tack u p f).last ≠ 0 → window? u i = some w ∧ s.mp = u.mp)

/-- R307 to R310, R318: function-level resets, VF Enable and the notices: INITIATE_FLR, PF_FLR, FLR_COMPLETE, VF_ENABLE_CLEAR and
NOTICE_PUSH. -/
def Obligations.FunctionResets : Prop :=
  ∀ (s : State) (p f tid : Nat),
    (0 < f → f < 256 → vfPresented s p f = true → boundTo s p f = none →
      exec (.initiateFlr p f) s = .next (resetFn (refillBucket s p f) (p, f))) ∧
    (∀ b, 0 < f → f < 256 → vfPresented s p f = true → boundTo s p f = some (tid, b) →
      exec (.initiateFlr p f) s = .next (startFlr s tid (p, f))) ∧
    (p < 8 → mergedUpper s p = false →
      let w := setMbox s p { mbox s p with ready := false, rsp := [] }
      let v := (pfChans w p).foldl flrChannel (retireTags (refillBucket w p 0) p (fun a => a.fn == 0) false)
      let u := setPort v p { port v p with flr := true }
      let vfs := (boundOn u p).flatMap (fun t =>
        ((tenant u t).binds.filter (fun b => b.port == p && vfPresented u p b.vf)).map (fun b => (t, b.vf)))
      exec (.pfFlr p) s = .next (finishPfFlr (vfs.foldl (fun x e => startFlr x e.1 (p, e.2)) u) p)) ∧
    (∀ x, flr? s tid = some x → quiesced s tid = true → s.th.safe = false →
      let u := x.disable.foldl (disableDone tid)
        (x.fns.foldl (flrDone tid) { s with fn := { s.fn with flrs := Tab.del s.fn.flrs tid } })
      exec (.flrComplete tid) s = .next ((upto 0 8).foldl finishPfFlr
        (((tenantFns u tid).filter (fun pf => !x.fns.contains pf && !x.disable.contains pf)).foldl (notify .quiesce) u))) ∧
    (p < 8 → cfgBit s p 0 Cfg.sriovCtl 0 = true → boundOn s p = [] →
      let u := cfgSet s p 0 Cfg.sriovCtl (cfgGet s p 0 Cfg.sriovCtl &&& 0xFFFFFFFE)
      exec (.vfEnableClear p) s = .next ((upto 1 255).foldl (fun v g => resetFn v (p, g))
        { u with fn := { u.fn with ariMissing := Tab.set false u.fn.ariMissing p false } })) ∧
    (∀ b rest, s.fn.notices = b :: rest → Admits s mgtQueue 7 (mkTag mgt 1) b.length →
      let u := pushed s mgtQueue 7 (mkTag mgt 1) b false
      exec .noticePush s = .next { u with fn := { u.fn with notices := rest } })

/-- R316, R317: DIRTY_LOG_START, DIRTY_LOG_SWAP and DIRTY_LOG_STOP start, swap and stop a dirty-page log; DIRTY_LINE_WRITE writes a
changed line to the active bitmap. R316: a device write sets the bit of every page that it touches inside the span in the shadow of
the log, and no other bit; the line waits to be written; a page outside the span sets OVERFLOW alone. -/
def Obligations.DirtyLogs : Prop :=
  ((∀ (r s : State) (src tid p : Nat), Rings r src s →
    (∀ low span a b u l, Served s src 0x3A → tid < mgt → Live s tid → logBad s tid p low span a b = false →
      dirtyLog? s tid p = none → mayPost s p = true → takeShadow (cdiv span (2 ^ 36)) (accepted s src) [] = some (u, l) →
      exec (.dirtyLogStart src tid p low span a b) r = .next (tickRest src (answer (zeroBitmap (zeroBitmap
        (setDirtyLog u tid p { low := low, span := span, bitmapA := a, bitmapB := b, granules := l }) p a (span / 32768))
          p b (span / 32768)) src 0x3A { status := .ok }))) ∧
    (∀ l, Served s src 0x3B → Live s tid → dirtyLog? s tid p = some l → mayPost s p = true →
      let n := { l with activeB := !l.activeB, overflow := false, lines := [] }
      exec (.dirtyLogSwap src tid p) r = .next (tickRest src (answered s src 0x3B [(1, b2n (!l.activeB)), (1, b2n l.overflow)] (fun u =>
        zeroBitmap (setDirtyLog (clearShadow (flushDirty u p l) l) tid p n) p (activeMap n) (l.span / 32768))))) ∧
    (∀ l, Served s src 0x3C → Live s tid → dirtyLog? s tid p = some l → mayPost s p = true →
      exec (.dirtyLogStop src tid p) r = .next (tickRest src (answered s src 0x3C [(1, b2n l.overflow)] (fun u =>
        let v := l.granules.foldl releaseMgt (flushDirty u p l)
        { v with fn := { v.fn with logs := Tab.del v.fn.logs (8 * tid + p) } }))))) ∧
  (∀ (s : State) (tid p n : Nat) (l : DirtyLog) (rest : List Nat),
    dirtyLog? s tid p = some l → l.lines = n :: rest → mayPost s p = true →
    exec (.dirtyLineWrite tid p) s = .next (dirtyLine p l (setDirtyLog s tid p { l with lines := rest }) n))) ∧
  (∀ (s : State) (tag : BitVec 11) (p page : Nat) (l : DirtyLog), dirtyLog? s (tagCtx tag) p = some l → l.low % 4096 = 0 →
    let u := markPage tag p s page
    let i := page - l.low / 4096
    let a := shadowAt l (i / 8)
    (l.low ≤ 4096 * page → 4096 * page < l.low + l.span → mirrors s a = false → Tab.get [] s.mp.upsets (a / 64) = [] →
      (∃ m, dirtyLog? u (tagCtx tag) p = some m ∧ i / 512 ∈ m.lines ∧ m.overflow = l.overflow ∧ m.granules = l.granules) ∧
      le (poolBytes u a 1) = (le (poolBytes s a 1) ||| 2 ^ (i % 8)) ∧
      ∀ b, b ≠ a → poolBytes u b 1 = poolBytes s b 1) ∧
    (4096 * page < l.low ∨ l.low + l.span ≤ 4096 * page →
      dirtyLog? u (tagCtx tag) p = some { l with overflow := true } ∧ ∀ b, poolBytes u b 1 = poolBytes s b 1))

/-- R302, R304: TENANT_CREATE, TENANT_BIND, TENANT_UNBIND, TENANT_START, TENANT_THAW with arguments that no rule refuses have their
effect and answer OK (Table 11-9). R304, R305, R323: a tenant command finds or leaves the states that its table gives: a created
tenant is BOUND, with a FREE TID of the device's half while there is one; a started one RUNNING where no freeze cause stands. -/
def Obligations.TenantCommands : Prop :=
  (∀ (r s : State) (src t : Nat), Rings r src s →
    (∀ cells queues granules channels windows contexts, Served s src 0x2B → freeTid s = some t →
      outOf 64 262144 cells = false → outOf 0 16383 queues = false → outOf 0 131072 granules = false →
      outOf 0 16 channels = false → outOf 0 16384 windows = false → outOf 0 65536 contexts = false →
      exec (.tenantCreate src cells queues granules channels windows contexts) r =
        .next (tickRest src (answered s src 0x2B [(1, t)] (fun u => newTenant (useFree u) t (cells.getD 4096) (queues.getD 64) (granules.getD 512)
          (channels.getD 4) (windows.getD 64) (contexts.getD 256))))) ∧
    (∀ p vf vectors cls rep f, Served s src 0x2C → ctxMissing s t = false → (ctxFrozen s t = true → rep.isSome = true) →
      let old := if rep = some p then vfOn s t p else none
      bindBad s t p vf vectors cls rep old = false → pickVf s p vf old = some f →
      vectors ≤ ivFree s p + (old.map (fnVectors s p)).getD 0 → (∀ k, rep = some k → fnNamed s k ((vfOn s t k).getD 0) = false) →
      exec (.tenantBind src t p vf vectors cls rep) r = .next (tickRest src (answered s src 0x2C [(1, f)] (fun u =>
        let w := rep.elim u (unbindAt u t)
        let v := setTenant (useFree w) t { tenant w t with binds := addBind ⟨p, f, vectors, cls⟩ (tenant w t).binds }
        uncontain (journalObject (zeroRate v p f true) t 1 t) t)))) ∧
    (∀ p f, Served s src 0x2D → t < mgt → Live s t → vfOn s t p = some f → fnNamed s p f = false →
      exec (.tenantUnbind src t p) r = .next (tickRest src (answered s src 0x2D [] (fun u =>
        journalObject (uncontain (unbindAt u t p) t) t 1 t)))) ∧
    (Served s src 0x2E → t < mgt → Live s t → (tenant s t).st = .bound ∨ (tenant s t).st = .quiesced →
      exec (.tenantStart src t) r = .next (tickRest src (answered s src 0x2E [] (fun u =>
        freezeIfCause (setTenant u t { tenant u t with st := .running }) t)))) ∧
    (Served s src 0x30 → t < mgt → ctxMissing s t = false → (tenant s t).mgrCause = true →
      exec (.tenantThaw src t) r = .next (tickRest src (answered s src 0x30 [] (fun u =>
        let v := (u.ru.windows.filter (fun e => e.2.ctx == t)).foldl thawWindow u
        thawIfFree (setTenant v t { tenant v t with mgrCause := false }) t))))) ∧
  (∀ (s : State) (t : Nat),
    (freeTid s = some t → (tenant s t).st = .free ∧ t < 256 ∧
      (s.sm.enable = true → (s.sm.role = true ↔ 128 ≤ t))) ∧
    (freeTid s = none → t < 256 → (s.sm.enable = true → (s.sm.role = true ↔ 128 ≤ t)) → (tenant s t).st ≠ .free) ∧
    (∀ c q g ch w x, (tenant (newTenant s t c q g ch w x) t).st = .bound ∧
      ∀ n, n ≠ t → tenant (newTenant s t c q g ch w x) n = tenant s n) ∧
    ((tenant s t).mgrCause = false → (tenant s t).containCause = false →
      (tenant (freezeIfCause (setTenant s t { tenant s t with st := .running }) t) t).st = .running))

/-- R304, R310 to R314: TENANT_FREEZE, TENANT_QUIESCE, TENANT_REMOVE, TENANT_SAVE and TENANT_RESTORE complete when what they wait
for has happened; a freeze whose channels have not paused goes on running. -/
def Obligations.TenantTransitions : Prop :=
  (∀ (s : State) (src t : Nat) b, let x := savedIn s b
    x.programs = [] → x.insts = [] → x.bindings = [] → x.queueTab = [] → x.chans = [] → x.rwins = [] → x.windows = [] →
    ∀ slots, ∃ u, installTenant (accepted s src) t x slots = some u ∧ (tenant u t).st = .frozen ∧ (tenant u t).mgrCause = true) ∧
  (∀ (r s : State) (src t : Nat), Rings r src s →
    (Served s src 0x2F → t < mgt → (tenant s t).st = .running ∨ (tenant s t).st = .frozen →
      chansPaused (freezeByManager (accepted s src) t) t = true →
      exec (.tenantFreeze src t) r = .next (tickRest src (answered s src 0x2F [] (fun u => freezeByManager u t)))) ∧
    (Served s src 0x2F → t < mgt → (tenant s t).st = .running →
      chansPaused (freezeByManager (accepted s src) t) t = false →
      let u := freezeByManager (accepted s src) t
      exec (.tenantFreeze src t) r = .next (tickRest src (setMbox u src { mbox u src with running := some (.tenantFreeze t) }))) ∧
    (Served s src 0x31 → t < mgt → (tenant s t).st = .running ∨ (tenant s t).st = .frozen → (tenant s t).quiescing = false →
      let q := quiesceTenant ((tenantFns s t).foldl dropPushes (setTenant (accepted s src) t { tenant s t with quiescing := true })) t
      quiesced q t = true → q.th.safe = false →
      exec (.tenantQuiesce src t) r = .next (tickRest src (answer
        (notifyTenant .quiesce (setTenant q t { tenant q t with st := .quiesced, quiescing := false }) t) src 0x31
        { status := .ok }))) ∧
    (Served s src 0x32 → t < mgt → (tenant s t).st = .bound ∨ (tenant s t).st = .quiesced → (tenant s t).removing = false →
      let c := closeAll (setTenant (accepted s src) t { tenant s t with st := .removed, removing := true }) t
      connsOpen c t = false →
      exec (.tenantRemove src t) r = .next (tickRest src (answer (removeTenant c t) src 0x32 { status := .ok }))) ∧
    (∀ p a n, Served s src 0x33 → t < mgt → (tenant s t).st = .frozen → (tenant s t).saving = false → hostNameable s p = true →
      s.th.safe = false → flr? s t = none → mayPost s p = true →
      let b := setTenant (accepted s src) t { tenant s t with saving := true }
      let img := saveImage t (savedOf b t) (freeWord b).toNat
      img.length ≤ n →
      exec (.tenantSave src t p a n) r = .next (tickRest src (answer ((cutAt (maxPayload s p) (img.length + 1) a img).foldl
        (fun u w => streamWrite u p w.1 w.2)
        (keepImage (useFree (setTenant b t { tenant b t with saving := false })) img (savedOf b t))) src 0x33
        { status := .ok, results := [(8, img.length)] }))) ∧
    (∀ p a n slots b u, Served s src 0x34 → t < mgt → Live s t → (tenant s t).st = .bound → hostNameable s p = true →
      s.th.safe = false → b.length = n → saveImageOk b n = true → mappingBad s t (savedIn s b) slots = false →
      installTenant (accepted s src) t (savedIn s b) slots = some u →
      exec (.tenantRestore src t p a n slots (some b)) r = .next (tickRest src (answer u src 0x34 { status := .ok }))))

/-! Pairs (chapter 12) -/

/-- R334, R428: PROGRAM_DOORBELL, SM_VF_PAIR_FENCE and SM_PAIR_FENCE: a program doorbell raises the doorbell event of its source
with the low 32 bits of the value; a pair-fence read answers whether the pair is IN_SYNC once the partner holds the records that it
waits for and no push to a mirrored queue waits in a port that it covers. -/
def Obligations.DoorbellsAndFences : Prop :=
  ∀ (s : State) (who : FnRef) (t : Nat) (b : Bind),
    let u := leaveL1 s who.port
    (∀ n (v : Word), who.fn ≠ 0 → n < 64 → Posts s who (0x1000 + 8 * n) 8 → boundTo s who.port who.fn = some (t, b) →
      exec (.programDoorbell who n v) s = .next (raiseEvent u .doorbell (sourceKey t .doorbell n)
        (BitVec.ofNat 64 (v.toNat % 2 ^ 32)) none)) ∧
    (who.fn ≠ 0 → gate s who.port who.fn 0 0x18 8 false = .serve → boundTo s who.port who.fn = some (t, b) →
      s.sm.mode ≠ .inSync ∨ (Tab.get 0 s.sm.portJsn who.port ≤ s.sm.jsnAcked ∧ mirrorWaits s who.port = false) →
      exec (.smVfPairFence who) s =
        .next (answerWord u (readReq { port := who.port, fn := who.fn, bar := 0, offset := 0x18, length := 8 })
          (b2n (s.sm.mode == .inSync)))) ∧
    (who.fn = 0 → gate s who.port 0 0 0x700070 8 false = .serve → managerPort s who.port = true →
      s.sm.mode ≠ .inSync ∨ (s.sm.jsnAcked = s.sm.jsnSent ∧ ∀ p, p < 8 → mirrorWaits s p = false) →
      exec (.smPairFence who.port) s = .next (answerWord u
        (readReq { port := who.port, fn := 0, bar := 0, offset := 0x700070, length := 8 }) (b2n (s.sm.mode == .inSync))))

/-- R322, R340 to R346 (Table 12-11): the pair commands with arguments that no rule refuses have their effect; the two that wait for
the partner run on until its REPLY, or the PARTNER_REPLY_TIMEOUT after 1 ms, has come. -/
def Obligations.PairCommands : Prop :=
  (∀ (r s : State) (src t : Nat), Rings r src s →
    (∀ enable role, Served s src 0x3D → s.mg.keepDue ≤ s.now →
      exec (.pairConfig src enable role) r = .next (tickRest src (answered s src 0x3D [] (fun u =>
        keepWrite u Keep.pair (BitVec.ofNat 64 (b2n enable + 2 * b2n role)))))) ∧
    (Served s src 0x3E → mayJoin s = true → s.sm.linkUp = true → s.sm.hello = true →
      exec (.pairResync src) r = .next (tickRest src (answered s src 0x3E [] (fun u => startJoin (sendCtl u 6 [1]))))) ∧
    (Served s src 0x3F → t < mgt → ctxMissing s t = false → s.sm.mode = .inSync → (tenant s t).enrolled = true →
      exec (.pairTenant src t) r = .next (tickRest src (answered s src 0x3F [] (fun u => u)))) ∧
    (Served s src 0x3F → t < mgt → ctxMissing s t = false → s.sm.mode = .inSync → (tenant s t).enrolled = false →
      let u := (awaitReply (objectRecord (accepted s src) t 1 t false) src 0x3F t).1
      exec (.pairTenant src t) r = .next (tickRest src (setMbox u src { mbox u src with running := some .pair }))) ∧
    (Served s src 0x3F → t < mgt → ctxMissing s t = false → s.sm.mode ≠ .inSync →
      exec (.pairTenant src t) r = .next (tickRest src (answer (enrol (accepted s src) t) src 0x3F { status := .unprotected }))) ∧
    (Served s src 0x40 → t < mgt → ctxMissing s t = false → (tenant s t).enrolled = true → s.sm.mode ≠ .inSync →
      exec (.pairUntenant src t) r = .next (tickRest src (answered s src 0x40 [] (fun u =>
        setTenant u t { tenant u t with enrolled := false })))) ∧
    (Served s src 0x40 → t < mgt → ctxMissing s t = false → (tenant s t).enrolled = true → s.sm.mode = .inSync →
      let v := objectRecord (accepted s src) t 1 t false
      let u := (awaitReply (setTenant v t { tenant v t with enrolled := false }) src 0x40 t).1
      exec (.pairUntenant src t) r = .next (tickRest src (setMbox u src { mbox u src with running := some .pair }))) ∧
    (∀ i pi x, Served s src 0x41 → inst? s i = some x → pi < 512 →
      let p := program? s x.program
      shadowCtx s ((p.map (fun p => p.ctx)).getD mgt) = true →
      exec (.pairShadow src i pi) r = .next (tickRest src (
        if partnerBuild s ((p.map (fun p => p.ctx)).getD mgt) pi = p.map (fun p => p.buildId) then
          answered s src 0x41 [] (fun u => { u with ne := { u.ne with insts := Tab.put u.ne.insts i { x with shadowOf := some pi } } })
        else answer (accepted s src) src 0x41 { status := .badArg }))) ∧
    (Served s src 0x42 → s.sm.mode = .inSync →
      exec (.pairPromote src) r = .next (tickRest src (answered s src 0x42 [] (fun u => loseHeartbeat u true)))) ∧
    (Served s src 0x43 → s.sm.fenceOut = true →
      exec (.pairUnfence src) r = .next (tickRest src (answered s src 0x43 [] (fun u =>
        { u with sm := { u.sm with fenceOut := false } }))))) ∧
  (∀ (s : State) (src t : Nat),
    (∀ code status w, s.sm.linkUp = true →
      s.sm.replies.find? (fun w => w.code == code && w.tid == t && w.status.isNone) = some w →
      let u := setSm s (fun m => { m with replies := m.replies.map (fun x => if x = w then { x with status := some status } else x) })
      exec (.reply code status t) s = .next (if code = 0x3F ∧ status = 0 then enrol u t else u)) ∧
    (∀ w, s.sm.replies.find? (fun w => w.src == src && w.status.isNone) = some w →
      let u := setSm (passTo s w.due) (fun m => { m with replies := m.replies.map (fun x => if x = w then { x with status := some (statusCode .unprotected) } else x) })
      exec (.partnerReplyTimeout src) s =
        .next (if w.code = 0x3F then setTenant u w.tid { tenant u w.tid with enrolled := true } else u)))

/-- R331 to R336 (Table 12-5): a record in JSN order that is not malformed is applied whole, and ACK_JSN advances to it: LINE_WRITE,
GRANULE_ZERO, GRANULE_MAP, QUEUE_LINK, QUEUE_UNLINK, QUEUE_RESET, OBJECT, SCRATCH, THREAD and MARK. R331, R332: a record out of JSN
order changes nothing but the counts of bad records: it is counted and asked for again, and only the third in a row ends the
protection. -/
def Obligations.SeamRecords : Prop :=
  (∀ (s : State) (r : SeamRecord), receiving s = true → r.jsn = s.sm.jsnApplied + 1 → r.body.length ≤ 4096 →
    let a := r.target.toNat
    let q := fld a 0 14
    let p := fld a 14 3
    (∀ g, Tab.find s.sm.granMap (a / granuleBytes) = some g → r.body ≠ [] → a % granuleBytes + r.body.length ≤ granuleBytes →
      let ppa := g * granuleBytes + a % granuleBytes
      exec (.lineWrite r) s = .next (applied ((linesOf ppa r.body.length).zipIdx.foldl (setMarks r.aux)
        (poolStore s r.tag ppa r.body false)) r.jsn)) ∧
    (∀ g, Tab.find s.sm.granMap a = some g → a < 2 ^ 17 → r.aux = 0 → r.body = [] →
      exec (.granuleZero r) s = .next (applied (setGran (zeroGranule s g) g { gran s g with poisoned := false }) r.jsn)) ∧
    (a < 2 ^ 18 → r.aux.toNat < 2 ^ 17 → r.body = [] → shadowCtx s (tagCtx r.tag) = true →
      (bit a 17 = true → exec (.granuleMap r) s =
        .next (applied (mapGranule (fld a 0 17) (tagCtx r.tag) r.aux.toNat s) r.jsn)) ∧
      (∀ own, bit a 17 = false → Tab.find s.sm.granMap (fld a 0 17) = some own →
        exec (.granuleMap r) s = .next (applied (unmapGranule s (fld a 0 17) own) r.jsn))) ∧
    (∀ x, queue? s q = some x → x.ctx = tagCtx r.tag → shadowCtx s x.ctx = true →
      (a < 2 ^ 17 → r.aux.toNat = r.body.length → r.body ≠ [] → cellsOf r.body.length ≤ freeCells s → s.sm.linkHeld = none →
        exec (.queueLink r) s = .next (applied (linkItem s q p r.tag r.body r.poison) r.jsn)) ∧
      (∀ i, a < 2 ^ 17 → r.aux.toNat < 4 → r.body = [] → x.items.find? (fun i => i.prio == p) = some i →
        let y := { x with
          displaced := if r.aux = 2 then cap32 (x.displaced + 1) else x.displaced,
          flushed := if r.aux = 3 then cap32 (x.flushed + 1) else x.flushed }
        exec (.queueUnlink r) s = .next (applied (unlinkItem s q y i r.aux.toNat) r.jsn)) ∧
      (a < 2 ^ 14 → r.aux = 0 → r.body = [] →
        exec (.queueReset r) s = .next (applied (flushQueue s q) r.jsn)) ∧
      (a < 2 ^ 14 → r.aux = 1 → r.body = [] →
        let u := setQueue s q (emptied x)
        exec (.queueReset r) s = .next (applied { u with qm := { u.qm with sweeps := u.qm.sweeps ++ [some q] } } r.jsn))) ∧
    (∀ kind n, a = kind + 65536 * n → n < 65536 → r.aux = 0 → numberTaken s kind n = false →
      (kind = 1 → exec (.object r) s = .next (applied (setSm (applyTenant (seen s 1 n) n r.body)
        (fun m => { m with objects := Tab.put m.objects (65536 + n) (n, r.body) })) r.jsn)) ∧
      (kind = 2 → shadowCtx s (tagCtx r.tag) = true →
        exec (.object r) s = .next (applied (applyQueue (seen s 2 n) (tagCtx r.tag) n r.body r.resync) r.jsn)) ∧
      (3 ≤ kind → kind ≤ 8 → shadowCtx s (tagCtx r.tag) = true ∨ kind = 6 ∨ kind = 8 →
        exec (.object r) s = .next (applied (setSm (seen s kind n)
          (fun m => { m with objects := Tab.put m.objects (65536 * kind + n) (tagCtx r.tag, r.body) })) r.jsn))) ∧
    (a < 2 ^ 29 → fld a 12 6 = 0 → r.body ≠ [] → fld a 12 17 + r.body.length ≤ 131072 →
      exec (.scratch r) s = .next (applied (setSm s (fun m => { m with scratchHeld := m.scratchHeld ++ [r] })) r.jsn)) ∧
    (a < 2 ^ 12 → r.aux = 0 → r.body.length = 1280 →
      let mine : SeamRecord → Bool := fun x => x.target.toNat % 4096 == a
      let k := 8 * fld a 0 9 + fld a 9 3
      let u := setSm s (fun m => { m with scratchHeld := m.scratchHeld.filter (fun x => !mine x) })
      let th := (s.sm.scratchHeld.filter mine).foldl applyScratch (recordThread r.body (Tab.get {} s.sm.threads k))
      exec (.thread r) s = .next (applied (if linked s (fld a 0 9) then
        setSm u (fun m => { m with threads := Tab.set {} m.threads k th }) else count u Reg.smShadowMiss) r.jsn)) ∧
    (s.sm.mode = .joining → r.body = [] →
      (a = 0 → exec (.mark r) s = .next (applied (setSm s (fun m => { m with seen := [], markApplied := false })) r.jsn)) ∧
      (a = 1 → exec (.mark r) s =
        .next (applied (checkInSync (setSm (dropUnseen s) (fun m => { m with markApplied := true }))) r.jsn)))) ∧
  (∀ (s : State) (r : SeamRecord), receiving s = true → s.sm.resending = false → r.jsn ≠ s.sm.jsnApplied + 1 →
    let u := sendResend (count s Reg.smBadRecord) r.jsn
    let v := setSm u (fun m => { m with badRow := m.badRow + 1 })
    let w := if s.sm.badRow + 1 < 3 then v
      else unprotect (raiseSrc (setSm v (fun m => { m with badRow := 0 })) Src.smJournalBad {})
    ∀ c ∈ [Instr.lineWrite r, .granuleZero r, .granuleMap r, .queueLink r, .queueUnlink r, .queueReset r, .object r, .thread r, .scratch r, .mark r],
      exec c s = .next w)

/-- R324 to R328, R332, R335, R338, R343: SEAM_RETRY, SEAM_STEP_PASS, SEAM_STEP_FAIL, SEAM_LINK_DOWN, HELLO, SEAM_FRAME, RESEND,
MAP_FAIL, RESYNC and RESYNC_COPY_DONE: the link comes up step by step; frames arrive in FSN order and retire what the partner holds;
the control messages of Table 12-4 have their effect. -/
def Obligations.SeamLink : Prop :=
  ∀ (s : State),
    (s.sm.enable = true → s.sm.linkUp = false → s.sm.trying = 0 → s.sm.conflict = false → seamOn s = true →
      anyTest s seamLane 16 = false →
      exec .seamRetry s = .next (sendHello (alignLanes (trySeam (passTo s s.sm.retryDue) 1)) 0)) ∧
    (s.sm.trying = 3 → s.sm.hello = true → s.sm.helloSent = true → s.sm.linkUp = true →
      exec .seamStepPass s = .next (setSm (passTo s s.sm.passDue) (fun m => { m with linkUp := true, step := 3, trying := 0 }))) ∧
    (∀ k, s.sm.trying = k → 1 ≤ k → k < 3 → k < s.sm.partnerHighest → s.sm.hello = true → s.sm.helloSent = true → s.sm.linkUp = true →
      let u := setSm (passTo s s.sm.passDue) (fun m => { m with linkUp := true, step := k, trying := 0 })
      exec .seamStepPass s = .next (trySeam (sendHello u (stepFsn u)) (k + 1))) ∧
    (∀ k, s.sm.trying = k → 1 < k →
      exec .seamStepFail s =
        .next (raiseSrc (setSm (passTo s s.sm.retryDue) (fun m => { m with trying := 0 })) Src.smLink {})) ∧
    (s.sm.linkUp = true → exec .seamLinkDown s = .next (seamDown s)) ∧
    (∀ h : HelloMsg, s.sm.enable = true → s.sm.linkUp = true → h.role ≠ s.sm.role → h.arrange = s.et.arrangement →
      h.merge = s.hp.merge.toNat → h.stepFsn = 0 →
      exec (.hello h) s = .next (sendHello (setSm s (fun m => { m with hello := true, partnerHighest := h.highest })) 0)) ∧
    (∀ h : HelloMsg, s.sm.enable = true → s.sm.linkUp = true → h.role = s.sm.role ∨ h.arrange ≠ s.et.arrangement →
      exec (.hello h) s =
        .next (setSm (seamDown (raiseSrc s Src.smConflict {})) (fun m => { m with conflict := true }))) ∧
    (∀ f : SeamFrame, s.sm.enable = true → s.sm.linkUp = true → f.crcOk = true → f.fsn = (s.sm.rxFsn + 1) % 65536 →
      f.malformed = false →
      exec (.seamFrame f) s = .next (ackTo (setSm s (fun m =>
        { m with rxFsn := f.fsn, rxFsnKnown := true })) f.ackJsn)) ∧
    (∀ f : SeamFrame, s.sm.enable = true → s.sm.linkUp = true → f.crcOk = false →
      exec (.seamFrame f) s = .next (dropFrame s ((s.sm.rxFsn + 1) % 65536))) ∧
    (∀ j, s.sm.linkUp = true → s.th.safe = false → exec (.resend j) s = .next (emitAll s
      ((s.sm.journal.filter (fun r => decide (j ≤ r.body.jsn))).map (fun r => Output.seamRecord (recordImage r.kind r.body))))) ∧
    (∀ g, s.sm.linkUp = true → exec (.mapFail g) s = .next (unprotect (raiseSrc s Src.smMapFail {}))) ∧
    (s.sm.linkUp = true → mayJoin s = true → exec (.resync true) s = .next (startJoin s)) ∧
    (s.sm.linkUp = true → s.sm.mode = .joining → exec (.resync false) s = .next (setPair s .solo)) ∧
    (let u := resyncPump s
     u.th.safe = false → u.sm.mode = .joining → u.sm.objQ = [] → u.sm.copyQ = [] → u.sm.markSent = false → journalRoom u 1 0 = true →
      exec .resyncCopyDone s = .next (setSm (journalAdd u 10 0 1 0 [] false true)
        (fun m => { m with markSent := true, markJsn := m.jsnSent })))

/-- R337 to R341: HEARTBEAT_SEND, HEARTBEAT, HEARTBEAT_MISS, HEARTBEAT_LOST, FAILOVER, FENCE_WAIT_END, FENCE_IN, SETTLE_END and
PROMOTED: heartbeats, FAILOVER and FENCE_IN lead to fencing and promotion in the order and with the waits of Figure 12-1. -/
def Obligations.HeartbeatAndFencing : Prop :=
  ∀ (s : State),
    let sent := passTo s s.sm.hbSendDue
    (s.sm.linkUp = true → s.th.safe = false →
      exec .heartbeatSend s = .next (sendCtl (setSm sent (fun m =>
        { m with hbCount := m.hbCount + 1, hbSendDue := m.hbSendDue + ns 500 })) 2
          [BitVec.ofNat 64 (s.sm.hbCount % 2 ^ 32 + 2 ^ 32 * pairCode s.sm.mode)])) ∧
    (s.sm.linkUp = true → s.th.safe = true →
      exec .heartbeatSend s = .next (sendCtl (setSm sent (fun m => { m with hbSendDue := m.hbSendDue + ns 500 })) 4 [])) ∧
    (∀ n st, s.sm.linkUp = true →
      exec (.heartbeat n st) s = .next (setSm s (fun m =>
        { m with hbMiss := 0, hbWinDue := (s.now / ns 500 + 2) * ns 500 }))) ∧
    (awaited s = true → s.sm.hbMiss < 8 →
      exec .heartbeatMiss s = .next (setSm (count (passTo s s.sm.hbWinDue) Reg.smHbMiss)
        (fun m => { m with hbMiss := m.hbMiss + 1, hbWinDue := m.hbWinDue + ns 500 }))) ∧
    (let lost := setSm s (fun m => { m with hbLost := true, hbMiss := 0 })
     (8 ≤ s.sm.hbMiss → s.sm.mode = .inSync → s.sm.promo = .none → s.sm.role = false →
      exec .heartbeatLost s = .next (assertFence lost)) ∧
     (8 ≤ s.sm.hbMiss → s.sm.mode = .inSync → s.sm.promo = .none → s.sm.role = true →
      exec .heartbeatLost s = .next (setSm lost (fun m => { m with promo := .fenceWait, promoDue := s.now + us 2 }))) ∧
     (8 ≤ s.sm.hbMiss → s.sm.mode = .joining ∨ s.sm.mode = .unprotected →
      exec .heartbeatLost s = .next (setPair lost .solo)) ∧
     (s.sm.linkUp = true → s.sm.mode = .inSync → s.sm.promo = .none → exec .failover s = .next (assertFence lost))) ∧
    (s.sm.promo = .fenceWait →
      let u := passTo s s.sm.promoDue
      exec .fenceWaitEnd s = .next (if s.sm.fenceIn then setSm u (fun m => { m with promo := .none }) else assertFence u)) ∧
    (s.sm.enable = true → s.sm.mode ≠ .fenced → ignoresFence s = false → s.th.safe = false →
      ∃ t, exec (.fenceIn true) s = .next t ∧ t.sm.fenceIn = true ∧ t.sm.mode = .fenced ∧ t.th.safe = true ∧
        t.th.safeFence = true ∧ t.sm.promo = .none) ∧
    (s.sm.enable = true → exec (.fenceIn false) s = .next (setSm s (fun m => { m with fenceIn := false }))) ∧
    (s.sm.promo = .settle →
      exec .settleEnd s = .next (setSm (passTo s s.sm.promoDue) (fun m =>
        { m with promo := .promote, promoDue := (passTo s s.sm.promoDue).now, scratchHeld := [] }))) ∧
    (s.sm.promo = .promote → s.th.safe = false →
      let ts := (s.fn.tenants.filter (fun e => e.2.shadow)).map (fun e => e.1)
      let u := ts.foldl promoteTenant (adoptAddrs (passTo s s.sm.promoDue))
      let v := setSm (count u Reg.smFailovers) (fun m => { m with promo := .none, objects := [], threads := [], granMap := [] })
      exec .promoted s = .next (ts.foldl (notifyTenant .failover) (setPair v .promoted)))

/-! Faults (chapter 13) -/

/-- R349, R350, R351, R354, R355, R357, R358, R364, R365: SOURCE_RAISE, RECORD_FORM, HISTORY_WRITE, TH_TACK, TH_SRC_CFG, TH_FORCE,
TH_HIST_ACK, FAULT_SEVERITY and FAULT_ACK: raising a source, forming its record, writing the history, setting, tacking and forcing
severities, and acknowledging have their effect. R352 to R356: what a raise does follows its live severity: every raise of a used
source is counted; NOTIFY and above set PENDING; CONTAIN and above freeze the tenant that the tag names; only SAFE enters safe
state. A reserved number does nothing. -/
def Obligations.FaultEvents : Prop :=
  ((∀ (s : State) (n : Nat),
    (∀ tag object index extra, Src.used n = true → raisable s n index = true →
      ¬ (n = Src.qmPtrMismatch ∧ (queue? s index).isSome = true) →
      ¬ (n = Src.hpContained ∧ 1 ≤ fld (BitVec.toNat extra) 0 3 ∧ fld (BitVec.toNat extra) 0 3 ≤ 4) →
      let u := blockAction s n index extra.toNat
      let r : Raise :=
        { tag := tag, object := object % 16, index := index % 2 ^ 20,
          extra := if n ∈ [Src.neProgFault, Src.mcCe, Src.mcUe, Src.hpViolation, Src.hpContained] then extra else 0 }
      exec (.sourceRaise n tag object index extra) s = .next (
        if limited n then raiseLimited u n (limitWho u n tag index) r else raiseSrc u n r)) ∧
    (∀ tag object q extra x, queue? s q = some x → raisable s Src.qmPtrMismatch q = true →
      exec (.sourceRaise Src.qmPtrMismatch tag object q extra) s = .next (mismatch s q)) ∧
    (∀ tag object p extra, p < 8 → 1 ≤ fld (BitVec.toNat extra) 0 3 → fld extra.toNat 0 3 ≤ 4 →
      exec (.sourceRaise Src.hpContained tag object p extra) s = .next (containPort s p (fld extra.toNat 0 3))) ∧
    (∀ r rest, s.th.highQ = r :: rest →
      let u := logRecord { s with th := { s.th with highQ := rest } } r
      exec .recordForm s = .next (notifyRecord u.1 u.2)) ∧
    (∀ r rest, s.th.highQ = [] → s.th.lowQ = r :: rest → s.th.logTick < 1024 →
      exec .recordForm s =
        .next (logRecord { s with th := { s.th with lowQ := rest, logTick := s.th.logTick + 1 } } r).1) ∧
    (∀ r rest, s.th.highQ = [] → s.th.lowQ = r :: rest → 1024 ≤ s.th.logTick →
      exec .recordForm s = .next (count { s with th := { s.th with lowQ := rest } } Reg.thLogLost)) ∧
    (∀ r rest, s.th.histQ = r :: rest →
      let w := { s with th := { s.th with histQ := rest } }
      let i := keepNat w Keep.thHead % 32
      let u := (upto 0 4).foldl (fun u j => keepSet u (histWord i j) (BitVec.ofNat 64 (leAt (recordBytes r) (8 * j) 8))) w
      let v := keepSet u Keep.thHead (BitVec.ofNat 64 ((i + 1) % 32))
      exec .historyWrite s =
        .next (keepSet v Keep.thTotal (BitVec.ofNat 64 (satInc (2 ^ 32 - 1) (keepNat v Keep.thTotal))))) ∧
    exec .thTack s = .next { s with th := s.th.basted.foldl tackSource s.th } ∧
    (∀ w : Word, Src.used n = true → exec (.thSrcCfg n w) s = .next { s with th := { s.th with
      basted := Tab.set ((Src.default? n).getD 0) s.th.basted n (w.toNat % 8 + 8) } }) ∧
    (∀ w : Word, exec (.thForce w) s = .next (raiseSrc s (fld w.toNat 0 10) { forced := true })) ∧
    (∀ w : Word, exec (.thHistAck w) s =
      .next ((upto 0 32).foldl (fun u i => if bit w.toNat i then ackEntry u i else u) s))) ∧
  (∀ (r s : State) (src n : Nat), Rings r src s →
    (∀ l : List (Nat × Nat), Served s src 0x44 → l.length ≤ 64 → (∀ e ∈ l, Src.used e.1 = true ∧ e.2 ≤ 4) →
      exec (.faultSeverity src l) r =
        .next (tickRest src (answered s src 0x44 [] (fun u => tackAll (l.foldl (fun v e => baste v e.1 e.2) u))))) ∧
    (∀ i, Served s src 0x45 → i < 32 → histWritten s i = true →
      exec (.faultAck src (some i) none) r = .next (tickRest src (answered s src 0x45 [] (fun u => ackEntry u i)))) ∧
    (Served s src 0x45 → Src.used n = true →
      exec (.faultAck src none (some n)) r =
        .next (tickRest src (answered s src 0x45 [] (fun u => clearPending ((upto 0 32).foldl ackEntry u) n)))))) ∧
  (∀ (s : State) (n : Nat) (r : Raise),
    (Src.used n = false → raiseSrc s n r = s) ∧
    (Src.used n = true → thLive s n = 0 → raiseSrc s n r = count s (Reg.thSrcCount n)) ∧
    (Src.used n = true → 2 ≤ thLive s n → Tab.get false (raiseSrc s n r).th.pending n = true) ∧
    (thLive s n < 4 → (raiseSrc s n r).th.safe = s.th.safe) ∧
    (Src.used n = true → 4 ≤ thLive s n → (raiseSrc s n r).th.safe = true ∧
      (s.th.safe = false → (raiseSrc s n r).th.safeSource = n ∧ (raiseSrc s n r).th.alert = true ∧
        ∀ t, t < 512 → mayRun (thread (raiseSrc s n r) t) = false)) ∧
    (thLive s n < 3 → ∀ t, tenant (raiseSrc s n r) t = tenant s t) ∧
    (∀ tag, Src.used n = true → 3 ≤ thLive s n → r.tag = some tag → tagCtx tag < mgt →
      (tenant s (tagCtx tag)).st = .running → (tenant (raiseSrc s n r) (tagCtx tag)).st = .frozen))

/-! Power, clocks, Stop, boot and resets (chapters 14 and 16) -/

/-- R371 to R376, R438, R442, R447: DOMAIN_POWER, DOMAIN_SWITCH_DONE, PW_DOMAIN_TIMEOUT, PLL_LOCK, CK_CLK_SEL, CK_PLL_UNLOCK,
CK_FREQ, PW_SUPPLY_UV, PW_OVERTEMP, THERMTRIP_N, CRYSTAL_STOP, HOLDOVER, HBM_TRAINED, MC_TRAIN_FAIL, MC_HOT and ZERO_FILL_COMPLETE:
domains switch, PLLs lock and lose lock, the clocks are selected, memory is trained and zeroed, and the sensors of the device
report. -/
def Obligations.PowerAndClocks : Prop :=
  (∀ (r s : State) (src d : Nat), Rings r src s →
    ∀ on, Served s src 0x47 → d < 150 → domFree s d = true → (domGroup s d).any (domMoving s) = false →
      s.pw.phase ≠ .stopEntry → s.mg.keepDue ≤ s.now →
      let a := keepDomain (accepted s src) d (!on)
      let u := if on then switchOn a (domGroup s d) else (domGroup s d).foldl switchOff a
      exec (.domainPower src d on) r = .next (tickRest src (
        if (domGroup u d).all (fun k => (dom u k).st == (if on then DomMode.on else DomMode.off)) then
          answer u src 0x47 { status := .ok }
        else setMbox u src { mbox u src with running := some (.domainPower d on) }))) ∧
  (∀ (s : State) (d k : Nat),
    (let x := dom s d
     x.timedOut = false →
     (x.st = .switchingOn →
      exec (.domainSwitchDone d) s = .next (domPump 8 (setDom s d { x with st := .on, clamped := false }))) ∧
     (x.st = .switchingOff → quadOf d = none → exec (.domainSwitchDone d) s = .next (setDom s d { x with st := .off })) ∧
     (∀ q, x.st = .switchingOff → quadOf d = some q →
      let u := (upto (4 * q) 4).foldl resetLane (setDom s d { x with st := .off })
      exec (.domainSwitchDone d) s = .next { u with ln := { u.ln with
        pll := BitVec.ofNat 24 (putBit u.ln.pll.toNat q false), rate := Tab.del u.ln.rate q, inEffect := Tab.del u.ln.inEffect q } }) ∧
     (x.st = .switchingOn ∨ x.st = .switchingOff →
      exec (.pwDomainTimeout d) s = .next (raiseSrc (setDom (passTo s (x.since + us (if x.st = .switchingOn then 80 else 8))) d
        { x with timedOut := true }) Src.pwDomainTimeout { object := 12, index := d }))) ∧
    (k < 12 → (dom s (pllDomain k)).st = .on → (k < 2 → s.mg.running = true) →
      exec (.pllLock k) s = .next { s with pw := { s.pw with plls := BitVec.ofNat 12 (putBit s.pw.plls.toNat k true) } }) ∧
    (∀ q, q < 24 → (dom s (pllDomain (q + 12))).st = .on →
      exec (.pllLock (q + 12)) s = .next { s with ln := { s.ln with pll := BitVec.ofNat 24 (putBit s.ln.pll.toNat q true) } }) ∧
    (∀ w : Word, bit w.toNat 0 = true → s.pw.clkPll = false → (dom s 146).st = .on →
      let u := rebuildTime { s with pw := { s.pw with clkPll := true } }
      let v := { u with et := { u.et with applied := true } }
      exec (.ckClkSel w) s = .next (switchOn v ((upto 0 150).filter (fun d => !heldOff v d)))) ∧
    (k < 12 → bit s.pw.plls.toNat k = true →
      let u := count { s with pw := { s.pw with plls := BitVec.ofNat 12 (putBit s.pw.plls.toNat k false) } } Reg.ckUnlocks
      exec (.ckPllUnlock k) s = .next (if s.pw.phase = .boot then u else raiseSrc u Src.ckPllUnlock {})) ∧
    (k < 8 → s.pw.inStop = false → exec (.ckFreq k) s = .next (raiseSrc
      { s with pw := { s.pw with freqMon := BitVec.ofNat 8 (putBit s.pw.freqMon.toNat k true) } } Src.ckFreq {})) ∧
    (∀ r, s.pw.inStop = false → s.pw.mainEn = true → s.pw.mainPg = true → exec (.pwSupplyUv r) s = .next (raiseSrc
      { s with pw := { s.pw with supplyLost := true, mainPg := r != .mainPg } } Src.pwSupplyUv {})) ∧
    (s.pw.inStop = false → exec .pwOvertemp s = .next (raiseSrc s Src.pwOvertemp {})) ∧
    exec .thermtripN s = .next { s with pw := { s.pw with thermtrip := true } } ∧
    exec .crystalStop s = .next { s with pw := { s.pw with slowValid := false, slowRuns := false } } ∧
    (s.tb.ptp = true → s.tb.running = true → s.tb.holdover = false →
      let u := passTo s (s.tb.lastSync + ms 3000)
      exec .holdover s = .next (raiseSrc
        { u with tb := { u.tb with holdover := true, locked := false, goodSyncs := 0 } } Src.tbUnlock {})) ∧
    (∀ r, k < 8 → (dom s (102 + k)).st = .on → (dom s (110 + k)).st = .on → (dom s (118 + k)).st = .on →
      exec (.hbmTrained k r) s = .next (setStk s k { stk s k with trained := true, repaired := r % 64 })) ∧
    (k < 8 → (dom s (102 + k)).st = .on → exec (.mcTrainFail k) s =
      .next (raiseSrc (setStk s k { stk s k with trained := false }) Src.mcTrainFail { object := 10, index := 16 * k })) ∧
    (∀ t, k < 8 → (dom s (102 + k)).st = .on →
      ((stk s k).hot = false → exec (.mcHot k true t) s =
        .next (raiseSrc (setStk s k { stk s k with hot := true, temp := t % 256 }) Src.mcHot { object := 10, index := 16 * k })) ∧
      ((stk s k).hot = true → exec (.mcHot k false t) s = .next (setStk s k { stk s k with hot := false, temp := t % 256 }))) ∧
    (s.pw.zeroFilled = false → s.mg.running = true → s.pw.clkPll = true → (∀ k, k < 8 → (stk s k).trained = true) →
      let u := (upto 0 8).foldl copyRom (assignRom 4
        { s with mp := { s.mp with pool := [], poison := [], written := [], granules := [], lists := [] } })
      exec .zeroFillComplete s = .next { u with pw := { u.pw with zeroFilled := true, phase := .run } }))

/-- R379 to R385: STOP_ENTER, ABORT_POINT, POINT_OF_NO_RETURN, WAKE_SENSE, WAKE_WAIT_TIMEOUT, WAKE_SET and STOP_STATS_CLEAR: the
steps of a Stop entry, the wake, and the commands beside them. R8, R368, R377, R385, R407 to R409, R416: DEVICE_RESET, BOOT,
MG_WATCHDOG, DEV_RESET_N, MAIN_PG, BROWNOUT and VAON: boot and the resets by command, pin, supplies, brown-out, the loss of VAON,
the watchdog. Whether the retention rail held while VAON was gone is free (log entry 42). R8, R368, R377: a device reset keeps the
keep registers but for the cause, the flash, the FENCE_OUT latch and the waiting commands, and every other register returns to its
reset value. -/
def Obligations.StopAndResets : Prop :=
  ((∀ (r s : State) (src : Nat), Rings r src s →
    (∀ mask, Served s src 0x46 → s.pw.phase ≠ .stopEntry → bit (keepNat s Keep.wake) 12 = true → stopRefuser s mask = none →
      let a := setPw (accepted s src) (fun p => { p with phase := .stopEntry, stop := some { src := src, mask := mask, points := 0 } })
      exec (.stopEnter src mask 255) r = .next (tickRest src (setMbox a src { mbox a src with running := some .stopEnter }))) ∧
    (∀ mask c i, Served s src 0x46 → s.pw.phase ≠ .stopEntry → bit (keepNat s Keep.wake) 12 = true →
      stopRefuser s mask = some (c, i) →
      exec (.stopEnter src mask 255) r = .next (tickRest src (answer
        (stopLast (keepBy (keepCount (accepted s src) Keep.stopRefusals 0 32) c) 2 c 0 i) src 0x46
        { status := .denied, detail := stopDetail c 0 i }))) ∧
    (∀ th hy pol deb en w, Served s src 0x48 → th ≤ 63 → hy ≤ 1 → pol ≤ 1 → deb ≤ 15 → 0 < w → w ≤ 1000 → s.mg.keepDue ≤ s.now →
      exec (.wakeSet src th hy pol deb en w) r = .next (tickRest src (answered s src 0x48 [] (fun u => keepWrite (keepWrite u Keep.wake
        (BitVec.ofNat 64 (th + 2 ^ 6 * hy + 2 ^ 7 * pol + 2 ^ 8 * deb + 2 ^ 12 * b2n en))) Keep.wakeWait (BitVec.ofNat 64 w))))) ∧
    (Served s src 0x49 → s.mg.keepDue ≤ s.now →
      exec (.stopStatsClear src) r = .next (tickRest src (answered s src 0x49 [] (fun u =>
        (upto Keep.stopEntries 6).foldl (fun v i => keepWrite v i 0) u))))) ∧
  (∀ (s : State) (e : StopEntry),
    (s.pw.stop = some e → e.points < 3 → s.pw.wakeLive = true →
      exec (.abortPoint e.points) s = .next (abandonStop s e 7 e.points e.points)) ∧
    (s.pw.stop = some e → s.pw.wakeLive = false → s.th.safe = true → 1 ≤ e.points → e.points < 3 →
      exec (.abortPoint e.points) s = .next (abandonStop s e 1 e.points 1)) ∧
    (s.pw.stop = some e → s.pw.wakeLive = false → s.th.safe = false →
      (e.points = 0 → exec (.abortPoint 0) s = .next (quiesceFabric s e)) ∧
      (e.points = 1 → exec (.abortPoint 1) s = .next (clampAll s e)) ∧
      (e.points = 2 → exec (.abortPoint 2) s = .next (setPw s (fun p => { p with stop := some { e with points := 3 } })))) ∧
    (s.pw.stop = some e → e.points = 3 →
      let u := setPw (keepCount s Keep.stopEntries 0 32) (fun p => { p with mainEn := false, mainPg := false, ldoLow := true })
      let v := setPw (afterReset u u.pw.cause) (fun p => { p with inStop := true })
      exec .pointOfNoReturn s = .next (if v.pw.wakeLive && wakeArmed v then startWake v 4 else v)) ∧
    (∀ on, s.pw.vaon = true →
      let u := setPw s (fun p => { p with wakeLive := on })
      exec (.wakeSense on) s = .next
        (if on && !s.pw.wakeLive && s.pw.inStop && !s.pw.mainEn && bit (keepNat s Keep.wake) 12 then startWake u 4 else u)) ∧
    (∀ t, s.pw.wakeDue = some t → s.pw.mainPg = false →
      exec .wakeWaitTimeout s =
        .next (stopLast (setPw (passTo s t) (fun p => { p with mainEn := false, wakeDue := none })) 4 0 0 0)))) ∧
  ((∀ (r s : State) (src : Nat), Rings r src s → takesUp s src = true → notReady s 0x51 = false → s.mg.keepDue ≤ s.now →
    s.mg.flash = none → exec (.deviceReset src) r = .next (tickRest src (deviceReset s 3))) ∧
  (∀ (s : State),
    (∀ h0 h1 a b act, s.mg.running = false → (dom s 144).st = .on → s.pw.inStop = false → activeBank h0 h1 = some act →
      let u := { s with mg := { s.mg with header0 := h0, header1 := h1, bankA := a, bankB := b } }
      exec (.boot h0 h1 a b) s = .next (
        if bankOk s (if act then b else a) then startFirmware u (if act then b else a) act false
        else if bankOk s (if act then a else b) then startFirmware u (if act then a else b) (!act) true
        else cutOff { u with mg := { u.mg with recovery := true } })) ∧
    (∀ h0 h1 a b, s.mg.running = false → (dom s 144).st = .on → s.pw.inStop = false → activeBank h0 h1 = none →
      exec (.boot h0 h1 a b) s = .next (cutOff { s with mg := { s.mg with
        header0 := h0, header1 := h1, bankA := a, bankB := b, recovery := true } })) ∧
    (s.mg.running = true → s.mg.wdtLeft = 0 →
      exec .mgWatchdog s = .next (raiseSrc
        { setThread s mgEngine {} with mg := { s.mg with running := false, flash := none } } Src.mgWatchdog {})) ∧
    (s.pw.inStop = false → exec .devResetN s = .next (deviceReset s 2)) ∧
    (s.pw.mainEn = true → s.pw.mainPg = false → s.pw.supplyLost = false →
      exec .mainPg s = .next (powerUp (setPw s (fun p => { p with mainPg := true, wakeDue := none })))) ∧
    (s.pw.mainEn = true → s.pw.supplyLost = true →
      exec .mainPg s = .next (deviceReset (setPw s (fun p => { p with mainPg := true })) 1)) ∧
    (∀ lost,
      let u := afterReset (setPw s (fun p => { p with keepLost := lost })) 5
      (s.pw.mainPg = false → exec (.brownout lost) s = .next (startWake (setPw u (fun p => { p with inStop := true })) 5)) ∧
      (s.pw.mainPg = true →
        exec (.brownout lost) s = .next (powerUp (setPw u (fun p => { p with inStop := false, mainEn := true, ldoLow := false }))))) ∧
    (s.pw.vaon = true → exec (.vaon false) s = .next (setPw s (fun p => { p with vaon := false }))) ∧
    (s.pw.vaon = false → exec (.vaon true) s = .next (
      if bit (freeWord s).toNat 0 = true then useFree { State.reset with
        pending := s.pending, out := s.out, saves := s.saves, freeCtr := s.freeCtr,
        mg := { State.reset.mg with
          floor := s.mg.floor, header0 := s.mg.header0, header1 := s.mg.header1, bankA := s.mg.bankA, bankB := s.mg.bankB } }
      else setPw (useFree s) (fun p => { p with vaon := true }))))) ∧
  (∀ (s : State) (cause : Nat),
    let u := afterReset s cause
    u.pending = s.pending ∧ u.mg.header0 = s.mg.header0 ∧ u.mg.header1 = s.mg.header1 ∧ u.mg.bankA = s.mg.bankA ∧
    u.mg.bankB = s.mg.bankB ∧ u.mg.floor = s.mg.floor ∧ u.sm.fenceOut = s.sm.fenceOut ∧ u.sm.fenceIn = s.sm.fenceIn ∧
    u.pw.cause = cause ∧ u.pw.phase = .boot ∧ u.th.safe = false ∧ u.ne = State.reset.ne ∧ u.qm = State.reset.qm ∧
    u.ru = State.reset.ru ∧ u.sh = State.reset.sh ∧ u.wt = State.reset.wt ∧ u.regs = State.reset.regs ∧
    (s.pw.keepLost = false → ∀ i, i ≠ Keep.resetCause → keepGet u i = keepGet s i))

/-! Serial lanes (chapter 15) -/

/-- R392 to R402: LANE_EQ_WRITE, LN_LANE_CTRL, LN_SLIP, CLEAR, INJECT, PRBS_LOCK, PRBS_LOCK_LOSS and LN_LOCK_LOST: the equalisation
table is written, lanes are taken for test and returned, their word boundaries move, the counters clear and count, the checkers lock
and lose lock. R393: a lane's entry that a LANE_EQ_WRITE takes has every field in its range, the coefficients' magnitudes adding up
to 63. -/
def Obligations.LaneCommands : Prop :=
  ((∀ (r s : State) (src : Nat), Rings r src s →
    ∀ first es, Served s src 0x4A → es ≠ [] → first ≤ 95 → first + es.length ≤ 96 → (∀ e ∈ es, eqEntryOk e = true) →
      s.mg.keepDue ≤ s.now →
      exec (.laneEqWrite src first es) r = .next (tickRest src (answered s src 0x4A [] (fun u =>
        keepWrite (writeEq es first u) Keep.eqCrc (BitVec.ofNat 64 (crc32 (eqBytes (writeEq es first u)))))))) ∧
  (∀ (s : State) (l : Nat), l < 96 →
    let x := serialLane s l
    let q := l / 4
    (∀ v : Word, lanePowered s l = true → bit v.toNat 0 = true → x.test = true →
      exec (.lnLaneCtrl l v) s =
        .next (dropDeaf (withRate s q (fun u => retuneQuad q (quadRate s q) (laneFields u l v.toNat))) l)) ∧
    (∀ v : Word, lanePowered s l = true → bit v.toNat 0 = true → x.test = false → testAllowed s l = true →
      exec (.lnLaneCtrl l v) s =
        .next (dropDeaf (withRate (absentLane s l) q (fun u => retuneQuad q (quadRate s q) (laneFields u l v.toNat))) l)) ∧
    (∀ v : Word, lanePowered s l = true → bit v.toNat 0 = true → x.test = false → testAllowed s l = false →
      exec (.lnLaneCtrl l v) s = .next (count s Reg.lnCtrlRefused)) ∧
    (∀ v : Word, lanePowered s l = true → bit v.toNat 0 = false → x.test = true →
      let u := withRate s q (fun u => retuneQuad q (quadRate s q) (laneFields u l v.toNat))
      let g := laneGroup s l
      exec (.lnLaneCtrl l v) s = .next (if anyTest u g.1 g.2 then u else (upto g.1 g.2).foldl laneDefaults u)) ∧
    (∀ v : Word, lanePowered s l = true → x.test = true → 1 ≤ fld v.toNat 0 6 → fld v.toNat 0 6 ≤ 39 →
      exec (.lnSlip l v) s =
        .next (setSerialLane s l { x with slips := (x.slips + fld v.toNat 0 6) % slipModulus s l })) ∧
    (lanePowered s l = true → x.test = true →
      exec (.clear l) s = .next (setSerialLane s l { x with bits := 0, errs := 0, since := x.since.map (fun _ => s.now) })) ∧
    (lanePowered s l = true → x.test = true →
      (x.gen = true → x.check = true → x.prbsLock = true → x.loop ≠ 3 → x.loop ≠ 0 →
        exec (.inject l) s = .next (setSerialLane s l { x with errs := x.errs + 1 })) ∧
      (x.gen = true → x.check = true → x.prbsLock = true → x.loop = 0 →
        exec (.inject l) s = .next (useFree (setSerialLane s l { x with errs := x.errs + fld (freeWord s).toNat 0 1 }))) ∧
      (x.gen = false ∨ x.check = false ∨ x.prbsLock = false ∨ x.loop = 3 → exec (.inject l) s = .next s)) ∧
    (mayLock s l = true →
      exec (.prbsLock l) s = .next (setSerialLane s l { x with
        prbsLock := true, rxLock := x.rxLock || x.loop != 2, bits := 0, errs := 0, since := some s.now })) ∧
    (x.prbsLock = true →
      let u := settleBits s l false
      exec (.prbsLockLoss l) s = .next (count (setSerialLane u l { serialLane u l with
        prbsLock := false, errs := (serialLane u l).errs + 64 }) (Reg.lnLockLosses l))) ∧
    (x.test = false → x.rxLock = true → laneUsed s l = true →
      exec (.lnLockLost l) s = .next (raiseSrc (count (setSerialLane s l { x with rxLock := false }) (Reg.lnLockLosses l))
        Src.lnLockLost { object := 9, index := l })))) ∧
  (∀ e : EqEntry, eqEntryOk e = true →
    let main := fld e.toNat 16 8
    24 ≤ main ∧ main ≤ 63 ∧ main + (eqSigned e 0).natAbs + (eqSigned e 1).natAbs + (eqSigned e 3).natAbs = 63 ∧
    -8 ≤ eqSigned e 0 ∧ -24 ≤ eqSigned e 1 ∧ -24 ≤ eqSigned e 3 ∧ -32 ≤ eqSigned e 6 ∧ eqSigned e 6 ≤ 31)

/-! The management plane (chapter 16) -/

/-- R405, R410, R412, R418, R420, R421 (Table 16-7): MANAGEMENT_TICK, MG_MB_DOORBELL, MG_MB_RSP, FLASH_WRITE_COMPLETE, DEVICE_INFO,
FLASH_WRITE, KEEP_WRITE, TIME_SET, QUEUE_PUSH and QUEUE_POP: the tick, the mailbox registers and the management commands have their
effect. Which check a package read back from the flash fails is free (log entry 54). R406, R411: REQUEST_BUFFER_WRITE,
RESPONSE_BUFFER_READ, BMC_DOORBELL, STATUS_READ, ENTDAA, SETDASA, RSTDAA, ENEC, DISEC, GETPID, GETBCR, GETDCR, GETSTATUS and
GETMXDS: the transfers of the BMC have their effect while the management domain is on; a transfer beyond the 4,096 bytes of a buffer
is not acknowledged; a CCC of I3C mode is acknowledged in that mode. -/
def Obligations.ManagementCommands : Prop :=
  ((∀ (s : State) (src : Nat),
    (s.pw.inStop = false → exec .managementTick s = .next ((upto 0 9).foldl takePending (beginTick s))) ∧
    (∀ p, reachesMbox s p src = true → sourceServed s src = true → (mbox s src).pending = false → (mbox s src).running = none →
      exec (.mgMbDoorbell p src) s = .next (setMbox s src { mbox s src with pending := true, overrun := false })) ∧
    (∀ p, reachesMbox s p src = true → sourceServed s src = true → (mbox s src).pending = true ∨ (mbox s src).running ≠ none →
      exec (.mgMbDoorbell p src) s = .next (setMbox s src { mbox s src with overrun := true })) ∧
    (∀ from_ n host, (mbox s src).running = some (.fetchFlash from_ n) →
      exec (.flashWrite src from_ n host) s =
        .next (complete s src 0x52 (some .flashWrite) (fun v => doFlashWrite v src from_ n host))) ∧
    (∀ p, reachesMbox s p src = true →
      exec (.mgMbRsp p src) s = .next (setMbox s src { mbox s src with ready := false })) ∧
    (∀ b, s.mg.flash = some (src, b) →
      let u := writeHeader (writeBank { s with mg := { s.mg with flash := none } } b) (!s.mg.bank)
      exec (.flashWriteComplete true) s = .next (answer u src 0x52
        { status := .ok, results := [(1, b2n (!s.mg.bank)), (8, pkgFirmware b)] })) ∧
    (∀ b, s.mg.flash = some (src, b) →
      let u := { s with mg := { s.mg with flash := none } }
      exec (.flashWriteComplete false) s = .next (answer (raiseSrc (useFree u) Src.mgFlash {}) src 0x52
        { status := .badImage, detail := BitVec.ofNat 64 (1 + (freeWord u).toNat % 3) }))) ∧
  (∀ (r s : State) (src q : Nat), Rings r src s →
    (Served s src 0x50 → exec (.deviceInfo src) r = .next (tickRest src (answered s src 0x50
      [(8, mgId), (8, s.mg.fw.toNat), (1, phaseCode s.pw.phase), (8, mgBoot s)] (fun u => u)))) ∧
    (∀ from_ n host b v, Served s src 0x52 → s.mg.flash = none → readImage (accepted s src) mgt from_ n host = (.ok b, v) →
      flashFault v b = none →
      let u := { v with mg := { v.mg with flash := some (src, b.take (pkgLength b)) } }
      exec (.flashWrite src from_ n host) r = .next (tickRest src (setMbox u src { mbox u src with running := some .flashWrite }))) ∧
    (∀ (v : Word) off b, Served s src 0x53 → s.mg.keepDue ≤ s.now →
      (v.toNat ≤ 255 → exec (.keepWrite src 0 v off b) r = .next (tickRest src (answered s src 0x53 [] (fun u => keepWrite u Keep.mgrPorts v)))) ∧
      (21 ≤ v.toNat → v.toNat ≤ 40 →
        exec (.keepWrite src 1 v off b) r = .next (tickRest src (answered s src 0x53 [] (fun u => keepWrite u Keep.vfBar2 v)))) ∧
      (v.toNat < 2 ^ 32 → exec (.keepWrite src 2 v off b) r = .next (tickRest src (answered s src 0x53 [] (fun u => keepWrite u Keep.subsys v)))) ∧
      (b ≠ [] → off + b.length ≤ 2040 →
        exec (.keepWrite src 3 v off b) r = .next (tickRest src (answered s src 0x53 [] (fun u => writeUser u off b))))) ∧
    (∀ m p d st, Served s src 0x54 → m ≤ 1 → p ≤ 15 → d ≤ 255 →
      exec (.timeSet src m p d st) r = .next (tickRest src (answered s src 0x54 [] (fun u =>
        match st with
        | some t => stepTime (timeMode u (m == 1) p d) (BitVec.toNat t)
        | none => timeMode u (m == 1) p d)))) ∧
    (∀ prio b x, Served s src 0x55 → queue? s q = some x → x.ctx = mgt → x.destroyed = false → prio ≤ 7 → b ≠ [] →
      b.length ≤ 4032 → s.th.safe = false → Admits s q prio (mkTag mgt 1) b.length →
      exec (.queuePush src q prio b) r =
        .next (tickRest src (answered s src 0x55 [] (fun u => pushed u q prio (mkTag mgt 1) b false)))) ∧
    (∀ x i, Served s src 0x56 → queue? s q = some x → headItem x = some i → x.ctx = mgt → i.bytes.length ≤ 4032 →
      exec (.queuePop src q) r = .next (tickRest src (answer (unlinkItem (accepted s src) q x i 0) src 0x56
        { status := .ok, detail := BitVec.ofNat 64 (b2n i.poison), results := [(1, i.prio)], data := i.bytes }))))) ∧
  (∀ (s : State), bmcUp s = true →
    (∀ off b, off + b.length ≤ 4096 → exec (.requestBufferWrite off b) s = .next (writeRequest s 8 off b)) ∧
    (∀ off b, 4096 < off + b.length → exec (.requestBufferWrite off b) s = .next (emit s .bmcNack)) ∧
    (∀ off n, off + n ≤ 4096 →
      let u := emit s (.bmc (Mem.read (mbox s 8).rsp off n))
      exec (.responseBufferRead off n) s = .next (if off = 0 ∧ 0 < n then takeResponse u 8 else u)) ∧
    (∀ off n, 4096 < off + n → exec (.responseBufferRead off n) s = .next (emit s .bmcNack)) ∧
    ((mbox s 8).pending = false → (mbox s 8).running = none →
      exec .bmcDoorbell s = .next (setMbox s 8 { mbox s 8 with pending := true, overrun := false })) ∧
    exec .statusRead s = .next (emit s
      (.bmc [BitVec.ofNat 8 (b2n (mbox s 8).ready + 2 * b2n (!s.th.pending.isEmpty) + 4 * b2n s.th.safe)])) ∧
    (∀ a, exec (.entdaa a) s = .next { s with mg := { s.mg with i3c := true, i3cAddr := a % 128 } }) ∧
    (∀ a, exec (.setdasa a) s = .next { s with mg := { s.mg with i3c := true, i3cAddr := a % 128 } }) ∧
    exec .rstdaa s = .next { s with mg := { s.mg with i3c := false, i3cAddr := 0 } } ∧
    (s.mg.i3c = true →
      exec .enec s = .next { s with mg := { s.mg with ibi := true } } ∧
      exec .disec s = .next { s with mg := { s.mg with ibi := false } } ∧
      exec .getpid s = .next (emit s (.bmc (toBe 6 Config.i3cPid.toNat))) ∧
      exec .getbcr s = .next (emit s (.bmc [Config.i3cBcr])) ∧
      exec .getdcr s = .next (emit s (.bmc [Config.i3cDcr])) ∧
      exec .getstatus s = .next (useFree (emit s (.bmc (toBe 2 (Config.i3cStatus s.freeCtr).toNat)))) ∧
      exec .getmxds s = .next (emit s (.bmc (toBe 2 Config.i3cMxds.toNat)))))

/-- R413, R414: an answer stands in the response buffer: CODE, STATUS, the request's SEQ, LENGTH, DETAIL, the tick at which the
command was taken up, then the results, each at a multiple of its width; READY is set, and the source may send its next command.
R412, R451: a command is not taken up where the source is not served, rings no doorbell or has one running: it then changes nothing;
one that BOOT or recovery keeps out answers BUSY, with no other effect. A doorbell during a command of the source is ignored and
sets OVERRUN. -/
def Obligations.MailboxAnswers : Prop :=
  (∀ (s : State) (src code : Nat) (r : Reply), code < 256 → (replyPayload r).length ≤ 4032 →
    let u := answer s src code r
    let b := Mem.read (mbox u src).rsp 0 (64 + (replyPayload r).length)
    (mbox u src).ready = true ∧ (mbox u src).pending = false ∧ (mbox u src).running = none ∧
    b = replyBytes (mbox s src) code r ∧
    leAt b 0 1 = code ∧ leAt b 1 1 = statusCode r.status ∧ leAt b 4 4 = (replyPayload r).length ∧
    leAt b 8 8 = r.detail.toNat ∧ (replyPayload r).length % 8 = 0) ∧
  (∀ (s : State) (src code : Nat) (r : Option Running) (body : State → Done),
    (takesUp s src = false → takeUp s src code r body = s) ∧
    (takesUp s src = true → notReady s code = true →
      takeUp s src code r body = answer (accepted s src) src code { status := .busy }) ∧
    (Served s src code → ∀ (l : List (Bool × Status)) st d, firstRefusal l = some st →
      takeUp s src code r (fun u => guardAll u l d) = answer (accepted s src) src code { status := st }) ∧
    (∀ f : State → Ans, sourceServed s src = true → (mbox s src).running ≠ none →
      atNextTick s src f = .next (setMbox s src { mbox s src with overrun := true })))

/-! The whole machine -/

/-- A step takes the command at the front of the queue and runs it on the state with the queue's rest; on an empty queue one FCLK
cycle passes (log entry 1: the model's choice). -/
def Obligations.StepRunsFrontCommand : Prop :=
  ∀ (s : State), (∀ c rest, s.pending = c :: rest → step s = exec c { s with pending := rest }) ∧
    (s.pending = [] → step s = .next (passCycles s 1))

/-- R413: what is packed as a response's results reads back, field by field, with every padding byte zero, by the rule that reads a
request's payload: no bit of a field is dropped, whatever the widths and values. -/
def Obligations.PackedFieldsReadBack : Prop :=
  ∀ (l : List (Nat × Nat)) (tail : Bytes), (∀ f ∈ l, FieldFits f) →
    readFields (l.map (fun f => f.1)) 0 (packFields l [] ++ tail) [] =
      some (l.map (fun f => f.2), (packFields l []).length)

/-- Every step keeps the canonical form of the pool: bytes, poison marks and written lines, each in rising order of address with no
entry equal to what an unlisted one reads as. -/
def Obligations.StepKeepsPoolForm : Prop :=
  ∀ (s t : State), PoolForm s.mp → step s = .next t → PoolForm t.mp

/-- R8, R29, R73, R103, R158, R185, R222, R245, R249, R304, R337, R350, R405, R406, R417: the machine right after reset. The pool
reads zero, every granule is FREE, no queue but the management queue, window, connection, program or tenant exists, every thread is
FREE with p0 alone true, channels 1008 to 1023 are the system's, the counters and registers hold the reset values that their tables
give, no link is up, the phase is BOOT, the pair is SOLO, and the device is not in safe state. The pool has its canonical form. -/
def Obligations.ResetState : Prop :=
  let s := State.reset
  PoolForm s.mp ∧ s.pending = [] ∧ s.th.safe = false ∧ s.sm.mode = .solo ∧ s.sm.linkUp = false ∧ s.pw.phase = .boot ∧
    (∀ a n, poolBytes s a n = fill n 0) ∧ (∀ g, (gran s g).st = .free) ∧ (∀ q, q ≠ mgtQueue → queue? s q = none) ∧ (∀ i, rwin? s i = none) ∧
    (∀ i, window? s i = none) ∧ (∀ c, (conn s c).st = .free) ∧ (∀ h, program? s h = none) ∧ (∀ t, (tenant s t).st = .free) ∧
    (∀ t, (thread s t).mode = .free ∧ (thread s t).p = 1 ∧ ∀ n, sGet (thread s t) n = 0 ∧ vGet (thread s t) n = 0) ∧
    (∀ c, c < 1024 → (chan s c).st = if 1008 ≤ c then .idle else .free) ∧ (∀ p, (port s p).link = false) ∧
    freeCells s = 262140 ∧ (∀ p f, (bucket s p f).rate = 0 ∧ (bucket s p f).depth = 1024) ∧ s.mg.tick = 0 ∧
    regNat s Reg.mgWdt = 16 ∧ regNat s Reg.mpPatrol = 24 ∧ keepNat s Keep.wakeWait = 100 ∧ keepNat s Keep.vfBar2 = 34 ∧
    keepNat s Keep.mgrPorts = 1 ∧ keepNat s Keep.pair = 0
end

