-- ==== Sys2Proof/Laws/Aes.lean ====
section
/-! SUPPORT. The cipher undoes itself: the inverse cipher takes back what the cipher gave, and a line that was encrypted with a
key reads back with it (R114). -/

namespace Sys2Proof.Machine

namespace Aes

/-! Bytes through the tables -/

theorem sub1_lt (t x : Nat) : sub1 t x < 256 := Nat.mod_lt _ (by decide)

theorem sub1_mod (t x : Nat) : sub1 t (x % 256) = sub1 t x := by simp [sub1]

theorem tables_inverse : ∀ x < 256, sub1 inv (sub1 sbox x) = x := by decide +kernel

theorem sub1_inv (x : Nat) : sub1 inv (sub1 sbox x) = x % 256 := by
  rw [← sub1_mod sbox, tables_inverse _ (Nat.mod_lt _ (by decide))]

theorem subBytes_lt (t : SubTable) : ∀ n v, subBytes t n v < 256 ^ n
  | 0, _ => by simp [subBytes]
  | n + 1, v => by
    have h := subBytes_lt t n (v / 256)
    have a := sub1_lt t v
    simp only [subBytes, pow_succ]
    omega

theorem subBytes_inv : ∀ n v, subBytes inv n (subBytes sbox n v) = v % 256 ^ n
  | 0, v => by simp [subBytes, Nat.mod_one]
  | n + 1, v => by
    have a := sub1_lt sbox v
    have d : (sub1 sbox v + 256 * subBytes sbox n (v / 256)) / 256 = subBytes sbox n (v / 256) := by omega
    have m : (sub1 sbox v + 256 * subBytes sbox n (v / 256)) % 256 = sub1 sbox v := by omega
    rw [subBytes, subBytes, d, subBytes_inv n, ← sub1_mod, m, sub1_inv, pow_succ', Nat.mod_mul]

theorem unsub_sub (b : Block) : subBlock inv (subBlock sbox b) = b := by
  have h : subBytes sbox 16 b.toNat < 2 ^ 128 := subBytes_lt sbox 16 b.toNat
  apply BitVec.eq_of_toNat_eq
  rw [subBlock, subBlock, BitVec.toNat_ofNat, BitVec.toNat_ofNat, Nat.mod_eq_of_lt h, subBytes_inv]
  have := b.isLt
  omega

/-! Rows shifted -/

/-- Digit k of a number built from digits. -/
theorem digit_foldr (d : Nat → Nat) (hd : ∀ i, d i < 256) : ∀ (l : List Nat) (k : Nat), k < l.length →
    l.foldr (fun i v => d i + 256 * v) 0 / 2 ^ (8 * k) % 256 = d (l.getD k 0)
  | i :: l, 0, _ => by
    have := hd i
    simp only [List.foldr_cons, List.getD_cons_zero, Nat.mul_zero, pow_zero, Nat.div_one]
    omega
  | i :: l, k + 1, h => by
    have := hd i
    have e : 2 ^ (8 * (k + 1)) = 256 * 2 ^ (8 * k) := by rw [Nat.mul_add, pow_add]; omega
    have q : (d i + 256 * l.foldr (fun i v => d i + 256 * v) 0) / 256 = l.foldr (fun i v => d i + 256 * v) 0 := by omega
    rw [List.foldr_cons, e, ← Nat.div_div_eq_div_mul, q, digit_foldr d hd l k (by simpa using h), List.getD_cons_succ]

theorem foldr_lt (d : Nat → Nat) (hd : ∀ i, d i < 256) : ∀ l : List Nat, l.foldr (fun i v => d i + 256 * v) 0 < 256 ^ l.length
  | [] => by simp
  | i :: l => by
    have := hd i
    have h := foldr_lt d hd l
    simp only [List.foldr_cons, List.length_cons, pow_succ]
    omega

/-- Byte k of a permuted block. -/
theorem permute_byte (p : List Nat) (b : Block) (hp : p.length = 16) {k : Nat} (hk : k < 16) :
    (permute p b).toNat / 2 ^ (8 * k) % 256 = b.toNat / 2 ^ (8 * p.getD k 0) % 256 := by
  have hd : ∀ i, b.toNat / 2 ^ (8 * i) % 256 < 256 := fun i => Nat.mod_lt _ (by decide)
  have h := foldr_lt _ hd p
  rw [hp] at h
  rw [permute, BitVec.toNat_ofNat, Nat.mod_eq_of_lt (show _ < 2 ^ 128 from h), digit_foldr _ hd p k (by omega)]

/-- Two blocks of the same bytes are equal. -/
theorem block_ext {a b : Block} (h : ∀ k < 16, a.toNat / 2 ^ (8 * k) % 256 = b.toNat / 2 ^ (8 * k) % 256) : a = b := by
  apply BitVec.eq_of_getLsbD_eq
  intro i hi
  have e := congrArg (fun n => n.testBit (i % 8)) (h (i / 8) (by omega))
  have w : ∀ n : Nat, (n / 2 ^ (8 * (i / 8)) % 256).testBit (i % 8) = n.testBit i := by
    intro n
    rw [show (256 : Nat) = 2 ^ 8 from rfl, Nat.testBit_mod_two_pow, Nat.testBit_div_two_pow,
      show i % 8 + 8 * (i / 8) = i by omega]
    simp [Nat.mod_lt]
  simp only [w] at e
  exact e

theorem unshift_shift (b : Block) : unshiftRows (shiftRows b) = b := by
  apply block_ext
  intro k hk
  rw [unshiftRows, permute_byte _ _ rfl hk]
  have hp : ([0, 13, 10, 7, 4, 1, 14, 11, 8, 5, 2, 15, 12, 9, 6, 3] : List Nat).getD k 0 < 16 := by
    revert k; decide
  rw [shiftRows, permute_byte _ _ rfl hp]
  have : ∀ k < 16, ([0, 5, 10, 15, 4, 9, 14, 3, 8, 13, 2, 7, 12, 1, 6, 11] : List Nat).getD
      (([0, 13, 10, 7, 4, 1, 14, 11, 8, 5, 2, 15, 12, 9, 6, 3] : List Nat).getD k 0) 0 = k := by decide
  rw [this k hk]

theorem and_xor (a b c : Block) : (a ^^^ b) &&& c = (a &&& c) ^^^ (b &&& c) := by
  ext i hi
  simp only [BitVec.getElem_and, BitVec.getElem_xor, Bool.and_xor_distrib_right]

/-! Columns mixed: a linear map whose fourth power is the identity -/

theorem xor_left (a b c : Block) : a ^^^ (b ^^^ c) = b ^^^ (a ^^^ c) := by
  rw [← BitVec.xor_assoc, BitVec.xor_comm a, BitVec.xor_assoc]

theorem xtime_xor (a b : Block) : xtime (a ^^^ b) = xtime a ^^^ xtime b := by
  simp only [xtime, BitVec.ushiftRight_xor_distrib, and_xor, BitVec.shiftLeft_xor_distrib]
  simp only [BitVec.xor_assoc, BitVec.xor_comm, xor_left]

theorem rotate_xor (a b : Block) : rotate (a ^^^ b) = rotate a ^^^ rotate b := by
  simp only [rotate, BitVec.ushiftRight_xor_distrib, BitVec.shiftLeft_xor_distrib, and_xor]
  simp only [BitVec.xor_assoc, xor_left]

theorem mix_xor (a b : Block) : mixColumns (a ^^^ b) = mixColumns a ^^^ mixColumns b := by
  simp only [mixColumns, rotate_xor, xtime_xor]
  simp only [BitVec.xor_assoc, BitVec.xor_comm, xor_left]

/-- A linear map that fixes every single bit fixes every block. -/
theorem linear_ext (f : Block → Block) (hx : ∀ a b, f (a ^^^ b) = f a ^^^ f b) (hb : ∀ i < 128, f (1#128 <<< i) = 1#128 <<< i) :
    ∀ b, f b = b := by
  have h0 : f 0 = 0 := by
    have h := hx 0 0
    simpa using h
  have main : ∀ n, n ≤ 128 → ∀ b : Block, b.toNat < 2 ^ n → f b = b := by
    intro n
    induction n with
    | zero =>
      intro _ b h
      have e : b = 0 := BitVec.eq_of_toNat_eq (by simp at h; simpa using h)
      rw [e, h0]
    | succ n ih =>
      intro hn b h
      by_cases c : b.toNat < 2 ^ n
      · exact ih (by omega) b c
      · have r : (b ^^^ 1#128 <<< n).toNat < 2 ^ n := by
          apply Nat.lt_pow_two_of_testBit
          intro i hi
          change (b ^^^ 1#128 <<< n).getLsbD i = false
          rw [BitVec.getLsbD_xor, BitVec.getLsbD_shiftLeft]
          by_cases e : i = n
          · subst e
            have t : b.getLsbD i = true := by
              change b.toNat.testBit i = true
              rw [Nat.testBit_eq_decide_div_mod_eq]
              have : b.toNat / 2 ^ i = 1 := by
                rw [pow_succ] at h
                exact Nat.div_eq_of_lt_le (by omega) (by omega)
              simp [this]
            simp [t, show i < 128 by omega]
          · have t : b.getLsbD i = false := Nat.testBit_lt_two_pow (lt_of_lt_of_le h (Nat.pow_le_pow_right (by decide) (by omega)))
            simp [t, show ¬ i < n by omega, show i - n ≠ 0 by omega]
        have e : b = (b ^^^ 1#128 <<< n) ^^^ 1#128 <<< n := by simp
        rw [e, hx, ih (by omega) _ r, hb n (by omega)]
  exact fun b => main 128 (le_refl _) b b.isLt

theorem mix_bits : ∀ i < 128, mixColumns (mixColumns (mixColumns (mixColumns (1#128 <<< i)))) = 1#128 <<< i := by decide +kernel

theorem unmix_mix (b : Block) : unmixColumns (mixColumns b) = b :=
  linear_ext (fun b => unmixColumns (mixColumns b)) (fun a b => by simp only [unmixColumns, mix_xor]) mix_bits b

/-! The cipher -/

theorem unrounds_rounds : ∀ (ks : List Block) (b : Block), unrounds ks (rounds ks b) = b
  | [], _ => rfl
  | [k], b => by
    rw [rounds, unrounds, BitVec.xor_assoc, BitVec.xor_self, BitVec.xor_zero, unshift_shift, unsub_sub]
  | k :: k' :: ks, b => by
    have h : k' :: ks = [] → False := List.cons_ne_nil _ _
    rw [rounds.eq_3 _ _ _ h, unrounds.eq_3 _ _ _ h, unrounds_rounds (k' :: ks), BitVec.xor_assoc, BitVec.xor_self, BitVec.xor_zero,
      unmix_mix, unshift_shift, unsub_sub]

theorem decipher_cipher (ks : List Block) (b : Block) : decipher ks (cipher ks b) = b := by
  rw [decipher, cipher, unrounds_rounds, BitVec.xor_assoc, BitVec.xor_self, BitVec.xor_zero]

end Aes

/-- The parts of a number built from four digits. -/
theorem four_digits (m a b c d : Nat) (ha : a < m) (hb : b < m) (hc : c < m) (hd : d < m) :
    let v := (a + (b * m + (c * (m * m) + d * (m * (m * m))))) % (m * (m * (m * m)))
    v % m = a ∧ v / m % m = b ∧ v / (m * m) % m = c ∧ v / (m * (m * m)) % m = d := by
  have hm : 0 < m := by omega
  have q (x y : Nat) (h : x < m) : (x + m * y) / m = y := by
    rw [Nat.add_mul_div_left _ _ hm, Nat.div_eq_of_lt h, Nat.zero_add]
  have r (x y : Nat) (h : x < m) : (x + m * y) % m = x := by
    rw [Nat.add_mul_mod_self_left, Nat.mod_eq_of_lt h]
  have u (x y z : Nat) (h : x < m) (k : y < z) : x + m * y < m * z := by
    calc x + m * y < m + m * y := by omega
      _ = m * (y + 1) := by ring
      _ ≤ m * z := Nat.mul_le_mul_left _ k
  have e : a + (b * m + (c * (m * m) + d * (m * (m * m)))) = a + m * (b + m * (c + m * d)) := by ring
  rw [e]
  intro v
  have hv : v = a + m * (b + m * (c + m * d)) := Nat.mod_eq_of_lt (u _ _ _ ha (u _ _ _ hb (u _ _ _ hc hd)))
  simp only [hv, ← Nat.div_div_eq_div_mul, q _ _ ha, q _ _ hb, q _ _ hc, r _ _ ha, r _ _ hb, r _ _ hc, Nat.mod_eq_of_lt hd, and_self]

theorem sum_upto4 (d : Nat → Nat) : ((upto 0 4).map d).sum = d 0 + (d 1 + (d 2 + (d 3 + 0))) := rfl

/-- Block j of a line that went through a function. -/
theorem xts_block (f : Block → Block) (ts : List Block) (l : Line) {j : Nat} (hj : j < 4) :
    BitVec.extractLsb' (128 * j) 128 (xts f ts l) = f (BitVec.extractLsb' (128 * j) 128 l ^^^ ts.getD j 0) ^^^ ts.getD j 0 := by
  apply BitVec.eq_of_toNat_eq
  generalize hg : (fun j => f (BitVec.extractLsb' (128 * j) 128 l ^^^ ts.getD j 0) ^^^ ts.getD j 0) = g
  have r : f (BitVec.extractLsb' (128 * j) 128 l ^^^ ts.getD j 0) ^^^ ts.getD j 0 = g j := by subst hg; rfl
  have e : xts f ts l = BitVec.ofNat 512 ((g 0).toNat * 2 ^ (128 * 0) + ((g 1).toNat * 2 ^ (128 * 1) +
      ((g 2).toNat * 2 ^ (128 * 2) + ((g 3).toNat * 2 ^ (128 * 3) + 0)))) := by
    subst hg
    exact congrArg (BitVec.ofNat 512) (sum_upto4 _)
  obtain ⟨m, hm⟩ : ∃ m, m = (2 : Nat) ^ 128 := ⟨_, rfl⟩
  have p0 : (2 : Nat) ^ (128 * 0) = 1 := rfl
  have p1 : (2 : Nat) ^ (128 * 1) = m := hm.symm
  have p2 : (2 : Nat) ^ (128 * 2) = m * m := by rw [hm]; exact Nat.pow_add 2 128 128
  have p3 : (2 : Nat) ^ (128 * 3) = m * (m * m) := by rw [← p2, hm]; exact Nat.pow_add 2 128 256
  have p4 : (2 : Nat) ^ 512 = m * (m * (m * m)) := by rw [← p3, hm]; exact Nat.pow_add 2 128 384
  have h (j : Nat) : (g j).toNat < m := hm ▸ (g j).isLt
  obtain ⟨q0, q1, q2, q3⟩ := four_digits m _ _ _ _ (h 0) (h 1) (h 2) (h 3)
  rw [e, r, BitVec.extractLsb'_toNat, BitVec.toNat_ofNat, Nat.shiftRight_eq_div_pow, p0, p1, p2, p3, p4, Nat.mul_one, Nat.add_zero]
  obtain rfl | rfl | rfl | rfl : j = 0 ∨ j = 1 ∨ j = 2 ∨ j = 3 := by omega
  · rw [p0, Nat.div_one]; exact q0
  · rw [p1]; exact q1
  · rw [p2]; exact q2
  · rw [p3]; exact q3

/-- Lines of the same blocks are equal. -/
theorem line_ext {a b : Line} (h : ∀ j < 4, BitVec.extractLsb' (128 * j) 128 a = BitVec.extractLsb' (128 * j) 128 b) : a = b := by
  apply BitVec.eq_of_getLsbD_eq
  intro i hi
  have e := congrArg (fun x : Block => x.getLsbD (i % 128)) (h (i / 128) (by omega))
  simp only [BitVec.getLsbD_extractLsb', show i % 128 < 128 by omega, show 128 * (i / 128) + i % 128 = i by omega, decide_true,
    Bool.true_and] at e
  exact e

/-- A line encrypted with a key reads back with that key. -/
theorem xtsDecrypt_xtsEncrypt (key : BitVec 512) (line : Nat) (l : Line) : xtsDecrypt key line (xtsEncrypt key line l) = l := by
  apply line_ext
  intro j hj
  rw [xtsDecrypt, xts_block _ _ _ hj, xtsEncrypt, xts_block _ _ _ hj]
  simp only [BitVec.xor_assoc, BitVec.xor_self, BitVec.xor_zero, Aes.decipher_cipher]

end Sys2Proof.Machine
end

