-- ==== Sys2Proof/Laws/Tables.lean ====
section
/-! SUPPORT. Laws of the sparse tables and memories: what is read after a write, and that every operation keeps the canonical
form. -/

namespace Sys2Proof.Machine

/-! Reading after writing -/

theorem Tab.find_put {α : Type} (m : Table α) (k x : Nat) (a : α) :
    Tab.find (Tab.put m k a) x = if x = k then some a else Tab.find m x := by
  induction m with
  | nil =>
    simp only [Tab.put, Tab.find]
    by_cases h : k = x
    · rw [if_pos h, if_pos h.symm]
    · rw [if_neg h, if_neg (fun e => h e.symm)]
  | cons e t ih =>
    obtain ⟨j, v⟩ := e
    simp only [Tab.put]
    by_cases hx : x = k
    · subst hx
      rw [if_pos rfl]
      split_ifs with h1 h2
      · simp [Tab.find]
      · simp [Tab.find]
      · rw [Tab.find, if_neg (fun h => h2 h.symm), ih, if_pos rfl]
    · rw [if_neg hx] at ih ⊢
      split_ifs with h1 h2
      · rw [Tab.find, if_neg (fun h => hx h.symm)]
      · subst h2; rw [Tab.find, if_neg (fun h => hx h.symm), Tab.find, if_neg (fun h => hx h.symm)]
      · rw [Tab.find, Tab.find, ih]

theorem Tab.find_del {α : Type} (m : Table α) (k x : Nat) :
    Tab.find (Tab.del m k) x = if x = k then none else Tab.find m x := by
  induction m with
  | nil => simp [Tab.del, Tab.find]
  | cons e t ih =>
    obtain ⟨j, v⟩ := e
    simp only [Tab.del]
    by_cases hj : j = k
    · subst hj
      rw [if_pos rfl, ih]
      by_cases hx : x = j
      · simp [hx]
      · simp [Tab.find, hx, Ne.symm hx]
    · rw [if_neg hj]
      simp only [Tab.find, ih]
      by_cases hx : x = k
      · subst hx; simp [hj]
      · simp [hx]

theorem Tab.get_put {α : Type} (d : α) (m : Table α) (k x : Nat) (a : α) :
    Tab.get d (Tab.put m k a) x = if x = k then a else Tab.get d m x := by
  simp only [Tab.get, Tab.find_put]; split_ifs <;> rfl

theorem Tab.get_set {α : Type} [DecidableEq α] (d : α) (m : Table α) (k x : Nat) (a : α) :
    Tab.get d (Tab.set d m k a) x = if x = k then a else Tab.get d m x := by
  unfold Tab.set
  by_cases h : a = d
  · rw [if_pos h]; unfold Tab.get; rw [Tab.find_del]
    by_cases hx : x = k
    · rw [if_pos hx, if_pos hx, h]; rfl
    · rw [if_neg hx, if_neg hx]
  · rw [if_neg h, Tab.get_put]

@[simp] theorem Tab.get_set_eq {α : Type} [DecidableEq α] (d : α) (m : Table α) (k : Nat) (a : α) :
    Tab.get d (Tab.set d m k a) k = a := by rw [Tab.get_set, if_pos rfl]

theorem Tab.get_set_ne {α : Type} [DecidableEq α] (d : α) (m : Table α) (k x : Nat) (a : α) (hx : x ≠ k) :
    Tab.get d (Tab.set d m k a) x = Tab.get d m x := by
  rw [Tab.get_set, if_neg hx]

/-! Keeping the canonical form -/

theorem Tab.sortedFrom_mono {α : Type} (m : Table α) (a b : Nat) (hab : a ≤ b) (h : Tab.sortedFrom b m = true) :
    Tab.sortedFrom a m = true := by
  cases m with
  | nil => rfl
  | cons e t => simp only [Tab.sortedFrom, Bool.and_eq_true, decide_eq_true_eq] at h ⊢; exact ⟨by omega, h.2⟩

theorem Tab.sortedFrom_put {α : Type} (m : Table α) (lo k : Nat) (a : α) (h : Tab.sortedFrom lo m = true) (hk : lo ≤ k) :
    Tab.sortedFrom lo (Tab.put m k a) = true := by
  induction m generalizing lo with
  | nil => simp [Tab.put, Tab.sortedFrom, hk]
  | cons e t ih =>
    obtain ⟨j, v⟩ := e
    simp only [Tab.sortedFrom, Bool.and_eq_true, decide_eq_true_eq] at h
    simp only [Tab.put]
    split_ifs with h1 h2
    · simp only [Tab.sortedFrom, Bool.and_eq_true, decide_eq_true_eq]; exact ⟨hk, h1, h.2⟩
    · subst h2; simp only [Tab.sortedFrom, Bool.and_eq_true, decide_eq_true_eq]; exact h
    · simp only [Tab.sortedFrom, Bool.and_eq_true, decide_eq_true_eq]; exact ⟨h.1, ih _ h.2 (by omega)⟩

theorem Tab.sortedFrom_del {α : Type} (m : Table α) (lo k : Nat) (h : Tab.sortedFrom lo m = true) :
    Tab.sortedFrom lo (Tab.del m k) = true := by
  induction m generalizing lo with
  | nil => rfl
  | cons e t ih =>
    obtain ⟨j, v⟩ := e
    simp only [Tab.sortedFrom, Bool.and_eq_true, decide_eq_true_eq] at h
    simp only [Tab.del]
    split_ifs with h1
    · exact Tab.sortedFrom_mono _ _ _ (by omega) (ih _ h.2)
    · simp only [Tab.sortedFrom, Bool.and_eq_true, decide_eq_true_eq]; exact ⟨h.1, ih _ h.2⟩

theorem Tab.sortedFrom_keep {α : Type} (p : Nat → α → Bool) (m : Table α) (lo : Nat) (h : Tab.sortedFrom lo m = true) :
    Tab.sortedFrom lo (Tab.keep p m) = true := by
  induction m generalizing lo with
  | nil => rfl
  | cons e t ih =>
    obtain ⟨j, v⟩ := e
    simp only [Tab.sortedFrom, Bool.and_eq_true, decide_eq_true_eq] at h
    simp only [Tab.keep]
    split_ifs
    · simp only [Tab.sortedFrom, Bool.and_eq_true, decide_eq_true_eq]; exact ⟨h.1, ih _ h.2⟩
    · exact Tab.sortedFrom_mono _ _ _ (by omega) (ih _ h.2)

theorem Tab.sortedFrom_mapAll {α : Type} (f : Nat → α → α) (m : Table α) (lo : Nat) (h : Tab.sortedFrom lo m = true) :
    Tab.sortedFrom lo (Tab.mapAll f m) = true := by
  induction m generalizing lo with
  | nil => rfl
  | cons e t ih =>
    obtain ⟨j, v⟩ := e
    simp only [Tab.sortedFrom, Tab.mapAll, Bool.and_eq_true, decide_eq_true_eq] at h ⊢
    exact ⟨h.1, ih _ h.2⟩

theorem Tab.sorted_put {α : Type} (m : Table α) (k : Nat) (a : α) (h : Tab.sorted m = true) :
    Tab.sorted (Tab.put m k a) = true := Tab.sortedFrom_put m 0 k a h (Nat.zero_le _)

theorem Tab.sorted_del {α : Type} (m : Table α) (k : Nat) (h : Tab.sorted m = true) : Tab.sorted (Tab.del m k) = true :=
  Tab.sortedFrom_del m 0 k h

theorem Tab.sorted_set {α : Type} [DecidableEq α] (d : α) (m : Table α) (k : Nat) (a : α) (h : Tab.sorted m = true) :
    Tab.sorted (Tab.set d m k a) = true := by
  unfold Tab.set; split_ifs
  · exact Tab.sorted_del m k h
  · exact Tab.sorted_put m k a h

theorem Tab.mem_put {α : Type} (m : Table α) (k : Nat) (a : α) (e : Nat × α) (h : e ∈ Tab.put m k a) : e ∈ m ∨ e.2 = a := by
  induction m with
  | nil => simp only [Tab.put, List.mem_singleton] at h; exact Or.inr (by rw [h])
  | cons x t ih =>
    obtain ⟨j, v⟩ := x
    simp only [Tab.put] at h
    split_ifs at h with h1 h2
    · rcases List.mem_cons.mp h with h | h
      · exact Or.inr (by rw [h])
      · exact Or.inl h
    · rcases List.mem_cons.mp h with h | h
      · exact Or.inr (by rw [h])
      · exact Or.inl (List.mem_cons_of_mem _ h)
    · rcases List.mem_cons.mp h with h | h
      · exact Or.inl (by rw [h]; exact List.mem_cons_self)
      · rcases ih h with h | h
        · exact Or.inl (List.mem_cons_of_mem _ h)
        · exact Or.inr h

theorem Tab.mem_del {α : Type} (m : Table α) (k : Nat) (e : Nat × α) (h : e ∈ Tab.del m k) : e ∈ m := by
  induction m with
  | nil => simp [Tab.del] at h
  | cons x t ih =>
    obtain ⟨j, v⟩ := x
    simp only [Tab.del] at h
    split_ifs at h
    · exact List.mem_cons_of_mem _ (ih h)
    · rcases List.mem_cons.mp h with h | h
      · rw [h]; exact List.mem_cons_self
      · exact List.mem_cons_of_mem _ (ih h)

theorem Tab.mem_keep {α : Type} (p : Nat → α → Bool) (m : Table α) (e : Nat × α) (h : e ∈ Tab.keep p m) : e ∈ m := by
  induction m with
  | nil => simp [Tab.keep] at h
  | cons x t ih =>
    obtain ⟨j, v⟩ := x
    simp only [Tab.keep] at h
    split_ifs at h
    · rcases List.mem_cons.mp h with h | h
      · rw [h]; exact List.mem_cons_self
      · exact List.mem_cons_of_mem _ (ih h)
    · exact List.mem_cons_of_mem _ (ih h)

/-- Storing a value keeps the canonical form of a table with a default. -/
theorem Tab.wf_set {α : Type} [DecidableEq α] (d : α) (m : Table α) (k : Nat) (a : α) (h : Tab.wf d m = true) :
    Tab.wf d (Tab.set d m k a) = true := by
  simp only [Tab.wf, Bool.and_eq_true, List.all_eq_true, decide_eq_true_eq] at h ⊢
  refine ⟨Tab.sorted_set d m k a h.1, fun e he => ?_⟩
  unfold Tab.set at he
  split_ifs at he with h1
  · exact h.2 e (Tab.mem_del m k e he)
  · rcases Tab.mem_put m k a e he with he | he
    · exact h.2 e he
    · rw [he]; exact h1

theorem Tab.wf_keep {α : Type} [DecidableEq α] (d : α) (p : Nat → α → Bool) (m : Table α) (h : Tab.wf d m = true) :
    Tab.wf d (Tab.keep p m) = true := by
  simp only [Tab.wf, Bool.and_eq_true, List.all_eq_true, decide_eq_true_eq] at h ⊢
  exact ⟨Tab.sortedFrom_keep p m 0 h.1, fun e he => h.2 e (Tab.mem_keep p m e he)⟩

theorem Tab.wf_sorted {α : Type} [DecidableEq α] (d : α) (m : Table α) (h : Tab.wf d m = true) : Tab.sorted m = true := by
  simp only [Tab.wf, Bool.and_eq_true] at h; exact h.1

theorem Tab.get_keep {α : Type} (d : α) (p : Nat → Bool) (m : Table α) (x : Nat) :
    Tab.get d (Tab.keep (fun k _ => p k) m) x = if p x then Tab.get d m x else d := by
  unfold Tab.get
  induction m with
  | nil => simp [Tab.keep, Tab.find]
  | cons e t ih =>
    obtain ⟨j, v⟩ := e
    simp only [Tab.keep]
    by_cases hj : j = x
    · subst hj
      by_cases hp : p j
      · simp [hp, Tab.find]
      · simp only [hp, Bool.false_eq_true, if_false] at ih ⊢; exact ih
    · by_cases hp : p j
      · simp only [hp, if_true, Tab.find, if_neg hj]; exact ih
      · simp only [hp, Bool.false_eq_true, if_false, Tab.find, if_neg hj]; exact ih

/-! Memories -/

/-- Every write of bytes keeps the canonical form of a memory. -/
theorem Mem.wf_write (b : Bytes) (m : List Host.Cell) (a : Nat) (h : Memory.wf m = true) : Memory.wf (Mem.write m a b) = true := by
  induction b generalizing m a with
  | nil => exact h
  | cons x t ih => exact ih _ _ (Tab.wf_set (0 : Byte) m a x h)

/-- Clearing a span keeps the canonical form of a memory. -/
theorem Mem.wf_clear (m : List Host.Cell) (a n : Nat) (h : Memory.wf m = true) : Memory.wf (Mem.clear m a n) = true :=
  Tab.wf_keep (0 : Byte) _ m h

theorem Mem.byte_write (b : Bytes) (m : List Host.Cell) (a x : Nat) :
    Mem.byte (Mem.write m a b) x = if a ≤ x ∧ x < a + b.length then b.getD (x - a) 0 else Mem.byte m x := by
  induction b generalizing m a with
  | nil => simp [Mem.write]
  | cons y t ih =>
    simp only [Mem.write, ih _ (a + 1), List.length_cons]
    unfold Mem.byte
    rw [Tab.get_set (0 : Byte) m a x y]
    by_cases hx : x = a
    · subst hx; simp
    · by_cases h1 : a + 1 ≤ x ∧ x < a + 1 + t.length
      · rw [if_pos h1, if_pos (by omega), show x - a = (x - (a + 1)) + 1 from by omega, List.getD_cons_succ]
      · rw [if_neg h1, if_neg hx, if_neg (by omega)]

/-- A byte outside the span written keeps its value. -/
theorem Mem.byte_write_outside (b : Bytes) (m : List Host.Cell) (a x : Nat)
    (hx : x < a ∨ a + b.length ≤ x) : Mem.byte (Mem.write m a b) x = Mem.byte m x := by
  rw [Mem.byte_write b m a x, if_neg (by omega)]

theorem upto_length (lo n : Nat) : (upto lo n).length = n := by
  induction n generalizing lo with
  | zero => rfl
  | succ n ih => simp [upto, ih]

theorem upto_getElem (lo n i : Nat) (h : i < (upto lo n).length) : (upto lo n)[i] = lo + i := by
  induction n generalizing lo i with
  | zero => simp [upto] at h
  | succ n ih =>
    cases i with
    | zero => simp [upto]
    | succ i => simp only [upto, List.getElem_cons_succ]; rw [ih]; omega

theorem mem_upto (lo n i : Nat) : i ∈ upto lo n ↔ lo ≤ i ∧ i < lo + n := by
  induction n generalizing lo with
  | zero => simp [upto]
  | succ n ih => simp only [upto, List.mem_cons, ih]; omega

/-- What has been written is read back. -/
theorem Mem.read_write (b : Bytes) (m : List Host.Cell) (a : Nat) :
    Mem.read (Mem.write m a b) a b.length = b := by
  apply List.ext_getElem
  · simp [Mem.read, upto_length]
  · intro i h1 h2
    simp only [Mem.read, List.getElem_map, upto_getElem, Mem.byte_write b m a _]
    rw [if_pos (by omega)]
    simp [List.getD_eq_getElem?_getD, h2]

theorem toLe_length (n v : Nat) : (toLe n v).length = n := by
  induction n generalizing v with
  | zero => rfl
  | succ n ih => simp [toLe, ih]

/-- A value that fits n bytes is read back from them. -/
theorem le_toLe (n v : Nat) : le (toLe n v) = v % 2 ^ (8 * n) := by
  induction n generalizing v with
  | zero => simp [toLe, le, Nat.mod_one]
  | succ n ih =>
    simp only [toLe, le, ih, BitVec.toNat_ofNat]
    have h : 2 ^ (8 * (n + 1)) = 256 * 2 ^ (8 * n) := by rw [show 8 * (n + 1) = 8 + 8 * n from by ring, pow_add]; norm_num
    rw [h, Nat.mod_mul]

end Sys2Proof.Machine
end

