-- ==== Sys2Proof/Laws/Free.lean ====
section
/-! SUPPORT. Free choices: where there is a candidate, one of the candidates is taken; where there is none, none. -/

namespace Sys2Proof.Machine

theorem oneOf_nil (s : State) (k : Nat) : oneOf s k [] = none := by simp [oneOf]

/-- A candidate is taken when there is one. -/
theorem oneOf_mem {s : State} {k : Nat} {l : List Nat} (h : l ≠ []) : ∃ x ∈ l, oneOf s k l = some x := by
  have hl : 0 < l.length := List.length_pos_iff.mpr h
  have hi := Nat.mod_lt (Config.freeWord (s.freeCtr + k)).toNat hl
  exact ⟨_, List.getElem_mem hi, List.getElem?_eq_getElem hi⟩

/-- What is taken is a candidate. -/
theorem mem_of_oneOf {s : State} {k x : Nat} {l : List Nat} (h : oneOf s k l = some x) : x ∈ l := List.mem_of_getElem? h

/-- The number taken, for a list that has one. -/
theorem oneOf_some {s : State} {k : Nat} {l : List Nat} (h : l ≠ []) : oneOf s k l = some ((oneOf s k l).getD 0) := by
  obtain ⟨x, -, e⟩ := oneOf_mem (s := s) (k := k) h
  simp [e]

/-- The choice depends on the counter of free values only. -/
theorem drawn_congr {s u : State} (h : s.freeCtr = u.freeCtr) : ∀ n k l, drawn s n k l = drawn u n k l := by
  intro n
  induction n with
  | zero => intro k l; rfl
  | succ n ih => intro k l; simp only [drawn, oneOf, h, ih]

theorem someOf_congr {s u : State} (h : s.freeCtr = u.freeCtr) (n k : Nat) (l : List Nat) : someOf s n k l = someOf u n k l := by
  simp only [someOf, drawn_congr h]

/-- What is drawn is drawn from the candidates. -/
theorem mem_of_someOf {s : State} {n k x : Nat} {l : List Nat} (h : x ∈ someOf s n k l) : x ∈ l := (List.mem_filter.mp h).1

/-- The numbers not in use. -/
theorem mem_freeKeys {α : Type} {m : Table α} {lo n x : Nat} :
    x ∈ Tab.freeKeys m lo n ↔ (lo ≤ x ∧ x < lo + n) ∧ (Tab.find m x).isNone = true := by
  simp [Tab.freeKeys, List.mem_filter, mem_upto]

/-- A number in the range that is not in use is a candidate. -/
theorem freeKeys_ne_nil {α : Type} {m : Table α} {lo n : Nat} (x : Nat) (h : lo ≤ x ∧ x < lo + n)
    (hf : (Tab.find m x).isNone = true) : Tab.freeKeys m lo n ≠ [] := List.ne_nil_of_mem (mem_freeKeys.mpr ⟨h, hf⟩)

/-- A TID that is drawn is FREE and in the device's half; none is drawn only when none is FREE there. -/
theorem mem_freeTids {s : State} {t : Nat} : t ∈ freeTids s ↔ (tenant s t).st = .free ∧ t < 256 ∧
    (s.sm.enable = true → (s.sm.role = true ↔ 128 ≤ t)) := by
  unfold freeTids
  rw [List.mem_filter, beq_iff_eq]
  cases s.sm.enable <;> cases s.sm.role <;> simp [mem_upto] <;> constructor <;> rintro ⟨_, _⟩ <;> constructor <;> first | assumption | omega

end Sys2Proof.Machine
end

