-- ==== Sys2Proof/Laws/Issue.lean ====
section
/-! SUPPORT. What issuing an instruction comes to (R62): the one law of `issue` for a word that passes its checks, for one whose
guard is false, and for one that a check stops. -/

namespace Sys2Proof.Machine

@[simp] theorem thread_setThread (s : State) (t : Nat) (th : Thread) : thread (setThread s t th) t = th :=
  Tab.get_set_eq _ _ _ _

theorem thread_setThread_ne (s : State) (t u : Nat) (th : Thread) (h : u ≠ t) : thread (setThread s t th) u = thread s u :=
  Tab.get_set_ne _ _ _ _ _ h

theorem preIssue_of_issues {s : State} {t : Nat} {op : NOp} {w : Nat} (h : Issues s t op w) :
    preIssue s t (thread s t) = .word op w := by
  have hb : ¬(t ≠ mgEngine ∧ (thread s t).budget = 0) := by
    rcases h.budget with h | h
    · simp [h]
    · simp [h]
  unfold preIssue
  rw [if_neg hb]
  simp only [h.word, h.legal]
  have h1 : ¬((op = .mfs ∨ op = .mts) ∧ t ≠ mgEngine) := by
    rintro ⟨h1 | h1, h2⟩
    · exact h2 (h.reads h1).1
    · exact h2 (h.writes h1).1
  have h2 : ¬((op = .mfs ∧ (!mfsOk (wImm w)) = true) ∨ (op = .mts ∧ (!mtsOk (wImm w)) = true)) := by
    rintro (⟨h1, h2⟩ | ⟨h1, h2⟩)
    · simp [(h.reads h1).2] at h2
    · simp [(h.writes h1).2] at h2
  rw [if_neg h1, if_neg h2]

/-- A word that passes every check and whose guard is true is performed. -/
theorem issue_performs {s : State} {t : Nat} {op : NOp} {w : Nat} (h : Performs s t op w) (sel : Nat → Bool)
    (hs : sel w = true) (body : State → Thread → Nat → TRes) :
    issue t op sel s body = finish s t (body s (thread s t) w) := by
  unfold issue
  simp only [preIssue_of_issues h.issues]
  rw [if_neg (by simp [h.issues.may, h.issues.runs]), if_neg (by simp [hs]), if_neg (by simp [h.issues.free]),
    if_neg (by simp [h.guard])]

/-- A word whose guard is false ends there. -/
theorem issue_predicated {s : State} {t : Nat} {op : NOp} {w : Nat} (h : Issues s t op w)
    (hg : guardTrue (thread s t) op w = false) (sel : Nat → Bool) (hs : sel w = true) (body : State → Thread → Nat → TRes) :
    issue t op sel s body = .next (issued s t id) := by
  unfold issue
  simp only [preIssue_of_issues h]
  rw [if_neg (by simp [h.may, h.runs]), if_neg (by simp [hs]), if_neg (by simp [h.free]), if_pos (by simp [hg])]
  rfl

/-- An instruction that a check of R62 stops faults. -/
theorem issue_bad {s : State} {t : Nat} {f : PFault} (hm : mayRun (thread s t) = true) (hr : ctxRuns s (thread s t) = true)
    (h : preIssue s t (thread s t) = .bad f) (op : NOp) (sel : Nat → Bool) (body : State → Thread → Nat → TRes) :
    issue t op sel s body = takeFault s t f := by
  unfold issue
  simp only [h]
  rw [if_neg (by simp [hm, hr])]

/-- Everything that issuing an instruction can come to: nothing, the fault of a check, the slot of a predicated-off word, or the
outcome of the instruction's own effect. -/
theorem issue_cases (s : State) (t : Nat) (op : NOp) (sel : Nat → Bool) (body : State → Thread → Nat → TRes) :
    issue t op sel s body = idle s ∨
    (∃ f, preIssue s t (thread s t) = .bad f ∧ issue t op sel s body = takeFault s t f) ∨
    (∃ w, preIssue s t (thread s t) = .word op w ∧ guardTrue (thread s t) op w = false ∧
      issue t op sel s body = .next (issued s t id)) ∨
    (∃ w, preIssue s t (thread s t) = .word op w ∧ guardTrue (thread s t) op w = true ∧
      issue t op sel s body = finish s t (body s (thread s t) w)) := by
  unfold issue
  simp only []
  split
  · exact .inl rfl
  · split
    · rename_i f hf
      exact .inr (.inl ⟨f, hf, rfl⟩)
    · rename_i o w hw
      split
      · exact .inl rfl
      · rename_i ho
        obtain rfl : o = op := by by_contra h; exact ho (.inl h)
        split
        · exact .inl rfl
        · split
          · rename_i hg
            exact .inr (.inr (.inl ⟨w, hw, by simpa using hg, rfl⟩))
          · rename_i hg
            exact .inr (.inr (.inr ⟨w, hw, by simpa using hg, rfl⟩))

/-- Everything that a fault can come to: it waits, for an earlier load or for room in the journal, or it takes place. -/
theorem takeFault_cases (s : State) (t : Nat) (f : PFault) :
    takeFault s t f = idle s ∨ takeFault s t f = .next (journalWait s) ∨ takeFault s t f = .next (programFault s t f) := by
  unfold takeFault
  simp only []
  split
  · exact .inl rfl
  · split
    · exact .inr (.inl rfl)
    · exact .inr (.inr rfl)

theorem issueFault_cases (s : State) (t : Nat) (f : PFault) :
    issueFault s t f = idle s ∨ issueFault s t f = .next (journalWait s) ∨
    issueFault s t f = .next (programFault (spend s t) t f) := by
  unfold issueFault
  simp only []
  split
  · exact .inl rfl
  · split
    · exact .inr (.inl rfl)
    · exact .inr (.inr rfl)

/-- The instruction's own change of its thread. -/
theorem finish_ok (s u : State) (t : Nat) (f : Thread → Thread) : finish s t (.ok u f) = .next (issued u t f) := rfl

/-- A register-only instruction completes. -/
theorem regOnly_performs {s : State} {t : Nat} {op : NOp} {w : Nat} (h : Performs s t op w)
    (f : Thread → Nat → Thread → Thread) : regOnly t op s f = .next (issued s t (f (thread s t) w)) := by
  unfold regOnly
  rw [issue_performs h _ rfl]
  rfl

end Sys2Proof.Machine
end

