-- ==== Sys2Proof/Laws/Mailbox.lean ====
section
/-! SUPPORT. What taking a mailbox command up comes to: one lemma for a command that is served, and that taking it up touches
nothing that a command's checks read. -/

namespace Sys2Proof.Machine

/-- A served command whose body answers has the body's effect and the answer. -/
theorem takeUp_served (s : State) (src code : Nat) (c : Option Running) (body : State → Done) (t : State) (r : Reply)
    (h : Served s src code) (hb : body (accepted s src) = (t, some r)) :
    takeUp s src code c body = answer t src code r := by
  have h1 := h.takes
  have h2 : notReady (accepted s src) code = false := h.open_
  unfold takeUp
  rw [if_pos h1]
  show (if notReady (accepted s src) code = true then _ else _) = _
  rw [h2]
  show (match body (accepted s src) with | (s, some r) => answer s src code r | (s, none) => _) = _
  rw [hb]

/-- A served command whose body does not answer yet runs on. -/
theorem takeUp_runs (s : State) (src code : Nat) (c : Option Running) (body : State → Done) (t : State)
    (h : Served s src code) (hb : body (accepted s src) = (t, none)) :
    takeUp s src code c body = setMbox t src { mbox t src with running := c } := by
  have h1 := h.takes
  have h2 : notReady (accepted s src) code = false := h.open_
  unfold takeUp
  rw [if_pos h1]
  show (if notReady (accepted s src) code = true then _ else _) = _
  rw [h2]
  show (match body (accepted s src) with | (s, some r) => _ | (s, none) => setMbox s src { mbox s src with running := c }) = _
  rw [hb]

/-- A command that BOOT or recovery keeps out answers BUSY (R378, R409, R451). -/
theorem takeUp_busy (s : State) (src code : Nat) (c : Option Running) (body : State → Done)
    (h : takesUp s src = true) (hn : notReady s code = true) :
    takeUp s src code c body = answer (accepted s src) src code { status := .busy } := by
  have h2 : notReady (accepted s src) code = true := hn
  unfold takeUp
  rw [if_pos h]
  show (if notReady (accepted s src) code = true then answer (accepted s src) src code { status := .busy } else _) = _
  rw [if_pos h2]

/-- Everything that taking a command up can come to: a source that is not served changes nothing; BOOT or recovery answers BUSY;
the command answers, or it runs on. -/
theorem takeUp_cases (s : State) (src code : Nat) (c : Option Running) (body : State → Done) :
    (takesUp s src = false ∧ takeUp s src code c body = s) ∨
    (takesUp s src = true ∧ notReady s code = true ∧
      takeUp s src code c body = answer (accepted s src) src code { status := .busy }) ∨
    (Served s src code ∧ ∃ t r, body (accepted s src) = (t, some r) ∧ takeUp s src code c body = answer t src code r) ∨
    (Served s src code ∧ ∃ t, body (accepted s src) = (t, none) ∧
      takeUp s src code c body = setMbox t src { mbox t src with running := c }) := by
  cases h : takesUp s src with
  | false => exact .inl ⟨rfl, by unfold takeUp; rw [if_neg (by simp [h])]⟩
  | true =>
    cases hn : notReady s code with
    | true => exact .inr (.inl ⟨rfl, rfl, takeUp_busy s src code c body h hn⟩)
    | false =>
      have hs : Served s src code := ⟨h, hn⟩
      rcases hb : body (accepted s src) with ⟨t, _ | r⟩
      · exact .inr (.inr (.inr ⟨hs, t, rfl, takeUp_runs s src code c body t hs hb⟩))
      · exact .inr (.inr (.inl ⟨hs, t, r, rfl, takeUp_served s src code c body t r hs hb⟩))

/-- A source that may ring its doorbell has no command that is still running. -/
theorem Rings.idle {r : State} {src : Nat} {s : State} (h : Rings r src s) : (mbox r src).running = none := by
  have := h.may
  unfold mayRing at this
  simp only [Bool.and_eq_true, Option.isNone_iff_eq_none] at this
  exact this.2

/-- A mailbox row comes to what its command does in the tick, and the rest of the tick follows. -/
theorem atNextTick_rings {r : State} {src : Nat} {s : State} (h : Rings r src s) {f : State → Ans} {t : State} (hf : f s = .next t) :
    atNextTick r src f = .next (tickRest src t) := by
  unfold atNextTick
  rw [if_pos h.may, h.tick, hf]

/-- A row that can carry host bytes begins its command as the others do. -/
theorem atHostData_rings {r : State} {src : Nat} {s : State} (h : Rings r src s) {code : Nat} {g : Running} {c : Option Running}
    {d : State → Done} {f : State → Ans} {t : State} (hf : f s = .next t) :
    atHostData r src code g c d f = .next (tickRest src t) := by
  unfold atHostData
  rw [if_neg (by rw [h.idle]; exact nofun), atNextTick_rings h hf]

/-- No condition refuses the command. -/
theorem guardAll_open {s : State} {l : List (Bool × Status)} (h : ∀ e ∈ l, e.1 = false) (body : Done) : guardAll s l body = body := by
  have : firstRefusal l = none := by
    induction l with
    | nil => rfl
    | cons e t ih =>
      obtain ⟨b, st⟩ := e
      have hb : b = false := h (b, st) (List.mem_cons_self ..)
      subst hb
      exact ih (fun e he => h e (List.mem_cons_of_mem _ he))
  unfold guardAll
  rw [this]

variable (s : State) (src : Nat)

@[simp] theorem accepted_pending : (accepted s src).pending = s.pending := rfl
@[simp] theorem accepted_cycle : (accepted s src).cycle = s.cycle := rfl
@[simp] theorem accepted_now : (accepted s src).now = s.now := rfl
@[simp] theorem accepted_freeCtr : (accepted s src).freeCtr = s.freeCtr := rfl
@[simp] theorem accepted_out : (accepted s src).out = s.out := rfl
@[simp] theorem accepted_regs : (accepted s src).regs = s.regs := rfl
@[simp] theorem accepted_keep : (accepted s src).keep = s.keep := rfl
@[simp] theorem accepted_epochs : (accepted s src).epochs = s.epochs := rfl
@[simp] theorem accepted_ne : (accepted s src).ne = s.ne := rfl
@[simp] theorem accepted_mp : (accepted s src).mp = s.mp := rfl
@[simp] theorem accepted_ru : (accepted s src).ru = s.ru := rfl
@[simp] theorem accepted_qm : (accepted s src).qm = s.qm := rfl
@[simp] theorem accepted_sh : (accepted s src).sh = s.sh := rfl
@[simp] theorem accepted_et : (accepted s src).et = s.et := rfl
@[simp] theorem accepted_wt : (accepted s src).wt = s.wt := rfl
@[simp] theorem accepted_sc : (accepted s src).sc = s.sc := rfl
@[simp] theorem accepted_hp : (accepted s src).hp = s.hp := rfl
@[simp] theorem accepted_fn : (accepted s src).fn = s.fn := rfl
@[simp] theorem accepted_sm : (accepted s src).sm = s.sm := rfl
@[simp] theorem accepted_th : (accepted s src).th = s.th := rfl
@[simp] theorem accepted_pw : (accepted s src).pw = s.pw := rfl
@[simp] theorem accepted_ln : (accepted s src).ln = s.ln := rfl
@[simp] theorem accepted_tb : (accepted s src).tb = s.tb := rfl
@[simp] theorem accepted_at_tenant : tenant (accepted s src) = tenant s := rfl
@[simp] theorem accepted_at_thread : thread (accepted s src) = thread s := rfl
@[simp] theorem accepted_at_port : port (accepted s src) = port s := rfl
@[simp] theorem accepted_at_chan : chan (accepted s src) = chan s := rfl
@[simp] theorem accepted_at_gran : gran (accepted s src) = gran s := rfl
@[simp] theorem accepted_at_granList : granList (accepted s src) = granList s := rfl
@[simp] theorem accepted_at_listAt : listAt (accepted s src) = listAt s := rfl
@[simp] theorem accepted_at_conn : conn (accepted s src) = conn s := rfl
@[simp] theorem accepted_at_queue_ : queue? (accepted s src) = queue? s := rfl
@[simp] theorem accepted_at_rwin_ : rwin? (accepted s src) = rwin? s := rfl
@[simp] theorem accepted_at_program_ : program? (accepted s src) = program? s := rfl
@[simp] theorem accepted_at_inst_ : inst? (accepted s src) = inst? s := rfl
@[simp] theorem accepted_at_ctxMissing : ctxMissing (accepted s src) = ctxMissing s := rfl
@[simp] theorem accepted_at_ctxFrozen : ctxFrozen (accepted s src) = ctxFrozen s := rfl
@[simp] theorem accepted_at_dom : dom (accepted s src) = dom s := rfl
@[simp] theorem accepted_at_bindingOf : bindingOf (accepted s src) = bindingOf s := rfl
@[simp] theorem accepted_at_granHeld : granHeld (accepted s src) = granHeld s := rfl
@[simp] theorem accepted_at_enrolledCtx : enrolledCtx (accepted s src) = enrolledCtx s := rfl
@[simp] theorem accepted_at_managerPort : managerPort (accepted s src) = managerPort s := rfl
@[simp] theorem accepted_at_hostNameable : hostNameable (accepted s src) = hostNameable s := rfl
@[simp] theorem accepted_at_journalling : journalling (accepted s src) = journalling s := rfl

end Sys2Proof.Machine
end

