-- ==== Sys2Proof/Laws/State.lean ====
section
/-! SUPPORT. Each update of one part of the state leaves every other part as it is, and what is stored is what is read. -/

namespace Sys2Proof.Machine

variable (s : State)

/-! `setThread` -/

@[simp] theorem setThread_pending (t : Nat) (x : Thread) : (setThread s t x).pending = s.pending := rfl
@[simp] theorem setThread_cycle (t : Nat) (x : Thread) : (setThread s t x).cycle = s.cycle := rfl
@[simp] theorem setThread_now (t : Nat) (x : Thread) : (setThread s t x).now = s.now := rfl
@[simp] theorem setThread_freeCtr (t : Nat) (x : Thread) : (setThread s t x).freeCtr = s.freeCtr := rfl
@[simp] theorem setThread_out (t : Nat) (x : Thread) : (setThread s t x).out = s.out := rfl
@[simp] theorem setThread_saves (t : Nat) (x : Thread) : (setThread s t x).saves = s.saves := rfl
@[simp] theorem setThread_regs (t : Nat) (x : Thread) : (setThread s t x).regs = s.regs := rfl
@[simp] theorem setThread_keep (t : Nat) (x : Thread) : (setThread s t x).keep = s.keep := rfl
@[simp] theorem setThread_epochs (t : Nat) (x : Thread) : (setThread s t x).epochs = s.epochs := rfl
@[simp] theorem setThread_mp (t : Nat) (x : Thread) : (setThread s t x).mp = s.mp := rfl
@[simp] theorem setThread_ru (t : Nat) (x : Thread) : (setThread s t x).ru = s.ru := rfl
@[simp] theorem setThread_qm (t : Nat) (x : Thread) : (setThread s t x).qm = s.qm := rfl
@[simp] theorem setThread_sh (t : Nat) (x : Thread) : (setThread s t x).sh = s.sh := rfl
@[simp] theorem setThread_et (t : Nat) (x : Thread) : (setThread s t x).et = s.et := rfl
@[simp] theorem setThread_wt (t : Nat) (x : Thread) : (setThread s t x).wt = s.wt := rfl
@[simp] theorem setThread_sc (t : Nat) (x : Thread) : (setThread s t x).sc = s.sc := rfl
@[simp] theorem setThread_hp (t : Nat) (x : Thread) : (setThread s t x).hp = s.hp := rfl
@[simp] theorem setThread_fn (t : Nat) (x : Thread) : (setThread s t x).fn = s.fn := rfl
@[simp] theorem setThread_sm (t : Nat) (x : Thread) : (setThread s t x).sm = s.sm := rfl
@[simp] theorem setThread_th (t : Nat) (x : Thread) : (setThread s t x).th = s.th := rfl
@[simp] theorem setThread_pw (t : Nat) (x : Thread) : (setThread s t x).pw = s.pw := rfl
@[simp] theorem setThread_ln (t : Nat) (x : Thread) : (setThread s t x).ln = s.ln := rfl
@[simp] theorem setThread_mg (t : Nat) (x : Thread) : (setThread s t x).mg = s.mg := rfl
@[simp] theorem setThread_tb (t : Nat) (x : Thread) : (setThread s t x).tb = s.tb := rfl
@[simp] theorem setThread_at_tenant (t : Nat) (x : Thread) : tenant (setThread s t x) = tenant s := rfl
@[simp] theorem setThread_at_port (t : Nat) (x : Thread) : port (setThread s t x) = port s := rfl
@[simp] theorem setThread_at_chan (t : Nat) (x : Thread) : chan (setThread s t x) = chan s := rfl
@[simp] theorem setThread_at_queue_ (t : Nat) (x : Thread) : queue? (setThread s t x) = queue? s := rfl
@[simp] theorem setThread_at_gran (t : Nat) (x : Thread) : gran (setThread s t x) = gran s := rfl
@[simp] theorem setThread_at_granList (t : Nat) (x : Thread) : granList (setThread s t x) = granList s := rfl
@[simp] theorem setThread_at_conn (t : Nat) (x : Thread) : conn (setThread s t x) = conn s := rfl
@[simp] theorem setThread_at_etPort (t : Nat) (x : Thread) : etPort (setThread s t x) = etPort s := rfl
@[simp] theorem setThread_at_rwin_ (t : Nat) (x : Thread) : rwin? (setThread s t x) = rwin? s := rfl
@[simp] theorem setThread_at_mbox (t : Nat) (x : Thread) : mbox (setThread s t x) = mbox s := rfl
@[simp] theorem setThread_at_regGet (t : Nat) (x : Thread) : regGet (setThread s t x) = regGet s := rfl
@[simp] theorem setThread_at_window_ (t : Nat) (x : Thread) : window? (setThread s t x) = window? s := rfl
@[simp] theorem setThread_at_dom (t : Nat) (x : Thread) : dom (setThread s t x) = dom s := rfl

/-! `setTenant` -/

@[simp] theorem setTenant_pending (t : Nat) (x : Tenant) : (setTenant s t x).pending = s.pending := rfl
@[simp] theorem setTenant_cycle (t : Nat) (x : Tenant) : (setTenant s t x).cycle = s.cycle := rfl
@[simp] theorem setTenant_now (t : Nat) (x : Tenant) : (setTenant s t x).now = s.now := rfl
@[simp] theorem setTenant_freeCtr (t : Nat) (x : Tenant) : (setTenant s t x).freeCtr = s.freeCtr := rfl
@[simp] theorem setTenant_out (t : Nat) (x : Tenant) : (setTenant s t x).out = s.out := rfl
@[simp] theorem setTenant_saves (t : Nat) (x : Tenant) : (setTenant s t x).saves = s.saves := rfl
@[simp] theorem setTenant_regs (t : Nat) (x : Tenant) : (setTenant s t x).regs = s.regs := rfl
@[simp] theorem setTenant_keep (t : Nat) (x : Tenant) : (setTenant s t x).keep = s.keep := rfl
@[simp] theorem setTenant_epochs (t : Nat) (x : Tenant) : (setTenant s t x).epochs = s.epochs := rfl
@[simp] theorem setTenant_ne (t : Nat) (x : Tenant) : (setTenant s t x).ne = s.ne := rfl
@[simp] theorem setTenant_mp (t : Nat) (x : Tenant) : (setTenant s t x).mp = s.mp := rfl
@[simp] theorem setTenant_ru (t : Nat) (x : Tenant) : (setTenant s t x).ru = s.ru := rfl
@[simp] theorem setTenant_qm (t : Nat) (x : Tenant) : (setTenant s t x).qm = s.qm := rfl
@[simp] theorem setTenant_sh (t : Nat) (x : Tenant) : (setTenant s t x).sh = s.sh := rfl
@[simp] theorem setTenant_et (t : Nat) (x : Tenant) : (setTenant s t x).et = s.et := rfl
@[simp] theorem setTenant_wt (t : Nat) (x : Tenant) : (setTenant s t x).wt = s.wt := rfl
@[simp] theorem setTenant_sc (t : Nat) (x : Tenant) : (setTenant s t x).sc = s.sc := rfl
@[simp] theorem setTenant_hp (t : Nat) (x : Tenant) : (setTenant s t x).hp = s.hp := rfl
@[simp] theorem setTenant_sm (t : Nat) (x : Tenant) : (setTenant s t x).sm = s.sm := rfl
@[simp] theorem setTenant_th (t : Nat) (x : Tenant) : (setTenant s t x).th = s.th := rfl
@[simp] theorem setTenant_pw (t : Nat) (x : Tenant) : (setTenant s t x).pw = s.pw := rfl
@[simp] theorem setTenant_ln (t : Nat) (x : Tenant) : (setTenant s t x).ln = s.ln := rfl
@[simp] theorem setTenant_mg (t : Nat) (x : Tenant) : (setTenant s t x).mg = s.mg := rfl
@[simp] theorem setTenant_tb (t : Nat) (x : Tenant) : (setTenant s t x).tb = s.tb := rfl
@[simp] theorem setTenant_at_thread (t : Nat) (x : Tenant) : thread (setTenant s t x) = thread s := rfl
@[simp] theorem setTenant_at_port (t : Nat) (x : Tenant) : port (setTenant s t x) = port s := rfl
@[simp] theorem setTenant_at_chan (t : Nat) (x : Tenant) : chan (setTenant s t x) = chan s := rfl
@[simp] theorem setTenant_at_queue_ (t : Nat) (x : Tenant) : queue? (setTenant s t x) = queue? s := rfl
@[simp] theorem setTenant_at_gran (t : Nat) (x : Tenant) : gran (setTenant s t x) = gran s := rfl
@[simp] theorem setTenant_at_granList (t : Nat) (x : Tenant) : granList (setTenant s t x) = granList s := rfl
@[simp] theorem setTenant_at_conn (t : Nat) (x : Tenant) : conn (setTenant s t x) = conn s := rfl
@[simp] theorem setTenant_at_etPort (t : Nat) (x : Tenant) : etPort (setTenant s t x) = etPort s := rfl
@[simp] theorem setTenant_at_rwin_ (t : Nat) (x : Tenant) : rwin? (setTenant s t x) = rwin? s := rfl
@[simp] theorem setTenant_at_mbox (t : Nat) (x : Tenant) : mbox (setTenant s t x) = mbox s := rfl
@[simp] theorem setTenant_at_regGet (t : Nat) (x : Tenant) : regGet (setTenant s t x) = regGet s := rfl
@[simp] theorem setTenant_at_program_ (t : Nat) (x : Tenant) : program? (setTenant s t x) = program? s := rfl
@[simp] theorem setTenant_at_inst_ (t : Nat) (x : Tenant) : inst? (setTenant s t x) = inst? s := rfl
@[simp] theorem setTenant_at_dom (t : Nat) (x : Tenant) : dom (setTenant s t x) = dom s := rfl

/-! `setPort` -/

@[simp] theorem setPort_pending (p : Nat) (x : HPort) : (setPort s p x).pending = s.pending := rfl
@[simp] theorem setPort_cycle (p : Nat) (x : HPort) : (setPort s p x).cycle = s.cycle := rfl
@[simp] theorem setPort_now (p : Nat) (x : HPort) : (setPort s p x).now = s.now := rfl
@[simp] theorem setPort_freeCtr (p : Nat) (x : HPort) : (setPort s p x).freeCtr = s.freeCtr := rfl
@[simp] theorem setPort_out (p : Nat) (x : HPort) : (setPort s p x).out = s.out := rfl
@[simp] theorem setPort_saves (p : Nat) (x : HPort) : (setPort s p x).saves = s.saves := rfl
@[simp] theorem setPort_regs (p : Nat) (x : HPort) : (setPort s p x).regs = s.regs := rfl
@[simp] theorem setPort_keep (p : Nat) (x : HPort) : (setPort s p x).keep = s.keep := rfl
@[simp] theorem setPort_epochs (p : Nat) (x : HPort) : (setPort s p x).epochs = s.epochs := rfl
@[simp] theorem setPort_ne (p : Nat) (x : HPort) : (setPort s p x).ne = s.ne := rfl
@[simp] theorem setPort_mp (p : Nat) (x : HPort) : (setPort s p x).mp = s.mp := rfl
@[simp] theorem setPort_ru (p : Nat) (x : HPort) : (setPort s p x).ru = s.ru := rfl
@[simp] theorem setPort_qm (p : Nat) (x : HPort) : (setPort s p x).qm = s.qm := rfl
@[simp] theorem setPort_sh (p : Nat) (x : HPort) : (setPort s p x).sh = s.sh := rfl
@[simp] theorem setPort_et (p : Nat) (x : HPort) : (setPort s p x).et = s.et := rfl
@[simp] theorem setPort_wt (p : Nat) (x : HPort) : (setPort s p x).wt = s.wt := rfl
@[simp] theorem setPort_sc (p : Nat) (x : HPort) : (setPort s p x).sc = s.sc := rfl
@[simp] theorem setPort_fn (p : Nat) (x : HPort) : (setPort s p x).fn = s.fn := rfl
@[simp] theorem setPort_sm (p : Nat) (x : HPort) : (setPort s p x).sm = s.sm := rfl
@[simp] theorem setPort_th (p : Nat) (x : HPort) : (setPort s p x).th = s.th := rfl
@[simp] theorem setPort_pw (p : Nat) (x : HPort) : (setPort s p x).pw = s.pw := rfl
@[simp] theorem setPort_ln (p : Nat) (x : HPort) : (setPort s p x).ln = s.ln := rfl
@[simp] theorem setPort_mg (p : Nat) (x : HPort) : (setPort s p x).mg = s.mg := rfl
@[simp] theorem setPort_tb (p : Nat) (x : HPort) : (setPort s p x).tb = s.tb := rfl
@[simp] theorem setPort_at_thread (p : Nat) (x : HPort) : thread (setPort s p x) = thread s := rfl
@[simp] theorem setPort_at_tenant (p : Nat) (x : HPort) : tenant (setPort s p x) = tenant s := rfl
@[simp] theorem setPort_at_chan (p : Nat) (x : HPort) : chan (setPort s p x) = chan s := rfl
@[simp] theorem setPort_at_queue_ (p : Nat) (x : HPort) : queue? (setPort s p x) = queue? s := rfl
@[simp] theorem setPort_at_gran (p : Nat) (x : HPort) : gran (setPort s p x) = gran s := rfl
@[simp] theorem setPort_at_granList (p : Nat) (x : HPort) : granList (setPort s p x) = granList s := rfl
@[simp] theorem setPort_at_conn (p : Nat) (x : HPort) : conn (setPort s p x) = conn s := rfl
@[simp] theorem setPort_at_etPort (p : Nat) (x : HPort) : etPort (setPort s p x) = etPort s := rfl
@[simp] theorem setPort_at_rwin_ (p : Nat) (x : HPort) : rwin? (setPort s p x) = rwin? s := rfl
@[simp] theorem setPort_at_mbox (p : Nat) (x : HPort) : mbox (setPort s p x) = mbox s := rfl
@[simp] theorem setPort_at_regGet (p : Nat) (x : HPort) : regGet (setPort s p x) = regGet s := rfl
@[simp] theorem setPort_at_program_ (p : Nat) (x : HPort) : program? (setPort s p x) = program? s := rfl
@[simp] theorem setPort_at_inst_ (p : Nat) (x : HPort) : inst? (setPort s p x) = inst? s := rfl
@[simp] theorem setPort_at_window_ (p : Nat) (x : HPort) : window? (setPort s p x) = window? s := rfl
@[simp] theorem setPort_at_dom (p : Nat) (x : HPort) : dom (setPort s p x) = dom s := rfl

/-! `setChan` -/

@[simp] theorem setChan_pending (c : Nat) (x : Chan) : (setChan s c x).pending = s.pending := rfl
@[simp] theorem setChan_cycle (c : Nat) (x : Chan) : (setChan s c x).cycle = s.cycle := rfl
@[simp] theorem setChan_now (c : Nat) (x : Chan) : (setChan s c x).now = s.now := rfl
@[simp] theorem setChan_freeCtr (c : Nat) (x : Chan) : (setChan s c x).freeCtr = s.freeCtr := rfl
@[simp] theorem setChan_out (c : Nat) (x : Chan) : (setChan s c x).out = s.out := rfl
@[simp] theorem setChan_saves (c : Nat) (x : Chan) : (setChan s c x).saves = s.saves := rfl
@[simp] theorem setChan_regs (c : Nat) (x : Chan) : (setChan s c x).regs = s.regs := rfl
@[simp] theorem setChan_keep (c : Nat) (x : Chan) : (setChan s c x).keep = s.keep := rfl
@[simp] theorem setChan_epochs (c : Nat) (x : Chan) : (setChan s c x).epochs = s.epochs := rfl
@[simp] theorem setChan_ne (c : Nat) (x : Chan) : (setChan s c x).ne = s.ne := rfl
@[simp] theorem setChan_mp (c : Nat) (x : Chan) : (setChan s c x).mp = s.mp := rfl
@[simp] theorem setChan_ru (c : Nat) (x : Chan) : (setChan s c x).ru = s.ru := rfl
@[simp] theorem setChan_qm (c : Nat) (x : Chan) : (setChan s c x).qm = s.qm := rfl
@[simp] theorem setChan_et (c : Nat) (x : Chan) : (setChan s c x).et = s.et := rfl
@[simp] theorem setChan_wt (c : Nat) (x : Chan) : (setChan s c x).wt = s.wt := rfl
@[simp] theorem setChan_sc (c : Nat) (x : Chan) : (setChan s c x).sc = s.sc := rfl
@[simp] theorem setChan_hp (c : Nat) (x : Chan) : (setChan s c x).hp = s.hp := rfl
@[simp] theorem setChan_fn (c : Nat) (x : Chan) : (setChan s c x).fn = s.fn := rfl
@[simp] theorem setChan_sm (c : Nat) (x : Chan) : (setChan s c x).sm = s.sm := rfl
@[simp] theorem setChan_th (c : Nat) (x : Chan) : (setChan s c x).th = s.th := rfl
@[simp] theorem setChan_pw (c : Nat) (x : Chan) : (setChan s c x).pw = s.pw := rfl
@[simp] theorem setChan_ln (c : Nat) (x : Chan) : (setChan s c x).ln = s.ln := rfl
@[simp] theorem setChan_mg (c : Nat) (x : Chan) : (setChan s c x).mg = s.mg := rfl
@[simp] theorem setChan_tb (c : Nat) (x : Chan) : (setChan s c x).tb = s.tb := rfl
@[simp] theorem setChan_at_thread (c : Nat) (x : Chan) : thread (setChan s c x) = thread s := rfl
@[simp] theorem setChan_at_tenant (c : Nat) (x : Chan) : tenant (setChan s c x) = tenant s := rfl
@[simp] theorem setChan_at_port (c : Nat) (x : Chan) : port (setChan s c x) = port s := rfl
@[simp] theorem setChan_at_queue_ (c : Nat) (x : Chan) : queue? (setChan s c x) = queue? s := rfl
@[simp] theorem setChan_at_gran (c : Nat) (x : Chan) : gran (setChan s c x) = gran s := rfl
@[simp] theorem setChan_at_granList (c : Nat) (x : Chan) : granList (setChan s c x) = granList s := rfl
@[simp] theorem setChan_at_conn (c : Nat) (x : Chan) : conn (setChan s c x) = conn s := rfl
@[simp] theorem setChan_at_etPort (c : Nat) (x : Chan) : etPort (setChan s c x) = etPort s := rfl
@[simp] theorem setChan_at_rwin_ (c : Nat) (x : Chan) : rwin? (setChan s c x) = rwin? s := rfl
@[simp] theorem setChan_at_mbox (c : Nat) (x : Chan) : mbox (setChan s c x) = mbox s := rfl
@[simp] theorem setChan_at_regGet (c : Nat) (x : Chan) : regGet (setChan s c x) = regGet s := rfl
@[simp] theorem setChan_at_program_ (c : Nat) (x : Chan) : program? (setChan s c x) = program? s := rfl
@[simp] theorem setChan_at_inst_ (c : Nat) (x : Chan) : inst? (setChan s c x) = inst? s := rfl
@[simp] theorem setChan_at_window_ (c : Nat) (x : Chan) : window? (setChan s c x) = window? s := rfl
@[simp] theorem setChan_at_dom (c : Nat) (x : Chan) : dom (setChan s c x) = dom s := rfl

/-! `setQueue` -/

@[simp] theorem setQueue_pending (q : Nat) (x : Queue) : (setQueue s q x).pending = s.pending := rfl
@[simp] theorem setQueue_cycle (q : Nat) (x : Queue) : (setQueue s q x).cycle = s.cycle := rfl
@[simp] theorem setQueue_now (q : Nat) (x : Queue) : (setQueue s q x).now = s.now := rfl
@[simp] theorem setQueue_freeCtr (q : Nat) (x : Queue) : (setQueue s q x).freeCtr = s.freeCtr := rfl
@[simp] theorem setQueue_out (q : Nat) (x : Queue) : (setQueue s q x).out = s.out := rfl
@[simp] theorem setQueue_saves (q : Nat) (x : Queue) : (setQueue s q x).saves = s.saves := rfl
@[simp] theorem setQueue_regs (q : Nat) (x : Queue) : (setQueue s q x).regs = s.regs := rfl
@[simp] theorem setQueue_keep (q : Nat) (x : Queue) : (setQueue s q x).keep = s.keep := rfl
@[simp] theorem setQueue_epochs (q : Nat) (x : Queue) : (setQueue s q x).epochs = s.epochs := rfl
@[simp] theorem setQueue_ne (q : Nat) (x : Queue) : (setQueue s q x).ne = s.ne := rfl
@[simp] theorem setQueue_mp (q : Nat) (x : Queue) : (setQueue s q x).mp = s.mp := rfl
@[simp] theorem setQueue_ru (q : Nat) (x : Queue) : (setQueue s q x).ru = s.ru := rfl
@[simp] theorem setQueue_sh (q : Nat) (x : Queue) : (setQueue s q x).sh = s.sh := rfl
@[simp] theorem setQueue_et (q : Nat) (x : Queue) : (setQueue s q x).et = s.et := rfl
@[simp] theorem setQueue_wt (q : Nat) (x : Queue) : (setQueue s q x).wt = s.wt := rfl
@[simp] theorem setQueue_sc (q : Nat) (x : Queue) : (setQueue s q x).sc = s.sc := rfl
@[simp] theorem setQueue_hp (q : Nat) (x : Queue) : (setQueue s q x).hp = s.hp := rfl
@[simp] theorem setQueue_fn (q : Nat) (x : Queue) : (setQueue s q x).fn = s.fn := rfl
@[simp] theorem setQueue_sm (q : Nat) (x : Queue) : (setQueue s q x).sm = s.sm := rfl
@[simp] theorem setQueue_th (q : Nat) (x : Queue) : (setQueue s q x).th = s.th := rfl
@[simp] theorem setQueue_pw (q : Nat) (x : Queue) : (setQueue s q x).pw = s.pw := rfl
@[simp] theorem setQueue_ln (q : Nat) (x : Queue) : (setQueue s q x).ln = s.ln := rfl
@[simp] theorem setQueue_mg (q : Nat) (x : Queue) : (setQueue s q x).mg = s.mg := rfl
@[simp] theorem setQueue_tb (q : Nat) (x : Queue) : (setQueue s q x).tb = s.tb := rfl
@[simp] theorem setQueue_at_thread (q : Nat) (x : Queue) : thread (setQueue s q x) = thread s := rfl
@[simp] theorem setQueue_at_tenant (q : Nat) (x : Queue) : tenant (setQueue s q x) = tenant s := rfl
@[simp] theorem setQueue_at_port (q : Nat) (x : Queue) : port (setQueue s q x) = port s := rfl
@[simp] theorem setQueue_at_chan (q : Nat) (x : Queue) : chan (setQueue s q x) = chan s := rfl
@[simp] theorem setQueue_at_gran (q : Nat) (x : Queue) : gran (setQueue s q x) = gran s := rfl
@[simp] theorem setQueue_at_granList (q : Nat) (x : Queue) : granList (setQueue s q x) = granList s := rfl
@[simp] theorem setQueue_at_conn (q : Nat) (x : Queue) : conn (setQueue s q x) = conn s := rfl
@[simp] theorem setQueue_at_etPort (q : Nat) (x : Queue) : etPort (setQueue s q x) = etPort s := rfl
@[simp] theorem setQueue_at_rwin_ (q : Nat) (x : Queue) : rwin? (setQueue s q x) = rwin? s := rfl
@[simp] theorem setQueue_at_mbox (q : Nat) (x : Queue) : mbox (setQueue s q x) = mbox s := rfl
@[simp] theorem setQueue_at_regGet (q : Nat) (x : Queue) : regGet (setQueue s q x) = regGet s := rfl
@[simp] theorem setQueue_at_program_ (q : Nat) (x : Queue) : program? (setQueue s q x) = program? s := rfl
@[simp] theorem setQueue_at_inst_ (q : Nat) (x : Queue) : inst? (setQueue s q x) = inst? s := rfl
@[simp] theorem setQueue_at_window_ (q : Nat) (x : Queue) : window? (setQueue s q x) = window? s := rfl
@[simp] theorem setQueue_at_dom (q : Nat) (x : Queue) : dom (setQueue s q x) = dom s := rfl

/-! `setGran` -/

@[simp] theorem setGran_pending (g : Nat) (x : Granule) : (setGran s g x).pending = s.pending := rfl
@[simp] theorem setGran_cycle (g : Nat) (x : Granule) : (setGran s g x).cycle = s.cycle := rfl
@[simp] theorem setGran_now (g : Nat) (x : Granule) : (setGran s g x).now = s.now := rfl
@[simp] theorem setGran_freeCtr (g : Nat) (x : Granule) : (setGran s g x).freeCtr = s.freeCtr := rfl
@[simp] theorem setGran_out (g : Nat) (x : Granule) : (setGran s g x).out = s.out := rfl
@[simp] theorem setGran_saves (g : Nat) (x : Granule) : (setGran s g x).saves = s.saves := rfl
@[simp] theorem setGran_regs (g : Nat) (x : Granule) : (setGran s g x).regs = s.regs := rfl
@[simp] theorem setGran_keep (g : Nat) (x : Granule) : (setGran s g x).keep = s.keep := rfl
@[simp] theorem setGran_epochs (g : Nat) (x : Granule) : (setGran s g x).epochs = s.epochs := rfl
@[simp] theorem setGran_ne (g : Nat) (x : Granule) : (setGran s g x).ne = s.ne := rfl
@[simp] theorem setGran_ru (g : Nat) (x : Granule) : (setGran s g x).ru = s.ru := rfl
@[simp] theorem setGran_qm (g : Nat) (x : Granule) : (setGran s g x).qm = s.qm := rfl
@[simp] theorem setGran_sh (g : Nat) (x : Granule) : (setGran s g x).sh = s.sh := rfl
@[simp] theorem setGran_et (g : Nat) (x : Granule) : (setGran s g x).et = s.et := rfl
@[simp] theorem setGran_wt (g : Nat) (x : Granule) : (setGran s g x).wt = s.wt := rfl
@[simp] theorem setGran_sc (g : Nat) (x : Granule) : (setGran s g x).sc = s.sc := rfl
@[simp] theorem setGran_hp (g : Nat) (x : Granule) : (setGran s g x).hp = s.hp := rfl
@[simp] theorem setGran_fn (g : Nat) (x : Granule) : (setGran s g x).fn = s.fn := rfl
@[simp] theorem setGran_sm (g : Nat) (x : Granule) : (setGran s g x).sm = s.sm := rfl
@[simp] theorem setGran_th (g : Nat) (x : Granule) : (setGran s g x).th = s.th := rfl
@[simp] theorem setGran_pw (g : Nat) (x : Granule) : (setGran s g x).pw = s.pw := rfl
@[simp] theorem setGran_ln (g : Nat) (x : Granule) : (setGran s g x).ln = s.ln := rfl
@[simp] theorem setGran_mg (g : Nat) (x : Granule) : (setGran s g x).mg = s.mg := rfl
@[simp] theorem setGran_tb (g : Nat) (x : Granule) : (setGran s g x).tb = s.tb := rfl
@[simp] theorem setGran_at_thread (g : Nat) (x : Granule) : thread (setGran s g x) = thread s := rfl
@[simp] theorem setGran_at_tenant (g : Nat) (x : Granule) : tenant (setGran s g x) = tenant s := rfl
@[simp] theorem setGran_at_port (g : Nat) (x : Granule) : port (setGran s g x) = port s := rfl
@[simp] theorem setGran_at_chan (g : Nat) (x : Granule) : chan (setGran s g x) = chan s := rfl
@[simp] theorem setGran_at_queue_ (g : Nat) (x : Granule) : queue? (setGran s g x) = queue? s := rfl
@[simp] theorem setGran_at_conn (g : Nat) (x : Granule) : conn (setGran s g x) = conn s := rfl
@[simp] theorem setGran_at_etPort (g : Nat) (x : Granule) : etPort (setGran s g x) = etPort s := rfl
@[simp] theorem setGran_at_rwin_ (g : Nat) (x : Granule) : rwin? (setGran s g x) = rwin? s := rfl
@[simp] theorem setGran_at_mbox (g : Nat) (x : Granule) : mbox (setGran s g x) = mbox s := rfl
@[simp] theorem setGran_at_regGet (g : Nat) (x : Granule) : regGet (setGran s g x) = regGet s := rfl
@[simp] theorem setGran_at_program_ (g : Nat) (x : Granule) : program? (setGran s g x) = program? s := rfl
@[simp] theorem setGran_at_inst_ (g : Nat) (x : Granule) : inst? (setGran s g x) = inst? s := rfl
@[simp] theorem setGran_at_window_ (g : Nat) (x : Granule) : window? (setGran s g x) = window? s := rfl
@[simp] theorem setGran_at_dom (g : Nat) (x : Granule) : dom (setGran s g x) = dom s := rfl

/-! `setGranList` -/

@[simp] theorem setGranList_pending (c : Nat) (x : GranList) : (setGranList s c x).pending = s.pending := rfl
@[simp] theorem setGranList_cycle (c : Nat) (x : GranList) : (setGranList s c x).cycle = s.cycle := rfl
@[simp] theorem setGranList_now (c : Nat) (x : GranList) : (setGranList s c x).now = s.now := rfl
@[simp] theorem setGranList_freeCtr (c : Nat) (x : GranList) : (setGranList s c x).freeCtr = s.freeCtr := rfl
@[simp] theorem setGranList_out (c : Nat) (x : GranList) : (setGranList s c x).out = s.out := rfl
@[simp] theorem setGranList_saves (c : Nat) (x : GranList) : (setGranList s c x).saves = s.saves := rfl
@[simp] theorem setGranList_regs (c : Nat) (x : GranList) : (setGranList s c x).regs = s.regs := rfl
@[simp] theorem setGranList_keep (c : Nat) (x : GranList) : (setGranList s c x).keep = s.keep := rfl
@[simp] theorem setGranList_epochs (c : Nat) (x : GranList) : (setGranList s c x).epochs = s.epochs := rfl
@[simp] theorem setGranList_ne (c : Nat) (x : GranList) : (setGranList s c x).ne = s.ne := rfl
@[simp] theorem setGranList_ru (c : Nat) (x : GranList) : (setGranList s c x).ru = s.ru := rfl
@[simp] theorem setGranList_qm (c : Nat) (x : GranList) : (setGranList s c x).qm = s.qm := rfl
@[simp] theorem setGranList_sh (c : Nat) (x : GranList) : (setGranList s c x).sh = s.sh := rfl
@[simp] theorem setGranList_et (c : Nat) (x : GranList) : (setGranList s c x).et = s.et := rfl
@[simp] theorem setGranList_wt (c : Nat) (x : GranList) : (setGranList s c x).wt = s.wt := rfl
@[simp] theorem setGranList_sc (c : Nat) (x : GranList) : (setGranList s c x).sc = s.sc := rfl
@[simp] theorem setGranList_hp (c : Nat) (x : GranList) : (setGranList s c x).hp = s.hp := rfl
@[simp] theorem setGranList_fn (c : Nat) (x : GranList) : (setGranList s c x).fn = s.fn := rfl
@[simp] theorem setGranList_sm (c : Nat) (x : GranList) : (setGranList s c x).sm = s.sm := rfl
@[simp] theorem setGranList_th (c : Nat) (x : GranList) : (setGranList s c x).th = s.th := rfl
@[simp] theorem setGranList_pw (c : Nat) (x : GranList) : (setGranList s c x).pw = s.pw := rfl
@[simp] theorem setGranList_ln (c : Nat) (x : GranList) : (setGranList s c x).ln = s.ln := rfl
@[simp] theorem setGranList_mg (c : Nat) (x : GranList) : (setGranList s c x).mg = s.mg := rfl
@[simp] theorem setGranList_tb (c : Nat) (x : GranList) : (setGranList s c x).tb = s.tb := rfl
@[simp] theorem setGranList_at_thread (c : Nat) (x : GranList) : thread (setGranList s c x) = thread s := rfl
@[simp] theorem setGranList_at_tenant (c : Nat) (x : GranList) : tenant (setGranList s c x) = tenant s := rfl
@[simp] theorem setGranList_at_port (c : Nat) (x : GranList) : port (setGranList s c x) = port s := rfl
@[simp] theorem setGranList_at_chan (c : Nat) (x : GranList) : chan (setGranList s c x) = chan s := rfl
@[simp] theorem setGranList_at_queue_ (c : Nat) (x : GranList) : queue? (setGranList s c x) = queue? s := rfl
@[simp] theorem setGranList_at_conn (c : Nat) (x : GranList) : conn (setGranList s c x) = conn s := rfl
@[simp] theorem setGranList_at_etPort (c : Nat) (x : GranList) : etPort (setGranList s c x) = etPort s := rfl
@[simp] theorem setGranList_at_rwin_ (c : Nat) (x : GranList) : rwin? (setGranList s c x) = rwin? s := rfl
@[simp] theorem setGranList_at_mbox (c : Nat) (x : GranList) : mbox (setGranList s c x) = mbox s := rfl
@[simp] theorem setGranList_at_regGet (c : Nat) (x : GranList) : regGet (setGranList s c x) = regGet s := rfl
@[simp] theorem setGranList_at_program_ (c : Nat) (x : GranList) : program? (setGranList s c x) = program? s := rfl
@[simp] theorem setGranList_at_inst_ (c : Nat) (x : GranList) : inst? (setGranList s c x) = inst? s := rfl
@[simp] theorem setGranList_at_window_ (c : Nat) (x : GranList) : window? (setGranList s c x) = window? s := rfl
@[simp] theorem setGranList_at_dom (c : Nat) (x : GranList) : dom (setGranList s c x) = dom s := rfl

/-! `setStk` -/

@[simp] theorem setStk_pending (k : Nat) (x : Stack) : (setStk s k x).pending = s.pending := rfl
@[simp] theorem setStk_cycle (k : Nat) (x : Stack) : (setStk s k x).cycle = s.cycle := rfl
@[simp] theorem setStk_now (k : Nat) (x : Stack) : (setStk s k x).now = s.now := rfl
@[simp] theorem setStk_freeCtr (k : Nat) (x : Stack) : (setStk s k x).freeCtr = s.freeCtr := rfl
@[simp] theorem setStk_out (k : Nat) (x : Stack) : (setStk s k x).out = s.out := rfl
@[simp] theorem setStk_saves (k : Nat) (x : Stack) : (setStk s k x).saves = s.saves := rfl
@[simp] theorem setStk_regs (k : Nat) (x : Stack) : (setStk s k x).regs = s.regs := rfl
@[simp] theorem setStk_keep (k : Nat) (x : Stack) : (setStk s k x).keep = s.keep := rfl
@[simp] theorem setStk_epochs (k : Nat) (x : Stack) : (setStk s k x).epochs = s.epochs := rfl
@[simp] theorem setStk_ne (k : Nat) (x : Stack) : (setStk s k x).ne = s.ne := rfl
@[simp] theorem setStk_ru (k : Nat) (x : Stack) : (setStk s k x).ru = s.ru := rfl
@[simp] theorem setStk_qm (k : Nat) (x : Stack) : (setStk s k x).qm = s.qm := rfl
@[simp] theorem setStk_sh (k : Nat) (x : Stack) : (setStk s k x).sh = s.sh := rfl
@[simp] theorem setStk_et (k : Nat) (x : Stack) : (setStk s k x).et = s.et := rfl
@[simp] theorem setStk_wt (k : Nat) (x : Stack) : (setStk s k x).wt = s.wt := rfl
@[simp] theorem setStk_sc (k : Nat) (x : Stack) : (setStk s k x).sc = s.sc := rfl
@[simp] theorem setStk_hp (k : Nat) (x : Stack) : (setStk s k x).hp = s.hp := rfl
@[simp] theorem setStk_fn (k : Nat) (x : Stack) : (setStk s k x).fn = s.fn := rfl
@[simp] theorem setStk_sm (k : Nat) (x : Stack) : (setStk s k x).sm = s.sm := rfl
@[simp] theorem setStk_th (k : Nat) (x : Stack) : (setStk s k x).th = s.th := rfl
@[simp] theorem setStk_pw (k : Nat) (x : Stack) : (setStk s k x).pw = s.pw := rfl
@[simp] theorem setStk_ln (k : Nat) (x : Stack) : (setStk s k x).ln = s.ln := rfl
@[simp] theorem setStk_mg (k : Nat) (x : Stack) : (setStk s k x).mg = s.mg := rfl
@[simp] theorem setStk_tb (k : Nat) (x : Stack) : (setStk s k x).tb = s.tb := rfl
@[simp] theorem setStk_at_thread (k : Nat) (x : Stack) : thread (setStk s k x) = thread s := rfl
@[simp] theorem setStk_at_tenant (k : Nat) (x : Stack) : tenant (setStk s k x) = tenant s := rfl
@[simp] theorem setStk_at_port (k : Nat) (x : Stack) : port (setStk s k x) = port s := rfl
@[simp] theorem setStk_at_chan (k : Nat) (x : Stack) : chan (setStk s k x) = chan s := rfl
@[simp] theorem setStk_at_queue_ (k : Nat) (x : Stack) : queue? (setStk s k x) = queue? s := rfl
@[simp] theorem setStk_at_conn (k : Nat) (x : Stack) : conn (setStk s k x) = conn s := rfl
@[simp] theorem setStk_at_etPort (k : Nat) (x : Stack) : etPort (setStk s k x) = etPort s := rfl
@[simp] theorem setStk_at_rwin_ (k : Nat) (x : Stack) : rwin? (setStk s k x) = rwin? s := rfl
@[simp] theorem setStk_at_mbox (k : Nat) (x : Stack) : mbox (setStk s k x) = mbox s := rfl
@[simp] theorem setStk_at_regGet (k : Nat) (x : Stack) : regGet (setStk s k x) = regGet s := rfl
@[simp] theorem setStk_at_program_ (k : Nat) (x : Stack) : program? (setStk s k x) = program? s := rfl
@[simp] theorem setStk_at_inst_ (k : Nat) (x : Stack) : inst? (setStk s k x) = inst? s := rfl
@[simp] theorem setStk_at_window_ (k : Nat) (x : Stack) : window? (setStk s k x) = window? s := rfl
@[simp] theorem setStk_at_dom (k : Nat) (x : Stack) : dom (setStk s k x) = dom s := rfl

/-! `setConn` -/

@[simp] theorem setConn_pending (c : Nat) (x : Conn) : (setConn s c x).pending = s.pending := rfl
@[simp] theorem setConn_cycle (c : Nat) (x : Conn) : (setConn s c x).cycle = s.cycle := rfl
@[simp] theorem setConn_now (c : Nat) (x : Conn) : (setConn s c x).now = s.now := rfl
@[simp] theorem setConn_freeCtr (c : Nat) (x : Conn) : (setConn s c x).freeCtr = s.freeCtr := rfl
@[simp] theorem setConn_out (c : Nat) (x : Conn) : (setConn s c x).out = s.out := rfl
@[simp] theorem setConn_saves (c : Nat) (x : Conn) : (setConn s c x).saves = s.saves := rfl
@[simp] theorem setConn_regs (c : Nat) (x : Conn) : (setConn s c x).regs = s.regs := rfl
@[simp] theorem setConn_keep (c : Nat) (x : Conn) : (setConn s c x).keep = s.keep := rfl
@[simp] theorem setConn_epochs (c : Nat) (x : Conn) : (setConn s c x).epochs = s.epochs := rfl
@[simp] theorem setConn_ne (c : Nat) (x : Conn) : (setConn s c x).ne = s.ne := rfl
@[simp] theorem setConn_mp (c : Nat) (x : Conn) : (setConn s c x).mp = s.mp := rfl
@[simp] theorem setConn_ru (c : Nat) (x : Conn) : (setConn s c x).ru = s.ru := rfl
@[simp] theorem setConn_qm (c : Nat) (x : Conn) : (setConn s c x).qm = s.qm := rfl
@[simp] theorem setConn_sh (c : Nat) (x : Conn) : (setConn s c x).sh = s.sh := rfl
@[simp] theorem setConn_et (c : Nat) (x : Conn) : (setConn s c x).et = s.et := rfl
@[simp] theorem setConn_sc (c : Nat) (x : Conn) : (setConn s c x).sc = s.sc := rfl
@[simp] theorem setConn_hp (c : Nat) (x : Conn) : (setConn s c x).hp = s.hp := rfl
@[simp] theorem setConn_fn (c : Nat) (x : Conn) : (setConn s c x).fn = s.fn := rfl
@[simp] theorem setConn_sm (c : Nat) (x : Conn) : (setConn s c x).sm = s.sm := rfl
@[simp] theorem setConn_th (c : Nat) (x : Conn) : (setConn s c x).th = s.th := rfl
@[simp] theorem setConn_pw (c : Nat) (x : Conn) : (setConn s c x).pw = s.pw := rfl
@[simp] theorem setConn_ln (c : Nat) (x : Conn) : (setConn s c x).ln = s.ln := rfl
@[simp] theorem setConn_mg (c : Nat) (x : Conn) : (setConn s c x).mg = s.mg := rfl
@[simp] theorem setConn_tb (c : Nat) (x : Conn) : (setConn s c x).tb = s.tb := rfl
@[simp] theorem setConn_at_thread (c : Nat) (x : Conn) : thread (setConn s c x) = thread s := rfl
@[simp] theorem setConn_at_tenant (c : Nat) (x : Conn) : tenant (setConn s c x) = tenant s := rfl
@[simp] theorem setConn_at_port (c : Nat) (x : Conn) : port (setConn s c x) = port s := rfl
@[simp] theorem setConn_at_chan (c : Nat) (x : Conn) : chan (setConn s c x) = chan s := rfl
@[simp] theorem setConn_at_queue_ (c : Nat) (x : Conn) : queue? (setConn s c x) = queue? s := rfl
@[simp] theorem setConn_at_gran (c : Nat) (x : Conn) : gran (setConn s c x) = gran s := rfl
@[simp] theorem setConn_at_granList (c : Nat) (x : Conn) : granList (setConn s c x) = granList s := rfl
@[simp] theorem setConn_at_etPort (c : Nat) (x : Conn) : etPort (setConn s c x) = etPort s := rfl
@[simp] theorem setConn_at_rwin_ (c : Nat) (x : Conn) : rwin? (setConn s c x) = rwin? s := rfl
@[simp] theorem setConn_at_mbox (c : Nat) (x : Conn) : mbox (setConn s c x) = mbox s := rfl
@[simp] theorem setConn_at_regGet (c : Nat) (x : Conn) : regGet (setConn s c x) = regGet s := rfl
@[simp] theorem setConn_at_program_ (c : Nat) (x : Conn) : program? (setConn s c x) = program? s := rfl
@[simp] theorem setConn_at_inst_ (c : Nat) (x : Conn) : inst? (setConn s c x) = inst? s := rfl
@[simp] theorem setConn_at_window_ (c : Nat) (x : Conn) : window? (setConn s c x) = window? s := rfl
@[simp] theorem setConn_at_dom (c : Nat) (x : Conn) : dom (setConn s c x) = dom s := rfl

/-! `setEtPort` -/

@[simp] theorem setEtPort_pending (p : Nat) (x : EtPort) : (setEtPort s p x).pending = s.pending := rfl
@[simp] theorem setEtPort_cycle (p : Nat) (x : EtPort) : (setEtPort s p x).cycle = s.cycle := rfl
@[simp] theorem setEtPort_now (p : Nat) (x : EtPort) : (setEtPort s p x).now = s.now := rfl
@[simp] theorem setEtPort_freeCtr (p : Nat) (x : EtPort) : (setEtPort s p x).freeCtr = s.freeCtr := rfl
@[simp] theorem setEtPort_out (p : Nat) (x : EtPort) : (setEtPort s p x).out = s.out := rfl
@[simp] theorem setEtPort_saves (p : Nat) (x : EtPort) : (setEtPort s p x).saves = s.saves := rfl
@[simp] theorem setEtPort_regs (p : Nat) (x : EtPort) : (setEtPort s p x).regs = s.regs := rfl
@[simp] theorem setEtPort_keep (p : Nat) (x : EtPort) : (setEtPort s p x).keep = s.keep := rfl
@[simp] theorem setEtPort_epochs (p : Nat) (x : EtPort) : (setEtPort s p x).epochs = s.epochs := rfl
@[simp] theorem setEtPort_ne (p : Nat) (x : EtPort) : (setEtPort s p x).ne = s.ne := rfl
@[simp] theorem setEtPort_mp (p : Nat) (x : EtPort) : (setEtPort s p x).mp = s.mp := rfl
@[simp] theorem setEtPort_ru (p : Nat) (x : EtPort) : (setEtPort s p x).ru = s.ru := rfl
@[simp] theorem setEtPort_qm (p : Nat) (x : EtPort) : (setEtPort s p x).qm = s.qm := rfl
@[simp] theorem setEtPort_sh (p : Nat) (x : EtPort) : (setEtPort s p x).sh = s.sh := rfl
@[simp] theorem setEtPort_wt (p : Nat) (x : EtPort) : (setEtPort s p x).wt = s.wt := rfl
@[simp] theorem setEtPort_sc (p : Nat) (x : EtPort) : (setEtPort s p x).sc = s.sc := rfl
@[simp] theorem setEtPort_hp (p : Nat) (x : EtPort) : (setEtPort s p x).hp = s.hp := rfl
@[simp] theorem setEtPort_fn (p : Nat) (x : EtPort) : (setEtPort s p x).fn = s.fn := rfl
@[simp] theorem setEtPort_sm (p : Nat) (x : EtPort) : (setEtPort s p x).sm = s.sm := rfl
@[simp] theorem setEtPort_th (p : Nat) (x : EtPort) : (setEtPort s p x).th = s.th := rfl
@[simp] theorem setEtPort_pw (p : Nat) (x : EtPort) : (setEtPort s p x).pw = s.pw := rfl
@[simp] theorem setEtPort_ln (p : Nat) (x : EtPort) : (setEtPort s p x).ln = s.ln := rfl
@[simp] theorem setEtPort_mg (p : Nat) (x : EtPort) : (setEtPort s p x).mg = s.mg := rfl
@[simp] theorem setEtPort_tb (p : Nat) (x : EtPort) : (setEtPort s p x).tb = s.tb := rfl
@[simp] theorem setEtPort_at_thread (p : Nat) (x : EtPort) : thread (setEtPort s p x) = thread s := rfl
@[simp] theorem setEtPort_at_tenant (p : Nat) (x : EtPort) : tenant (setEtPort s p x) = tenant s := rfl
@[simp] theorem setEtPort_at_port (p : Nat) (x : EtPort) : port (setEtPort s p x) = port s := rfl
@[simp] theorem setEtPort_at_chan (p : Nat) (x : EtPort) : chan (setEtPort s p x) = chan s := rfl
@[simp] theorem setEtPort_at_queue_ (p : Nat) (x : EtPort) : queue? (setEtPort s p x) = queue? s := rfl
@[simp] theorem setEtPort_at_gran (p : Nat) (x : EtPort) : gran (setEtPort s p x) = gran s := rfl
@[simp] theorem setEtPort_at_granList (p : Nat) (x : EtPort) : granList (setEtPort s p x) = granList s := rfl
@[simp] theorem setEtPort_at_conn (p : Nat) (x : EtPort) : conn (setEtPort s p x) = conn s := rfl
@[simp] theorem setEtPort_at_rwin_ (p : Nat) (x : EtPort) : rwin? (setEtPort s p x) = rwin? s := rfl
@[simp] theorem setEtPort_at_mbox (p : Nat) (x : EtPort) : mbox (setEtPort s p x) = mbox s := rfl
@[simp] theorem setEtPort_at_regGet (p : Nat) (x : EtPort) : regGet (setEtPort s p x) = regGet s := rfl
@[simp] theorem setEtPort_at_program_ (p : Nat) (x : EtPort) : program? (setEtPort s p x) = program? s := rfl
@[simp] theorem setEtPort_at_inst_ (p : Nat) (x : EtPort) : inst? (setEtPort s p x) = inst? s := rfl
@[simp] theorem setEtPort_at_window_ (p : Nat) (x : EtPort) : window? (setEtPort s p x) = window? s := rfl
@[simp] theorem setEtPort_at_dom (p : Nat) (x : EtPort) : dom (setEtPort s p x) = dom s := rfl

/-! `setRwin` -/

@[simp] theorem setRwin_pending (w : Nat) (x : RWin) : (setRwin s w x).pending = s.pending := rfl
@[simp] theorem setRwin_cycle (w : Nat) (x : RWin) : (setRwin s w x).cycle = s.cycle := rfl
@[simp] theorem setRwin_now (w : Nat) (x : RWin) : (setRwin s w x).now = s.now := rfl
@[simp] theorem setRwin_freeCtr (w : Nat) (x : RWin) : (setRwin s w x).freeCtr = s.freeCtr := rfl
@[simp] theorem setRwin_out (w : Nat) (x : RWin) : (setRwin s w x).out = s.out := rfl
@[simp] theorem setRwin_saves (w : Nat) (x : RWin) : (setRwin s w x).saves = s.saves := rfl
@[simp] theorem setRwin_regs (w : Nat) (x : RWin) : (setRwin s w x).regs = s.regs := rfl
@[simp] theorem setRwin_keep (w : Nat) (x : RWin) : (setRwin s w x).keep = s.keep := rfl
@[simp] theorem setRwin_epochs (w : Nat) (x : RWin) : (setRwin s w x).epochs = s.epochs := rfl
@[simp] theorem setRwin_ne (w : Nat) (x : RWin) : (setRwin s w x).ne = s.ne := rfl
@[simp] theorem setRwin_mp (w : Nat) (x : RWin) : (setRwin s w x).mp = s.mp := rfl
@[simp] theorem setRwin_qm (w : Nat) (x : RWin) : (setRwin s w x).qm = s.qm := rfl
@[simp] theorem setRwin_sh (w : Nat) (x : RWin) : (setRwin s w x).sh = s.sh := rfl
@[simp] theorem setRwin_et (w : Nat) (x : RWin) : (setRwin s w x).et = s.et := rfl
@[simp] theorem setRwin_wt (w : Nat) (x : RWin) : (setRwin s w x).wt = s.wt := rfl
@[simp] theorem setRwin_sc (w : Nat) (x : RWin) : (setRwin s w x).sc = s.sc := rfl
@[simp] theorem setRwin_hp (w : Nat) (x : RWin) : (setRwin s w x).hp = s.hp := rfl
@[simp] theorem setRwin_fn (w : Nat) (x : RWin) : (setRwin s w x).fn = s.fn := rfl
@[simp] theorem setRwin_sm (w : Nat) (x : RWin) : (setRwin s w x).sm = s.sm := rfl
@[simp] theorem setRwin_th (w : Nat) (x : RWin) : (setRwin s w x).th = s.th := rfl
@[simp] theorem setRwin_pw (w : Nat) (x : RWin) : (setRwin s w x).pw = s.pw := rfl
@[simp] theorem setRwin_ln (w : Nat) (x : RWin) : (setRwin s w x).ln = s.ln := rfl
@[simp] theorem setRwin_mg (w : Nat) (x : RWin) : (setRwin s w x).mg = s.mg := rfl
@[simp] theorem setRwin_tb (w : Nat) (x : RWin) : (setRwin s w x).tb = s.tb := rfl
@[simp] theorem setRwin_at_thread (w : Nat) (x : RWin) : thread (setRwin s w x) = thread s := rfl
@[simp] theorem setRwin_at_tenant (w : Nat) (x : RWin) : tenant (setRwin s w x) = tenant s := rfl
@[simp] theorem setRwin_at_port (w : Nat) (x : RWin) : port (setRwin s w x) = port s := rfl
@[simp] theorem setRwin_at_chan (w : Nat) (x : RWin) : chan (setRwin s w x) = chan s := rfl
@[simp] theorem setRwin_at_queue_ (w : Nat) (x : RWin) : queue? (setRwin s w x) = queue? s := rfl
@[simp] theorem setRwin_at_gran (w : Nat) (x : RWin) : gran (setRwin s w x) = gran s := rfl
@[simp] theorem setRwin_at_granList (w : Nat) (x : RWin) : granList (setRwin s w x) = granList s := rfl
@[simp] theorem setRwin_at_conn (w : Nat) (x : RWin) : conn (setRwin s w x) = conn s := rfl
@[simp] theorem setRwin_at_etPort (w : Nat) (x : RWin) : etPort (setRwin s w x) = etPort s := rfl
@[simp] theorem setRwin_at_mbox (w : Nat) (x : RWin) : mbox (setRwin s w x) = mbox s := rfl
@[simp] theorem setRwin_at_regGet (w : Nat) (x : RWin) : regGet (setRwin s w x) = regGet s := rfl
@[simp] theorem setRwin_at_program_ (w : Nat) (x : RWin) : program? (setRwin s w x) = program? s := rfl
@[simp] theorem setRwin_at_inst_ (w : Nat) (x : RWin) : inst? (setRwin s w x) = inst? s := rfl
@[simp] theorem setRwin_at_window_ (w : Nat) (x : RWin) : window? (setRwin s w x) = window? s := rfl
@[simp] theorem setRwin_at_dom (w : Nat) (x : RWin) : dom (setRwin s w x) = dom s := rfl

/-! `setChunk` -/

@[simp] theorem setChunk_pending (w c : Nat) (x : Chunk) : (setChunk s w c x).pending = s.pending := rfl
@[simp] theorem setChunk_cycle (w c : Nat) (x : Chunk) : (setChunk s w c x).cycle = s.cycle := rfl
@[simp] theorem setChunk_now (w c : Nat) (x : Chunk) : (setChunk s w c x).now = s.now := rfl
@[simp] theorem setChunk_freeCtr (w c : Nat) (x : Chunk) : (setChunk s w c x).freeCtr = s.freeCtr := rfl
@[simp] theorem setChunk_out (w c : Nat) (x : Chunk) : (setChunk s w c x).out = s.out := rfl
@[simp] theorem setChunk_saves (w c : Nat) (x : Chunk) : (setChunk s w c x).saves = s.saves := rfl
@[simp] theorem setChunk_regs (w c : Nat) (x : Chunk) : (setChunk s w c x).regs = s.regs := rfl
@[simp] theorem setChunk_keep (w c : Nat) (x : Chunk) : (setChunk s w c x).keep = s.keep := rfl
@[simp] theorem setChunk_epochs (w c : Nat) (x : Chunk) : (setChunk s w c x).epochs = s.epochs := rfl
@[simp] theorem setChunk_ne (w c : Nat) (x : Chunk) : (setChunk s w c x).ne = s.ne := rfl
@[simp] theorem setChunk_mp (w c : Nat) (x : Chunk) : (setChunk s w c x).mp = s.mp := rfl
@[simp] theorem setChunk_qm (w c : Nat) (x : Chunk) : (setChunk s w c x).qm = s.qm := rfl
@[simp] theorem setChunk_sh (w c : Nat) (x : Chunk) : (setChunk s w c x).sh = s.sh := rfl
@[simp] theorem setChunk_et (w c : Nat) (x : Chunk) : (setChunk s w c x).et = s.et := rfl
@[simp] theorem setChunk_wt (w c : Nat) (x : Chunk) : (setChunk s w c x).wt = s.wt := rfl
@[simp] theorem setChunk_sc (w c : Nat) (x : Chunk) : (setChunk s w c x).sc = s.sc := rfl
@[simp] theorem setChunk_hp (w c : Nat) (x : Chunk) : (setChunk s w c x).hp = s.hp := rfl
@[simp] theorem setChunk_fn (w c : Nat) (x : Chunk) : (setChunk s w c x).fn = s.fn := rfl
@[simp] theorem setChunk_sm (w c : Nat) (x : Chunk) : (setChunk s w c x).sm = s.sm := rfl
@[simp] theorem setChunk_th (w c : Nat) (x : Chunk) : (setChunk s w c x).th = s.th := rfl
@[simp] theorem setChunk_pw (w c : Nat) (x : Chunk) : (setChunk s w c x).pw = s.pw := rfl
@[simp] theorem setChunk_ln (w c : Nat) (x : Chunk) : (setChunk s w c x).ln = s.ln := rfl
@[simp] theorem setChunk_mg (w c : Nat) (x : Chunk) : (setChunk s w c x).mg = s.mg := rfl
@[simp] theorem setChunk_tb (w c : Nat) (x : Chunk) : (setChunk s w c x).tb = s.tb := rfl
@[simp] theorem setChunk_at_thread (w c : Nat) (x : Chunk) : thread (setChunk s w c x) = thread s := rfl
@[simp] theorem setChunk_at_tenant (w c : Nat) (x : Chunk) : tenant (setChunk s w c x) = tenant s := rfl
@[simp] theorem setChunk_at_port (w c : Nat) (x : Chunk) : port (setChunk s w c x) = port s := rfl
@[simp] theorem setChunk_at_chan (w c : Nat) (x : Chunk) : chan (setChunk s w c x) = chan s := rfl
@[simp] theorem setChunk_at_queue_ (w c : Nat) (x : Chunk) : queue? (setChunk s w c x) = queue? s := rfl
@[simp] theorem setChunk_at_gran (w c : Nat) (x : Chunk) : gran (setChunk s w c x) = gran s := rfl
@[simp] theorem setChunk_at_granList (w c : Nat) (x : Chunk) : granList (setChunk s w c x) = granList s := rfl
@[simp] theorem setChunk_at_conn (w c : Nat) (x : Chunk) : conn (setChunk s w c x) = conn s := rfl
@[simp] theorem setChunk_at_etPort (w c : Nat) (x : Chunk) : etPort (setChunk s w c x) = etPort s := rfl
@[simp] theorem setChunk_at_mbox (w c : Nat) (x : Chunk) : mbox (setChunk s w c x) = mbox s := rfl
@[simp] theorem setChunk_at_regGet (w c : Nat) (x : Chunk) : regGet (setChunk s w c x) = regGet s := rfl
@[simp] theorem setChunk_at_program_ (w c : Nat) (x : Chunk) : program? (setChunk s w c x) = program? s := rfl
@[simp] theorem setChunk_at_inst_ (w c : Nat) (x : Chunk) : inst? (setChunk s w c x) = inst? s := rfl
@[simp] theorem setChunk_at_window_ (w c : Nat) (x : Chunk) : window? (setChunk s w c x) = window? s := rfl
@[simp] theorem setChunk_at_dom (w c : Nat) (x : Chunk) : dom (setChunk s w c x) = dom s := rfl

/-! `delChunk` -/

@[simp] theorem delChunk_pending (w c : Nat) : (delChunk s w c).pending = s.pending := rfl
@[simp] theorem delChunk_cycle (w c : Nat) : (delChunk s w c).cycle = s.cycle := rfl
@[simp] theorem delChunk_now (w c : Nat) : (delChunk s w c).now = s.now := rfl
@[simp] theorem delChunk_freeCtr (w c : Nat) : (delChunk s w c).freeCtr = s.freeCtr := rfl
@[simp] theorem delChunk_out (w c : Nat) : (delChunk s w c).out = s.out := rfl
@[simp] theorem delChunk_saves (w c : Nat) : (delChunk s w c).saves = s.saves := rfl
@[simp] theorem delChunk_regs (w c : Nat) : (delChunk s w c).regs = s.regs := rfl
@[simp] theorem delChunk_keep (w c : Nat) : (delChunk s w c).keep = s.keep := rfl
@[simp] theorem delChunk_epochs (w c : Nat) : (delChunk s w c).epochs = s.epochs := rfl
@[simp] theorem delChunk_ne (w c : Nat) : (delChunk s w c).ne = s.ne := rfl
@[simp] theorem delChunk_mp (w c : Nat) : (delChunk s w c).mp = s.mp := rfl
@[simp] theorem delChunk_qm (w c : Nat) : (delChunk s w c).qm = s.qm := rfl
@[simp] theorem delChunk_sh (w c : Nat) : (delChunk s w c).sh = s.sh := rfl
@[simp] theorem delChunk_et (w c : Nat) : (delChunk s w c).et = s.et := rfl
@[simp] theorem delChunk_wt (w c : Nat) : (delChunk s w c).wt = s.wt := rfl
@[simp] theorem delChunk_sc (w c : Nat) : (delChunk s w c).sc = s.sc := rfl
@[simp] theorem delChunk_hp (w c : Nat) : (delChunk s w c).hp = s.hp := rfl
@[simp] theorem delChunk_fn (w c : Nat) : (delChunk s w c).fn = s.fn := rfl
@[simp] theorem delChunk_sm (w c : Nat) : (delChunk s w c).sm = s.sm := rfl
@[simp] theorem delChunk_th (w c : Nat) : (delChunk s w c).th = s.th := rfl
@[simp] theorem delChunk_pw (w c : Nat) : (delChunk s w c).pw = s.pw := rfl
@[simp] theorem delChunk_ln (w c : Nat) : (delChunk s w c).ln = s.ln := rfl
@[simp] theorem delChunk_mg (w c : Nat) : (delChunk s w c).mg = s.mg := rfl
@[simp] theorem delChunk_tb (w c : Nat) : (delChunk s w c).tb = s.tb := rfl
@[simp] theorem delChunk_at_thread (w c : Nat) : thread (delChunk s w c) = thread s := rfl
@[simp] theorem delChunk_at_tenant (w c : Nat) : tenant (delChunk s w c) = tenant s := rfl
@[simp] theorem delChunk_at_port (w c : Nat) : port (delChunk s w c) = port s := rfl
@[simp] theorem delChunk_at_chan (w c : Nat) : chan (delChunk s w c) = chan s := rfl
@[simp] theorem delChunk_at_queue_ (w c : Nat) : queue? (delChunk s w c) = queue? s := rfl
@[simp] theorem delChunk_at_gran (w c : Nat) : gran (delChunk s w c) = gran s := rfl
@[simp] theorem delChunk_at_granList (w c : Nat) : granList (delChunk s w c) = granList s := rfl
@[simp] theorem delChunk_at_conn (w c : Nat) : conn (delChunk s w c) = conn s := rfl
@[simp] theorem delChunk_at_etPort (w c : Nat) : etPort (delChunk s w c) = etPort s := rfl
@[simp] theorem delChunk_at_mbox (w c : Nat) : mbox (delChunk s w c) = mbox s := rfl
@[simp] theorem delChunk_at_regGet (w c : Nat) : regGet (delChunk s w c) = regGet s := rfl
@[simp] theorem delChunk_at_program_ (w c : Nat) : program? (delChunk s w c) = program? s := rfl
@[simp] theorem delChunk_at_inst_ (w c : Nat) : inst? (delChunk s w c) = inst? s := rfl
@[simp] theorem delChunk_at_window_ (w c : Nat) : window? (delChunk s w c) = window? s := rfl
@[simp] theorem delChunk_at_dom (w c : Nat) : dom (delChunk s w c) = dom s := rfl

/-! `setWindow` -/

@[simp] theorem setWindow_pending (i : Nat) (x : Window) : (setWindow s i x).pending = s.pending := rfl
@[simp] theorem setWindow_cycle (i : Nat) (x : Window) : (setWindow s i x).cycle = s.cycle := rfl
@[simp] theorem setWindow_now (i : Nat) (x : Window) : (setWindow s i x).now = s.now := rfl
@[simp] theorem setWindow_freeCtr (i : Nat) (x : Window) : (setWindow s i x).freeCtr = s.freeCtr := rfl
@[simp] theorem setWindow_out (i : Nat) (x : Window) : (setWindow s i x).out = s.out := rfl
@[simp] theorem setWindow_saves (i : Nat) (x : Window) : (setWindow s i x).saves = s.saves := rfl
@[simp] theorem setWindow_regs (i : Nat) (x : Window) : (setWindow s i x).regs = s.regs := rfl
@[simp] theorem setWindow_keep (i : Nat) (x : Window) : (setWindow s i x).keep = s.keep := rfl
@[simp] theorem setWindow_epochs (i : Nat) (x : Window) : (setWindow s i x).epochs = s.epochs := rfl
@[simp] theorem setWindow_ne (i : Nat) (x : Window) : (setWindow s i x).ne = s.ne := rfl
@[simp] theorem setWindow_mp (i : Nat) (x : Window) : (setWindow s i x).mp = s.mp := rfl
@[simp] theorem setWindow_ru (i : Nat) (x : Window) : (setWindow s i x).ru = s.ru := rfl
@[simp] theorem setWindow_qm (i : Nat) (x : Window) : (setWindow s i x).qm = s.qm := rfl
@[simp] theorem setWindow_sh (i : Nat) (x : Window) : (setWindow s i x).sh = s.sh := rfl
@[simp] theorem setWindow_et (i : Nat) (x : Window) : (setWindow s i x).et = s.et := rfl
@[simp] theorem setWindow_wt (i : Nat) (x : Window) : (setWindow s i x).wt = s.wt := rfl
@[simp] theorem setWindow_sc (i : Nat) (x : Window) : (setWindow s i x).sc = s.sc := rfl
@[simp] theorem setWindow_hp (i : Nat) (x : Window) : (setWindow s i x).hp = s.hp := rfl
@[simp] theorem setWindow_sm (i : Nat) (x : Window) : (setWindow s i x).sm = s.sm := rfl
@[simp] theorem setWindow_th (i : Nat) (x : Window) : (setWindow s i x).th = s.th := rfl
@[simp] theorem setWindow_pw (i : Nat) (x : Window) : (setWindow s i x).pw = s.pw := rfl
@[simp] theorem setWindow_ln (i : Nat) (x : Window) : (setWindow s i x).ln = s.ln := rfl
@[simp] theorem setWindow_mg (i : Nat) (x : Window) : (setWindow s i x).mg = s.mg := rfl
@[simp] theorem setWindow_tb (i : Nat) (x : Window) : (setWindow s i x).tb = s.tb := rfl
@[simp] theorem setWindow_at_thread (i : Nat) (x : Window) : thread (setWindow s i x) = thread s := rfl
@[simp] theorem setWindow_at_port (i : Nat) (x : Window) : port (setWindow s i x) = port s := rfl
@[simp] theorem setWindow_at_chan (i : Nat) (x : Window) : chan (setWindow s i x) = chan s := rfl
@[simp] theorem setWindow_at_queue_ (i : Nat) (x : Window) : queue? (setWindow s i x) = queue? s := rfl
@[simp] theorem setWindow_at_gran (i : Nat) (x : Window) : gran (setWindow s i x) = gran s := rfl
@[simp] theorem setWindow_at_granList (i : Nat) (x : Window) : granList (setWindow s i x) = granList s := rfl
@[simp] theorem setWindow_at_conn (i : Nat) (x : Window) : conn (setWindow s i x) = conn s := rfl
@[simp] theorem setWindow_at_etPort (i : Nat) (x : Window) : etPort (setWindow s i x) = etPort s := rfl
@[simp] theorem setWindow_at_rwin_ (i : Nat) (x : Window) : rwin? (setWindow s i x) = rwin? s := rfl
@[simp] theorem setWindow_at_mbox (i : Nat) (x : Window) : mbox (setWindow s i x) = mbox s := rfl
@[simp] theorem setWindow_at_regGet (i : Nat) (x : Window) : regGet (setWindow s i x) = regGet s := rfl
@[simp] theorem setWindow_at_program_ (i : Nat) (x : Window) : program? (setWindow s i x) = program? s := rfl
@[simp] theorem setWindow_at_inst_ (i : Nat) (x : Window) : inst? (setWindow s i x) = inst? s := rfl
@[simp] theorem setWindow_at_dom (i : Nat) (x : Window) : dom (setWindow s i x) = dom s := rfl

/-! `setTack` -/

@[simp] theorem setTack_pending (p f : Nat) (x : Tack) : (setTack s p f x).pending = s.pending := rfl
@[simp] theorem setTack_cycle (p f : Nat) (x : Tack) : (setTack s p f x).cycle = s.cycle := rfl
@[simp] theorem setTack_now (p f : Nat) (x : Tack) : (setTack s p f x).now = s.now := rfl
@[simp] theorem setTack_freeCtr (p f : Nat) (x : Tack) : (setTack s p f x).freeCtr = s.freeCtr := rfl
@[simp] theorem setTack_out (p f : Nat) (x : Tack) : (setTack s p f x).out = s.out := rfl
@[simp] theorem setTack_saves (p f : Nat) (x : Tack) : (setTack s p f x).saves = s.saves := rfl
@[simp] theorem setTack_regs (p f : Nat) (x : Tack) : (setTack s p f x).regs = s.regs := rfl
@[simp] theorem setTack_keep (p f : Nat) (x : Tack) : (setTack s p f x).keep = s.keep := rfl
@[simp] theorem setTack_epochs (p f : Nat) (x : Tack) : (setTack s p f x).epochs = s.epochs := rfl
@[simp] theorem setTack_ne (p f : Nat) (x : Tack) : (setTack s p f x).ne = s.ne := rfl
@[simp] theorem setTack_mp (p f : Nat) (x : Tack) : (setTack s p f x).mp = s.mp := rfl
@[simp] theorem setTack_ru (p f : Nat) (x : Tack) : (setTack s p f x).ru = s.ru := rfl
@[simp] theorem setTack_qm (p f : Nat) (x : Tack) : (setTack s p f x).qm = s.qm := rfl
@[simp] theorem setTack_sh (p f : Nat) (x : Tack) : (setTack s p f x).sh = s.sh := rfl
@[simp] theorem setTack_et (p f : Nat) (x : Tack) : (setTack s p f x).et = s.et := rfl
@[simp] theorem setTack_wt (p f : Nat) (x : Tack) : (setTack s p f x).wt = s.wt := rfl
@[simp] theorem setTack_sc (p f : Nat) (x : Tack) : (setTack s p f x).sc = s.sc := rfl
@[simp] theorem setTack_hp (p f : Nat) (x : Tack) : (setTack s p f x).hp = s.hp := rfl
@[simp] theorem setTack_sm (p f : Nat) (x : Tack) : (setTack s p f x).sm = s.sm := rfl
@[simp] theorem setTack_th (p f : Nat) (x : Tack) : (setTack s p f x).th = s.th := rfl
@[simp] theorem setTack_pw (p f : Nat) (x : Tack) : (setTack s p f x).pw = s.pw := rfl
@[simp] theorem setTack_ln (p f : Nat) (x : Tack) : (setTack s p f x).ln = s.ln := rfl
@[simp] theorem setTack_mg (p f : Nat) (x : Tack) : (setTack s p f x).mg = s.mg := rfl
@[simp] theorem setTack_tb (p f : Nat) (x : Tack) : (setTack s p f x).tb = s.tb := rfl
@[simp] theorem setTack_at_thread (p f : Nat) (x : Tack) : thread (setTack s p f x) = thread s := rfl
@[simp] theorem setTack_at_port (p f : Nat) (x : Tack) : port (setTack s p f x) = port s := rfl
@[simp] theorem setTack_at_chan (p f : Nat) (x : Tack) : chan (setTack s p f x) = chan s := rfl
@[simp] theorem setTack_at_queue_ (p f : Nat) (x : Tack) : queue? (setTack s p f x) = queue? s := rfl
@[simp] theorem setTack_at_gran (p f : Nat) (x : Tack) : gran (setTack s p f x) = gran s := rfl
@[simp] theorem setTack_at_granList (p f : Nat) (x : Tack) : granList (setTack s p f x) = granList s := rfl
@[simp] theorem setTack_at_conn (p f : Nat) (x : Tack) : conn (setTack s p f x) = conn s := rfl
@[simp] theorem setTack_at_etPort (p f : Nat) (x : Tack) : etPort (setTack s p f x) = etPort s := rfl
@[simp] theorem setTack_at_rwin_ (p f : Nat) (x : Tack) : rwin? (setTack s p f x) = rwin? s := rfl
@[simp] theorem setTack_at_mbox (p f : Nat) (x : Tack) : mbox (setTack s p f x) = mbox s := rfl
@[simp] theorem setTack_at_regGet (p f : Nat) (x : Tack) : regGet (setTack s p f x) = regGet s := rfl
@[simp] theorem setTack_at_program_ (p f : Nat) (x : Tack) : program? (setTack s p f x) = program? s := rfl
@[simp] theorem setTack_at_inst_ (p f : Nat) (x : Tack) : inst? (setTack s p f x) = inst? s := rfl
@[simp] theorem setTack_at_dom (p f : Nat) (x : Tack) : dom (setTack s p f x) = dom s := rfl

/-! `setDirtyLog` -/

@[simp] theorem setDirtyLog_pending (t p : Nat) (x : DirtyLog) : (setDirtyLog s t p x).pending = s.pending := rfl
@[simp] theorem setDirtyLog_cycle (t p : Nat) (x : DirtyLog) : (setDirtyLog s t p x).cycle = s.cycle := rfl
@[simp] theorem setDirtyLog_now (t p : Nat) (x : DirtyLog) : (setDirtyLog s t p x).now = s.now := rfl
@[simp] theorem setDirtyLog_freeCtr (t p : Nat) (x : DirtyLog) : (setDirtyLog s t p x).freeCtr = s.freeCtr := rfl
@[simp] theorem setDirtyLog_out (t p : Nat) (x : DirtyLog) : (setDirtyLog s t p x).out = s.out := rfl
@[simp] theorem setDirtyLog_saves (t p : Nat) (x : DirtyLog) : (setDirtyLog s t p x).saves = s.saves := rfl
@[simp] theorem setDirtyLog_regs (t p : Nat) (x : DirtyLog) : (setDirtyLog s t p x).regs = s.regs := rfl
@[simp] theorem setDirtyLog_keep (t p : Nat) (x : DirtyLog) : (setDirtyLog s t p x).keep = s.keep := rfl
@[simp] theorem setDirtyLog_epochs (t p : Nat) (x : DirtyLog) : (setDirtyLog s t p x).epochs = s.epochs := rfl
@[simp] theorem setDirtyLog_ne (t p : Nat) (x : DirtyLog) : (setDirtyLog s t p x).ne = s.ne := rfl
@[simp] theorem setDirtyLog_mp (t p : Nat) (x : DirtyLog) : (setDirtyLog s t p x).mp = s.mp := rfl
@[simp] theorem setDirtyLog_ru (t p : Nat) (x : DirtyLog) : (setDirtyLog s t p x).ru = s.ru := rfl
@[simp] theorem setDirtyLog_qm (t p : Nat) (x : DirtyLog) : (setDirtyLog s t p x).qm = s.qm := rfl
@[simp] theorem setDirtyLog_sh (t p : Nat) (x : DirtyLog) : (setDirtyLog s t p x).sh = s.sh := rfl
@[simp] theorem setDirtyLog_et (t p : Nat) (x : DirtyLog) : (setDirtyLog s t p x).et = s.et := rfl
@[simp] theorem setDirtyLog_wt (t p : Nat) (x : DirtyLog) : (setDirtyLog s t p x).wt = s.wt := rfl
@[simp] theorem setDirtyLog_sc (t p : Nat) (x : DirtyLog) : (setDirtyLog s t p x).sc = s.sc := rfl
@[simp] theorem setDirtyLog_hp (t p : Nat) (x : DirtyLog) : (setDirtyLog s t p x).hp = s.hp := rfl
@[simp] theorem setDirtyLog_sm (t p : Nat) (x : DirtyLog) : (setDirtyLog s t p x).sm = s.sm := rfl
@[simp] theorem setDirtyLog_th (t p : Nat) (x : DirtyLog) : (setDirtyLog s t p x).th = s.th := rfl
@[simp] theorem setDirtyLog_pw (t p : Nat) (x : DirtyLog) : (setDirtyLog s t p x).pw = s.pw := rfl
@[simp] theorem setDirtyLog_ln (t p : Nat) (x : DirtyLog) : (setDirtyLog s t p x).ln = s.ln := rfl
@[simp] theorem setDirtyLog_mg (t p : Nat) (x : DirtyLog) : (setDirtyLog s t p x).mg = s.mg := rfl
@[simp] theorem setDirtyLog_tb (t p : Nat) (x : DirtyLog) : (setDirtyLog s t p x).tb = s.tb := rfl
@[simp] theorem setDirtyLog_at_thread (t p : Nat) (x : DirtyLog) : thread (setDirtyLog s t p x) = thread s := rfl
@[simp] theorem setDirtyLog_at_port (t p : Nat) (x : DirtyLog) : port (setDirtyLog s t p x) = port s := rfl
@[simp] theorem setDirtyLog_at_chan (t p : Nat) (x : DirtyLog) : chan (setDirtyLog s t p x) = chan s := rfl
@[simp] theorem setDirtyLog_at_queue_ (t p : Nat) (x : DirtyLog) : queue? (setDirtyLog s t p x) = queue? s := rfl
@[simp] theorem setDirtyLog_at_gran (t p : Nat) (x : DirtyLog) : gran (setDirtyLog s t p x) = gran s := rfl
@[simp] theorem setDirtyLog_at_granList (t p : Nat) (x : DirtyLog) : granList (setDirtyLog s t p x) = granList s := rfl
@[simp] theorem setDirtyLog_at_conn (t p : Nat) (x : DirtyLog) : conn (setDirtyLog s t p x) = conn s := rfl
@[simp] theorem setDirtyLog_at_etPort (t p : Nat) (x : DirtyLog) : etPort (setDirtyLog s t p x) = etPort s := rfl
@[simp] theorem setDirtyLog_at_rwin_ (t p : Nat) (x : DirtyLog) : rwin? (setDirtyLog s t p x) = rwin? s := rfl
@[simp] theorem setDirtyLog_at_mbox (t p : Nat) (x : DirtyLog) : mbox (setDirtyLog s t p x) = mbox s := rfl
@[simp] theorem setDirtyLog_at_regGet (t p : Nat) (x : DirtyLog) : regGet (setDirtyLog s t p x) = regGet s := rfl
@[simp] theorem setDirtyLog_at_program_ (t p : Nat) (x : DirtyLog) : program? (setDirtyLog s t p x) = program? s := rfl
@[simp] theorem setDirtyLog_at_inst_ (t p : Nat) (x : DirtyLog) : inst? (setDirtyLog s t p x) = inst? s := rfl
@[simp] theorem setDirtyLog_at_dom (t p : Nat) (x : DirtyLog) : dom (setDirtyLog s t p x) = dom s := rfl

/-! `setBucket` -/

@[simp] theorem setBucket_pending (p f : Nat) (x : Bucket) : (setBucket s p f x).pending = s.pending := rfl
@[simp] theorem setBucket_cycle (p f : Nat) (x : Bucket) : (setBucket s p f x).cycle = s.cycle := rfl
@[simp] theorem setBucket_now (p f : Nat) (x : Bucket) : (setBucket s p f x).now = s.now := rfl
@[simp] theorem setBucket_freeCtr (p f : Nat) (x : Bucket) : (setBucket s p f x).freeCtr = s.freeCtr := rfl
@[simp] theorem setBucket_out (p f : Nat) (x : Bucket) : (setBucket s p f x).out = s.out := rfl
@[simp] theorem setBucket_saves (p f : Nat) (x : Bucket) : (setBucket s p f x).saves = s.saves := rfl
@[simp] theorem setBucket_regs (p f : Nat) (x : Bucket) : (setBucket s p f x).regs = s.regs := rfl
@[simp] theorem setBucket_keep (p f : Nat) (x : Bucket) : (setBucket s p f x).keep = s.keep := rfl
@[simp] theorem setBucket_epochs (p f : Nat) (x : Bucket) : (setBucket s p f x).epochs = s.epochs := rfl
@[simp] theorem setBucket_ne (p f : Nat) (x : Bucket) : (setBucket s p f x).ne = s.ne := rfl
@[simp] theorem setBucket_mp (p f : Nat) (x : Bucket) : (setBucket s p f x).mp = s.mp := rfl
@[simp] theorem setBucket_ru (p f : Nat) (x : Bucket) : (setBucket s p f x).ru = s.ru := rfl
@[simp] theorem setBucket_qm (p f : Nat) (x : Bucket) : (setBucket s p f x).qm = s.qm := rfl
@[simp] theorem setBucket_sh (p f : Nat) (x : Bucket) : (setBucket s p f x).sh = s.sh := rfl
@[simp] theorem setBucket_et (p f : Nat) (x : Bucket) : (setBucket s p f x).et = s.et := rfl
@[simp] theorem setBucket_wt (p f : Nat) (x : Bucket) : (setBucket s p f x).wt = s.wt := rfl
@[simp] theorem setBucket_hp (p f : Nat) (x : Bucket) : (setBucket s p f x).hp = s.hp := rfl
@[simp] theorem setBucket_fn (p f : Nat) (x : Bucket) : (setBucket s p f x).fn = s.fn := rfl
@[simp] theorem setBucket_sm (p f : Nat) (x : Bucket) : (setBucket s p f x).sm = s.sm := rfl
@[simp] theorem setBucket_th (p f : Nat) (x : Bucket) : (setBucket s p f x).th = s.th := rfl
@[simp] theorem setBucket_pw (p f : Nat) (x : Bucket) : (setBucket s p f x).pw = s.pw := rfl
@[simp] theorem setBucket_ln (p f : Nat) (x : Bucket) : (setBucket s p f x).ln = s.ln := rfl
@[simp] theorem setBucket_mg (p f : Nat) (x : Bucket) : (setBucket s p f x).mg = s.mg := rfl
@[simp] theorem setBucket_tb (p f : Nat) (x : Bucket) : (setBucket s p f x).tb = s.tb := rfl
@[simp] theorem setBucket_at_thread (p f : Nat) (x : Bucket) : thread (setBucket s p f x) = thread s := rfl
@[simp] theorem setBucket_at_tenant (p f : Nat) (x : Bucket) : tenant (setBucket s p f x) = tenant s := rfl
@[simp] theorem setBucket_at_port (p f : Nat) (x : Bucket) : port (setBucket s p f x) = port s := rfl
@[simp] theorem setBucket_at_chan (p f : Nat) (x : Bucket) : chan (setBucket s p f x) = chan s := rfl
@[simp] theorem setBucket_at_queue_ (p f : Nat) (x : Bucket) : queue? (setBucket s p f x) = queue? s := rfl
@[simp] theorem setBucket_at_gran (p f : Nat) (x : Bucket) : gran (setBucket s p f x) = gran s := rfl
@[simp] theorem setBucket_at_granList (p f : Nat) (x : Bucket) : granList (setBucket s p f x) = granList s := rfl
@[simp] theorem setBucket_at_conn (p f : Nat) (x : Bucket) : conn (setBucket s p f x) = conn s := rfl
@[simp] theorem setBucket_at_etPort (p f : Nat) (x : Bucket) : etPort (setBucket s p f x) = etPort s := rfl
@[simp] theorem setBucket_at_rwin_ (p f : Nat) (x : Bucket) : rwin? (setBucket s p f x) = rwin? s := rfl
@[simp] theorem setBucket_at_mbox (p f : Nat) (x : Bucket) : mbox (setBucket s p f x) = mbox s := rfl
@[simp] theorem setBucket_at_regGet (p f : Nat) (x : Bucket) : regGet (setBucket s p f x) = regGet s := rfl
@[simp] theorem setBucket_at_program_ (p f : Nat) (x : Bucket) : program? (setBucket s p f x) = program? s := rfl
@[simp] theorem setBucket_at_inst_ (p f : Nat) (x : Bucket) : inst? (setBucket s p f x) = inst? s := rfl
@[simp] theorem setBucket_at_window_ (p f : Nat) (x : Bucket) : window? (setBucket s p f x) = window? s := rfl
@[simp] theorem setBucket_at_dom (p f : Nat) (x : Bucket) : dom (setBucket s p f x) = dom s := rfl

/-! `setDom` -/

@[simp] theorem setDom_pending (d : Nat) (x : Domain) : (setDom s d x).pending = s.pending := rfl
@[simp] theorem setDom_cycle (d : Nat) (x : Domain) : (setDom s d x).cycle = s.cycle := rfl
@[simp] theorem setDom_now (d : Nat) (x : Domain) : (setDom s d x).now = s.now := rfl
@[simp] theorem setDom_freeCtr (d : Nat) (x : Domain) : (setDom s d x).freeCtr = s.freeCtr := rfl
@[simp] theorem setDom_out (d : Nat) (x : Domain) : (setDom s d x).out = s.out := rfl
@[simp] theorem setDom_saves (d : Nat) (x : Domain) : (setDom s d x).saves = s.saves := rfl
@[simp] theorem setDom_regs (d : Nat) (x : Domain) : (setDom s d x).regs = s.regs := rfl
@[simp] theorem setDom_keep (d : Nat) (x : Domain) : (setDom s d x).keep = s.keep := rfl
@[simp] theorem setDom_epochs (d : Nat) (x : Domain) : (setDom s d x).epochs = s.epochs := rfl
@[simp] theorem setDom_ne (d : Nat) (x : Domain) : (setDom s d x).ne = s.ne := rfl
@[simp] theorem setDom_mp (d : Nat) (x : Domain) : (setDom s d x).mp = s.mp := rfl
@[simp] theorem setDom_ru (d : Nat) (x : Domain) : (setDom s d x).ru = s.ru := rfl
@[simp] theorem setDom_qm (d : Nat) (x : Domain) : (setDom s d x).qm = s.qm := rfl
@[simp] theorem setDom_sh (d : Nat) (x : Domain) : (setDom s d x).sh = s.sh := rfl
@[simp] theorem setDom_et (d : Nat) (x : Domain) : (setDom s d x).et = s.et := rfl
@[simp] theorem setDom_wt (d : Nat) (x : Domain) : (setDom s d x).wt = s.wt := rfl
@[simp] theorem setDom_sc (d : Nat) (x : Domain) : (setDom s d x).sc = s.sc := rfl
@[simp] theorem setDom_hp (d : Nat) (x : Domain) : (setDom s d x).hp = s.hp := rfl
@[simp] theorem setDom_fn (d : Nat) (x : Domain) : (setDom s d x).fn = s.fn := rfl
@[simp] theorem setDom_sm (d : Nat) (x : Domain) : (setDom s d x).sm = s.sm := rfl
@[simp] theorem setDom_th (d : Nat) (x : Domain) : (setDom s d x).th = s.th := rfl
@[simp] theorem setDom_ln (d : Nat) (x : Domain) : (setDom s d x).ln = s.ln := rfl
@[simp] theorem setDom_mg (d : Nat) (x : Domain) : (setDom s d x).mg = s.mg := rfl
@[simp] theorem setDom_tb (d : Nat) (x : Domain) : (setDom s d x).tb = s.tb := rfl
@[simp] theorem setDom_at_thread (d : Nat) (x : Domain) : thread (setDom s d x) = thread s := rfl
@[simp] theorem setDom_at_tenant (d : Nat) (x : Domain) : tenant (setDom s d x) = tenant s := rfl
@[simp] theorem setDom_at_port (d : Nat) (x : Domain) : port (setDom s d x) = port s := rfl
@[simp] theorem setDom_at_chan (d : Nat) (x : Domain) : chan (setDom s d x) = chan s := rfl
@[simp] theorem setDom_at_queue_ (d : Nat) (x : Domain) : queue? (setDom s d x) = queue? s := rfl
@[simp] theorem setDom_at_gran (d : Nat) (x : Domain) : gran (setDom s d x) = gran s := rfl
@[simp] theorem setDom_at_granList (d : Nat) (x : Domain) : granList (setDom s d x) = granList s := rfl
@[simp] theorem setDom_at_conn (d : Nat) (x : Domain) : conn (setDom s d x) = conn s := rfl
@[simp] theorem setDom_at_etPort (d : Nat) (x : Domain) : etPort (setDom s d x) = etPort s := rfl
@[simp] theorem setDom_at_rwin_ (d : Nat) (x : Domain) : rwin? (setDom s d x) = rwin? s := rfl
@[simp] theorem setDom_at_mbox (d : Nat) (x : Domain) : mbox (setDom s d x) = mbox s := rfl
@[simp] theorem setDom_at_regGet (d : Nat) (x : Domain) : regGet (setDom s d x) = regGet s := rfl
@[simp] theorem setDom_at_program_ (d : Nat) (x : Domain) : program? (setDom s d x) = program? s := rfl
@[simp] theorem setDom_at_inst_ (d : Nat) (x : Domain) : inst? (setDom s d x) = inst? s := rfl
@[simp] theorem setDom_at_window_ (d : Nat) (x : Domain) : window? (setDom s d x) = window? s := rfl

/-! `setSerialLane` -/

@[simp] theorem setSerialLane_pending (l : Nat) (x : Lane) : (setSerialLane s l x).pending = s.pending := rfl
@[simp] theorem setSerialLane_cycle (l : Nat) (x : Lane) : (setSerialLane s l x).cycle = s.cycle := rfl
@[simp] theorem setSerialLane_now (l : Nat) (x : Lane) : (setSerialLane s l x).now = s.now := rfl
@[simp] theorem setSerialLane_freeCtr (l : Nat) (x : Lane) : (setSerialLane s l x).freeCtr = s.freeCtr := rfl
@[simp] theorem setSerialLane_out (l : Nat) (x : Lane) : (setSerialLane s l x).out = s.out := rfl
@[simp] theorem setSerialLane_saves (l : Nat) (x : Lane) : (setSerialLane s l x).saves = s.saves := rfl
@[simp] theorem setSerialLane_regs (l : Nat) (x : Lane) : (setSerialLane s l x).regs = s.regs := rfl
@[simp] theorem setSerialLane_keep (l : Nat) (x : Lane) : (setSerialLane s l x).keep = s.keep := rfl
@[simp] theorem setSerialLane_epochs (l : Nat) (x : Lane) : (setSerialLane s l x).epochs = s.epochs := rfl
@[simp] theorem setSerialLane_ne (l : Nat) (x : Lane) : (setSerialLane s l x).ne = s.ne := rfl
@[simp] theorem setSerialLane_mp (l : Nat) (x : Lane) : (setSerialLane s l x).mp = s.mp := rfl
@[simp] theorem setSerialLane_ru (l : Nat) (x : Lane) : (setSerialLane s l x).ru = s.ru := rfl
@[simp] theorem setSerialLane_qm (l : Nat) (x : Lane) : (setSerialLane s l x).qm = s.qm := rfl
@[simp] theorem setSerialLane_sh (l : Nat) (x : Lane) : (setSerialLane s l x).sh = s.sh := rfl
@[simp] theorem setSerialLane_et (l : Nat) (x : Lane) : (setSerialLane s l x).et = s.et := rfl
@[simp] theorem setSerialLane_wt (l : Nat) (x : Lane) : (setSerialLane s l x).wt = s.wt := rfl
@[simp] theorem setSerialLane_sc (l : Nat) (x : Lane) : (setSerialLane s l x).sc = s.sc := rfl
@[simp] theorem setSerialLane_hp (l : Nat) (x : Lane) : (setSerialLane s l x).hp = s.hp := rfl
@[simp] theorem setSerialLane_fn (l : Nat) (x : Lane) : (setSerialLane s l x).fn = s.fn := rfl
@[simp] theorem setSerialLane_sm (l : Nat) (x : Lane) : (setSerialLane s l x).sm = s.sm := rfl
@[simp] theorem setSerialLane_th (l : Nat) (x : Lane) : (setSerialLane s l x).th = s.th := rfl
@[simp] theorem setSerialLane_pw (l : Nat) (x : Lane) : (setSerialLane s l x).pw = s.pw := rfl
@[simp] theorem setSerialLane_mg (l : Nat) (x : Lane) : (setSerialLane s l x).mg = s.mg := rfl
@[simp] theorem setSerialLane_tb (l : Nat) (x : Lane) : (setSerialLane s l x).tb = s.tb := rfl
@[simp] theorem setSerialLane_at_thread (l : Nat) (x : Lane) : thread (setSerialLane s l x) = thread s := rfl
@[simp] theorem setSerialLane_at_tenant (l : Nat) (x : Lane) : tenant (setSerialLane s l x) = tenant s := rfl
@[simp] theorem setSerialLane_at_port (l : Nat) (x : Lane) : port (setSerialLane s l x) = port s := rfl
@[simp] theorem setSerialLane_at_chan (l : Nat) (x : Lane) : chan (setSerialLane s l x) = chan s := rfl
@[simp] theorem setSerialLane_at_queue_ (l : Nat) (x : Lane) : queue? (setSerialLane s l x) = queue? s := rfl
@[simp] theorem setSerialLane_at_gran (l : Nat) (x : Lane) : gran (setSerialLane s l x) = gran s := rfl
@[simp] theorem setSerialLane_at_granList (l : Nat) (x : Lane) : granList (setSerialLane s l x) = granList s := rfl
@[simp] theorem setSerialLane_at_conn (l : Nat) (x : Lane) : conn (setSerialLane s l x) = conn s := rfl
@[simp] theorem setSerialLane_at_etPort (l : Nat) (x : Lane) : etPort (setSerialLane s l x) = etPort s := rfl
@[simp] theorem setSerialLane_at_rwin_ (l : Nat) (x : Lane) : rwin? (setSerialLane s l x) = rwin? s := rfl
@[simp] theorem setSerialLane_at_mbox (l : Nat) (x : Lane) : mbox (setSerialLane s l x) = mbox s := rfl
@[simp] theorem setSerialLane_at_regGet (l : Nat) (x : Lane) : regGet (setSerialLane s l x) = regGet s := rfl
@[simp] theorem setSerialLane_at_program_ (l : Nat) (x : Lane) : program? (setSerialLane s l x) = program? s := rfl
@[simp] theorem setSerialLane_at_inst_ (l : Nat) (x : Lane) : inst? (setSerialLane s l x) = inst? s := rfl
@[simp] theorem setSerialLane_at_window_ (l : Nat) (x : Lane) : window? (setSerialLane s l x) = window? s := rfl
@[simp] theorem setSerialLane_at_dom (l : Nat) (x : Lane) : dom (setSerialLane s l x) = dom s := rfl

/-! `setSm` -/

@[simp] theorem setSm_pending (f : SmState → SmState) : (setSm s f).pending = s.pending := rfl
@[simp] theorem setSm_cycle (f : SmState → SmState) : (setSm s f).cycle = s.cycle := rfl
@[simp] theorem setSm_now (f : SmState → SmState) : (setSm s f).now = s.now := rfl
@[simp] theorem setSm_freeCtr (f : SmState → SmState) : (setSm s f).freeCtr = s.freeCtr := rfl
@[simp] theorem setSm_out (f : SmState → SmState) : (setSm s f).out = s.out := rfl
@[simp] theorem setSm_saves (f : SmState → SmState) : (setSm s f).saves = s.saves := rfl
@[simp] theorem setSm_regs (f : SmState → SmState) : (setSm s f).regs = s.regs := rfl
@[simp] theorem setSm_keep (f : SmState → SmState) : (setSm s f).keep = s.keep := rfl
@[simp] theorem setSm_epochs (f : SmState → SmState) : (setSm s f).epochs = s.epochs := rfl
@[simp] theorem setSm_ne (f : SmState → SmState) : (setSm s f).ne = s.ne := rfl
@[simp] theorem setSm_mp (f : SmState → SmState) : (setSm s f).mp = s.mp := rfl
@[simp] theorem setSm_ru (f : SmState → SmState) : (setSm s f).ru = s.ru := rfl
@[simp] theorem setSm_qm (f : SmState → SmState) : (setSm s f).qm = s.qm := rfl
@[simp] theorem setSm_sh (f : SmState → SmState) : (setSm s f).sh = s.sh := rfl
@[simp] theorem setSm_et (f : SmState → SmState) : (setSm s f).et = s.et := rfl
@[simp] theorem setSm_wt (f : SmState → SmState) : (setSm s f).wt = s.wt := rfl
@[simp] theorem setSm_sc (f : SmState → SmState) : (setSm s f).sc = s.sc := rfl
@[simp] theorem setSm_hp (f : SmState → SmState) : (setSm s f).hp = s.hp := rfl
@[simp] theorem setSm_fn (f : SmState → SmState) : (setSm s f).fn = s.fn := rfl
@[simp] theorem setSm_th (f : SmState → SmState) : (setSm s f).th = s.th := rfl
@[simp] theorem setSm_pw (f : SmState → SmState) : (setSm s f).pw = s.pw := rfl
@[simp] theorem setSm_ln (f : SmState → SmState) : (setSm s f).ln = s.ln := rfl
@[simp] theorem setSm_mg (f : SmState → SmState) : (setSm s f).mg = s.mg := rfl
@[simp] theorem setSm_tb (f : SmState → SmState) : (setSm s f).tb = s.tb := rfl
@[simp] theorem setSm_at_thread (f : SmState → SmState) : thread (setSm s f) = thread s := rfl
@[simp] theorem setSm_at_tenant (f : SmState → SmState) : tenant (setSm s f) = tenant s := rfl
@[simp] theorem setSm_at_port (f : SmState → SmState) : port (setSm s f) = port s := rfl
@[simp] theorem setSm_at_chan (f : SmState → SmState) : chan (setSm s f) = chan s := rfl
@[simp] theorem setSm_at_queue_ (f : SmState → SmState) : queue? (setSm s f) = queue? s := rfl
@[simp] theorem setSm_at_gran (f : SmState → SmState) : gran (setSm s f) = gran s := rfl
@[simp] theorem setSm_at_granList (f : SmState → SmState) : granList (setSm s f) = granList s := rfl
@[simp] theorem setSm_at_conn (f : SmState → SmState) : conn (setSm s f) = conn s := rfl
@[simp] theorem setSm_at_etPort (f : SmState → SmState) : etPort (setSm s f) = etPort s := rfl
@[simp] theorem setSm_at_rwin_ (f : SmState → SmState) : rwin? (setSm s f) = rwin? s := rfl
@[simp] theorem setSm_at_mbox (f : SmState → SmState) : mbox (setSm s f) = mbox s := rfl
@[simp] theorem setSm_at_regGet (f : SmState → SmState) : regGet (setSm s f) = regGet s := rfl
@[simp] theorem setSm_at_program_ (f : SmState → SmState) : program? (setSm s f) = program? s := rfl
@[simp] theorem setSm_at_inst_ (f : SmState → SmState) : inst? (setSm s f) = inst? s := rfl
@[simp] theorem setSm_at_window_ (f : SmState → SmState) : window? (setSm s f) = window? s := rfl
@[simp] theorem setSm_at_dom (f : SmState → SmState) : dom (setSm s f) = dom s := rfl

/-! `setPw` -/

@[simp] theorem setPw_pending (f : PwState → PwState) : (setPw s f).pending = s.pending := rfl
@[simp] theorem setPw_cycle (f : PwState → PwState) : (setPw s f).cycle = s.cycle := rfl
@[simp] theorem setPw_now (f : PwState → PwState) : (setPw s f).now = s.now := rfl
@[simp] theorem setPw_freeCtr (f : PwState → PwState) : (setPw s f).freeCtr = s.freeCtr := rfl
@[simp] theorem setPw_out (f : PwState → PwState) : (setPw s f).out = s.out := rfl
@[simp] theorem setPw_saves (f : PwState → PwState) : (setPw s f).saves = s.saves := rfl
@[simp] theorem setPw_regs (f : PwState → PwState) : (setPw s f).regs = s.regs := rfl
@[simp] theorem setPw_keep (f : PwState → PwState) : (setPw s f).keep = s.keep := rfl
@[simp] theorem setPw_epochs (f : PwState → PwState) : (setPw s f).epochs = s.epochs := rfl
@[simp] theorem setPw_ne (f : PwState → PwState) : (setPw s f).ne = s.ne := rfl
@[simp] theorem setPw_mp (f : PwState → PwState) : (setPw s f).mp = s.mp := rfl
@[simp] theorem setPw_ru (f : PwState → PwState) : (setPw s f).ru = s.ru := rfl
@[simp] theorem setPw_qm (f : PwState → PwState) : (setPw s f).qm = s.qm := rfl
@[simp] theorem setPw_sh (f : PwState → PwState) : (setPw s f).sh = s.sh := rfl
@[simp] theorem setPw_et (f : PwState → PwState) : (setPw s f).et = s.et := rfl
@[simp] theorem setPw_wt (f : PwState → PwState) : (setPw s f).wt = s.wt := rfl
@[simp] theorem setPw_sc (f : PwState → PwState) : (setPw s f).sc = s.sc := rfl
@[simp] theorem setPw_hp (f : PwState → PwState) : (setPw s f).hp = s.hp := rfl
@[simp] theorem setPw_fn (f : PwState → PwState) : (setPw s f).fn = s.fn := rfl
@[simp] theorem setPw_sm (f : PwState → PwState) : (setPw s f).sm = s.sm := rfl
@[simp] theorem setPw_th (f : PwState → PwState) : (setPw s f).th = s.th := rfl
@[simp] theorem setPw_ln (f : PwState → PwState) : (setPw s f).ln = s.ln := rfl
@[simp] theorem setPw_mg (f : PwState → PwState) : (setPw s f).mg = s.mg := rfl
@[simp] theorem setPw_tb (f : PwState → PwState) : (setPw s f).tb = s.tb := rfl
@[simp] theorem setPw_at_thread (f : PwState → PwState) : thread (setPw s f) = thread s := rfl
@[simp] theorem setPw_at_tenant (f : PwState → PwState) : tenant (setPw s f) = tenant s := rfl
@[simp] theorem setPw_at_port (f : PwState → PwState) : port (setPw s f) = port s := rfl
@[simp] theorem setPw_at_chan (f : PwState → PwState) : chan (setPw s f) = chan s := rfl
@[simp] theorem setPw_at_queue_ (f : PwState → PwState) : queue? (setPw s f) = queue? s := rfl
@[simp] theorem setPw_at_gran (f : PwState → PwState) : gran (setPw s f) = gran s := rfl
@[simp] theorem setPw_at_granList (f : PwState → PwState) : granList (setPw s f) = granList s := rfl
@[simp] theorem setPw_at_conn (f : PwState → PwState) : conn (setPw s f) = conn s := rfl
@[simp] theorem setPw_at_etPort (f : PwState → PwState) : etPort (setPw s f) = etPort s := rfl
@[simp] theorem setPw_at_rwin_ (f : PwState → PwState) : rwin? (setPw s f) = rwin? s := rfl
@[simp] theorem setPw_at_mbox (f : PwState → PwState) : mbox (setPw s f) = mbox s := rfl
@[simp] theorem setPw_at_regGet (f : PwState → PwState) : regGet (setPw s f) = regGet s := rfl
@[simp] theorem setPw_at_program_ (f : PwState → PwState) : program? (setPw s f) = program? s := rfl
@[simp] theorem setPw_at_inst_ (f : PwState → PwState) : inst? (setPw s f) = inst? s := rfl
@[simp] theorem setPw_at_window_ (f : PwState → PwState) : window? (setPw s f) = window? s := rfl

/-! `setMbox` -/

@[simp] theorem setMbox_pending (n : Nat) (x : Mbox) : (setMbox s n x).pending = s.pending := rfl
@[simp] theorem setMbox_cycle (n : Nat) (x : Mbox) : (setMbox s n x).cycle = s.cycle := rfl
@[simp] theorem setMbox_now (n : Nat) (x : Mbox) : (setMbox s n x).now = s.now := rfl
@[simp] theorem setMbox_freeCtr (n : Nat) (x : Mbox) : (setMbox s n x).freeCtr = s.freeCtr := rfl
@[simp] theorem setMbox_out (n : Nat) (x : Mbox) : (setMbox s n x).out = s.out := rfl
@[simp] theorem setMbox_saves (n : Nat) (x : Mbox) : (setMbox s n x).saves = s.saves := rfl
@[simp] theorem setMbox_regs (n : Nat) (x : Mbox) : (setMbox s n x).regs = s.regs := rfl
@[simp] theorem setMbox_keep (n : Nat) (x : Mbox) : (setMbox s n x).keep = s.keep := rfl
@[simp] theorem setMbox_epochs (n : Nat) (x : Mbox) : (setMbox s n x).epochs = s.epochs := rfl
@[simp] theorem setMbox_ne (n : Nat) (x : Mbox) : (setMbox s n x).ne = s.ne := rfl
@[simp] theorem setMbox_mp (n : Nat) (x : Mbox) : (setMbox s n x).mp = s.mp := rfl
@[simp] theorem setMbox_ru (n : Nat) (x : Mbox) : (setMbox s n x).ru = s.ru := rfl
@[simp] theorem setMbox_qm (n : Nat) (x : Mbox) : (setMbox s n x).qm = s.qm := rfl
@[simp] theorem setMbox_sh (n : Nat) (x : Mbox) : (setMbox s n x).sh = s.sh := rfl
@[simp] theorem setMbox_et (n : Nat) (x : Mbox) : (setMbox s n x).et = s.et := rfl
@[simp] theorem setMbox_wt (n : Nat) (x : Mbox) : (setMbox s n x).wt = s.wt := rfl
@[simp] theorem setMbox_sc (n : Nat) (x : Mbox) : (setMbox s n x).sc = s.sc := rfl
@[simp] theorem setMbox_hp (n : Nat) (x : Mbox) : (setMbox s n x).hp = s.hp := rfl
@[simp] theorem setMbox_fn (n : Nat) (x : Mbox) : (setMbox s n x).fn = s.fn := rfl
@[simp] theorem setMbox_sm (n : Nat) (x : Mbox) : (setMbox s n x).sm = s.sm := rfl
@[simp] theorem setMbox_th (n : Nat) (x : Mbox) : (setMbox s n x).th = s.th := rfl
@[simp] theorem setMbox_pw (n : Nat) (x : Mbox) : (setMbox s n x).pw = s.pw := rfl
@[simp] theorem setMbox_ln (n : Nat) (x : Mbox) : (setMbox s n x).ln = s.ln := rfl
@[simp] theorem setMbox_tb (n : Nat) (x : Mbox) : (setMbox s n x).tb = s.tb := rfl
@[simp] theorem setMbox_at_thread (n : Nat) (x : Mbox) : thread (setMbox s n x) = thread s := rfl
@[simp] theorem setMbox_at_tenant (n : Nat) (x : Mbox) : tenant (setMbox s n x) = tenant s := rfl
@[simp] theorem setMbox_at_port (n : Nat) (x : Mbox) : port (setMbox s n x) = port s := rfl
@[simp] theorem setMbox_at_chan (n : Nat) (x : Mbox) : chan (setMbox s n x) = chan s := rfl
@[simp] theorem setMbox_at_queue_ (n : Nat) (x : Mbox) : queue? (setMbox s n x) = queue? s := rfl
@[simp] theorem setMbox_at_gran (n : Nat) (x : Mbox) : gran (setMbox s n x) = gran s := rfl
@[simp] theorem setMbox_at_granList (n : Nat) (x : Mbox) : granList (setMbox s n x) = granList s := rfl
@[simp] theorem setMbox_at_conn (n : Nat) (x : Mbox) : conn (setMbox s n x) = conn s := rfl
@[simp] theorem setMbox_at_etPort (n : Nat) (x : Mbox) : etPort (setMbox s n x) = etPort s := rfl
@[simp] theorem setMbox_at_rwin_ (n : Nat) (x : Mbox) : rwin? (setMbox s n x) = rwin? s := rfl
@[simp] theorem setMbox_at_regGet (n : Nat) (x : Mbox) : regGet (setMbox s n x) = regGet s := rfl
@[simp] theorem setMbox_at_program_ (n : Nat) (x : Mbox) : program? (setMbox s n x) = program? s := rfl
@[simp] theorem setMbox_at_inst_ (n : Nat) (x : Mbox) : inst? (setMbox s n x) = inst? s := rfl
@[simp] theorem setMbox_at_window_ (n : Nat) (x : Mbox) : window? (setMbox s n x) = window? s := rfl
@[simp] theorem setMbox_at_dom (n : Nat) (x : Mbox) : dom (setMbox s n x) = dom s := rfl

/-! `regSet` -/

@[simp] theorem regSet_pending (r : Nat) (w : Word) : (regSet s r w).pending = s.pending := rfl
@[simp] theorem regSet_cycle (r : Nat) (w : Word) : (regSet s r w).cycle = s.cycle := rfl
@[simp] theorem regSet_now (r : Nat) (w : Word) : (regSet s r w).now = s.now := rfl
@[simp] theorem regSet_freeCtr (r : Nat) (w : Word) : (regSet s r w).freeCtr = s.freeCtr := rfl
@[simp] theorem regSet_out (r : Nat) (w : Word) : (regSet s r w).out = s.out := rfl
@[simp] theorem regSet_saves (r : Nat) (w : Word) : (regSet s r w).saves = s.saves := rfl
@[simp] theorem regSet_keep (r : Nat) (w : Word) : (regSet s r w).keep = s.keep := rfl
@[simp] theorem regSet_epochs (r : Nat) (w : Word) : (regSet s r w).epochs = s.epochs := rfl
@[simp] theorem regSet_ne (r : Nat) (w : Word) : (regSet s r w).ne = s.ne := rfl
@[simp] theorem regSet_mp (r : Nat) (w : Word) : (regSet s r w).mp = s.mp := rfl
@[simp] theorem regSet_ru (r : Nat) (w : Word) : (regSet s r w).ru = s.ru := rfl
@[simp] theorem regSet_qm (r : Nat) (w : Word) : (regSet s r w).qm = s.qm := rfl
@[simp] theorem regSet_sh (r : Nat) (w : Word) : (regSet s r w).sh = s.sh := rfl
@[simp] theorem regSet_et (r : Nat) (w : Word) : (regSet s r w).et = s.et := rfl
@[simp] theorem regSet_wt (r : Nat) (w : Word) : (regSet s r w).wt = s.wt := rfl
@[simp] theorem regSet_sc (r : Nat) (w : Word) : (regSet s r w).sc = s.sc := rfl
@[simp] theorem regSet_hp (r : Nat) (w : Word) : (regSet s r w).hp = s.hp := rfl
@[simp] theorem regSet_fn (r : Nat) (w : Word) : (regSet s r w).fn = s.fn := rfl
@[simp] theorem regSet_sm (r : Nat) (w : Word) : (regSet s r w).sm = s.sm := rfl
@[simp] theorem regSet_th (r : Nat) (w : Word) : (regSet s r w).th = s.th := rfl
@[simp] theorem regSet_pw (r : Nat) (w : Word) : (regSet s r w).pw = s.pw := rfl
@[simp] theorem regSet_ln (r : Nat) (w : Word) : (regSet s r w).ln = s.ln := rfl
@[simp] theorem regSet_mg (r : Nat) (w : Word) : (regSet s r w).mg = s.mg := rfl
@[simp] theorem regSet_tb (r : Nat) (w : Word) : (regSet s r w).tb = s.tb := rfl
@[simp] theorem regSet_at_thread (r : Nat) (w : Word) : thread (regSet s r w) = thread s := rfl
@[simp] theorem regSet_at_tenant (r : Nat) (w : Word) : tenant (regSet s r w) = tenant s := rfl
@[simp] theorem regSet_at_port (r : Nat) (w : Word) : port (regSet s r w) = port s := rfl
@[simp] theorem regSet_at_chan (r : Nat) (w : Word) : chan (regSet s r w) = chan s := rfl
@[simp] theorem regSet_at_queue_ (r : Nat) (w : Word) : queue? (regSet s r w) = queue? s := rfl
@[simp] theorem regSet_at_gran (r : Nat) (w : Word) : gran (regSet s r w) = gran s := rfl
@[simp] theorem regSet_at_granList (r : Nat) (w : Word) : granList (regSet s r w) = granList s := rfl
@[simp] theorem regSet_at_conn (r : Nat) (w : Word) : conn (regSet s r w) = conn s := rfl
@[simp] theorem regSet_at_etPort (r : Nat) (w : Word) : etPort (regSet s r w) = etPort s := rfl
@[simp] theorem regSet_at_rwin_ (r : Nat) (w : Word) : rwin? (regSet s r w) = rwin? s := rfl
@[simp] theorem regSet_at_mbox (r : Nat) (w : Word) : mbox (regSet s r w) = mbox s := rfl
@[simp] theorem regSet_at_program_ (r : Nat) (w : Word) : program? (regSet s r w) = program? s := rfl
@[simp] theorem regSet_at_inst_ (r : Nat) (w : Word) : inst? (regSet s r w) = inst? s := rfl
@[simp] theorem regSet_at_window_ (r : Nat) (w : Word) : window? (regSet s r w) = window? s := rfl
@[simp] theorem regSet_at_dom (r : Nat) (w : Word) : dom (regSet s r w) = dom s := rfl

/-! `countN` -/

@[simp] theorem countN_pending (r n : Nat) : (countN s r n).pending = s.pending := rfl
@[simp] theorem countN_cycle (r n : Nat) : (countN s r n).cycle = s.cycle := rfl
@[simp] theorem countN_now (r n : Nat) : (countN s r n).now = s.now := rfl
@[simp] theorem countN_freeCtr (r n : Nat) : (countN s r n).freeCtr = s.freeCtr := rfl
@[simp] theorem countN_out (r n : Nat) : (countN s r n).out = s.out := rfl
@[simp] theorem countN_saves (r n : Nat) : (countN s r n).saves = s.saves := rfl
@[simp] theorem countN_keep (r n : Nat) : (countN s r n).keep = s.keep := rfl
@[simp] theorem countN_epochs (r n : Nat) : (countN s r n).epochs = s.epochs := rfl
@[simp] theorem countN_ne (r n : Nat) : (countN s r n).ne = s.ne := rfl
@[simp] theorem countN_mp (r n : Nat) : (countN s r n).mp = s.mp := rfl
@[simp] theorem countN_ru (r n : Nat) : (countN s r n).ru = s.ru := rfl
@[simp] theorem countN_qm (r n : Nat) : (countN s r n).qm = s.qm := rfl
@[simp] theorem countN_sh (r n : Nat) : (countN s r n).sh = s.sh := rfl
@[simp] theorem countN_et (r n : Nat) : (countN s r n).et = s.et := rfl
@[simp] theorem countN_wt (r n : Nat) : (countN s r n).wt = s.wt := rfl
@[simp] theorem countN_sc (r n : Nat) : (countN s r n).sc = s.sc := rfl
@[simp] theorem countN_hp (r n : Nat) : (countN s r n).hp = s.hp := rfl
@[simp] theorem countN_fn (r n : Nat) : (countN s r n).fn = s.fn := rfl
@[simp] theorem countN_sm (r n : Nat) : (countN s r n).sm = s.sm := rfl
@[simp] theorem countN_th (r n : Nat) : (countN s r n).th = s.th := rfl
@[simp] theorem countN_pw (r n : Nat) : (countN s r n).pw = s.pw := rfl
@[simp] theorem countN_ln (r n : Nat) : (countN s r n).ln = s.ln := rfl
@[simp] theorem countN_mg (r n : Nat) : (countN s r n).mg = s.mg := rfl
@[simp] theorem countN_tb (r n : Nat) : (countN s r n).tb = s.tb := rfl
@[simp] theorem countN_at_thread (r n : Nat) : thread (countN s r n) = thread s := rfl
@[simp] theorem countN_at_tenant (r n : Nat) : tenant (countN s r n) = tenant s := rfl
@[simp] theorem countN_at_port (r n : Nat) : port (countN s r n) = port s := rfl
@[simp] theorem countN_at_chan (r n : Nat) : chan (countN s r n) = chan s := rfl
@[simp] theorem countN_at_queue_ (r n : Nat) : queue? (countN s r n) = queue? s := rfl
@[simp] theorem countN_at_gran (r n : Nat) : gran (countN s r n) = gran s := rfl
@[simp] theorem countN_at_granList (r n : Nat) : granList (countN s r n) = granList s := rfl
@[simp] theorem countN_at_conn (r n : Nat) : conn (countN s r n) = conn s := rfl
@[simp] theorem countN_at_etPort (r n : Nat) : etPort (countN s r n) = etPort s := rfl
@[simp] theorem countN_at_rwin_ (r n : Nat) : rwin? (countN s r n) = rwin? s := rfl
@[simp] theorem countN_at_mbox (r n : Nat) : mbox (countN s r n) = mbox s := rfl
@[simp] theorem countN_at_program_ (r n : Nat) : program? (countN s r n) = program? s := rfl
@[simp] theorem countN_at_inst_ (r n : Nat) : inst? (countN s r n) = inst? s := rfl
@[simp] theorem countN_at_window_ (r n : Nat) : window? (countN s r n) = window? s := rfl
@[simp] theorem countN_at_dom (r n : Nat) : dom (countN s r n) = dom s := rfl

/-! `count` -/

@[simp] theorem count_pending (r : Nat) : (count s r).pending = s.pending := rfl
@[simp] theorem count_cycle (r : Nat) : (count s r).cycle = s.cycle := rfl
@[simp] theorem count_now (r : Nat) : (count s r).now = s.now := rfl
@[simp] theorem count_freeCtr (r : Nat) : (count s r).freeCtr = s.freeCtr := rfl
@[simp] theorem count_out (r : Nat) : (count s r).out = s.out := rfl
@[simp] theorem count_saves (r : Nat) : (count s r).saves = s.saves := rfl
@[simp] theorem count_keep (r : Nat) : (count s r).keep = s.keep := rfl
@[simp] theorem count_epochs (r : Nat) : (count s r).epochs = s.epochs := rfl
@[simp] theorem count_ne (r : Nat) : (count s r).ne = s.ne := rfl
@[simp] theorem count_mp (r : Nat) : (count s r).mp = s.mp := rfl
@[simp] theorem count_ru (r : Nat) : (count s r).ru = s.ru := rfl
@[simp] theorem count_qm (r : Nat) : (count s r).qm = s.qm := rfl
@[simp] theorem count_sh (r : Nat) : (count s r).sh = s.sh := rfl
@[simp] theorem count_et (r : Nat) : (count s r).et = s.et := rfl
@[simp] theorem count_wt (r : Nat) : (count s r).wt = s.wt := rfl
@[simp] theorem count_sc (r : Nat) : (count s r).sc = s.sc := rfl
@[simp] theorem count_hp (r : Nat) : (count s r).hp = s.hp := rfl
@[simp] theorem count_fn (r : Nat) : (count s r).fn = s.fn := rfl
@[simp] theorem count_sm (r : Nat) : (count s r).sm = s.sm := rfl
@[simp] theorem count_th (r : Nat) : (count s r).th = s.th := rfl
@[simp] theorem count_pw (r : Nat) : (count s r).pw = s.pw := rfl
@[simp] theorem count_ln (r : Nat) : (count s r).ln = s.ln := rfl
@[simp] theorem count_mg (r : Nat) : (count s r).mg = s.mg := rfl
@[simp] theorem count_tb (r : Nat) : (count s r).tb = s.tb := rfl
@[simp] theorem count_at_thread (r : Nat) : thread (count s r) = thread s := rfl
@[simp] theorem count_at_tenant (r : Nat) : tenant (count s r) = tenant s := rfl
@[simp] theorem count_at_port (r : Nat) : port (count s r) = port s := rfl
@[simp] theorem count_at_chan (r : Nat) : chan (count s r) = chan s := rfl
@[simp] theorem count_at_queue_ (r : Nat) : queue? (count s r) = queue? s := rfl
@[simp] theorem count_at_gran (r : Nat) : gran (count s r) = gran s := rfl
@[simp] theorem count_at_granList (r : Nat) : granList (count s r) = granList s := rfl
@[simp] theorem count_at_conn (r : Nat) : conn (count s r) = conn s := rfl
@[simp] theorem count_at_etPort (r : Nat) : etPort (count s r) = etPort s := rfl
@[simp] theorem count_at_rwin_ (r : Nat) : rwin? (count s r) = rwin? s := rfl
@[simp] theorem count_at_mbox (r : Nat) : mbox (count s r) = mbox s := rfl
@[simp] theorem count_at_program_ (r : Nat) : program? (count s r) = program? s := rfl
@[simp] theorem count_at_inst_ (r : Nat) : inst? (count s r) = inst? s := rfl
@[simp] theorem count_at_window_ (r : Nat) : window? (count s r) = window? s := rfl
@[simp] theorem count_at_dom (r : Nat) : dom (count s r) = dom s := rfl

/-! `keepSet` -/

@[simp] theorem keepSet_pending (r : Nat) (w : Word) : (keepSet s r w).pending = s.pending := rfl
@[simp] theorem keepSet_cycle (r : Nat) (w : Word) : (keepSet s r w).cycle = s.cycle := rfl
@[simp] theorem keepSet_now (r : Nat) (w : Word) : (keepSet s r w).now = s.now := rfl
@[simp] theorem keepSet_freeCtr (r : Nat) (w : Word) : (keepSet s r w).freeCtr = s.freeCtr := rfl
@[simp] theorem keepSet_out (r : Nat) (w : Word) : (keepSet s r w).out = s.out := rfl
@[simp] theorem keepSet_saves (r : Nat) (w : Word) : (keepSet s r w).saves = s.saves := rfl
@[simp] theorem keepSet_regs (r : Nat) (w : Word) : (keepSet s r w).regs = s.regs := rfl
@[simp] theorem keepSet_epochs (r : Nat) (w : Word) : (keepSet s r w).epochs = s.epochs := rfl
@[simp] theorem keepSet_ne (r : Nat) (w : Word) : (keepSet s r w).ne = s.ne := rfl
@[simp] theorem keepSet_mp (r : Nat) (w : Word) : (keepSet s r w).mp = s.mp := rfl
@[simp] theorem keepSet_ru (r : Nat) (w : Word) : (keepSet s r w).ru = s.ru := rfl
@[simp] theorem keepSet_qm (r : Nat) (w : Word) : (keepSet s r w).qm = s.qm := rfl
@[simp] theorem keepSet_sh (r : Nat) (w : Word) : (keepSet s r w).sh = s.sh := rfl
@[simp] theorem keepSet_et (r : Nat) (w : Word) : (keepSet s r w).et = s.et := rfl
@[simp] theorem keepSet_wt (r : Nat) (w : Word) : (keepSet s r w).wt = s.wt := rfl
@[simp] theorem keepSet_sc (r : Nat) (w : Word) : (keepSet s r w).sc = s.sc := rfl
@[simp] theorem keepSet_hp (r : Nat) (w : Word) : (keepSet s r w).hp = s.hp := rfl
@[simp] theorem keepSet_fn (r : Nat) (w : Word) : (keepSet s r w).fn = s.fn := rfl
@[simp] theorem keepSet_sm (r : Nat) (w : Word) : (keepSet s r w).sm = s.sm := rfl
@[simp] theorem keepSet_th (r : Nat) (w : Word) : (keepSet s r w).th = s.th := rfl
@[simp] theorem keepSet_pw (r : Nat) (w : Word) : (keepSet s r w).pw = s.pw := rfl
@[simp] theorem keepSet_ln (r : Nat) (w : Word) : (keepSet s r w).ln = s.ln := rfl
@[simp] theorem keepSet_mg (r : Nat) (w : Word) : (keepSet s r w).mg = s.mg := rfl
@[simp] theorem keepSet_tb (r : Nat) (w : Word) : (keepSet s r w).tb = s.tb := rfl
@[simp] theorem keepSet_at_thread (r : Nat) (w : Word) : thread (keepSet s r w) = thread s := rfl
@[simp] theorem keepSet_at_tenant (r : Nat) (w : Word) : tenant (keepSet s r w) = tenant s := rfl
@[simp] theorem keepSet_at_port (r : Nat) (w : Word) : port (keepSet s r w) = port s := rfl
@[simp] theorem keepSet_at_chan (r : Nat) (w : Word) : chan (keepSet s r w) = chan s := rfl
@[simp] theorem keepSet_at_queue_ (r : Nat) (w : Word) : queue? (keepSet s r w) = queue? s := rfl
@[simp] theorem keepSet_at_gran (r : Nat) (w : Word) : gran (keepSet s r w) = gran s := rfl
@[simp] theorem keepSet_at_granList (r : Nat) (w : Word) : granList (keepSet s r w) = granList s := rfl
@[simp] theorem keepSet_at_conn (r : Nat) (w : Word) : conn (keepSet s r w) = conn s := rfl
@[simp] theorem keepSet_at_etPort (r : Nat) (w : Word) : etPort (keepSet s r w) = etPort s := rfl
@[simp] theorem keepSet_at_rwin_ (r : Nat) (w : Word) : rwin? (keepSet s r w) = rwin? s := rfl
@[simp] theorem keepSet_at_mbox (r : Nat) (w : Word) : mbox (keepSet s r w) = mbox s := rfl
@[simp] theorem keepSet_at_regGet (r : Nat) (w : Word) : regGet (keepSet s r w) = regGet s := rfl
@[simp] theorem keepSet_at_program_ (r : Nat) (w : Word) : program? (keepSet s r w) = program? s := rfl
@[simp] theorem keepSet_at_inst_ (r : Nat) (w : Word) : inst? (keepSet s r w) = inst? s := rfl
@[simp] theorem keepSet_at_window_ (r : Nat) (w : Word) : window? (keepSet s r w) = window? s := rfl
@[simp] theorem keepSet_at_dom (r : Nat) (w : Word) : dom (keepSet s r w) = dom s := rfl

/-! `cfgSet` -/

@[simp] theorem cfgSet_pending (p f o : Nat) (w : BitVec 32) : (cfgSet s p f o w).pending = s.pending := rfl
@[simp] theorem cfgSet_cycle (p f o : Nat) (w : BitVec 32) : (cfgSet s p f o w).cycle = s.cycle := rfl
@[simp] theorem cfgSet_now (p f o : Nat) (w : BitVec 32) : (cfgSet s p f o w).now = s.now := rfl
@[simp] theorem cfgSet_freeCtr (p f o : Nat) (w : BitVec 32) : (cfgSet s p f o w).freeCtr = s.freeCtr := rfl
@[simp] theorem cfgSet_out (p f o : Nat) (w : BitVec 32) : (cfgSet s p f o w).out = s.out := rfl
@[simp] theorem cfgSet_saves (p f o : Nat) (w : BitVec 32) : (cfgSet s p f o w).saves = s.saves := rfl
@[simp] theorem cfgSet_regs (p f o : Nat) (w : BitVec 32) : (cfgSet s p f o w).regs = s.regs := rfl
@[simp] theorem cfgSet_keep (p f o : Nat) (w : BitVec 32) : (cfgSet s p f o w).keep = s.keep := rfl
@[simp] theorem cfgSet_epochs (p f o : Nat) (w : BitVec 32) : (cfgSet s p f o w).epochs = s.epochs := rfl
@[simp] theorem cfgSet_ne (p f o : Nat) (w : BitVec 32) : (cfgSet s p f o w).ne = s.ne := rfl
@[simp] theorem cfgSet_mp (p f o : Nat) (w : BitVec 32) : (cfgSet s p f o w).mp = s.mp := rfl
@[simp] theorem cfgSet_ru (p f o : Nat) (w : BitVec 32) : (cfgSet s p f o w).ru = s.ru := rfl
@[simp] theorem cfgSet_qm (p f o : Nat) (w : BitVec 32) : (cfgSet s p f o w).qm = s.qm := rfl
@[simp] theorem cfgSet_sh (p f o : Nat) (w : BitVec 32) : (cfgSet s p f o w).sh = s.sh := rfl
@[simp] theorem cfgSet_et (p f o : Nat) (w : BitVec 32) : (cfgSet s p f o w).et = s.et := rfl
@[simp] theorem cfgSet_wt (p f o : Nat) (w : BitVec 32) : (cfgSet s p f o w).wt = s.wt := rfl
@[simp] theorem cfgSet_sc (p f o : Nat) (w : BitVec 32) : (cfgSet s p f o w).sc = s.sc := rfl
@[simp] theorem cfgSet_hp (p f o : Nat) (w : BitVec 32) : (cfgSet s p f o w).hp = s.hp := rfl
@[simp] theorem cfgSet_sm (p f o : Nat) (w : BitVec 32) : (cfgSet s p f o w).sm = s.sm := rfl
@[simp] theorem cfgSet_th (p f o : Nat) (w : BitVec 32) : (cfgSet s p f o w).th = s.th := rfl
@[simp] theorem cfgSet_pw (p f o : Nat) (w : BitVec 32) : (cfgSet s p f o w).pw = s.pw := rfl
@[simp] theorem cfgSet_ln (p f o : Nat) (w : BitVec 32) : (cfgSet s p f o w).ln = s.ln := rfl
@[simp] theorem cfgSet_mg (p f o : Nat) (w : BitVec 32) : (cfgSet s p f o w).mg = s.mg := rfl
@[simp] theorem cfgSet_tb (p f o : Nat) (w : BitVec 32) : (cfgSet s p f o w).tb = s.tb := rfl
@[simp] theorem cfgSet_at_thread (p f o : Nat) (w : BitVec 32) : thread (cfgSet s p f o w) = thread s := rfl
@[simp] theorem cfgSet_at_port (p f o : Nat) (w : BitVec 32) : port (cfgSet s p f o w) = port s := rfl
@[simp] theorem cfgSet_at_chan (p f o : Nat) (w : BitVec 32) : chan (cfgSet s p f o w) = chan s := rfl
@[simp] theorem cfgSet_at_queue_ (p f o : Nat) (w : BitVec 32) : queue? (cfgSet s p f o w) = queue? s := rfl
@[simp] theorem cfgSet_at_gran (p f o : Nat) (w : BitVec 32) : gran (cfgSet s p f o w) = gran s := rfl
@[simp] theorem cfgSet_at_granList (p f o : Nat) (w : BitVec 32) : granList (cfgSet s p f o w) = granList s := rfl
@[simp] theorem cfgSet_at_conn (p f o : Nat) (w : BitVec 32) : conn (cfgSet s p f o w) = conn s := rfl
@[simp] theorem cfgSet_at_etPort (p f o : Nat) (w : BitVec 32) : etPort (cfgSet s p f o w) = etPort s := rfl
@[simp] theorem cfgSet_at_rwin_ (p f o : Nat) (w : BitVec 32) : rwin? (cfgSet s p f o w) = rwin? s := rfl
@[simp] theorem cfgSet_at_mbox (p f o : Nat) (w : BitVec 32) : mbox (cfgSet s p f o w) = mbox s := rfl
@[simp] theorem cfgSet_at_regGet (p f o : Nat) (w : BitVec 32) : regGet (cfgSet s p f o w) = regGet s := rfl
@[simp] theorem cfgSet_at_program_ (p f o : Nat) (w : BitVec 32) : program? (cfgSet s p f o w) = program? s := rfl
@[simp] theorem cfgSet_at_inst_ (p f o : Nat) (w : BitVec 32) : inst? (cfgSet s p f o w) = inst? s := rfl
@[simp] theorem cfgSet_at_dom (p f o : Nat) (w : BitVec 32) : dom (cfgSet s p f o w) = dom s := rfl

/-! `pendSet` -/

@[simp] theorem pendSet_pending (p f v : Nat) (b : Bool) : (pendSet s p f v b).pending = s.pending := rfl
@[simp] theorem pendSet_cycle (p f v : Nat) (b : Bool) : (pendSet s p f v b).cycle = s.cycle := rfl
@[simp] theorem pendSet_now (p f v : Nat) (b : Bool) : (pendSet s p f v b).now = s.now := rfl
@[simp] theorem pendSet_freeCtr (p f v : Nat) (b : Bool) : (pendSet s p f v b).freeCtr = s.freeCtr := rfl
@[simp] theorem pendSet_out (p f v : Nat) (b : Bool) : (pendSet s p f v b).out = s.out := rfl
@[simp] theorem pendSet_saves (p f v : Nat) (b : Bool) : (pendSet s p f v b).saves = s.saves := rfl
@[simp] theorem pendSet_regs (p f v : Nat) (b : Bool) : (pendSet s p f v b).regs = s.regs := rfl
@[simp] theorem pendSet_keep (p f v : Nat) (b : Bool) : (pendSet s p f v b).keep = s.keep := rfl
@[simp] theorem pendSet_epochs (p f v : Nat) (b : Bool) : (pendSet s p f v b).epochs = s.epochs := rfl
@[simp] theorem pendSet_ne (p f v : Nat) (b : Bool) : (pendSet s p f v b).ne = s.ne := rfl
@[simp] theorem pendSet_mp (p f v : Nat) (b : Bool) : (pendSet s p f v b).mp = s.mp := rfl
@[simp] theorem pendSet_ru (p f v : Nat) (b : Bool) : (pendSet s p f v b).ru = s.ru := rfl
@[simp] theorem pendSet_qm (p f v : Nat) (b : Bool) : (pendSet s p f v b).qm = s.qm := rfl
@[simp] theorem pendSet_sh (p f v : Nat) (b : Bool) : (pendSet s p f v b).sh = s.sh := rfl
@[simp] theorem pendSet_et (p f v : Nat) (b : Bool) : (pendSet s p f v b).et = s.et := rfl
@[simp] theorem pendSet_wt (p f v : Nat) (b : Bool) : (pendSet s p f v b).wt = s.wt := rfl
@[simp] theorem pendSet_sc (p f v : Nat) (b : Bool) : (pendSet s p f v b).sc = s.sc := rfl
@[simp] theorem pendSet_hp (p f v : Nat) (b : Bool) : (pendSet s p f v b).hp = s.hp := rfl
@[simp] theorem pendSet_sm (p f v : Nat) (b : Bool) : (pendSet s p f v b).sm = s.sm := rfl
@[simp] theorem pendSet_th (p f v : Nat) (b : Bool) : (pendSet s p f v b).th = s.th := rfl
@[simp] theorem pendSet_pw (p f v : Nat) (b : Bool) : (pendSet s p f v b).pw = s.pw := rfl
@[simp] theorem pendSet_ln (p f v : Nat) (b : Bool) : (pendSet s p f v b).ln = s.ln := rfl
@[simp] theorem pendSet_mg (p f v : Nat) (b : Bool) : (pendSet s p f v b).mg = s.mg := rfl
@[simp] theorem pendSet_tb (p f v : Nat) (b : Bool) : (pendSet s p f v b).tb = s.tb := rfl
@[simp] theorem pendSet_at_thread (p f v : Nat) (b : Bool) : thread (pendSet s p f v b) = thread s := rfl
@[simp] theorem pendSet_at_port (p f v : Nat) (b : Bool) : port (pendSet s p f v b) = port s := rfl
@[simp] theorem pendSet_at_chan (p f v : Nat) (b : Bool) : chan (pendSet s p f v b) = chan s := rfl
@[simp] theorem pendSet_at_queue_ (p f v : Nat) (b : Bool) : queue? (pendSet s p f v b) = queue? s := rfl
@[simp] theorem pendSet_at_gran (p f v : Nat) (b : Bool) : gran (pendSet s p f v b) = gran s := rfl
@[simp] theorem pendSet_at_granList (p f v : Nat) (b : Bool) : granList (pendSet s p f v b) = granList s := rfl
@[simp] theorem pendSet_at_conn (p f v : Nat) (b : Bool) : conn (pendSet s p f v b) = conn s := rfl
@[simp] theorem pendSet_at_etPort (p f v : Nat) (b : Bool) : etPort (pendSet s p f v b) = etPort s := rfl
@[simp] theorem pendSet_at_rwin_ (p f v : Nat) (b : Bool) : rwin? (pendSet s p f v b) = rwin? s := rfl
@[simp] theorem pendSet_at_mbox (p f v : Nat) (b : Bool) : mbox (pendSet s p f v b) = mbox s := rfl
@[simp] theorem pendSet_at_regGet (p f v : Nat) (b : Bool) : regGet (pendSet s p f v b) = regGet s := rfl
@[simp] theorem pendSet_at_program_ (p f v : Nat) (b : Bool) : program? (pendSet s p f v b) = program? s := rfl
@[simp] theorem pendSet_at_inst_ (p f v : Nat) (b : Bool) : inst? (pendSet s p f v b) = inst? s := rfl
@[simp] theorem pendSet_at_dom (p f v : Nat) (b : Bool) : dom (pendSet s p f v b) = dom s := rfl

/-! `noticeSet` -/

@[simp] theorem noticeSet_pending (p f : Nat) (b : BitVec 5) : (noticeSet s p f b).pending = s.pending := rfl
@[simp] theorem noticeSet_cycle (p f : Nat) (b : BitVec 5) : (noticeSet s p f b).cycle = s.cycle := rfl
@[simp] theorem noticeSet_now (p f : Nat) (b : BitVec 5) : (noticeSet s p f b).now = s.now := rfl
@[simp] theorem noticeSet_freeCtr (p f : Nat) (b : BitVec 5) : (noticeSet s p f b).freeCtr = s.freeCtr := rfl
@[simp] theorem noticeSet_out (p f : Nat) (b : BitVec 5) : (noticeSet s p f b).out = s.out := rfl
@[simp] theorem noticeSet_saves (p f : Nat) (b : BitVec 5) : (noticeSet s p f b).saves = s.saves := rfl
@[simp] theorem noticeSet_regs (p f : Nat) (b : BitVec 5) : (noticeSet s p f b).regs = s.regs := rfl
@[simp] theorem noticeSet_keep (p f : Nat) (b : BitVec 5) : (noticeSet s p f b).keep = s.keep := rfl
@[simp] theorem noticeSet_epochs (p f : Nat) (b : BitVec 5) : (noticeSet s p f b).epochs = s.epochs := rfl
@[simp] theorem noticeSet_ne (p f : Nat) (b : BitVec 5) : (noticeSet s p f b).ne = s.ne := rfl
@[simp] theorem noticeSet_mp (p f : Nat) (b : BitVec 5) : (noticeSet s p f b).mp = s.mp := rfl
@[simp] theorem noticeSet_ru (p f : Nat) (b : BitVec 5) : (noticeSet s p f b).ru = s.ru := rfl
@[simp] theorem noticeSet_qm (p f : Nat) (b : BitVec 5) : (noticeSet s p f b).qm = s.qm := rfl
@[simp] theorem noticeSet_sh (p f : Nat) (b : BitVec 5) : (noticeSet s p f b).sh = s.sh := rfl
@[simp] theorem noticeSet_et (p f : Nat) (b : BitVec 5) : (noticeSet s p f b).et = s.et := rfl
@[simp] theorem noticeSet_wt (p f : Nat) (b : BitVec 5) : (noticeSet s p f b).wt = s.wt := rfl
@[simp] theorem noticeSet_sc (p f : Nat) (b : BitVec 5) : (noticeSet s p f b).sc = s.sc := rfl
@[simp] theorem noticeSet_hp (p f : Nat) (b : BitVec 5) : (noticeSet s p f b).hp = s.hp := rfl
@[simp] theorem noticeSet_sm (p f : Nat) (b : BitVec 5) : (noticeSet s p f b).sm = s.sm := rfl
@[simp] theorem noticeSet_th (p f : Nat) (b : BitVec 5) : (noticeSet s p f b).th = s.th := rfl
@[simp] theorem noticeSet_pw (p f : Nat) (b : BitVec 5) : (noticeSet s p f b).pw = s.pw := rfl
@[simp] theorem noticeSet_ln (p f : Nat) (b : BitVec 5) : (noticeSet s p f b).ln = s.ln := rfl
@[simp] theorem noticeSet_mg (p f : Nat) (b : BitVec 5) : (noticeSet s p f b).mg = s.mg := rfl
@[simp] theorem noticeSet_tb (p f : Nat) (b : BitVec 5) : (noticeSet s p f b).tb = s.tb := rfl
@[simp] theorem noticeSet_at_thread (p f : Nat) (b : BitVec 5) : thread (noticeSet s p f b) = thread s := rfl
@[simp] theorem noticeSet_at_port (p f : Nat) (b : BitVec 5) : port (noticeSet s p f b) = port s := rfl
@[simp] theorem noticeSet_at_chan (p f : Nat) (b : BitVec 5) : chan (noticeSet s p f b) = chan s := rfl
@[simp] theorem noticeSet_at_queue_ (p f : Nat) (b : BitVec 5) : queue? (noticeSet s p f b) = queue? s := rfl
@[simp] theorem noticeSet_at_gran (p f : Nat) (b : BitVec 5) : gran (noticeSet s p f b) = gran s := rfl
@[simp] theorem noticeSet_at_granList (p f : Nat) (b : BitVec 5) : granList (noticeSet s p f b) = granList s := rfl
@[simp] theorem noticeSet_at_conn (p f : Nat) (b : BitVec 5) : conn (noticeSet s p f b) = conn s := rfl
@[simp] theorem noticeSet_at_etPort (p f : Nat) (b : BitVec 5) : etPort (noticeSet s p f b) = etPort s := rfl
@[simp] theorem noticeSet_at_rwin_ (p f : Nat) (b : BitVec 5) : rwin? (noticeSet s p f b) = rwin? s := rfl
@[simp] theorem noticeSet_at_mbox (p f : Nat) (b : BitVec 5) : mbox (noticeSet s p f b) = mbox s := rfl
@[simp] theorem noticeSet_at_regGet (p f : Nat) (b : BitVec 5) : regGet (noticeSet s p f b) = regGet s := rfl
@[simp] theorem noticeSet_at_program_ (p f : Nat) (b : BitVec 5) : program? (noticeSet s p f b) = program? s := rfl
@[simp] theorem noticeSet_at_inst_ (p f : Nat) (b : BitVec 5) : inst? (noticeSet s p f b) = inst? s := rfl
@[simp] theorem noticeSet_at_dom (p f : Nat) (b : BitVec 5) : dom (noticeSet s p f b) = dom s := rfl

/-! `atEpoch` -/

@[simp] theorem atEpoch_pending (c : EpochChange) : (atEpoch s c).pending = s.pending := rfl
@[simp] theorem atEpoch_cycle (c : EpochChange) : (atEpoch s c).cycle = s.cycle := rfl
@[simp] theorem atEpoch_now (c : EpochChange) : (atEpoch s c).now = s.now := rfl
@[simp] theorem atEpoch_freeCtr (c : EpochChange) : (atEpoch s c).freeCtr = s.freeCtr := rfl
@[simp] theorem atEpoch_out (c : EpochChange) : (atEpoch s c).out = s.out := rfl
@[simp] theorem atEpoch_saves (c : EpochChange) : (atEpoch s c).saves = s.saves := rfl
@[simp] theorem atEpoch_regs (c : EpochChange) : (atEpoch s c).regs = s.regs := rfl
@[simp] theorem atEpoch_keep (c : EpochChange) : (atEpoch s c).keep = s.keep := rfl
@[simp] theorem atEpoch_ne (c : EpochChange) : (atEpoch s c).ne = s.ne := rfl
@[simp] theorem atEpoch_mp (c : EpochChange) : (atEpoch s c).mp = s.mp := rfl
@[simp] theorem atEpoch_ru (c : EpochChange) : (atEpoch s c).ru = s.ru := rfl
@[simp] theorem atEpoch_qm (c : EpochChange) : (atEpoch s c).qm = s.qm := rfl
@[simp] theorem atEpoch_sh (c : EpochChange) : (atEpoch s c).sh = s.sh := rfl
@[simp] theorem atEpoch_et (c : EpochChange) : (atEpoch s c).et = s.et := rfl
@[simp] theorem atEpoch_wt (c : EpochChange) : (atEpoch s c).wt = s.wt := rfl
@[simp] theorem atEpoch_sc (c : EpochChange) : (atEpoch s c).sc = s.sc := rfl
@[simp] theorem atEpoch_hp (c : EpochChange) : (atEpoch s c).hp = s.hp := rfl
@[simp] theorem atEpoch_fn (c : EpochChange) : (atEpoch s c).fn = s.fn := rfl
@[simp] theorem atEpoch_sm (c : EpochChange) : (atEpoch s c).sm = s.sm := rfl
@[simp] theorem atEpoch_th (c : EpochChange) : (atEpoch s c).th = s.th := rfl
@[simp] theorem atEpoch_pw (c : EpochChange) : (atEpoch s c).pw = s.pw := rfl
@[simp] theorem atEpoch_ln (c : EpochChange) : (atEpoch s c).ln = s.ln := rfl
@[simp] theorem atEpoch_mg (c : EpochChange) : (atEpoch s c).mg = s.mg := rfl
@[simp] theorem atEpoch_tb (c : EpochChange) : (atEpoch s c).tb = s.tb := rfl
@[simp] theorem atEpoch_at_thread (c : EpochChange) : thread (atEpoch s c) = thread s := rfl
@[simp] theorem atEpoch_at_tenant (c : EpochChange) : tenant (atEpoch s c) = tenant s := rfl
@[simp] theorem atEpoch_at_port (c : EpochChange) : port (atEpoch s c) = port s := rfl
@[simp] theorem atEpoch_at_chan (c : EpochChange) : chan (atEpoch s c) = chan s := rfl
@[simp] theorem atEpoch_at_queue_ (c : EpochChange) : queue? (atEpoch s c) = queue? s := rfl
@[simp] theorem atEpoch_at_gran (c : EpochChange) : gran (atEpoch s c) = gran s := rfl
@[simp] theorem atEpoch_at_granList (c : EpochChange) : granList (atEpoch s c) = granList s := rfl
@[simp] theorem atEpoch_at_conn (c : EpochChange) : conn (atEpoch s c) = conn s := rfl
@[simp] theorem atEpoch_at_etPort (c : EpochChange) : etPort (atEpoch s c) = etPort s := rfl
@[simp] theorem atEpoch_at_rwin_ (c : EpochChange) : rwin? (atEpoch s c) = rwin? s := rfl
@[simp] theorem atEpoch_at_mbox (c : EpochChange) : mbox (atEpoch s c) = mbox s := rfl
@[simp] theorem atEpoch_at_regGet (c : EpochChange) : regGet (atEpoch s c) = regGet s := rfl
@[simp] theorem atEpoch_at_program_ (c : EpochChange) : program? (atEpoch s c) = program? s := rfl
@[simp] theorem atEpoch_at_inst_ (c : EpochChange) : inst? (atEpoch s c) = inst? s := rfl
@[simp] theorem atEpoch_at_window_ (c : EpochChange) : window? (atEpoch s c) = window? s := rfl
@[simp] theorem atEpoch_at_dom (c : EpochChange) : dom (atEpoch s c) = dom s := rfl

/-! `setTime` -/

@[simp] theorem setTime_pending (t : Nat) : (setTime s t).pending = s.pending := rfl
@[simp] theorem setTime_cycle (t : Nat) : (setTime s t).cycle = s.cycle := rfl
@[simp] theorem setTime_now (t : Nat) : (setTime s t).now = s.now := rfl
@[simp] theorem setTime_freeCtr (t : Nat) : (setTime s t).freeCtr = s.freeCtr := rfl
@[simp] theorem setTime_out (t : Nat) : (setTime s t).out = s.out := rfl
@[simp] theorem setTime_saves (t : Nat) : (setTime s t).saves = s.saves := rfl
@[simp] theorem setTime_regs (t : Nat) : (setTime s t).regs = s.regs := rfl
@[simp] theorem setTime_keep (t : Nat) : (setTime s t).keep = s.keep := rfl
@[simp] theorem setTime_epochs (t : Nat) : (setTime s t).epochs = s.epochs := rfl
@[simp] theorem setTime_ne (t : Nat) : (setTime s t).ne = s.ne := rfl
@[simp] theorem setTime_mp (t : Nat) : (setTime s t).mp = s.mp := rfl
@[simp] theorem setTime_ru (t : Nat) : (setTime s t).ru = s.ru := rfl
@[simp] theorem setTime_qm (t : Nat) : (setTime s t).qm = s.qm := rfl
@[simp] theorem setTime_sh (t : Nat) : (setTime s t).sh = s.sh := rfl
@[simp] theorem setTime_et (t : Nat) : (setTime s t).et = s.et := rfl
@[simp] theorem setTime_wt (t : Nat) : (setTime s t).wt = s.wt := rfl
@[simp] theorem setTime_sc (t : Nat) : (setTime s t).sc = s.sc := rfl
@[simp] theorem setTime_hp (t : Nat) : (setTime s t).hp = s.hp := rfl
@[simp] theorem setTime_fn (t : Nat) : (setTime s t).fn = s.fn := rfl
@[simp] theorem setTime_sm (t : Nat) : (setTime s t).sm = s.sm := rfl
@[simp] theorem setTime_th (t : Nat) : (setTime s t).th = s.th := rfl
@[simp] theorem setTime_pw (t : Nat) : (setTime s t).pw = s.pw := rfl
@[simp] theorem setTime_ln (t : Nat) : (setTime s t).ln = s.ln := rfl
@[simp] theorem setTime_mg (t : Nat) : (setTime s t).mg = s.mg := rfl
@[simp] theorem setTime_at_thread (t : Nat) : thread (setTime s t) = thread s := rfl
@[simp] theorem setTime_at_tenant (t : Nat) : tenant (setTime s t) = tenant s := rfl
@[simp] theorem setTime_at_port (t : Nat) : port (setTime s t) = port s := rfl
@[simp] theorem setTime_at_chan (t : Nat) : chan (setTime s t) = chan s := rfl
@[simp] theorem setTime_at_queue_ (t : Nat) : queue? (setTime s t) = queue? s := rfl
@[simp] theorem setTime_at_gran (t : Nat) : gran (setTime s t) = gran s := rfl
@[simp] theorem setTime_at_granList (t : Nat) : granList (setTime s t) = granList s := rfl
@[simp] theorem setTime_at_conn (t : Nat) : conn (setTime s t) = conn s := rfl
@[simp] theorem setTime_at_etPort (t : Nat) : etPort (setTime s t) = etPort s := rfl
@[simp] theorem setTime_at_rwin_ (t : Nat) : rwin? (setTime s t) = rwin? s := rfl
@[simp] theorem setTime_at_mbox (t : Nat) : mbox (setTime s t) = mbox s := rfl
@[simp] theorem setTime_at_regGet (t : Nat) : regGet (setTime s t) = regGet s := rfl
@[simp] theorem setTime_at_program_ (t : Nat) : program? (setTime s t) = program? s := rfl
@[simp] theorem setTime_at_inst_ (t : Nat) : inst? (setTime s t) = inst? s := rfl
@[simp] theorem setTime_at_window_ (t : Nat) : window? (setTime s t) = window? s := rfl
@[simp] theorem setTime_at_dom (t : Nat) : dom (setTime s t) = dom s := rfl

/-! `emit` -/

@[simp] theorem emit_pending (o : Output) : (emit s o).pending = s.pending := rfl
@[simp] theorem emit_cycle (o : Output) : (emit s o).cycle = s.cycle := rfl
@[simp] theorem emit_now (o : Output) : (emit s o).now = s.now := rfl
@[simp] theorem emit_freeCtr (o : Output) : (emit s o).freeCtr = s.freeCtr := rfl
@[simp] theorem emit_saves (o : Output) : (emit s o).saves = s.saves := rfl
@[simp] theorem emit_regs (o : Output) : (emit s o).regs = s.regs := rfl
@[simp] theorem emit_keep (o : Output) : (emit s o).keep = s.keep := rfl
@[simp] theorem emit_epochs (o : Output) : (emit s o).epochs = s.epochs := rfl
@[simp] theorem emit_ne (o : Output) : (emit s o).ne = s.ne := rfl
@[simp] theorem emit_mp (o : Output) : (emit s o).mp = s.mp := rfl
@[simp] theorem emit_ru (o : Output) : (emit s o).ru = s.ru := rfl
@[simp] theorem emit_qm (o : Output) : (emit s o).qm = s.qm := rfl
@[simp] theorem emit_sh (o : Output) : (emit s o).sh = s.sh := rfl
@[simp] theorem emit_et (o : Output) : (emit s o).et = s.et := rfl
@[simp] theorem emit_wt (o : Output) : (emit s o).wt = s.wt := rfl
@[simp] theorem emit_sc (o : Output) : (emit s o).sc = s.sc := rfl
@[simp] theorem emit_hp (o : Output) : (emit s o).hp = s.hp := rfl
@[simp] theorem emit_fn (o : Output) : (emit s o).fn = s.fn := rfl
@[simp] theorem emit_sm (o : Output) : (emit s o).sm = s.sm := rfl
@[simp] theorem emit_th (o : Output) : (emit s o).th = s.th := rfl
@[simp] theorem emit_pw (o : Output) : (emit s o).pw = s.pw := rfl
@[simp] theorem emit_ln (o : Output) : (emit s o).ln = s.ln := rfl
@[simp] theorem emit_mg (o : Output) : (emit s o).mg = s.mg := rfl
@[simp] theorem emit_tb (o : Output) : (emit s o).tb = s.tb := rfl
@[simp] theorem emit_at_thread (o : Output) : thread (emit s o) = thread s := rfl
@[simp] theorem emit_at_tenant (o : Output) : tenant (emit s o) = tenant s := rfl
@[simp] theorem emit_at_port (o : Output) : port (emit s o) = port s := rfl
@[simp] theorem emit_at_chan (o : Output) : chan (emit s o) = chan s := rfl
@[simp] theorem emit_at_queue_ (o : Output) : queue? (emit s o) = queue? s := rfl
@[simp] theorem emit_at_gran (o : Output) : gran (emit s o) = gran s := rfl
@[simp] theorem emit_at_granList (o : Output) : granList (emit s o) = granList s := rfl
@[simp] theorem emit_at_conn (o : Output) : conn (emit s o) = conn s := rfl
@[simp] theorem emit_at_etPort (o : Output) : etPort (emit s o) = etPort s := rfl
@[simp] theorem emit_at_rwin_ (o : Output) : rwin? (emit s o) = rwin? s := rfl
@[simp] theorem emit_at_mbox (o : Output) : mbox (emit s o) = mbox s := rfl
@[simp] theorem emit_at_regGet (o : Output) : regGet (emit s o) = regGet s := rfl
@[simp] theorem emit_at_program_ (o : Output) : program? (emit s o) = program? s := rfl
@[simp] theorem emit_at_inst_ (o : Output) : inst? (emit s o) = inst? s := rfl
@[simp] theorem emit_at_window_ (o : Output) : window? (emit s o) = window? s := rfl
@[simp] theorem emit_at_dom (o : Output) : dom (emit s o) = dom s := rfl

/-! `emitAll` -/

@[simp] theorem emitAll_pending (o : List Output) : (emitAll s o).pending = s.pending := rfl
@[simp] theorem emitAll_cycle (o : List Output) : (emitAll s o).cycle = s.cycle := rfl
@[simp] theorem emitAll_now (o : List Output) : (emitAll s o).now = s.now := rfl
@[simp] theorem emitAll_freeCtr (o : List Output) : (emitAll s o).freeCtr = s.freeCtr := rfl
@[simp] theorem emitAll_saves (o : List Output) : (emitAll s o).saves = s.saves := rfl
@[simp] theorem emitAll_regs (o : List Output) : (emitAll s o).regs = s.regs := rfl
@[simp] theorem emitAll_keep (o : List Output) : (emitAll s o).keep = s.keep := rfl
@[simp] theorem emitAll_epochs (o : List Output) : (emitAll s o).epochs = s.epochs := rfl
@[simp] theorem emitAll_ne (o : List Output) : (emitAll s o).ne = s.ne := rfl
@[simp] theorem emitAll_mp (o : List Output) : (emitAll s o).mp = s.mp := rfl
@[simp] theorem emitAll_ru (o : List Output) : (emitAll s o).ru = s.ru := rfl
@[simp] theorem emitAll_qm (o : List Output) : (emitAll s o).qm = s.qm := rfl
@[simp] theorem emitAll_sh (o : List Output) : (emitAll s o).sh = s.sh := rfl
@[simp] theorem emitAll_et (o : List Output) : (emitAll s o).et = s.et := rfl
@[simp] theorem emitAll_wt (o : List Output) : (emitAll s o).wt = s.wt := rfl
@[simp] theorem emitAll_sc (o : List Output) : (emitAll s o).sc = s.sc := rfl
@[simp] theorem emitAll_hp (o : List Output) : (emitAll s o).hp = s.hp := rfl
@[simp] theorem emitAll_fn (o : List Output) : (emitAll s o).fn = s.fn := rfl
@[simp] theorem emitAll_sm (o : List Output) : (emitAll s o).sm = s.sm := rfl
@[simp] theorem emitAll_th (o : List Output) : (emitAll s o).th = s.th := rfl
@[simp] theorem emitAll_pw (o : List Output) : (emitAll s o).pw = s.pw := rfl
@[simp] theorem emitAll_ln (o : List Output) : (emitAll s o).ln = s.ln := rfl
@[simp] theorem emitAll_mg (o : List Output) : (emitAll s o).mg = s.mg := rfl
@[simp] theorem emitAll_tb (o : List Output) : (emitAll s o).tb = s.tb := rfl
@[simp] theorem emitAll_at_thread (o : List Output) : thread (emitAll s o) = thread s := rfl
@[simp] theorem emitAll_at_tenant (o : List Output) : tenant (emitAll s o) = tenant s := rfl
@[simp] theorem emitAll_at_port (o : List Output) : port (emitAll s o) = port s := rfl
@[simp] theorem emitAll_at_chan (o : List Output) : chan (emitAll s o) = chan s := rfl
@[simp] theorem emitAll_at_queue_ (o : List Output) : queue? (emitAll s o) = queue? s := rfl
@[simp] theorem emitAll_at_gran (o : List Output) : gran (emitAll s o) = gran s := rfl
@[simp] theorem emitAll_at_granList (o : List Output) : granList (emitAll s o) = granList s := rfl
@[simp] theorem emitAll_at_conn (o : List Output) : conn (emitAll s o) = conn s := rfl
@[simp] theorem emitAll_at_etPort (o : List Output) : etPort (emitAll s o) = etPort s := rfl
@[simp] theorem emitAll_at_rwin_ (o : List Output) : rwin? (emitAll s o) = rwin? s := rfl
@[simp] theorem emitAll_at_mbox (o : List Output) : mbox (emitAll s o) = mbox s := rfl
@[simp] theorem emitAll_at_regGet (o : List Output) : regGet (emitAll s o) = regGet s := rfl
@[simp] theorem emitAll_at_program_ (o : List Output) : program? (emitAll s o) = program? s := rfl
@[simp] theorem emitAll_at_inst_ (o : List Output) : inst? (emitAll s o) = inst? s := rfl
@[simp] theorem emitAll_at_window_ (o : List Output) : window? (emitAll s o) = window? s := rfl
@[simp] theorem emitAll_at_dom (o : List Output) : dom (emitAll s o) = dom s := rfl

/-! `useFree` -/

@[simp] theorem useFree_pending : (useFree s).pending = s.pending := rfl
@[simp] theorem useFree_cycle : (useFree s).cycle = s.cycle := rfl
@[simp] theorem useFree_now : (useFree s).now = s.now := rfl
@[simp] theorem useFree_out : (useFree s).out = s.out := rfl
@[simp] theorem useFree_saves : (useFree s).saves = s.saves := rfl
@[simp] theorem useFree_regs : (useFree s).regs = s.regs := rfl
@[simp] theorem useFree_keep : (useFree s).keep = s.keep := rfl
@[simp] theorem useFree_epochs : (useFree s).epochs = s.epochs := rfl
@[simp] theorem useFree_ne : (useFree s).ne = s.ne := rfl
@[simp] theorem useFree_mp : (useFree s).mp = s.mp := rfl
@[simp] theorem useFree_ru : (useFree s).ru = s.ru := rfl
@[simp] theorem useFree_qm : (useFree s).qm = s.qm := rfl
@[simp] theorem useFree_sh : (useFree s).sh = s.sh := rfl
@[simp] theorem useFree_et : (useFree s).et = s.et := rfl
@[simp] theorem useFree_wt : (useFree s).wt = s.wt := rfl
@[simp] theorem useFree_sc : (useFree s).sc = s.sc := rfl
@[simp] theorem useFree_hp : (useFree s).hp = s.hp := rfl
@[simp] theorem useFree_fn : (useFree s).fn = s.fn := rfl
@[simp] theorem useFree_sm : (useFree s).sm = s.sm := rfl
@[simp] theorem useFree_th : (useFree s).th = s.th := rfl
@[simp] theorem useFree_pw : (useFree s).pw = s.pw := rfl
@[simp] theorem useFree_ln : (useFree s).ln = s.ln := rfl
@[simp] theorem useFree_mg : (useFree s).mg = s.mg := rfl
@[simp] theorem useFree_tb : (useFree s).tb = s.tb := rfl
@[simp] theorem useFree_at_thread : thread (useFree s) = thread s := rfl
@[simp] theorem useFree_at_tenant : tenant (useFree s) = tenant s := rfl
@[simp] theorem useFree_at_port : port (useFree s) = port s := rfl
@[simp] theorem useFree_at_chan : chan (useFree s) = chan s := rfl
@[simp] theorem useFree_at_queue_ : queue? (useFree s) = queue? s := rfl
@[simp] theorem useFree_at_gran : gran (useFree s) = gran s := rfl
@[simp] theorem useFree_at_granList : granList (useFree s) = granList s := rfl
@[simp] theorem useFree_at_conn : conn (useFree s) = conn s := rfl
@[simp] theorem useFree_at_etPort : etPort (useFree s) = etPort s := rfl
@[simp] theorem useFree_at_rwin_ : rwin? (useFree s) = rwin? s := rfl
@[simp] theorem useFree_at_mbox : mbox (useFree s) = mbox s := rfl
@[simp] theorem useFree_at_regGet : regGet (useFree s) = regGet s := rfl
@[simp] theorem useFree_at_program_ : program? (useFree s) = program? s := rfl
@[simp] theorem useFree_at_inst_ : inst? (useFree s) = inst? s := rfl
@[simp] theorem useFree_at_window_ : window? (useFree s) = window? s := rfl
@[simp] theorem useFree_at_dom : dom (useFree s) = dom s := rfl

/-! `useFreeN` -/

@[simp] theorem useFreeN_pending (n : Nat) : (useFreeN s n).pending = s.pending := rfl
@[simp] theorem useFreeN_cycle (n : Nat) : (useFreeN s n).cycle = s.cycle := rfl
@[simp] theorem useFreeN_now (n : Nat) : (useFreeN s n).now = s.now := rfl
@[simp] theorem useFreeN_out (n : Nat) : (useFreeN s n).out = s.out := rfl
@[simp] theorem useFreeN_saves (n : Nat) : (useFreeN s n).saves = s.saves := rfl
@[simp] theorem useFreeN_regs (n : Nat) : (useFreeN s n).regs = s.regs := rfl
@[simp] theorem useFreeN_keep (n : Nat) : (useFreeN s n).keep = s.keep := rfl
@[simp] theorem useFreeN_epochs (n : Nat) : (useFreeN s n).epochs = s.epochs := rfl
@[simp] theorem useFreeN_ne (n : Nat) : (useFreeN s n).ne = s.ne := rfl
@[simp] theorem useFreeN_mp (n : Nat) : (useFreeN s n).mp = s.mp := rfl
@[simp] theorem useFreeN_ru (n : Nat) : (useFreeN s n).ru = s.ru := rfl
@[simp] theorem useFreeN_qm (n : Nat) : (useFreeN s n).qm = s.qm := rfl
@[simp] theorem useFreeN_sh (n : Nat) : (useFreeN s n).sh = s.sh := rfl
@[simp] theorem useFreeN_et (n : Nat) : (useFreeN s n).et = s.et := rfl
@[simp] theorem useFreeN_wt (n : Nat) : (useFreeN s n).wt = s.wt := rfl
@[simp] theorem useFreeN_sc (n : Nat) : (useFreeN s n).sc = s.sc := rfl
@[simp] theorem useFreeN_hp (n : Nat) : (useFreeN s n).hp = s.hp := rfl
@[simp] theorem useFreeN_fn (n : Nat) : (useFreeN s n).fn = s.fn := rfl
@[simp] theorem useFreeN_sm (n : Nat) : (useFreeN s n).sm = s.sm := rfl
@[simp] theorem useFreeN_th (n : Nat) : (useFreeN s n).th = s.th := rfl
@[simp] theorem useFreeN_pw (n : Nat) : (useFreeN s n).pw = s.pw := rfl
@[simp] theorem useFreeN_ln (n : Nat) : (useFreeN s n).ln = s.ln := rfl
@[simp] theorem useFreeN_mg (n : Nat) : (useFreeN s n).mg = s.mg := rfl
@[simp] theorem useFreeN_tb (n : Nat) : (useFreeN s n).tb = s.tb := rfl
@[simp] theorem useFreeN_at_thread (n : Nat) : thread (useFreeN s n) = thread s := rfl
@[simp] theorem useFreeN_at_tenant (n : Nat) : tenant (useFreeN s n) = tenant s := rfl
@[simp] theorem useFreeN_at_port (n : Nat) : port (useFreeN s n) = port s := rfl
@[simp] theorem useFreeN_at_chan (n : Nat) : chan (useFreeN s n) = chan s := rfl
@[simp] theorem useFreeN_at_queue_ (n : Nat) : queue? (useFreeN s n) = queue? s := rfl
@[simp] theorem useFreeN_at_gran (n : Nat) : gran (useFreeN s n) = gran s := rfl
@[simp] theorem useFreeN_at_granList (n : Nat) : granList (useFreeN s n) = granList s := rfl
@[simp] theorem useFreeN_at_conn (n : Nat) : conn (useFreeN s n) = conn s := rfl
@[simp] theorem useFreeN_at_etPort (n : Nat) : etPort (useFreeN s n) = etPort s := rfl
@[simp] theorem useFreeN_at_rwin_ (n : Nat) : rwin? (useFreeN s n) = rwin? s := rfl
@[simp] theorem useFreeN_at_mbox (n : Nat) : mbox (useFreeN s n) = mbox s := rfl
@[simp] theorem useFreeN_at_regGet (n : Nat) : regGet (useFreeN s n) = regGet s := rfl
@[simp] theorem useFreeN_at_program_ (n : Nat) : program? (useFreeN s n) = program? s := rfl
@[simp] theorem useFreeN_at_inst_ (n : Nat) : inst? (useFreeN s n) = inst? s := rfl
@[simp] theorem useFreeN_at_window_ (n : Nat) : window? (useFreeN s n) = window? s := rfl
@[simp] theorem useFreeN_at_dom (n : Nat) : dom (useFreeN s n) = dom s := rfl

/-! What is stored is what is read -/

theorem tenant_setTenant (t j : Nat) (x : Tenant) : tenant (setTenant s t x) j = if j = t then x else tenant s j := by
  simp only [tenant, setTenant, Tab.get_set]

theorem port_setPort (p j : Nat) (x : HPort) : port (setPort s p x) j = if j = p then x else port s j := by
  simp only [port, setPort, Tab.get_set]

theorem chan_setChan (c j : Nat) (x : Chan) : chan (setChan s c x) j = if j = c then x else chan s j := by
  simp only [chan, setChan, Tab.get_set]

theorem gran_setGran (g j : Nat) (x : Granule) : gran (setGran s g x) j = if j = g then x else gran s j := by
  simp only [gran, setGran, Tab.get_set]

theorem granList_setGranList (c j : Nat) (x : GranList) : granList (setGranList s c x) j = if j = c then x else granList s j := by
  simp only [granList, setGranList, Tab.get_set]

theorem conn_setConn (c j : Nat) (x : Conn) : conn (setConn s c x) j = if j = c then x else conn s j := by
  simp only [conn, setConn, Tab.get_set]

theorem etPort_setEtPort (p j : Nat) (x : EtPort) : etPort (setEtPort s p x) j = if j = p then x else etPort s j := by
  simp only [etPort, setEtPort, Tab.get_set]

theorem stk_setStk (k j : Nat) (x : Stack) : stk (setStk s k x) j = if j = k then x else stk s j := by
  simp only [stk, setStk, Tab.get_set]

theorem dom_setDom (d j : Nat) (x : Domain) : dom (setDom s d x) j = if j = d then x else dom s j := by
  simp only [dom, setDom, Tab.get_set]

theorem mbox_setMbox (n j : Nat) (x : Mbox) : mbox (setMbox s n x) j = if j = n then x else mbox s j := by
  simp only [mbox, setMbox, Tab.get_set]

theorem queue__setQueue (q j : Nat) (x : Queue) : queue? (setQueue s q x) j = if j = q then some x else queue? s j := by
  simp only [queue?, setQueue, Tab.find_put]

theorem rwin__setRwin (w j : Nat) (x : RWin) : rwin? (setRwin s w x) j = if j = w then some x else rwin? s j := by
  simp only [rwin?, setRwin, Tab.find_put]

theorem window__setWindow (i j : Nat) (x : Window) : window? (setWindow s i x) j = if j = i then some x else window? s j := by
  simp only [window?, setWindow, Tab.find_put]

theorem regGet_regSet (r q : Nat) (w : Word) : regGet (regSet s r w) q = if q = r then w else regGet s q := by
  unfold regGet regSet
  by_cases h : q = r
  · subst h; simp [Tab.get_set]
  · unfold Tab.get Tab.set
    split <;> simp [Tab.find_put, Tab.find_del, h]

end Sys2Proof.Machine
end

