-- ==== Sys2Proof/Tests/Slice0.lean ====
section
/-! SUPPORT. The model's own tests: well-formedness, worked examples of the spec, and witnesses of the statements' hypotheses. -/

namespace Sys2Proof.Tests

open Sys2Proof Sys2Proof.Machine

set_option Elab.async false

/-! States of the tests -/

/-- The device after its power-up order: every domain on, the management engine serving, PHASE RUN. -/
def up : State := { State.reset with
  pw := { State.reset.pw with
    phase := .run, mainPg := true, clkPll := true, zeroFilled := true
    domains := (upto 0 150).map (fun d => (d, { st := .on, clamped := false })) }
  mg := { State.reset.mg with running := true } }

/-- A host port with its link up. -/
def linked : HPort := { link := true, speed := 6, width := 16, l0pWidth := 16 }

/-- SR-IOV of a port on, with 16 VFs and ARI. -/
def vfsOn (s : State) (p : Nat) : State := cfgSet (cfgSet s p 0 Cfg.sriovCtl 0x11) p 0 Cfg.numVfs 16

/-- Tenants 5 and 6 run on VF 3 of port 1 and VF 4 of port 2, tenant 7 is BOUND to VF 5 of port 1; tenants 5 and 6 have a queue and a
granule each; thread 24 is a thread of tenant 5 on engine 3. -/
def rich : State :=
  let s := vfsOn (vfsOn (vfsOn up 0) 1) 2
  { s with
    hp := { s.hp with ports := [(0, linked), (1, linked), (2, linked)] }
    fn := { s.fn with tenants :=
      [(5, { st := .running, binds := [⟨1, 3, 4, 1⟩] }), (6, { st := .running, binds := [⟨2, 4, 4, 1⟩] }),
       (7, { st := .bound, binds := [⟨1, 5, 4, 1⟩] })] }
    qm := { s.qm with queues :=
      [(10, { ctx := 5, mode := .hold, limit := 1024, mirrored := false }),
       (11, { ctx := 6, mode := .shed, limit := 1024, mirrored := false }),
       (0x3FFF, { ctx := 256, mode := .hold, limit := 1024, mirrored := false })] }
    mp := { s.mp with
      granules := [(0, { st := .owned, ctx := 5 }), (1, { st := .owned, ctx := 6 }), (2, { st := .owned, ctx := 256 })]
      lists := [(5, { entries := [some 0] }), (6, { entries := [some 1] }), (256, { entries := [some 2] })] }
    ne := { s.ne with
      programs := [(0, { ctx := 5, cls := 1, startMode := false, code := [0xA4000000], entry := 0, scratchMin := 4096, data := []
                         budget := 100, stallLimit := 10, clusters := 7, threadsMax := 8, buildId := 0, blocks := [(3, 0)] })]
      insts := [(0, { program := 0, engine := 3, threads := [24], budgetCap := 100, faultQueue := 10, policy := .keep })]
      threads := [(24, { mode := .ready, tag := mkTag 5 1, budget := 100, scratchSize := 4096 })] } }

/-- Change thread 24. -/
def on24 (s : State) (f : Thread → Thread) : State := setThread s 24 (f (thread s 24))

/-- Thread 24 is about to issue a word. -/
def runs (s : State) (w : Nat) : State :=
  { s with ne := { s.ne with programs := Tab.map1 s.ne.programs 0 (fun p => { p with code := [BitVec.ofNat 32 w] }) } }

/-- The management engine is about to issue a word. -/
def managerRuns (s : State) (w : Nat) : State :=
  setThread { s with ne := { s.ne with mgCode := [BitVec.ofNat 32 w] } } 512 { mode := .ready, tag := mkTag 256 1 }

/-! How a witness shows a premise of several parts -/

theorem issues_of {s : State} {t : Nat} {op : NOp} {w : Nat}
    (h : mayRun (thread s t) = true ∧ ctxRuns s (thread s t) = true ∧ (t = mgEngine ∨ (thread s t).budget ≠ 0) ∧
      fetch s t (thread s t) = some w ∧ decodeN w = some op ∧ (op = .mfs → t = mgEngine ∧ mfsOk (wImm w) = true) ∧
      (op = .mts → t = mgEngine ∧ mtsOk (wImm w) = true) ∧ held t (thread s t) op w = false) : Issues s t op w :=
  ⟨h.1, h.2.1, h.2.2.1, h.2.2.2.1, h.2.2.2.2.1, h.2.2.2.2.2.1, h.2.2.2.2.2.2.1, h.2.2.2.2.2.2.2⟩

theorem performs_of {s : State} {t : Nat} {op : NOp} {w : Nat}
    (h : (mayRun (thread s t) = true ∧ ctxRuns s (thread s t) = true ∧ (t = mgEngine ∨ (thread s t).budget ≠ 0) ∧
      fetch s t (thread s t) = some w ∧ decodeN w = some op ∧ (op = .mfs → t = mgEngine ∧ mfsOk (wImm w) = true) ∧
      (op = .mts → t = mgEngine ∧ mtsOk (wImm w) = true) ∧ held t (thread s t) op w = false) ∧
      guardTrue (thread s t) op w = true) : Performs s t op w :=
  ⟨issues_of h.1, h.2⟩

theorem served_of {s : State} {src code : Nat} (h : takesUp s src = true ∧ notReady s code = false) : Served s src code :=
  ⟨h.1, h.2⟩

theorem rings_of {r : State} {src : Nat} (h : mayRing r src = true) : Rings r src (atTick r src) := ⟨h, rfl⟩

/-- The next management tick as a command of the BMC finds it. -/
def tick8 (r : State) : State := atTick r 8

theorem admits_of {s : State} {q prio : Nat} {tag : BitVec 11} {n : Nat}
    (h : (match queue? s q with
      | some x => mayPush x (tagCtx tag) && discards s q x tag prio (cellsOf n) == some [] && queueRoom s x 1 n
      | none => false) = true) : Admits s q prio tag n := by
  cases hq : queue? s q with
  | none => simp [hq] at h
  | some x =>
    simp only [hq, Bool.and_eq_true, beq_iff_eq] at h
    exact ⟨x, hq, h.1.1, h.1.2, h.2⟩

theorem live_of {s : State} {ctx : Nat} (h : ctx ≤ mgt ∧ ctxMissing s ctx = false ∧ ctxFrozen s ctx = false) : Live s ctx := h

theorem posts_of {s : State} {who : FnRef} {off n : Nat}
    (h : postedHeld s who.port = false ∧ gate s who.port who.fn 0 off n true = .serve) : Posts s who off n := ⟨h.1, h.2⟩

theorem controls_of {s : State} {who : FnRef} {off n : Nat}
    (h : (postedHeld s who.port = false ∧ gate s who.port who.fn 0 off n true = .serve) ∧ who.fn = 0 ∧
      managerPort s who.port = true) : Controls s who off n := ⟨posts_of h.1, h.2.1, h.2.2⟩

theorem arrives_of {s : State} {w : WeftPacket} {kind : Nat}
    (h : (parseWeft w).kind = kind ∧ (etPort s w.port).link = true ∧ s.th.safe = false ∧ crcGood w.bytes = true ∧
      malformed (parseWeft w) w.bytes = false) : Arrives s w kind := ⟨h.1, h.2.1, h.2.2.1, h.2.2.2.1, h.2.2.2.2⟩

theorem forConn_of {s : State} {w : WeftPacket} {kind : Nat}
    (h : ((parseWeft w).kind = kind ∧ (etPort s w.port).link = true ∧ s.th.safe = false ∧ crcGood w.bytes = true ∧
      malformed (parseWeft w) w.bytes = false) ∧
      ((conn s (parseWeft w).dst).st = .opened ∨ (conn s (parseWeft w).dst).st = .closing) ∧
      fromPeer s (conn s (parseWeft w).dst) (parseWeft w) = true ∧
      (parseWeft w).tag = (conn s (parseWeft w).dst).localTag) : ForConn s w kind :=
  ⟨arrives_of h.1, h.2.1, h.2.2.1, h.2.2.2⟩

/-- A number not in use makes the free choice answer. -/
theorem free_of {s : State} {k : Nat} {α : Type} {m : Table α} {lo n : Nat} (x : Nat) (h : lo ≤ x ∧ x < lo + n)
    (hf : (Tab.find m x).isNone = true) : oneOf s k (Tab.freeKeys m lo n) = some ((oneOf s k (Tab.freeKeys m lo n)).getD 0) :=
  oneOf_some (freeKeys_ne_nil x h hf)

theorem peer_of {s : State} {a : PeerAddr} (hf : (Tab.find s.wt.peers 4095).isNone = true) :
    peerFor s a = some ((peerFor s a).getD 0) := by
  unfold peerFor
  split
  · rfl
  · exact free_of 4095 (by decide) hf

theorem run_of {s : State} {e n : Nat} (h : freeRuns s e n ≠ []) : (freeRun s e n).isSome = true := by
  obtain ⟨x, -, hx⟩ := oneOf_mem (s := s) (k := e + 1) h
  simp [freeRun, hx]

theorem some_of {α : Type} {x : Option α} (d : α) (h : x.isSome = true) : x = some (x.getD d) := by
  cases x with
  | none => cases h
  | some a => rfl

theorem pair_of {α β : Type} {x : α × β} {a : α} (h : x.1 = a) : x = (a, x.2) := by
  cases h; rfl

def Took : Taken → State
  | .took s => s
  | _ => State.reset

theorem took_of {x : Taken} (h : (match x with | .took _ => true | _ => false) = true) : x = .took (Took x) := by
  cases x with
  | took s => rfl
  | wait s => cases h
  | stale => cases h

theorem stale_of {x : Taken} (h : (match x with | .stale => true | _ => false) = true) : x = .stale := by
  cases x with
  | took s => cases h
  | wait s => cases h
  | stale => rfl

/-- Program 0 becomes a START-mode program. -/
def startsFresh (s : State) : State :=
  { s with ne := { s.ne with programs := Tab.map1 s.ne.programs 0 (fun p => { p with startMode := true }) } }

/-- One item of a context in a queue. -/
def withItem (s : State) (q ctx : Nat) : State := linkItem s q 7 (mkTag ctx 1) (fill 8 1) false

/-- A queue with no room left. -/
def fillQueue (s : State) (q : Nat) : State :=
  match queue? s q with
  | some x => setQueue s q { x with prog := [(0, { tag := mkTag x.ctx 1, cells := List.range x.limit })] }
  | none => s

/-- Reduce window w of a context: EXACT SUM of two contributors over one chunk of one line, in the context's granule at index 0. -/
def withWindow (s : State) (w ctx : Nat) : State :=
  setRwin s w { ctx := ctx, arrival := false, format := 4, op := 0, sat := false, rsv := false, contribM1 := 1, epoch := 0, result := 0
                chunksM1 := 0, lastM1 := 0, cq := 10, prio := 0, chunkItems := true }

/-- Chunk 0 of window 0 is complete. -/
def done0 (s : State) : State :=
  match rwin? s 0 with
  | some x => setRwin s 0 { x with complete := [0] }
  | none => s

/-- Contribution lines wait for their units. -/
def waiting (s : State) (l : List Contrib) : State := { s with ru := { s.ru with waiting := l } }

/-- A line of thread 24 for window 0. -/
def line0 : Contrib := { src := .thread 24, tag := mkTag 5 1, window := 0, offset := 0, epoch := 0, data := 0, poison := false }

theorem image_of {s : State} {ctx p a n : Nat} {b : Bytes} (h : hostNameable s p = true ∧ s.th.safe = false ∧ b.length = n) :
    readImage s ctx (.host p a) n (some b) = (.ok b, (readImage s ctx (.host p a) n (some b)).2) := by
  simp [readImage, h]

/-- An image of the host leaves domains, engines and the management engine's block as they are. -/
theorem image_keeps (s : State) (ctx p a n : Nat) (b : Bytes) :
    let u := (readImage s ctx (.host p a) n (some b)).2
    u.pw = s.pw ∧ u.ne = s.ne ∧ u.mg = s.mg := by
  unfold readImage
  dsimp only
  split
  · exact ⟨rfl, rfl, rfl⟩
  · split
    · exact ⟨rfl, rfl, rfl⟩
    · cases systemChan s <;> exact ⟨rfl, rfl, rfl⟩

theorem image_on {s : State} {ctx p a n e : Nat} {b : Bytes} (h : engineOn s e = true) :
    engineOn (readImage s ctx (.host p a) n (some b)).2 e = true := by
  simpa [engineOn, dom, (image_keeps s ctx p a n b).1] using h

theorem image_run {s : State} {ctx p a n e m : Nat} {b : Bytes} (h : freeRuns s e m ≠ []) :
    freeRuns (readImage s ctx (.host p a) n (some b)).2 e m ≠ [] := by
  simpa [freeRuns, blockUsed, (image_keeps s ctx p a n b).2.1] using h

/-- Channel c of tenant 5 with a pool ring of 16 slots that the engine fills. -/
def withRing (s : State) (c : Nat) : State :=
  setChan s c { st := .idle, cls := 1, ctx := 5, engineProd := true, ringPool := true, base := 0, log2 := 4 }

/-- The same channel with a full ring. -/
def withFullRing (s : State) (c : Nat) : State :=
  setChan s c { st := .active, cls := 1, ctx := 5, engineProd := true, ringPool := true, base := 0, log2 := 4, tail := 16 }

theorem hcopy_of {x : HcopyRes} (h : (match x with | .ok _ => true | _ => false) = true) :
    x = .ok (match x with | .ok s => s | _ => State.reset) := by
  cases x <;> first | rfl | cases h

theorem hfull_of {x : HcopyRes} (h : (match x with | .full => true | _ => false) = true) : x = .full := by
  cases x <;> first | rfl | cases h

theorem weft_of {x : NsRes} (h : (match x with | .ok _ => true | _ => false) = true) :
    x = .ok (match x with | .ok s => s | _ => State.reset) := by
  cases x <;> first | rfl | cases h

/-- Peer 0 of the network tests. -/
def peer0 : Peer := { ip := 0x0A000001, mac := 0x020000000001, vlan := none, prio := 0, dscp := 0, count := 1 }

/-- Connection 100 of tenant 5 on Ethernet port 0, OPEN to peer 0. -/
def conn100 : Conn :=
  { st := .opened, ctx := 5, cls := 1, port := 0, plog := 12, peerConn := 200, peer := 0, grantLog := 4, localTag := 0x1234, peerTag := 0x5678
    rxQ := 10, reportQ := 10, txLimit := 64, rxLimit := 64, udpSrc := 50000, rto := 8000000, rate := 1000 }

/-- The arrangement is applied, port 0 has its link up, and connection 100 is OPEN. -/
def connected (s : State) : State :=
  { s with
    et := { s.et with applied := true, ports := [(0, { link := true }), (1, { link := true })] }
    wt := { s.wt with conns := [(100, conn100)], peers := [(0, peer0)] } }

/-- An image of one HALT for tenant 5, with its CRC. -/
def haltImage : Bytes :=
  let b := toLe 4 0x4E52474E ++ toLe 2 1 ++ toLe 2 1 ++ toLe 4 4 ++ toLe 4 0 ++ toLe 4 4096 ++ toLe 4 0 ++ toLe 4 100 ++ toLe 4 10 ++
    [7, 8] ++ fill 30 0 ++ toLe 4 0xA4000080
  overlay b 0x38 (toLe 4 (imgCrc b))

/-- Every TID is in use. -/
def allTids : State :=
  { rich with fn := { rich.fn with tenants := (upto 0 256).map (fun t => (t, { st := .bound })) } }

/-- Tenant 5 is enrolled and the pair is IN_SYNC with its link up. -/
def paired (s : State) : State :=
  { setTenant s 5 { tenant s 5 with enrolled := true } with
    sm := { s.sm with mode := .inSync, enable := true, linkUp := true, hello := true } }

theorem somePair_of {α β : Type} {x : Option (α × β)} (d : α × β) (h : x.isSome = true) :
    x = some ((x.getD d).1, (x.getD d).2) := by
  cases x with
  | none => cases h
  | some a => rfl

/-- A descriptor of 64 bytes from the pool at 0 to the pool at 128, and one of the NOP operation. -/
def copyDesc : Bytes := [1, 0x11, 0, 0] ++ toLe 4 64 ++ toLe 8 0 ++ toLe 8 128 ++ fill 40 0
def nopDesc : Bytes := 2 :: fill 63 0

/-- Channel 0 of tenant 5 through VF 3 of port 1, ACTIVE with one slot in its ring. -/
def chan0 : Chan := { st := .active, cls := 1, ctx := 5, port := 1, fn := 3, tail := 1 }

/-- Connection 100 with other fields. -/
def net (x : Conn) : State := { connected rich with wt := { (connected rich).wt with conns := [(100, x)] } }

/-- A packet of peer 0 to connection 100, with the access tag of the connection. -/
def pkt (kind flags psn : Nat) (part payload : Bytes) : WeftPacket :=
  { port := 0, srcIp := 0x0A000001, srcMac := 0x020000000001, vlan := none, prio := 0, dscp := 0, udpSrc := 50000, ce := false
    bytes := weftBytes kind flags 100 psn 0x1234 200 part payload }

/-- A CONNECT of peer 0 for a service. -/
def connectPkt (service plog : Nat) : WeftPacket :=
  { pkt 7 0 0 [] [] with bytes := weftBytes 7 0 0 0 0 200 (words (service + 2 ^ 16 * plog) 0x5678 9 10) [] }

/-- The type part of a one-packet message of 64 bytes. -/
def part64 : Bytes := toLe 2 0 ++ toLe 2 64 ++ toLe 4 0 ++ toLe 8 0

theorem target_of {x : Target} (h : (match x with | .took _ => true | _ => false) = true) :
    x = .took (match x with | .took s => s | _ => State.reset) := by
  cases x <;> first | rfl | cases h

/-- Listener 0 of tenant 5 for service 7 on port 0. -/
def listener0 : Listener :=
  { ctx := 5, service := 7, portMask := 1, cls := 1, rxQ := 10, reportQ := 10, plog := 12, grantLog := 4 }

def listening : State := { connected rich with wt := { (connected rich).wt with listeners := [(0, listener0)] } }

/-- ET_MGT_TXQ, the management queue here, holds a frame item of 60 bytes for port 0. -/
def withItem2 (s : State) : State :=
  linkItem { s with et := { s.et with queue := 0x3FFF } } 0x3FFF 0 (mkTag 256 1) (toLe 2 0 ++ toLe 2 60 ++ fill 12 0 ++ fill 60 1) false

/-- Window 0 of tenant 5 on VF 3 of port 1: 2 MiB of its pool at the bottom of BAR2, class 1, reads and writes. -/
def window0 : Window := { ctx := 5, port := 1, fn := 3, live := 0x69, staged := 0x69, stagedFlag := true }

def windowed : State := { rich with fn := { rich.fn with windows := [(0, window0)] } }

/-- Port 0 with other fields. -/
def port0 (f : HPort → HPort) : State := setPort rich 0 (f (port rich 0))

/-- A save image without sections. -/
def emptySave : Bytes :=
  let b := toLe 4 0x56534E54 ++ toLe 2 1 ++ toLe 2 0 ++ toLe 8 1 ++ toLe 8 96 ++ toLe 2 5 ++ fill 38 0 ++ toLe 4 0x45534E54 ++ toLe 4 0 ++
    toLe 8 1
  b ++ toLe 4 (crc32 b) ++ fill 12 0

/-- Tenant 5 with other fields. -/
def ten5 (f : Tenant → Tenant) : State := setTenant rich 5 (f (tenant rich 5))

/-- A dirty log of tenant 5 on port 1 with one line changed. -/
def logged : State :=
  setDirtyLog rich 5 1 { low := 4096, span := 32768, bitmapA := 0, bitmapB := 64, lines := [0] }


/-- Tenants 5 and 6 with the pair IN_SYNC; tenant 6 is a shadow, whose granule 1 stands for the partner's granule 7. -/
def mirror : State :=
  let s := setTenant (paired rich) 6 { tenant rich 6 with shadow := true }
  { s with sm := { s.sm with granMap := [(7, 1)] } }

/-- The pair with other fields. -/
def sm (f : SmState → SmState) : State := { mirror with sm := f mirror.sm }

/-- The next record of tenant 6. -/
def jrec (target aux : Nat) (body : Bytes) : SeamRecord :=
  { resync := false, poison := false, tag := mkTag 6 1, jsn := 1, target := BitVec.ofNat 64 target, aux := BitVec.ofNat 64 aux, body := body }

def thim (f : ThState → ThState) : State := { rich with th := f rich.th }
def raised (n : Nat) : ThRec := { source := n, severity := 4, tag := none, object := 0, index := 0, extra := 0, time := 0, slow := 0 }

/-- The power block with other fields. -/
def power (f : PwState → PwState) : State := { up with pw := f up.pw }

/-- A boot header naming bank B. -/
def bootHeader : Bytes := let b := toLe 4 0x48424C43 ++ toLe 4 1 ++ [1] ++ fill 3 0; b ++ toLe 4 (crc32 b)

/-- A serial lane with other fields. -/
def laneSet (l : Nat) (x : Lane) : State := { rich with ln := { rich.ln with lanes := [(l, x)] } }

/-- The management engine's block with other fields. -/
def manage (f : MgState → MgState) : State := { rich with mg := f rich.mg }
def box (src : Nat) (x : Mbox) : State := setMbox rich src x

theorem next_of {x : Host.Outcome State Fault Refusal} (h : (match x with | .next _ => true | _ => false) = true) :
    x = .next (match x with | .next s => s | _ => State.reset) := by
  cases x <;> first | rfl | cases h

/-- A package of 352 bytes: the header, no code, no ROM and no keys, and room for the seal. -/
def package : Bytes := toLe 4 0x57464C43 ++ toLe 4 1 ++ toLe 8 7 ++ toLe 4 352 ++ fill 332 0

theorem mayPost_of {s : State} {p : Nat} (h : portSends s p = true ∧ s.th.safe = false ∧
    (upto 1008 16).filter (fun c => (chan s c).st != .halted) ≠ []) : mayPost s p = true := by
  have e : systemChan s = some ((systemChan s).getD 0) := oneOf_some h.2.2
  rw [mayPost, h.1, h.2.1, e]
  rfl

/-- With nothing left to copy the stream stands. -/
theorem pump_empty {s : State} (h : s.sm.objQ = [] ∧ s.sm.copyQ = []) : resyncPump s = s := by
  have e : setSm s (fun m => { m with objQ := [] }) = s := by
    rw [setSm, ← h.1]
  have e' : ({ s with sm := { s.sm with copyQ := [] } } : State) = s := by
    rw [← h.2]
  have p : copyPump s = s := by
    unfold copyPump
    cases hc : systemChan s with
    | none => rfl
    | some c =>
      dsimp only
      rw [h.2, copyLines, e', ite_self]
  unfold resyncPump
  cases hc : systemChan s with
  | none => rfl
  | some c =>
    dsimp only
    rw [h.1, copyObjects, e, p, ite_self, ite_self]


/-! Well-formed and ill-formed commands: each check refuses a term that breaks it -/

/-- Larger than any field. -/
def big : Nat := 2 ^ 300

theorem test_ill_formed_1 : (
  [.alu big, .pldComplete big 1 [], .pldComplete 1 big [], .programLoad big 1 (.pool 0) 1 0 none, .programLoad 1 big (.pool 0) 1 0 none,
   .programLoad 1 1 (.host big 0) 1 0 none, .programLoad 1 1 (.host 0 big) 1 0 none, .programLoad 1 1 (.pool big) 1 0 none,
   .programLoad 1 1 (.pool 0) big 0 none, .programUnload big 1, .programUnload 1 big, .programStart big 1 1 1 1 1 1 .keep,
   .programStart 1 big 1 1 1 1 1 .keep, .programStart 1 1 big 1 1 1 1 .keep, .programStart 1 1 1 big 1 1 1 .keep,
   .programStart 1 1 1 1 big 1 1 .keep, .programStart 1 1 1 1 1 big 1 .keep, .programStart 1 1 1 1 1 1 big .keep, .programStop big 1,
   .programStop 1 big, .programBind big 1 .start 1, .programBind 1 big .start 1, .programBind 1 1 .start big, .threadRead big 1 1,
   .threadRead 1 big 1, .threadRead 1 1 big, .granuleAssign big 1 none none false, .granuleAssign 1 big none none false,
   .granuleAssign 1 1 (some big) none false, .granuleAssign 1 1 none (some big) false, .granuleRelease big 1 1, .granuleRelease 1 big 1] : List Instr).all (fun i => !wellFormed i) = true := by
  decide +kernel

theorem test_ill_formed_2 : (
  [.granuleRelease 1 1 big, .granuleRetire big 1, .granuleRetire 1 big, .granuleLimit big 1 1, .granuleLimit 1 big 1,
   .granuleLimit 1 1 big, .grant big 1 1 1 false, .grant 1 big 1 1 false, .grant 1 1 big 1 false, .grant 1 1 1 big false,
   .grantRevoke big 1, .grantRevoke 1 big, .keySet big 1 0, .keySet 1 big 0, .scrubStart big, .patrolRead big [],
   .reduceCreate big ⟨1, false, 1, 1, false, false, 1, 1, 1, 1, 1, 1, false⟩,
   .reduceCreate 1 ⟨big, false, 1, 1, false, false, 1, 1, 1, 1, 1, 1, false⟩,
   .reduceCreate 1 ⟨1, false, big, 1, false, false, 1, 1, 1, 1, 1, 1, false⟩,
   .reduceCreate 1 ⟨1, false, 1, big, false, false, 1, 1, 1, 1, 1, 1, false⟩,
   .reduceCreate 1 ⟨1, false, 1, 1, false, false, big, 1, 1, 1, 1, 1, false⟩,
   .reduceCreate 1 ⟨1, false, 1, 1, false, false, 1, big, 1, 1, 1, 1, false⟩,
   .reduceCreate 1 ⟨1, false, 1, 1, false, false, 1, 1, big, 1, 1, 1, false⟩,
   .reduceCreate 1 ⟨1, false, 1, 1, false, false, 1, 1, 1, big, 1, 1, false⟩,
   .reduceCreate 1 ⟨1, false, 1, 1, false, false, 1, 1, 1, 1, big, 1, false⟩,
   .reduceCreate 1 ⟨1, false, 1, 1, false, false, 1, 1, 1, 1, 1, big, false⟩, .reduceDestroy big 1, .reduceDestroy 1 big,
   .ruQuota big 1 none 1, .ruQuota 1 big none 1, .ruQuota 1 1 (some big) 1, .ruQuota 1 1 none big] : List Instr).all (fun i => !wellFormed i) = true := by
  decide +kernel

theorem test_ill_formed_3 : (
  [.chunkComplete big 1 [], .chunkComplete 1 big [], .queueCreate big 1 1 1 false, .queueCreate 1 big 1 1 false,
   .queueCreate 1 1 big 1 false, .queueCreate 1 1 1 big false, .queueDestroy big 1, .queueDestroy 1 big, .flush big, .queueSet big 1 1 1,
   .queueSet 1 big 1 1, .queueSet 1 1 big 1, .queueSet 1 1 1 big, .queueOpen big 1 1 1, .queueOpen 1 big 1 1, .queueOpen 1 1 big 1,
   .queueOpen 1 1 1 big, .qmQuota big 1 1 1, .qmQuota 1 big 1 1, .qmQuota 1 1 big 1, .qmQuota 1 1 1 big, .hostPushLink big .ok,
   .pushPageWrite ⟨big, 1, 1, 1, [], false, false⟩, .pushPageWrite ⟨1, big, 1, 1, [], false, false⟩,
   .pushPageWrite ⟨1, 1, big, 1, [], false, false⟩, .pushPageWrite ⟨1, 1, 1, big, [], false, false⟩,
   .channelAssign big ⟨1, 1, false, false, 1, 1, 1, 1, none, 1, 1⟩, .channelAssign 1 ⟨big, 1, false, false, 1, 1, 1, 1, none, 1, 1⟩,
   .channelAssign 1 ⟨1, big, false, false, 1, 1, 1, 1, none, 1, 1⟩, .channelAssign 1 ⟨1, 1, false, false, big, 1, 1, 1, none, 1, 1⟩,
   .channelAssign 1 ⟨1, 1, false, false, 1, big, 1, 1, none, 1, 1⟩, .channelAssign 1 ⟨1, 1, false, false, 1, 1, big, 1, none, 1, 1⟩] : List Instr).all (fun i => !wellFormed i) = true := by
  decide +kernel

theorem test_ill_formed_4 : (
  [.channelAssign 1 ⟨1, 1, false, false, 1, 1, 1, big, none, 1, 1⟩, .channelAssign 1 ⟨1, 1, false, false, 1, 1, 1, 1, (some big), 1, 1⟩,
   .channelAssign 1 ⟨1, 1, false, false, 1, 1, 1, 1, none, big, 1⟩, .channelAssign 1 ⟨1, 1, false, false, 1, 1, 1, 1, none, 1, big⟩,
   .channelRelease big 1, .channelRelease 1 big, .shChTail ⟨big, 1⟩ 1 0, .shChTail ⟨1, big⟩ 1 0, .shChTail ⟨1, 1⟩ big 0, .paused big,
   .ethArrange big 1, .ethArrange 1 big, .weftListen big ⟨1, 1, 1, 1, 1, 1, 1, none⟩, .weftListen 1 ⟨big, 1, 1, 1, 1, 1, 1, none⟩,
   .weftListen 1 ⟨1, big, 1, 1, 1, 1, 1, none⟩, .weftListen 1 ⟨1, 1, big, 1, 1, 1, 1, none⟩, .weftListen 1 ⟨1, 1, 1, big, 1, 1, 1, none⟩,
   .weftListen 1 ⟨1, 1, 1, 1, big, 1, 1, none⟩, .weftListen 1 ⟨1, 1, 1, 1, 1, big, 1, none⟩, .weftListen 1 ⟨1, 1, 1, 1, 1, 1, big, none⟩,
   .weftListen 1 ⟨1, 1, 1, 1, 1, 1, 1, (some big)⟩, .weftUnlisten big 1, .weftUnlisten 1 big,
   .weftConnect big ⟨1, 1, ⟨0, 0, none, 1, 1⟩, 1, 1, 1, 1, 1, none, false⟩,
   .weftConnect 1 ⟨big, 1, ⟨0, 0, none, 1, 1⟩, 1, 1, 1, 1, 1, none, false⟩,
   .weftConnect 1 ⟨1, big, ⟨0, 0, none, 1, 1⟩, 1, 1, 1, 1, 1, none, false⟩,
   .weftConnect 1 ⟨1, 1, ⟨0, 0, (some big), 1, 1⟩, 1, 1, 1, 1, 1, none, false⟩,
   .weftConnect 1 ⟨1, 1, ⟨0, 0, none, big, 1⟩, 1, 1, 1, 1, 1, none, false⟩,
   .weftConnect 1 ⟨1, 1, ⟨0, 0, none, 1, big⟩, 1, 1, 1, 1, 1, none, false⟩,
   .weftConnect 1 ⟨1, 1, ⟨0, 0, none, 1, 1⟩, big, 1, 1, 1, 1, none, false⟩,
   .weftConnect 1 ⟨1, 1, ⟨0, 0, none, 1, 1⟩, 1, big, 1, 1, 1, none, false⟩,
   .weftConnect 1 ⟨1, 1, ⟨0, 0, none, 1, 1⟩, 1, 1, big, 1, 1, none, false⟩] : List Instr).all (fun i => !wellFormed i) = true := by
  decide +kernel

theorem test_ill_formed_5 : (
  [.weftConnect 1 ⟨1, 1, ⟨0, 0, none, 1, 1⟩, 1, 1, 1, big, 1, none, false⟩,
   .weftConnect 1 ⟨1, 1, ⟨0, 0, none, 1, 1⟩, 1, 1, 1, 1, big, none, false⟩,
   .weftConnect 1 ⟨1, 1, ⟨0, 0, none, 1, 1⟩, 1, 1, 1, 1, 1, (some big), false⟩, .weftClose big 1, .weftClose 1 big,
   .weftMove big 1 1 0 none, .weftMove 1 big 1 0 none, .weftMove 1 1 big 0 none, .weftMove 1 1 1 0 (some big), .weftLimit big 1 1,
   .weftLimit 1 big 1, .weftLimit 1 1 big, .frameReceive ⟨big, false, []⟩, .frameTransmit big,
   .send ⟨big, 0, 0, none, 1, 1, 1, false, []⟩, .send ⟨1, 0, 0, (some big), 1, 1, 1, false, []⟩,
   .send ⟨1, 0, 0, none, big, 1, 1, false, []⟩, .send ⟨1, 0, 0, none, 1, big, 1, false, []⟩, .send ⟨1, 0, 0, none, 1, 1, big, false, []⟩,
   .heldPacketDelivery big 1, .heldPacketDelivery 1 big, .packetTransmit big, .scAdmit big 1 1 1 1, .scAdmit 1 big 1 1 1,
   .scAdmit 1 1 big 1 1, .scAdmit 1 1 1 big 1, .scAdmit 1 1 1 1 big, .scShare big 1 1, .scShare 1 big 1, .scShare 1 1 big,
   .scClassWeights big 1 1 1, .scClassWeights 1 big 1 1] : List Instr).all (fun i => !wellFormed i) = true := by
  decide +kernel

theorem test_ill_formed_6 : (
  [.scClassWeights 1 1 big 1, .scClassWeights 1 1 1 big, .memoryRead ⟨big, 1, 1, 1, 1, .memoryRead, false⟩ [] none,
   .memoryRead ⟨1, big, 1, 1, 1, .memoryRead, false⟩ [] none, .memoryRead ⟨1, 1, big, 1, 1, .memoryRead, false⟩ [] none,
   .memoryRead ⟨1, 1, 1, big, 1, .memoryRead, false⟩ [] none, .memoryRead ⟨1, 1, 1, 1, big, .memoryRead, false⟩ [] none,
   .expansionRomRead big 1 1, .expansionRomRead 1 big 1, .expansionRomRead 1 1 big, .configurationRequest ⟨big, 1⟩ 1 none,
   .configurationRequest ⟨1, big⟩ 1 none, .configurationRequest ⟨1, 1⟩ big none, .completion big 1 1 ⟨.sc, 1, 1⟩ [] false,
   .completion 1 big 1 ⟨.sc, 1, 1⟩ [] false, .completion 1 1 big ⟨.sc, 1, 1⟩ [] false, .completion 1 1 1 ⟨.sc, big, 1⟩ [] false,
   .completion 1 1 1 ⟨.sc, 1, big⟩ [] false, .completionTimeout big 1, .completionTimeout 1 big, .linkUp big 1 1 false false,
   .linkUp 1 big 1 false false, .linkUp 1 1 big false false, .portRelease big 1, .portRelease 1 big, .portMerge big 1 false,
   .portMerge 1 big false, .initiateFlr big 1, .initiateFlr 1 big, .flrComplete big, .tenantCreate big none none none none none none,
   .tenantCreate 1 (some big) none none none none none] : List Instr).all (fun i => !wellFormed i) = true := by
  decide +kernel

theorem test_ill_formed_7 : (
  [.tenantCreate 1 none (some big) none none none none, .tenantCreate 1 none none (some big) none none none,
   .tenantCreate 1 none none none (some big) none none, .tenantCreate 1 none none none none (some big) none,
   .tenantCreate 1 none none none none none (some big), .tenantBind big 1 1 none 1 1 none, .tenantBind 1 big 1 none 1 1 none,
   .tenantBind 1 1 big none 1 1 none, .tenantBind 1 1 1 (some big) 1 1 none, .tenantBind 1 1 1 none big 1 none,
   .tenantBind 1 1 1 none 1 big none, .tenantBind 1 1 1 none 1 1 (some big), .tenantUnbind big 1 1, .tenantUnbind 1 big 1,
   .tenantUnbind 1 1 big, .tenantStart big 1, .tenantStart 1 big, .tenantSave big 1 1 1 1, .tenantSave 1 big 1 1 1,
   .tenantSave 1 1 big 1 1, .tenantSave 1 1 1 big 1, .tenantSave 1 1 1 1 big, .tenantRestore big 1 1 1 1 [] none,
   .tenantRestore 1 big 1 1 1 [] none, .tenantRestore 1 1 big 1 1 [] none, .tenantRestore 1 1 1 big 1 [] none,
   .tenantRestore 1 1 1 1 big [] none, .tenantRestore 1 1 1 1 1 [big] none, .tenantRestore 1 1 1 1 1 (upto 0 9) none,
   .windowAlloc big 1 1 1, .windowAlloc 1 big 1 1, .windowAlloc 1 1 big 1] : List Instr).all (fun i => !wellFormed i) = true := by
  decide +kernel

theorem test_ill_formed_8 : (
  [.windowAlloc 1 1 1 big, .windowFree big 1, .windowFree 1 big, .windowTack big 1 1, .windowTack 1 big 1, .windowTack 1 1 big,
   .dirtyLogStart big 1 1 1 1 1 1, .dirtyLogStart 1 big 1 1 1 1 1, .dirtyLogStart 1 1 big 1 1 1 1, .dirtyLogStart 1 1 1 big 1 1 1,
   .dirtyLogStart 1 1 1 1 big 1 1, .dirtyLogStart 1 1 1 1 1 big 1, .dirtyLogStart 1 1 1 1 1 1 big, .dirtyLineWrite big 1,
   .dirtyLineWrite 1 big, .programDoorbell ⟨big, 1⟩ 1 0, .programDoorbell ⟨1, big⟩ 1 0, .programDoorbell ⟨1, 1⟩ big 0,
   .smVfPairFence ⟨big, 1⟩, .smVfPairFence ⟨1, big⟩, .pairConfig big false false, .pairShadow big 1 1, .pairShadow 1 big 1,
   .pairShadow 1 1 big, .seamFrame ⟨false, big, 1, 1, false⟩, .seamFrame ⟨false, 1, big, 1, false⟩, .seamFrame ⟨false, 1, 1, big, false⟩,
   .lineWrite ⟨false, false, 0, big, 0, 0, []⟩, .hello ⟨false, big, 1, 1, 1, 0⟩, .hello ⟨false, 1, big, 1, 1, 0⟩,
   .hello ⟨false, 1, 1, big, 1, 0⟩, .hello ⟨false, 1, 1, 1, big, 0⟩] : List Instr).all (fun i => !wellFormed i) = true := by
  decide +kernel

theorem test_ill_formed_9 : (
  [.heartbeat big 1, .heartbeat 1 big, .resend big, .mapFail big, .reply big 1 1, .reply 1 big 1, .reply 1 1 big,
   .sourceRaise big none 1 1 0, .sourceRaise 1 none big 1 0, .sourceRaise 1 none 1 big 0, .thSrcCfg big 0, .faultSeverity big [],
   .faultSeverity 1 [(big, 0)], .faultSeverity 1 [(0, big)], .faultAck big none none, .faultAck 1 (some big) none,
   .faultAck 1 none (some big), .stopEnter big 0 1, .stopEnter 1 0 big, .domainPower big 1 false, .domainPower 1 big false,
   .domainSwitchDone big, .wakeSet big 1 1 1 1 false 1, .wakeSet 1 big 1 1 1 false 1, .wakeSet 1 1 big 1 1 false 1,
   .wakeSet 1 1 1 big 1 false 1, .wakeSet 1 1 1 1 big false 1, .wakeSet 1 1 1 1 1 false big, .pllLock big, .ckFreq big,
   .laneEqWrite big 1 [], .laneEqWrite 1 big []] : List Instr).all (fun i => !wellFormed i) = true := by
  decide +kernel

theorem test_ill_formed_10 : (
  [.lnLaneCtrl big 0, .mgMbDoorbell big 1, .mgMbDoorbell 1 big, .flashWrite big (.pool 0) 1 none, .flashWrite 1 (.host big 0) 1 none,
   .flashWrite 1 (.host 0 big) 1 none, .flashWrite 1 (.pool big) 1 none, .flashWrite 1 (.pool 0) big none, .keepWrite big 1 0 1 [],
   .keepWrite 1 big 0 1 [], .keepWrite 1 1 0 big [], .timeSet big 1 1 1 none, .timeSet 1 big 1 1 none, .timeSet 1 1 big 1 none,
   .timeSet 1 1 1 big none, .queuePush big 1 1 [], .queuePush 1 big 1 [], .queuePush 1 1 big [], .requestBufferWrite big [],
   .responseBufferRead big 1, .responseBufferRead 1 big, .entdaa big, .registerWrite ⟨big, 1⟩ 1 [], .registerWrite ⟨1, big⟩ 1 [],
   .registerWrite ⟨1, 1⟩ big [], .pauseQuantaExpiry big 1, .pauseQuantaExpiry 1 big, .partnerL1Request big false none,
   .partnerL1Request 1 false (some big)] : List Instr).all (fun i => !wellFormed i) = true := by
  decide +kernel

theorem test_ill_formed_lengths : (
  [.memoryWrite ⟨1, 1, 1, 1, fill 4097 0, false, false⟩, .lineWrite ⟨false, false, 0, 1, 0, 0, fill 65536 0⟩, .laneEqWrite 1 0 (fill 97 0 |>.map (fun _ => 0)),
   .keepWrite 1 0 0 0 (fill 4097 0), .faultSeverity 1 ((upto 0 65).map (fun i => (i, 0)))] : List Instr).all (fun i => !wellFormed i) = true := by
  decide +kernel

theorem test_well_formed_1 : (
  [.alu 1, .pldComplete 1 1 [], .programLoad 1 1 (.pool 0) 1 0 none, .programUnload 1 1, .programStart 1 1 1 1 1 1 1 .keep,
   .programStop 1 1, .programBind 1 1 .start 1, .threadRead 1 1 1, .granuleAssign 1 1 none none false, .granuleRelease 1 1 1,
   .granuleRetire 1 1, .granuleLimit 1 1 1, .grant 1 1 1 1 false, .grantRevoke 1 1, .keySet 1 1 0, .scrubStart 1, .patrolRead 1 [],
   .reduceCreate 1 ⟨1, false, 1, 1, false, false, 1, 1, 1, 1, 1, 1, false⟩, .reduceDestroy 1 1, .ruQuota 1 1 none 1,
   .chunkComplete 1 1 [], .queueCreate 1 1 1 1 false, .queueDestroy 1 1, .flush 1, .queueSet 1 1 1 1, .queueOpen 1 1 1 1,
   .qmQuota 1 1 1 1, .hostPushLink 1 .ok, .pushPageWrite ⟨1, 1, 1, 1, [], false, false⟩,
   .channelAssign 1 ⟨1, 1, false, false, 1, 1, 1, 1, none, 1, 1⟩, .channelRelease 1 1, .shChTail ⟨1, 1⟩ 1 0] : List Instr).all wellFormed = true := by decide +kernel

theorem test_well_formed_2 : (
  [.paused 1, .ethArrange 1 1, .weftListen 1 ⟨1, 1, 1, 1, 1, 1, 1, none⟩, .weftUnlisten 1 1,
   .weftConnect 1 ⟨1, 1, ⟨0, 0, none, 1, 1⟩, 1, 1, 1, 1, 1, none, false⟩, .weftClose 1 1, .weftMove 1 1 1 0 none, .weftLimit 1 1 1,
   .frameReceive ⟨1, false, []⟩, .frameTransmit 1, .send ⟨1, 0, 0, none, 1, 1, 1, false, []⟩, .heldPacketDelivery 1 1, .packetTransmit 1,
   .scAdmit 1 1 1 1 1, .scShare 1 1 1, .scClassWeights 1 1 1 1, .memoryRead ⟨1, 1, 1, 1, 1, .memoryRead, false⟩ [] none,
   .expansionRomRead 1 1 1, .configurationRequest ⟨1, 1⟩ 1 none, .completion 1 1 1 ⟨.sc, 1, 1⟩ [] false, .completionTimeout 1 1,
   .linkUp 1 1 1 false false, .portRelease 1 1, .portMerge 1 1 false, .initiateFlr 1 1, .flrComplete 1,
   .tenantCreate 1 none none none none none none, .tenantBind 1 1 1 none 1 1 none, .tenantUnbind 1 1 1, .tenantStart 1 1,
   .tenantSave 1 1 1 1 1, .tenantRestore 1 1 1 1 1 [] none] : List Instr).all wellFormed = true := by decide +kernel

theorem test_well_formed_3 : (
  [.windowAlloc 1 1 1 1, .windowFree 1 1, .windowTack 1 1 1, .dirtyLogStart 1 1 1 1 1 1 1, .dirtyLineWrite 1 1,
   .programDoorbell ⟨1, 1⟩ 1 0, .smVfPairFence ⟨1, 1⟩, .pairConfig 1 false false, .pairShadow 1 1 1, .seamFrame ⟨false, 1, 1, 1, false⟩,
   .lineWrite ⟨false, false, 0, 1, 0, 0, []⟩, .hello ⟨false, 1, 1, 1, 1, 0⟩, .heartbeat 1 1, .resend 1, .mapFail 1, .reply 1 1 1,
   .sourceRaise 1 none 1 1 0, .thSrcCfg 1 0, .faultSeverity 1 [], .faultAck 1 none none, .stopEnter 1 0 1, .domainPower 1 1 false,
   .domainSwitchDone 1, .wakeSet 1 1 1 1 1 false 1, .pllLock 1, .ckFreq 1, .laneEqWrite 1 1 [], .lnLaneCtrl 1 0, .mgMbDoorbell 1 1,
   .flashWrite 1 (.pool 0) 1 none, .keepWrite 1 1 0 1 [], .timeSet 1 1 1 1 none] : List Instr).all wellFormed = true := by decide +kernel

theorem test_well_formed_4 : (
  [.queuePush 1 1 1 [], .requestBufferWrite 1 [], .responseBufferRead 1 1, .entdaa 1, .registerWrite ⟨1, 1⟩ 1 [], .pauseQuantaExpiry 1 1,
   .partnerL1Request 1 false none] : List Instr).all wellFormed = true := by decide +kernel

/-! Worked examples and tables of the spec -/

/-- Table 02-18: ADD, ADDI, BR, QPUSH, QPOP, PLD, VARITH, FENCE, HALT and TRAP, each word written out from its fields. -/
theorem test_encoding_examples :
    [0x04611000, 0x20A0FFFF, 0xA0080003, 0xE0863801, 0xE5465820, 0xEC490000, 0xC0221A80, 0xA4001800, 0xA4000080, 0xA52300C0].map decodeN =
      [some .alu, some .addi, some .br, some .qpush, some .qpop, some .pld, some .varith, some .fence, some .halt, some .trap] := by
  decide +kernel

/-- The fields of `qpop.w s10, s6, s11`, `br p2, 3`, `vadd.bf16 v1, v2, v3` and `trap 0x123`. -/
theorem test_encoding_fields :
    (wRd 0xE5465820, wRa 0xE5465820, wRb 0xE5465820, wWt 0xE5465820) = (10, 6, 11, true) ∧
      (wPt 0xA0080003, wSn 0xA0080003, wOff 0xA0080003) = (2, false, 3) ∧
      (wEt 0xC0221A80, wVf 0xC0221A80) = (5, 0) ∧ wCode 0xA52300C0 = 0x123 := by
  decide +kernel

/-- Chapter 02, "Rounding once": a tie goes to the even significand. -/
theorem test_bf16_add : varithLane 0 5 0 0x3F80 0x3B80 0 = 0x3F80 ∧ varithLane 0 5 0 0x3F81 0x3B80 0 = 0x3F82 := by
  decide +kernel

/-- Chapter 05, "Rounding once, worked": 256.0 and seven times 1.0 in bf16, in two orders of arrival. -/
theorem test_exact_sum :
    (roundElem 5 0 false ([0x4380, 0x3F80, 0x3F80, 0x3F80, 0x3F80, 0x3F80, 0x3F80, 0x3F80].foldl (fun a e => accSum 5 e a) {})).1 = 0x4384 ∧
      (roundElem 5 0 false ([0x3F80, 0x3F80, 0x3F80, 0x3F80, 0x3F80, 0x3F80, 0x3F80, 0x4380].foldl (fun a e => accSum 5 e a) {})).1 = 0x4384 := by
  decide +kernel

/-- Chapter 04, "Translation, worked". -/
theorem test_translation :
    check { State.reset with
        mp := { State.reset.mp with
          lists := [(0x2A, { entries := [none, none, none, none, none, none, some 0x4A13] })]
          granules := [(0x4A13, { st := .owned, ctx := 0x2A })] } } (mkTag 0x2A 1) (.tpa 0xC01A40) false = .allow 0x942601A40 0x2A ∧
      stackOf 0x4A13 = 1 := by
  decide +kernel

/-- FIPS 197, appendix C.3: AES-256 on its example vector. -/
theorem test_aes :
    let ks := Aes.schedule (BitVec.ofNat 256 (le ((upto 0 32).map (BitVec.ofNat 8))))
    let c := Aes.cipher ks (BitVec.ofNat 128 (le ((upto 0 16).map (fun i => BitVec.ofNat 8 (17 * i)))))
    toLe 16 c.toNat = [0x8E, 0xA2, 0xB7, 0xCA, 0x51, 0x67, 0x45, 0xBF, 0xEA, 0xFC, 0x49, 0x90, 0x4B, 0x49, 0x60, 0x89] ∧
      (Aes.decipher ks c).toNat = le ((upto 0 16).map (fun i => BitVec.ofNat 8 (17 * i))) := by
  decide +kernel

/-- IEEE 1619, vector 10: the first 16 bytes of data unit 0xFF. -/
theorem test_xts :
    let k1 := [0x27, 0x18, 0x28, 0x18, 0x28, 0x45, 0x90, 0x45, 0x23, 0x53, 0x60, 0x28, 0x74, 0x71, 0x35, 0x26,
      0x62, 0x49, 0x77, 0x57, 0x24, 0x70, 0x93, 0x69, 0x99, 0x59, 0x57, 0x49, 0x66, 0x96, 0x76, 0x27]
    let k2 := [0x31, 0x41, 0x59, 0x26, 0x53, 0x58, 0x97, 0x93, 0x23, 0x84, 0x62, 0x64, 0x33, 0x83, 0x27, 0x95,
      0x02, 0x88, 0x41, 0x97, 0x16, 0x93, 0x99, 0x37, 0x51, 0x05, 0x82, 0x09, 0x74, 0x94, 0x45, 0x92]
    let key : BitVec 512 := BitVec.ofNat 512 (le (k1 ++ k2))
    let plain : Line := BitVec.ofNat 512 (le ((upto 0 64).map (BitVec.ofNat 8)))
    (toLe 64 (xtsEncrypt key 0xFF plain).toNat).take 16 =
        [0x1C, 0x3B, 0x3A, 0x10, 0x2F, 0x77, 0x03, 0x86, 0xE4, 0x83, 0x6C, 0x99, 0xE3, 0x70, 0xCF, 0x9B] ∧
      xtsDecrypt key 0xFF (xtsEncrypt key 0xFF plain) = plain := by
  decide +kernel

/-- Queue 300 of Table 06-5 as push J finds it: E of 16 cells, F of 4, G of 8, C of 24 and D of 8. -/
def shedding : State :=
  let i (p n : Nat) : Item := { bytes := fill (256 * n) 0, prio := p, poison := false, tag := mkTag 0x11 1, cells := List.range n }
  { up with
    fn := { up.fn with tenants := [(0x11, { st := .running })] }
    qm := { up.qm with queues :=
      [(300, { ctx := 0x11, mode := .shed, limit := 64, mirrored := false, items := [i 4 24, i 6 8, i 3 16, i 1 4, i 2 8] })] } }

/-- Table 06-5, J: F, G, E and C give way in this order, and D, of priority 6, is left. -/
theorem test_shed_discards :
    ((queue? shedding 300).bind (fun x => discards shedding 300 x (mkTag 0x11 1) 7 40)).map (fun l => l.map (fun i => i.prio)) =
      some [1, 2, 3, 4] := by
  decide +kernel

/-- Table 06-5, H: nothing present is of a lower priority than 1. -/
theorem test_shed_full : (push shedding 300 1 (mkTag 0x11 1) (fill 2048 0) false).1 = .full := by decide +kernel

/-- Chapter 09, "Admission, worked": read 40 finds exactly 64 bytes, read 41 finds 40. -/
theorem test_admission :
    let s (t : Nat) : State := setBucket { up with cycle := 8 } 2 5 { rate := 64, depth := 1024, tokens := 64 * t, at_ := 0 }
    ((admitBytes (s 24) 2 5 64).1, (bucket (admitBytes (s 24) 2 5 64).2 2 5).tokens) = (0, 0) ∧ (admitBytes (s 0) 2 5 64).1 = 1 := by
  decide +kernel

/-- Chapter 08: 4 CE marks over 16 packets take 800 Gb/s to 700 Gb/s. -/
theorem test_ecn_rate : (cutRate { up with now := us 10 } { conn100 with rate := 8000, ecn := true } 16 4).rate = 7000 := by decide +kernel

/-- Table 10-7: the five completions of a read of 1,000 bytes, as Byte Count, Lower Address and length. -/
theorem test_completions :
    (completions ⟨0, 3, 2, 0x1F0, 1000, false, false, false, false⟩ false 256 64 (fun _ _ => false) 1000 0x1F0 (fill 1000 0)).map (fun o =>
      match o with
      | .cplData _ _ n a b _ _ _ => (n, a, b.length)
      | _ => (0, 0, 0)) = [(1000, 0x70, 208), (792, 0x40, 256), (536, 0x40, 256), (280, 0x40, 256), (24, 0x40, 24)] := by
  decide +kernel

/-- Chapter 11: a write of 10,000 bytes from page offset 0xF00 sets bits 0 to 3 of the bitmap, in the shadow at granule 0 here. -/
theorem test_dirty_pages :
    let s := markDirty (setDirtyLog rich 5 1 { low := 0x100000000, span := 2 ^ 36, bitmapA := 0, bitmapB := 2 ^ 21, granules := [0] })
      (mkTag 5 1) 1 0x100000F00 10000
    (poolBytes s 0 1, (Tab.find s.fn.logs 41).map (fun l => l.lines)) = ([15], some [0]) := by
  decide +kernel

/-- Chapter 07: a copy of 1,024 bytes to 256 bytes above its source runs descending. -/
theorem test_descending :
    descends { pos := 0, bytes := [1, 0x11, 0, 0] ++ toLe 4 1024 ++ toLe 8 0x600000 ++ toLe 8 0x600100 ++ fill 40 0 } 1024 = true := by
  decide +kernel

/-- Chapter 14: the time base rebuilt after 117,981,184 slow ticks. -/
theorem test_time_rebuilt :
    let t := (rebuildTime (keepSet (keepSet (power (fun p => { p with slowAcc := 2949136384 * 8000000000, slowValid := true }))
      Keep.timeNs 86400000000000) Keep.timeSlow (BitVec.ofNat 64 (2831155200 + 2 ^ 63)))).tb
    (t.acc / 8000000000000, t.uncert, t.estimated) = (90000500000000, 180056000, true) := by
  decide +kernel

/-- The doorbell handler of chapter 03, as an image of 160 bytes. -/
def doorbellImage : Bytes :=
  let code := [0x90200002, 0x34410020, 0x244203FF, 0x30420006, 0x44600020, 0x04631000, 0xEC030000, 0xD4800018]
  let code := code ++ [0x60240008, 0x64440008, 0x8C000000, 0x44A00080, 0x48A50007, 0x20C00028, 0x20E00029, 0xE1062801]
  let code := code ++ [0xE1072802, 0x252800FF, 0x50690000, 0xA00C0004, 0x75400040, 0x214A0001, 0x85400040, 0xA4000080]
  let b := toLe 4 0x4E52474E ++ toLe 2 1 ++ toLe 2 4 ++ toLe 4 96 ++ toLe 4 0 ++ toLe 4 4096 ++ toLe 4 0 ++ toLe 4 24 ++ toLe 4 0
  let b := b ++ [1, 1] ++ fill 30 0 ++ code.flatMap (toLe 4)
  overlay b 0x38 (toLe 4 (imgCrc b))

/-- It passes every check of Table 03-6. -/
theorem test_doorbell_image : doorbellImage.length = 160 ∧ imageFault up 5 doorbellImage = none ∧
    (imgWords doorbellImage).getLast? = some 0xA4000080 := by
  decide +kernel

/-- R413's example: the request of GRANULE_ASSIGN, with AUTO, ANY and MIRRORED off. -/
def assignRequest : Bytes :=
  [0x08, 0, 0x11, 0, 0x10, 0, 0, 0] ++ fill 56 0 ++ [0x2A, 0, 0, 0, 0xFF, 0xFF, 0xFF, 0xFF, 0xFF, 0, 0, 0, 0, 0, 0, 0]

/-- The request is taken up as GRANULE_ASSIGN of tenant 0x2A. -/
theorem test_mailbox_request :
    let m : Mbox := { req := Mem.write [] 0 assignRequest }
    headerSound m = true ∧
      ((allForms.find? (fun f => f.code == reqCode m)).bind (fun f => (readForm f (reqPayload m)).map (fun x =>
        (arg x.1 0, optArg 4 x.1 1, optArg 1 x.1 2, flagArg x.1 3)))) = some (0x2A, none, none, false) := by
  decide +kernel

/-- Its response: STATUS 0, SEQ echoed, LENGTH 8, list index 7 and granule 0x4A14. -/
theorem test_mailbox_response :
    let b := replyBytes { req := Mem.write [] 0 assignRequest } 8 { status := .ok, results := [(4, 7), (4, 0x4A14)] }
    b.take 8 = [0x08, 0, 0x11, 0, 8, 0, 0, 0] ∧ b.drop 64 = [7, 0, 0, 0, 0x14, 0x4A, 0, 0] := by
  decide +kernel

/-- A command at the front of the queue runs in one step; the queue keeps the rest. -/
theorem test_step_takes_front :
    (match step { rich with pending := [.pairUnfence 8, .deviceInfo 8] } with
     | .next t => t.pending
     | _ => []) = [.deviceInfo 8] := by
  decide +kernel

/-- At reset the queue of commands is empty and memory lists nothing. -/
theorem test_reset : State.reset.pending = [] ∧ State.reset.mp.pool = [] ∧ Memory.wf State.reset.mp.pool = true ∧
    State.reset.hp.ports = [] ∧ (tenant State.reset 0).st = .free := by
  decide +kernel


/-- The seal of the package verifies under the fused key only as the opaque check says. -/
theorem flash_ok {s : State} (hf : s.mg.floor = 0) (h : Config.sealVerifies Config.fusedKey package = true) : flashFault s package = none := by
  have a : pkgHeaderOk package = true ∧ ¬ pkgRollback package < 0 ∧ package.take (pkgLength package) = package ∧
      pkgKeysOk package = true ∧ ¬ 2097152 < package.length := by decide +kernel
  have b : pkgSealOk package = true := by
    rw [pkgSealOk, a.2.2.1]; exact h
  unfold flashFault
  rw [hf, a.1, b, a.2.2.2.1, if_neg (by decide), if_neg a.2.1, if_neg (by decide), if_neg (by decide), if_neg a.2.2.2.2]

/-- FLASH_WRITE: the seal of a package is checked by the opaque `Config.sealVerifies`, so this witness rests on its answer. -/
theorem witness_ManagementCommands_flash (h : Config.sealVerifies Config.fusedKey package = true) :
    ∃ (r s : State) (src : Nat) (from_ : ImageSource) (n : Nat) (host : Option Bytes) (b : Bytes) (v : State),
      Rings r src s ∧ Served s src 0x52 ∧ s.mg.flash = none ∧ readImage (accepted s src) mgt from_ n host = (.ok b, v) ∧
      flashFault v b = none :=
  ⟨rich, tick8 rich, 8, .host 0 0, 352, some package, package, _, rings_of (by decide +kernel), served_of (by decide +kernel),
    by decide +kernel, image_of (by decide +kernel),
    flash_ok (by rw [(image_keeps _ _ _ _ _ _).2.2]; decide +kernel) h⟩

/-! Witnesses: for every statement, states and operands that meet the hypotheses of each of its clauses together -/

theorem witness_ScalarResults :
    (∃ (s : State) (t : Nat) (w : Nat), Performs s t .alu w) ∧
    (∃ (s : State) (t : Nat) (w : Nat), Performs s t .addi w) ∧
    (∃ (s : State) (t : Nat) (w : Nat), Performs s t .andi w) ∧
    (∃ (s : State) (t : Nat) (w : Nat), Performs s t .ori w) ∧
    (∃ (s : State) (t : Nat) (w : Nat), Performs s t .xori w) ∧
    (∃ (s : State) (t : Nat) (w : Nat), Performs s t .slli w) ∧
    (∃ (s : State) (t : Nat) (w : Nat), Performs s t .srli w) ∧
    (∃ (s : State) (t : Nat) (w : Nat), Performs s t .srai w) ∧
    (∃ (s : State) (t : Nat) (w : Nat), Performs s t .rdsp w) ∧
    (∃ (s : State) (t : Nat) (w : Nat), Performs s t .mfs w) :=
  ⟨⟨(runs rich 0x04221800), 24, 0x04221800, performs_of (by decide +kernel)⟩,
    ⟨(runs rich 0x20228000), 24, 0x20228000, performs_of (by decide +kernel)⟩,
    ⟨(runs rich 0x24220005), 24, 0x24220005, performs_of (by decide +kernel)⟩,
    ⟨(runs rich 0x2822FFFF), 24, 0x2822FFFF, performs_of (by decide +kernel)⟩,
    ⟨(runs rich 0x2C220005), 24, 0x2C220005, performs_of (by decide +kernel)⟩,
    ⟨(runs rich 0x3022003F), 24, 0x3022003F, performs_of (by decide +kernel)⟩,
    ⟨(runs rich 0x3422003F), 24, 0x3422003F, performs_of (by decide +kernel)⟩,
    ⟨(runs rich 0x3822003F), 24, 0x3822003F, performs_of (by decide +kernel)⟩,
    ⟨(runs rich 0x90200003), 24, 0x90200003, performs_of (by decide +kernel)⟩,
    ⟨(managerRuns rich 0x94200000), 512, 0x94200000, performs_of (by decide +kernel)⟩⟩

theorem witness_ScalarCorners :
    (∃ (b : Word), b ≠ 0) ∧
    (∃ (s : State) (t : Nat) (w : Nat) (a : Word), Performs s t .movk w ∧ sGet (thread s t) (wRa w) = a) :=
  ⟨⟨1, by decide +kernel⟩,
    ⟨(runs rich 0x4C22FFFF), 24, 0x4C22FFFF, 0, performs_of (by decide +kernel), by decide +kernel⟩⟩

theorem witness_RegisterZero :
    (∃ (n : Nat), n ≠ 0) ∧
    (∃ (n : Nat) (m : Nat), m ≠ n) ∧
    (∃ (n : Nat), 0 < n ∧ n < 8) ∧
    (∃ (n : Nat) (m : Nat), n < 8 ∧ m < 8 ∧ m ≠ n) :=
  ⟨⟨31, by decide +kernel⟩,
    ⟨1, 0, by decide +kernel⟩,
    ⟨7, by decide +kernel⟩,
    ⟨7, 0, by decide +kernel⟩⟩

theorem witness_PredicatesAndVectors_1 :
    (∃ (s : State) (t : Nat) (w : Nat), Performs s t .pcmp w ∧ wFn w ≠ 0x14) ∧
    (∃ (s : State) (t : Nat) (w : Nat), Performs s t .pcmp w ∧ wFn w = 0x14) ∧
    (∃ (s : State) (t : Nat) (w : Nat), Performs s t .peqi w) ∧
    (∃ (s : State) (t : Nat) (w : Nat), Performs s t .pnei w) ∧
    (∃ (s : State) (t : Nat) (w : Nat), Performs s t .plti w) ∧
    (∃ (s : State) (t : Nat) (w : Nat), Performs s t .pgei w) ∧
    (∃ (s : State) (t : Nat) (w : Nat), Performs s t .pltui w) ∧
    (∃ (s : State) (t : Nat) (w : Nat), Performs s t .pgeui w) ∧
    (∃ (s : State) (t : Nat) (w : Nat), Performs s t .varith w) ∧
    (∃ (s : State) (t : Nat) (w : Nat), Performs s t .vcvt w) ∧
    (∃ (s : State) (t : Nat) (w : Nat), Performs s t .vred w) ∧
    (∃ (s : State) (t : Nat) (w : Nat), Performs s t .vcmp w) :=
  ⟨⟨(runs rich 0x08221800), 24, 0x08221800, performs_of (by decide +kernel), by decide +kernel⟩,
    ⟨(runs rich 0x080200A0), 24, 0x080200A0, performs_of (by decide +kernel), by decide +kernel⟩,
    ⟨(runs rich 0x50E20009), 24, 0x50E20009, performs_of (by decide +kernel)⟩,
    ⟨(runs rich 0x54E20009), 24, 0x54E20009, performs_of (by decide +kernel)⟩,
    ⟨(runs rich 0x58E20009), 24, 0x58E20009, performs_of (by decide +kernel)⟩,
    ⟨(runs rich 0x5CE20009), 24, 0x5CE20009, performs_of (by decide +kernel)⟩,
    ⟨(runs rich 0x60E20009), 24, 0x60E20009, performs_of (by decide +kernel)⟩,
    ⟨(runs rich 0x64E20009), 24, 0x64E20009, performs_of (by decide +kernel)⟩,
    ⟨(runs rich 0xC0221A50), 24, 0xC0221A50, performs_of (by decide +kernel)⟩,
    ⟨(runs rich 0xC4222A10), 24, 0xC4222A10, performs_of (by decide +kernel)⟩,
    ⟨(runs rich 0xC8220200), 24, 0xC8220200, performs_of (by decide +kernel)⟩,
    ⟨(runs rich 0xCCE11200), 24, 0xCCE11200, performs_of (by decide +kernel)⟩⟩

theorem witness_PredicatesAndVectors_2 :
    (∃ (s : State) (t : Nat) (w : Nat), Performs s t .vmerge w) ∧
    (∃ (s : State) (t : Nat) (w : Nat), Performs s t .vmove w ∧ wVf w = 0) ∧
    (∃ (s : State) (t : Nat) (w : Nat), let th := thread s t; let et := wEt w; Performs s t .vmove w ∧ wVf w = 3 ∧
      (sGet th (wRb w)).toNat < etLanes et) :=
  ⟨⟨(runs rich 0xD0221A00), 24, 0xD0221A00, performs_of (by decide +kernel)⟩,
    ⟨(runs rich 0xD4220200), 24, 0xD4220200, performs_of (by decide +kernel), by decide +kernel⟩,
    ⟨(runs rich 0xD4220218), 24, 0xD4220218, performs_of (by decide +kernel), by decide +kernel⟩⟩

theorem witness_ScratchAccess_1 :
    (∃ (s : State) (t : Nat) (w : Nat), let th := thread s t; let a := scratchAddr th w;
      let sound (n : Nat) : Prop := a % n = 0 ∧ inControl t a = false ∧ a + n ≤ th.scratchSize ∧ scratchPoison th a n = false;
      Performs s t .ldb w ∧ sound 1) ∧
    (∃ (s : State) (t : Nat) (w : Nat), let th := thread s t; let a := scratchAddr th w;
      let sound (n : Nat) : Prop := a % n = 0 ∧ inControl t a = false ∧ a + n ≤ th.scratchSize ∧ scratchPoison th a n = false;
      Performs s t .ldh w ∧ sound 2) ∧
    (∃ (s : State) (t : Nat) (w : Nat), let th := thread s t; let a := scratchAddr th w;
      let sound (n : Nat) : Prop := a % n = 0 ∧ inControl t a = false ∧ a + n ≤ th.scratchSize ∧ scratchPoison th a n = false;
      Performs s t .ldw w ∧ sound 4) ∧
    (∃ (s : State) (t : Nat) (w : Nat), let th := thread s t; let a := scratchAddr th w;
      let sound (n : Nat) : Prop := a % n = 0 ∧ inControl t a = false ∧ a + n ≤ th.scratchSize ∧ scratchPoison th a n = false;
      Performs s t .ldd w ∧ sound 8) ∧
    (∃ (s : State) (t : Nat) (w : Nat), let th := thread s t; let a := scratchAddr th w;
      let sound (n : Nat) : Prop := a % n = 0 ∧ inControl t a = false ∧ a + n ≤ th.scratchSize ∧ scratchPoison th a n = false;
      Performs s t .vld w ∧ sound 64) ∧
    (∃ (s : State) (t : Nat) (w : Nat), let th := thread s t; let a := scratchAddr th w; Performs s t .ldw w ∧ a % 4 = 0 ∧
      inControl t a = true ∧ reservedOff (a - 0x1000000) = false ∧ (((a - 0x1000000) / 8 * 8 = 0x700070 → fenceReady s = true))) ∧
    (∃ (s : State) (t : Nat) (w : Nat), let th := thread s t; let a := scratchAddr th w; Performs s t .ldd w ∧ a % 8 = 0 ∧
      inControl t a = true ∧ reservedOff (a - 0x1000000) = false ∧ (((a - 0x1000000) / 8 * 8 = 0x700070 → fenceReady s = true))) ∧
    (∃ (s : State) (t : Nat) (w : Nat), let th := thread s t; let a := scratchAddr th w;
      let inside (n : Nat) : Prop := a % n = 0 ∧ inControl t a = false ∧ a + n ≤ th.scratchSize; Performs s t .stb w ∧ inside 1) ∧
    (∃ (s : State) (t : Nat) (w : Nat), let th := thread s t; let a := scratchAddr th w;
      let inside (n : Nat) : Prop := a % n = 0 ∧ inControl t a = false ∧ a + n ≤ th.scratchSize; Performs s t .sth w ∧ inside 2) ∧
    (∃ (s : State) (t : Nat) (w : Nat), let th := thread s t; let a := scratchAddr th w;
      let inside (n : Nat) : Prop := a % n = 0 ∧ inControl t a = false ∧ a + n ≤ th.scratchSize; Performs s t .stw w ∧ inside 4) ∧
    (∃ (s : State) (t : Nat) (w : Nat), let th := thread s t; let a := scratchAddr th w;
      let inside (n : Nat) : Prop := a % n = 0 ∧ inControl t a = false ∧ a + n ≤ th.scratchSize; Performs s t .std w ∧ inside 8) ∧
    (∃ (s : State) (t : Nat) (w : Nat), let th := thread s t; let a := scratchAddr th w;
      let inside (n : Nat) : Prop := a % n = 0 ∧ inControl t a = false ∧ a + n ≤ th.scratchSize; Performs s t .vst w ∧ inside 64) :=
  ⟨⟨(runs rich 0x68200FFF), 24, 0x68200FFF, performs_of (by decide +kernel), by decide +kernel⟩,
    ⟨(runs rich 0x6C200FFE), 24, 0x6C200FFE, performs_of (by decide +kernel), by decide +kernel⟩,
    ⟨(runs rich 0x70200FFC), 24, 0x70200FFC, performs_of (by decide +kernel), by decide +kernel⟩,
    ⟨(runs rich 0x74200FF8), 24, 0x74200FF8, performs_of (by decide +kernel), by decide +kernel⟩,
    ⟨(runs rich 0x88200FC0), 24, 0x88200FC0, performs_of (by decide +kernel), by decide +kernel⟩,
    ⟨(setThread (managerRuns rich 0x70410000) 512 (sSet 1 0x1700070 (thread (managerRuns rich 0x70410000) 512))), 512, 0x70410000,
      performs_of (by decide +kernel), by decide +kernel⟩,
    ⟨(setThread (managerRuns rich 0x74410000) 512 (sSet 1 0x1980008 (thread (managerRuns rich 0x74410000) 512))), 512, 0x74410000,
      performs_of (by decide +kernel), by decide +kernel⟩,
    ⟨(runs rich 0x78200FFF), 24, 0x78200FFF, performs_of (by decide +kernel), by decide +kernel⟩,
    ⟨(runs rich 0x7C200FFE), 24, 0x7C200FFE, performs_of (by decide +kernel), by decide +kernel⟩,
    ⟨(runs rich 0x80200FFC), 24, 0x80200FFC, performs_of (by decide +kernel), by decide +kernel⟩,
    ⟨(runs rich 0x84200FF8), 24, 0x84200FF8, performs_of (by decide +kernel), by decide +kernel⟩,
    ⟨(runs rich 0x8C200FC0), 24, 0x8C200FC0, performs_of (by decide +kernel), by decide +kernel⟩⟩

theorem witness_ScratchAccess_2 :
    (∃ (s : State) (t : Nat) (w : Nat), let th := thread s t; let a := scratchAddr th w; Performs s t .stw w ∧ a % 4 = 0 ∧
      inControl t a = true ∧ reservedOff (a - 0x1000000) = false) ∧
    (∃ (s : State) (t : Nat) (w : Nat), let th := thread s t; let a := scratchAddr th w; Performs s t .std w ∧ a % 8 = 0 ∧
      inControl t a = true ∧ reservedOff (a - 0x1000000) = false) ∧
    (∃ (s : State) (t : Nat) (w : Nat) (i : Instr) (op : NOp) (n : Nat), let a := scratchAddr (thread s t) w; (i, op, n) ∈ [(Instr.ldb t,
      NOp.ldb, 1), (.ldh t, .ldh, 2), (.ldw t, .ldw, 4), (.ldd t, .ldd, 8), (.vld t, .vld, 64), (.stb t, .stb, 1), (.sth t, .sth, 2),
      (.stw t, .stw, 4), (.std t, .std, 8), (.vst t, .vst, 64)] ∧ Performs s t op w ∧ a % n ≠ 0) ∧
    (∃ (s : State) (t : Nat) (w : Nat) (i : Instr) (op : NOp) (n : Nat), let a := scratchAddr (thread s t) w; (i, op, n) ∈ [(Instr.ldb t,
      NOp.ldb, 1), (.ldh t, .ldh, 2), (.ldw t, .ldw, 4), (.ldd t, .ldd, 8), (.vld t, .vld, 64), (.stb t, .stb, 1), (.sth t, .sth, 2),
      (.stw t, .stw, 4), (.std t, .std, 8), (.vst t, .vst, 64)] ∧ Performs s t op w ∧ a % n = 0 ∧ inControl t a = false ∧
      (thread s t).scratchSize < a + n) :=
  ⟨⟨(setThread (managerRuns rich 0x80410000) 512 (sSet 1 0x1980020 (thread (managerRuns rich 0x80410000) 512))), 512, 0x80410000,
      performs_of (by decide +kernel), by decide +kernel⟩,
    ⟨(setThread (managerRuns rich 0x84410000) 512 (sSet 1 0x1980020 (thread (managerRuns rich 0x84410000) 512))), 512, 0x84410000,
      performs_of (by decide +kernel), by decide +kernel⟩,
    ⟨(runs rich 0x74200FFC), 24, 0x74200FFC, (.ldd 24), .ldd, 8, by decide +kernel, performs_of (by decide +kernel), by decide +kernel⟩,
    ⟨(runs rich 0x8C201000), 24, 0x8C201000, (.vst 24), .vst, 64, by decide +kernel, performs_of (by decide +kernel), by decide +kernel⟩⟩

theorem witness_BranchTargets :
    (∃ (s : State) (t : Nat) (w : Nat), let th := thread s t; Performs s t .br w ∧ pGet th (wPt w) = wSn w) ∧
    (∃ (s : State) (t : Nat) (w : Nat) (target : Nat), let th := thread s t; Performs s t .br w ∧ pGet th (wPt w) ≠ wSn w ∧
      (th.pc : Int) + 4 * wOff w = target ∧ target < codeLen s t th) ∧
    (∃ (s : State) (t : Nat) (w : Nat), let th := thread s t; Performs s t .jalr w ∧ (sGet th (wRa w)).toNat % 4 = 0 ∧
      (sGet th (wRa w)).toNat < 2 ^ (if t = mgEngine then 18 else 15) ∧ (sGet th (wRa w)).toNat < codeLen s t th) :=
  ⟨⟨(runs rich 0xA0020000), 24, 0xA0020000, performs_of (by decide +kernel), by decide +kernel⟩,
    ⟨(runs rich 0xA0000000), 24, 0xA0000000, 0, performs_of (by decide +kernel), by decide +kernel⟩,
    ⟨(runs rich 0x0C200000), 24, 0x0C200000, performs_of (by decide +kernel), by decide +kernel⟩⟩

theorem witness_SystemInstructions :
    (∃ (s : State) (t : Nat) (w : Nat), Performs s t .fence w) ∧
    (∃ (s : State) (t : Nat) (w : Nat), let th := thread s t; Performs s t .yield w ∧ mirrorsThread s t th = false) ∧
    (∃ (s : State) (t : Nat) (w : Nat), let th := thread s t; Performs s t .halt w ∧ t ≠ mgEngine ∧ mirrorsThread s t th = false ∧
      startMode s t th = false) ∧
    (∃ (s : State) (t : Nat) (w : Nat), let th := thread s t; Performs s t .halt w ∧ t ≠ mgEngine ∧ mirrorsThread s t th = false ∧
      startMode s t th = true) ∧
    (∃ (s : State) (t : Nat) (w : Nat), Performs s t .halt w ∧ t = mgEngine) ∧
    (∃ (s : State) (t : Nat) (w : Nat), Performs s t .mts w ∧ wImm w = 1) ∧
    (∃ (s : State) (t : Nat) (w : Nat), let th := thread s t; Performs s t .mts w ∧ wImm w = 3 ∧ (sGet th (wRd w)).getLsbD 0 = true) ∧
    (∃ (s : State) (t : Nat) (w : Nat), let th := thread s t; Performs s t .mts w ∧ wImm w = 4 ∧ sGet th (wRd w) = 0x5253) ∧
    (∃ (s : State) (t : Nat) (w : Nat), let th := thread s t; Performs s t .trap w ∧ th.plds = [] ∧ pushFault s t th (fill 40 0) ≠ none) :=
  ⟨⟨(runs rich 0xA4007800), 24, 0xA4007800, performs_of (by decide +kernel)⟩,
    ⟨(runs rich 0xA4000040), 24, 0xA4000040, performs_of (by decide +kernel), by decide +kernel⟩,
    ⟨(runs rich 0xA4000080), 24, 0xA4000080, performs_of (by decide +kernel), by decide +kernel⟩,
    ⟨(startsFresh (runs rich 0xA4000080)), 24, 0xA4000080, performs_of (by decide +kernel), by decide +kernel⟩,
    ⟨(managerRuns rich 0xA4000080), 512, 0xA4000080, performs_of (by decide +kernel), by decide +kernel⟩,
    ⟨(managerRuns rich 0x98000001), 512, 0x98000001, performs_of (by decide +kernel), by decide +kernel⟩,
    ⟨(setThread (managerRuns rich 0x98200003) 512 (sSet 1 1 (thread (managerRuns rich 0x98200003) 512))), 512, 0x98200003,
      performs_of (by decide +kernel), by decide +kernel⟩,
    ⟨(setThread (managerRuns rich 0x98200004) 512 (sSet 1 0x5253 (thread (managerRuns rich 0x98200004) 512))), 512, 0x98200004,
      performs_of (by decide +kernel), by decide +kernel⟩,
    ⟨(runs rich 0xA40700C0), 24, 0xA40700C0, performs_of (by decide +kernel), by decide +kernel⟩⟩

theorem witness_FaultsKeepState :
    (∃ (s : State) (t : Nat) (w : Nat), let th := thread s t; let a := scratchAddr th w; Performs s t .ldd w ∧ a % 8 = 0 ∧
      inControl t a = false ∧ a + 8 ≤ th.scratchSize ∧ scratchPoison th a 8 = true ∧ th.plds = []) ∧
    (∃ (s : State) (t : Nat), let th := thread s t; th.mode ≠ .frozen ∧ th.freezeDue = false) ∧
    (∃ (s : State) (t : Nat) (f : PFault), let th := thread s t; th.mode ≠ .frozen ∧ th.freezeDue = false ∧ f.1 < 256) :=
  ⟨⟨(on24 (runs rich 0x74200000) (fun th => { th with poison := [(0, true)] })), 24, 0x74200000, performs_of (by decide +kernel),
      by decide +kernel⟩,
    ⟨rich, 24, by decide +kernel, by decide +kernel⟩,
    ⟨rich, 24, (255, 0), by decide +kernel, by decide +kernel⟩⟩

theorem witness_IssueChecks :
    (∃ (s : State) (t : Nat) (w : Nat), Issues s t .alu w ∧ guardTrue (thread s t) .alu w = false) ∧
    (∃ (s : State) (t : Nat) (w : Nat), Issues s t .varith w ∧ guardTrue (thread s t) .varith w = false) ∧
    (∃ (s : State) (t : Nat) (w : Nat), Issues s t .qpush w ∧ guardTrue (thread s t) .qpush w = false) ∧
    (∃ (t : Nat), t ≠ mgEngine) ∧
    (∃ (s : State) (t : Nat), let th := thread s t; t ≠ mgEngine ∧ th.budget = 0) ∧
    (∃ (s : State) (t : Nat), let th := thread s t; ((t = mgEngine ∨ th.budget ≠ 0)) ∧ fetch s t th = none) ∧
    (∃ (s : State) (t : Nat) (w : _), let th := thread s t; ((t = mgEngine ∨ th.budget ≠ 0)) ∧ fetch s t th = some w ∧ decodeN w = none) ∧
    (∃ (s : State) (t : Nat) (w : _) (op : _), let th := thread s t; t ≠ mgEngine ∧ th.budget ≠ 0 ∧ fetch s t th = some w ∧
      decodeN w = some op ∧ ((op = .mfs ∨ op = .mts))) ∧
    (∃ (s : State) (t : Nat) (f : _), let th := thread s t; mayRun th = true ∧ ctxRuns s th = true ∧ preIssue s t th = .bad f) :=
  ⟨⟨(runs rich 0x04221801), 24, 0x04221801, issues_of (by decide +kernel), by decide +kernel⟩,
    ⟨(runs rich 0xC0221A01), 24, 0xC0221A01, issues_of (by decide +kernel), by decide +kernel⟩,
    ⟨(runs rich 0xE0221801), 24, 0xE0221801, issues_of (by decide +kernel), by decide +kernel⟩,
    ⟨511, by decide +kernel⟩,
    ⟨(on24 rich (fun th => { th with budget := 0 })), 24, by decide +kernel, by decide +kernel⟩,
    ⟨(on24 rich (fun th => { th with pc := 4 })), 24, by decide +kernel, by decide +kernel⟩,
    ⟨(runs rich 0), 24, 0, by decide +kernel, by decide +kernel⟩,
    ⟨(runs rich 0x94200000), 24, 0x94200000, .mfs, by decide +kernel, by decide +kernel⟩,
    ⟨(runs rich 0), 24, (FaultCode.illegal, 0), by decide +kernel, by decide +kernel⟩⟩

theorem witness_QueueInstructions :
    (∃ (s : State) (t : Nat) (w : Nat) (x : _) (l : _), let th := thread s t; let q := xh th w; let sp := spanOf t (xa th w);
      Performs s t .qpush w ∧ queueOperands t th w true true = none ∧ s.th.safe = false ∧ queue? s q = some x ∧
      mayPush x (tagCtx th.tag) = true ∧ discards s q x th.tag sp.prio (cellsOf sp.len) = some l ∧
      queueRoom s x (l.length + 1) sp.len = true) ∧
    (∃ (s : State) (t : Nat) (w : Nat) (x : _) (i : _), let th := thread s t; let q := xh th w; let sp := spanOf t (xa th w);
      Performs s t .qpop w ∧ wXv w = 0 ∧ queueOperands t th w false true = none ∧ queue? s q = some x ∧ ownQueue th x = true ∧
      headItem x = some i ∧ i.poison = false ∧ i.bytes.length ≤ sp.len ∧ queueRoom s x 1 0 = true) ∧
    (∃ (s : State) (t : Nat) (w : Nat) (x : _) (i : _), let th := thread s t; let q := xh th w; Performs s t .qpop w ∧ wXv w = 1 ∧
      queueOperands t th w false false = none ∧ queue? s q = some x ∧ ownQueue th x = true ∧ headItem x = some i ∧ queueRoom s x 1 0 = true) ∧
    (∃ (s : State) (t : Nat) (w : Nat) (x : _) (i : _), let th := thread s t; let q := xh th w; let sp := spanOf t (xa th w);
      Performs s t .qpeek w ∧ queueOperands t th w false true = none ∧ queue? s q = some x ∧ ownQueue th x = true ∧ headItem x = some i ∧
      i.poison = false ∧ ((wXv w = 1 ∨ i.bytes.length ≤ sp.len))) ∧
    (∃ (s : State) (t : Nat) (w : Nat) (x : _), let th := thread s t; let q := xh th w; Performs s t .qpop w ∧
      queueOperands t th w false (wXv w != 1) = none ∧ queue? s q = some x ∧ ownQueue th x = true ∧ headItem x = none ∧ wWt w = false) ∧
    (∃ (s : State) (t : Nat) (w : Nat), let th := thread s t; let q := xh th w; Performs s t .qpop w ∧
      queueOperands t th w false (wXv w != 1) = none ∧ queue? s q = none ∧ th.plds = []) :=
  ⟨by refine ⟨(on24 (runs rich 0xE0221800) (fun th => { th with s := [(2, 10), (3, 0x780000000)], scratchSize := 16384 })), 24, 0xE0221800,
      _, [], performs_of (by decide +kernel), ?_, ?_, rfl, ?_⟩ <;> decide +kernel,
    by refine ⟨(on24 (runs (withItem rich 10 5) 0xE4221800) (fun th => { th with s := [(2, 10), (3, 0x100000)] })), 24, 0xE4221800, _, _,
      performs_of (by decide +kernel), ?_, ?_, rfl, ?_, rfl, ?_⟩ <;> decide +kernel,
    by refine ⟨(on24 (runs (withItem rich 10 5) 0xE4220008) (fun th => { th with s := [(2, 10)] })), 24, 0xE4220008, _, _,
      performs_of (by decide +kernel), ?_, ?_, rfl, ?_, rfl, ?_⟩ <;> decide +kernel,
    by refine ⟨(on24 (runs (withItem rich 10 5) 0xE8221808) (fun th => { th with s := [(2, 10), (3, 0x20000)] })), 24, 0xE8221808, _, _,
      performs_of (by decide +kernel), ?_, rfl, ?_, rfl, ?_⟩ <;> decide +kernel,
    ⟨(on24 (runs rich 0xE4221800) (fun th => { th with s := [(2, 10), (3, 0x100000)] })), 24, 0xE4221800, _,
      performs_of (by decide +kernel), by decide +kernel, rfl, by decide +kernel⟩,
    ⟨(on24 (runs (withItem rich 10 5) 0xE4221800) (fun th => { th with s := [(2, 9), (3, 0x100000)] })), 24, 0xE4221800,
      performs_of (by decide +kernel), by decide +kernel⟩⟩

theorem witness_HeadIsOldestOfHighest :
    ∃ (x : Queue) (i : Item), ((∀ j ∈ x.items, j.prio < 8)) ∧ headItem x = some i :=
  ⟨{ ctx := 5, mode := .hold, limit := 64, mirrored := false, items := [{ bytes := fill 8 1, prio := 7, poison := false, tag := mkTag 5 1, cells := [1] }] },
    _, by decide +kernel, rfl⟩

theorem witness_PoolAndPosting :
    (∃ (s : State) (t : Nat) (w : Nat) (ppa : _) (slot : _), let th := thread s t; let a := xh th w; Performs s t .pld w ∧
      poolWordOk (tagCtx th.tag == mgt) a = true ∧ a % 64 = 0 ∧ check s th.tag (.tpa a) false = .allow ppa slot ∧ loadSlot s t th = true) ∧
    (∃ (s : State) (t : Nat) (k : _) (p : _) (ups : Upsets), let th := thread s t; let u := eccSpan (disturb s ups) p.ppa 64 th.tag;
      th.plds[k]? = some p ∧ (th.plds.take k).any (fun e => e.ppa == p.ppa) = false ∧ poisonAt u p.ppa = false) ∧
    (∃ (s : State) (t : Nat) (p : _) (rest : _) (ups : Upsets), let th := thread s t; let u := eccSpan (disturb s ups) p.ppa 64 th.tag;
      let v := setThread u t (undoPld p (thread u t)); th.plds = p :: rest ∧ poisonAt u p.ppa = true ∧
      pushFault v t (thread v t) (fill 40 0) ≠ none) ∧
    (∃ (s : State) (t : Nat) (w : Nat) (ppa : _) (slot : _), let th := thread s t; let a := xh th w; Performs s t .pst w ∧ wXv w = 0 ∧
      poolWordOk (tagCtx th.tag == mgt) a = true ∧ a % 64 = 0 ∧ check s th.tag (.tpa a) true = .allow ppa slot ∧ writeRoom s ppa 64 = true) ∧
    (∃ (s : State) (t : Nat) (w : Nat) (ppa : _) (slot : _), let th := thread s t; let a := xh th w; Performs s t .pst w ∧ wXv w = 1 ∧
      xa th w ≠ 0 ∧ xa th w ≠ 2 ^ 64 - 1 ∧ poolWordOk (tagCtx th.tag == mgt) a = true ∧ a % 64 = 0 ∧
      check s th.tag (.tpa a) true = .allow ppa slot ∧ writeRoom s ppa 64 = true) ∧
    (∃ (s : State) (t : Nat) (w : Nat), let th := thread s t; let a := xh th w; Performs s t .pst w ∧ wXv w = 1 ∧ xa th w = 0 ∧
      poolWordOk (tagCtx th.tag == mgt) a = true ∧ a % 64 = 0 ∧ ((∃ ppa slot, check s th.tag (.tpa a) true = .allow ppa slot))) ∧
    (∃ (s : State) (t : Nat) (w : Nat) (x : _) (ch : _) (u : _), let th := thread s t; let h := xh th w; let off := xa th w;
      let k : Contrib := { src := .thread t, tag := th.tag, window := h % 4096, offset := off, epoch := ((rwin? s (h % 4096)).map (fun x => x.epoch)).getD 0, data := vGet th (wXs w), poison := false };
      Performs s t .pred w ∧ h < 2 ^ 32 ∧ off % 64 = 0 ∧
      contribCheck s th.tag (h % 4096) (h / 4096 % 4096) off (some (h / 2 ^ 24 % 256)) = none ∧ rwin? s (h % 4096) = some x ∧
      ctxMode s x.ctx = .running ∧ x.complete.contains (off / 65536) = false ∧
      ((x.arrival = true → writeRoom s (chunkGranule s x (off / 65536) * granuleBytes) 64 = true)) ∧
      chunk? s (h % 4096) (off / 65536) = some ch ∧ ((tagSc th.tag = 0 ∧ u = s) ∨ serveLine s s.ru.waiting.length k = some u)) ∧
    (∃ (s : State) (t : Nat) (w : Nat) (x : _) (u : _), let th := thread s t; let h := xh th w; let off := xa th w;
      let k : Contrib := { src := .thread t, tag := th.tag, window := h % 4096, offset := off, epoch := ((rwin? s (h % 4096)).map (fun x => x.epoch)).getD 0, data := vGet th (wXs w), poison := false };
      Performs s t .pred w ∧ h < 2 ^ 32 ∧ off % 64 = 0 ∧
      contribCheck s th.tag (h % 4096) (h / 4096 % 4096) off (some (h / 2 ^ 24 % 256)) = none ∧ rwin? s (h % 4096) = some x ∧
      ctxMode s x.ctx = .running ∧ x.complete.contains (off / 65536) = true ∧ ((tagSc th.tag = 0 ∧
      u = s) ∨ serveLine s s.ru.waiting.length k = some u)) ∧
    (∃ (s : State) (t : Nat) (w : Nat), let th := thread s t; let h := xh th w; let off := xa th w; Performs s t .pred w ∧ h < 2 ^ 32 ∧
      off % 64 = 0 ∧ contribCheck s th.tag (h % 4096) (h / 4096 % 4096) off (some (h / 2 ^ 24 % 256)) = some .owner ∧ th.plds = []) ∧
    (∃ (s : State) (t : Nat) (w : Nat), let th := thread s t; let h := xh th w; Performs s t .hcopy w ∧ h < 1024 ∧ (chan s h).st ≠ .free ∧
      (chan s h).ctx = tagCtx th.tag ∧ (chan s h).engineProd = true ∧ ((chan s h).tail - (chan s h).head).toNat < ringSlots (chan s h) ∧
      (chan s h).tailBuf.length < 8) ∧
    (∃ (s : State) (t : Nat) (w : Nat), let th := thread s t; let h := xh th w; Performs s t .hcopy w ∧ h < 1024 ∧ (chan s h).st ≠ .free ∧
      (chan s h).ctx = tagCtx th.tag ∧ (chan s h).engineProd = true ∧ ringSlots (chan s h) ≤ ((chan s h).tail - (chan s h).head).toNat ∧
      wWt w = false) ∧
    (∃ (s : State) (t : Nat) (w : Nat), let th := thread s t; let h := xh th w; let off := xa th w; let n := units (spanOf t off).len;
      Performs s t .nsend w ∧ h < 65536 ∧ spanOk t off false = true ∧ ((wXv w = 2 → (spanOf t off).len % 64 = 0)) ∧
      remoteOk (tagCtx th.tag == mgt) w (xs th w) = true ∧ spanFits th (spanOf t off) = true ∧ (conn s h).st = .opened ∧
      (conn s h).ctx = tagCtx th.tag ∧ ((nsendKind w = WType.reduce → (conn s h).staleValid = false)) ∧
      serialGe (conn s h).txLimit ((conn s h).txIssued + BitVec.ofNat 32 n) = true ∧ quotaRoom s (conn s h).ctx (tagSc th.tag) n 0 = true ∧
      allocStop s = false) :=
  ⟨⟨(on24 (runs rich 0xEC220000) (fun th => { th with s := [(2, 64)] })), 24, 0xEC220000, 64, 5, performs_of (by decide +kernel),
      by decide +kernel⟩,
    ⟨(on24 rich (fun th => { th with plds := [{ vd := 1, addr := 128, ppa := 128, pc := 0, s := [], v := [], p := 1 }, { vd := 1, addr := 64, ppa := 64, pc := 0, s := [], v := [], p := 1 }] })),
      24, 1, { vd := 1, addr := 64, ppa := 64, pc := 0, s := [], v := [], p := 1 }, [], by decide +kernel, by decide +kernel⟩,
    ⟨(on24 (setPoison rich 64 true) (fun th => { th with plds := [{ vd := 1, addr := 64, ppa := 64, pc := 0, s := [], v := [], p := 1 }] })),
      24, { vd := 1, addr := 64, ppa := 64, pc := 0, s := [], v := [], p := 1 }, [], [], by decide +kernel, by decide +kernel⟩,
    ⟨(on24 (runs rich 0xF0020040) (fun th => { th with s := [] })), 24, 0xF0020040, 0, 5, performs_of (by decide +kernel),
      by decide +kernel⟩,
    ⟨(on24 (runs rich 0xF0021848) (fun th => { th with s := [(2, 64), (3, 1)] })), 24, 0xF0021848, 64, 5, performs_of (by decide +kernel),
      by decide +kernel⟩,
    by refine ⟨(on24 (runs rich 0xF0021848) (fun th => { th with s := [(2, 64), (3, 0)] })), 24, 0xF0021848,
      performs_of (by decide +kernel), ?_, ?_, ?_, ?_, ⟨64, 5, by decide +kernel⟩⟩ <;> decide +kernel,
    by refine ⟨(on24 (runs (setChunk (withWindow rich 0 5) 0 0 { unit := 0, slices := 10, onReserve := false }) 0xF4221840) (fun th => { th with s := [(2, 0), (3, 0)], tag := mkTag 5 0 })),
      24, 0xF4221840, _, _, _, performs_of (by decide +kernel), ?_, ?_, ?_, rfl, ?_, ?_, ?_, rfl, .inl ⟨by decide +kernel,
      rfl⟩⟩ <;> decide +kernel,
    by refine ⟨(on24 (runs (done0 (withWindow rich 0 5)) 0xF4221840) (fun th => { th with s := [(2, 0), (3, 0)], tag := mkTag 5 0 })), 24,
      0xF4221840, _, _, performs_of (by decide +kernel), ?_, ?_, ?_, rfl, ?_, ?_, .inl ⟨by decide +kernel, rfl⟩⟩ <;> decide +kernel,
    ⟨(on24 (runs rich 0xF4221840) (fun th => { th with s := [(2, 1), (3, 0)] })), 24, 0xF4221840, performs_of (by decide +kernel),
      by decide +kernel⟩,
    ⟨(on24 (runs (withRing rich 0) 0xF8220040) (fun th => { th with s := [(2, 0)] })), 24, 0xF8220040, performs_of (by decide +kernel),
      by decide +kernel⟩,
    ⟨(on24 (runs (withFullRing rich 0) 0xF8220040) (fun th => { th with s := [(2, 0)] })), 24, 0xF8220040, performs_of (by decide +kernel),
      by decide +kernel⟩,
    ⟨(on24 (runs (connected rich) 0xD8221900) (fun th => { th with s := [(2, 100), (3, 0x800000), (4, 0)] })), 24, 0xD8221900,
      performs_of (by decide +kernel), by decide +kernel⟩⟩

theorem witness_StallsAndWaits :
    (∃ (s : State) (t : Nat) (w : Nat) (x : _), let th := thread s t; let q := xh th w; let sp := spanOf t (xa th w);
      Performs s t .qpush w ∧ queueOperands t th w true true = none ∧ s.th.safe = false ∧ queue? s q = some x ∧
      mayPush x (tagCtx th.tag) = true ∧ discards s q x th.tag sp.prio (cellsOf sp.len) = none ∧ wWt w = true) ∧
    (∃ (s : State) (t : Nat) (w : Nat) (x : _) (l : _), let th := thread s t; let q := xh th w; let sp := spanOf t (xa th w);
      th.mode = .stalled ∧ ctxRuns s th = true ∧ fetch s t th = some w ∧ decodeN w = some .qpush ∧ queueOperands t th w true true = none ∧
      s.th.safe = false ∧ queue? s q = some x ∧ mayPush x (tagCtx th.tag) = true ∧ discards s q x th.tag sp.prio (cellsOf sp.len) = some l ∧
      queueRoom s x (l.length + 1) sp.len = true) ∧
    (∃ (s : State) (t : Nat) (w : Nat) (since : _) (p : _), let th := thread s t; let u := passTo s (since + 8 * p.stallLimit);
      t ≠ mgEngine ∧ th.mode = .stalled ∧ th.stalledAt = some since ∧ program? s th.program = some p ∧ fetch s t th = some w ∧
      closedSend s th w = false ∧ th.plds = [] ∧ (((∀ i, inst? s th.inst = some i → i.faultQueue = mgtQueue) ∧
      tagCtx th.tag ≠ mgt) ∨ pushFault u t th (fill 40 0) ≠ none)) ∧
    (∃ (s : State) (t : Nat) (w : Nat), let th := thread s t; Performs s t .waite w ∧ xh th w < 2 ^ 32 ∧ xh th w ≠ 0 ∧
      mirrorsThread s t th = false) ∧
    (∃ (s : State) (t : Nat) (w : Nat), let th := thread s t; Performs s t .waite w ∧ xh th w = 0 ∧ mirrorsThread s t th = false ∧
      startMode s t th = false) ∧
    (∃ (s : State) (t : Nat) (w : Nat), let th := thread s t; Performs s t .waite w ∧ 2 ^ 32 ≤ xh th w ∧ th.plds = []) ∧
    (∃ (s : State) (t : Nat) (w : Nat), let th := thread s t; Performs s t .waite w ∧ xh th w = 0 ∧ mirrorsThread s t th = false ∧
      startMode s t th = true) ∧
    (∃ (s : State) (t : Nat) (due : _), let th := thread s t; th.timer = some due ∧ due ≤ s.now ∧ th.mode = .waiting) ∧
    (∃ (s : State) (t : Nat) (k : _) (rest : _), let th := thread s t; ctxRuns s th = true ∧ th.haltDue = false ∧ th.freezeDue = false ∧
      th.own = k :: rest ∧ th.mode = .waiting) ∧
    (∃ (s : State) (t : Nat) (i : _) (k : _) (b : _), let th := thread s t; t ≠ mgEngine ∧ ctxRuns s th = true ∧ th.haltDue = false ∧
      th.freezeDue = false ∧ th.own = [] ∧ th.mode = .idle ∧ startMode s t th = true ∧ inst? s th.inst = some i ∧
      nextSlot i.served (pendingSlots s th.inst) = some (k, b)) :=
  ⟨by refine ⟨(on24 (runs (fillQueue rich 10) 0xE0221820) (fun th => { th with s := [(2, 10), (3, 0x100000)] })), 24, 0xE0221820, _,
      performs_of (by decide +kernel), ?_, ?_, rfl, ?_⟩ <;> decide +kernel,
    by refine ⟨(on24 (runs rich 0xE0221820) (fun th => { th with s := [(2, 10), (3, 0x100000)], mode := .stalled, stalledAt := some 0 })),
      24, 0xE0221820, _, [], ?_, ?_, ?_, ?_, ?_, ?_, rfl, ?_⟩ <;> decide +kernel,
    by refine ⟨(on24 (runs rich 0xE0221820) (fun th => { th with s := [(2, 10), (3, 0x100000)], mode := .stalled, stalledAt := some 0 })),
      24, 0xE0221820, 0, _, ?_, ?_, ?_, rfl, ?_, ?_, ?_, .inr (by decide +kernel)⟩ <;> decide +kernel,
    ⟨(on24 (runs rich 0xDC020000) (fun th => { th with s := [(2, 0xFFFFFFFF)] })), 24, 0xDC020000, performs_of (by decide +kernel),
      by decide +kernel⟩,
    ⟨(runs rich 0xDC020000), 24, 0xDC020000, performs_of (by decide +kernel), by decide +kernel⟩,
    ⟨(on24 (runs rich 0xDC020000) (fun th => { th with s := [(2, 0x100000000)] })), 24, 0xDC020000, performs_of (by decide +kernel),
      by decide +kernel⟩,
    ⟨(startsFresh (runs rich 0xDC020000)), 24, 0xDC020000, performs_of (by decide +kernel), by decide +kernel⟩,
    ⟨(on24 rich (fun th => { th with timer := some 0, mode := .waiting })), 24, 0, by decide +kernel, by decide +kernel⟩,
    ⟨(on24 rich (fun th => { th with own := [.timer], mode := .waiting })), 24, .timer, [], by decide +kernel, by decide +kernel⟩,
    by refine ⟨(startsFresh (on24 { rich with ne := { rich.ne with bindings := [(96, { kind := .queue, source := 10, inst := 0, count := 1 })] } } (fun th => { th with mode := .idle }))),
      24, _, _, _, ?_, ?_, ?_, ?_, ?_, ?_, ?_, rfl, rfl⟩ <;> decide +kernel⟩

theorem witness_ProgramCommands :
    (∃ (u : State) (src : _) (ctx : _) (from_ : _) (n : _) (engines : _), (mbox u src).running = some (.fetchProgram ctx from_ n engines)) ∧
    (∃ (r : State) (s : State) (src : Nat) (ctx : _) (from_ : _) (n : _) (engines : _) (host : _) (b : _) (h : _) (v : _), Rings r src s ∧
      Served s src 0x01 ∧ Live s ctx ∧ readImage (accepted s src) ctx from_ n host = (.ok b, v) ∧ imageFault v ctx b = none ∧
      ((∀ e ∈ enginesOf engines, bit (imgClusters b) (cluster e) = true ∧ engineOn v e = true ∧
      (freeRun v e (cdiv (imgCode b) 512)).isSome = true)) ∧ oneOf v 0 (Tab.freeKeys v.ne.programs 0 1024) = some h) ∧
    (∃ (r : State) (s : State) (src : Nat) (h : _) (p : _), Rings r src s ∧ Served s src 0x02 ∧ program? s h = some p ∧ Live s p.ctx ∧
      s.ne.insts.any (fun e => e.2.program == h) = false) ∧
    (∃ (r : State) (s : State) (src : Nat) (h : _) (p : _) (e : _) (n : _) (scratch : _) (cap : _) (fq : _) (policy : _) (i : _),
      Rings r src s ∧ Served s src 0x03 ∧ program? s h = some p ∧ Live s p.ctx ∧ startBad s p e n scratch cap fq policy = false ∧
      engineOn s e = true ∧ n ≤ (freeThreads s e).length ∧ n * scratch ≤ engScratch s e ∧ ((p.cls = 0 → engSc0 s e + n ≤ 4)) ∧
      oneOf s 0 (Tab.freeKeys s.ne.insts 0 512) = some i) ∧
    (∃ (r : State) (s : State) (src : Nat) (i : _) (x : _) (p : _), Rings r src s ∧ Served s src 0x04 ∧ inst? s i = some x ∧
      program? s x.program = some p ∧ Live s p.ctx) ∧
    (∃ (r : State) (s : State) (src : Nat) (i : _) (x : _) (p : _) (kind : _) (n : _) (k : _), Rings r src s ∧ Served s src 0x05 ∧
      inst? s i = some x ∧ program? s x.program = some p ∧ Live s p.ctx ∧ bindable kind x.engine = true ∧ ((kind = .doorbell → n < 64)) ∧
      sourceOwned s p.ctx kind n = true ∧ oneOf s 0 (Tab.freeKeys s.ne.bindings (32 * x.engine) 32) = some k ∧
      bindingOf s kind (sourceKey p.ctx kind n) = none) ∧
    (∃ (r : State) (s : State) (src : Nat) (i : _) (x : _) (p : _) (kind : _) (n : _),
      let hit : Binding → Bool := fun b => b.kind == kind && b.source == sourceKey p.ctx kind n && b.inst == i; Rings r src s ∧
      Served s src 0x06 ∧ inst? s i = some x ∧ program? s x.program = some p ∧ Live s p.ctx ∧ s.ne.bindings.any (fun e => hit e.2) = true) ∧
    (∃ (r : State) (s : State) (src : Nat) (e : _) (k : _), Rings r src s ∧ Served s src 0x07 ∧ e < 64 ∧ k < 8 ∧
      ((thread s (8 * e + k)).mode = .halted ∨ (thread s (8 * e + k)).mode = .frozen)) :=
  ⟨⟨(box 8 { running := some (.fetchProgram 5 (.host 0 0) 68 8) }), 8, 5, (.host 0 0), 68, 8, by decide +kernel⟩,
    ⟨rich, (tick8 rich), 8, 5, (.host 0 0), 68, 8, (some haltImage), _, _, _, rings_of (by decide +kernel), served_of (by decide +kernel),
      live_of (by decide +kernel), image_of (by decide +kernel), by decide +kernel,
      fun e he => by rcases List.mem_singleton.mp (show e ∈ [3] from he) with rfl; exact ⟨by decide +kernel, image_on (by decide +kernel),
      run_of (image_run (by decide +kernel))⟩, free_of 3 (by decide) (by rw [(image_keeps _ _ _ _ _ _).2.1]; decide +kernel)⟩,
    ⟨{ rich with ne := { rich.ne with insts := [] } }, (tick8 { rich with ne := { rich.ne with insts := [] } }), 8, 0, _,
      rings_of (by decide +kernel), served_of (by decide +kernel), rfl, live_of (by decide +kernel), by decide +kernel⟩,
    by refine ⟨rich, (tick8 rich), 8, 0, _, 3, 7, 4096, 100, 10, .keep, _, rings_of (by decide +kernel), served_of (by decide +kernel), rfl,
      live_of (by decide +kernel), ?_, ?_, ?_, ?_, ?_, free_of 3 (by decide) (by decide +kernel)⟩ <;> decide +kernel,
    ⟨rich, (tick8 rich), 8, 0, _, _, rings_of (by decide +kernel), served_of (by decide +kernel), rfl, rfl, live_of (by decide +kernel)⟩,
    by refine ⟨rich, (tick8 rich), 8, 0, _, _, .queue, 10, _, rings_of (by decide +kernel), served_of (by decide +kernel), rfl, rfl,
      live_of (by decide +kernel), ?_, ?_, ?_, free_of 99 (by decide) (by decide +kernel), ?_⟩ <;> decide +kernel,
    ⟨{ rich with ne := { rich.ne with bindings := [(96, { kind := .queue, source := 10, inst := 0 })] } },
      (tick8 { rich with ne := { rich.ne with bindings := [(96, { kind := .queue, source := 10, inst := 0 })] } }), 8, 0, _, _, .queue, 10,
      rings_of (by decide +kernel), served_of (by decide +kernel), rfl, rfl, live_of (by decide +kernel), by decide +kernel⟩,
    ⟨(on24 rich (fun th => { th with mode := .halted })), (tick8 (on24 rich (fun th => { th with mode := .halted }))), 8, 3, 0,
      rings_of (by decide +kernel), served_of (by decide +kernel), by decide +kernel⟩⟩

theorem witness_AccessCheck :
    (∃ (tag : BitVec 11) (a : Nat), let ctx := tagCtx tag; ctx = mgt ∧ 2 ^ 38 ≤ a) ∧
    (∃ (s : State) (tag : BitVec 11) (a : Nat), let ctx := tagCtx tag; ctx = mgt ∧ a < 2 ^ 38 ∧
      (((gran s (a / granuleBytes)).st = .owned ∨ (gran s (a / granuleBytes)).st = .retired))) ∧
    (∃ (s : State) (tag : BitVec 11) (a : Nat), let ctx := tagCtx tag; ctx = mgt ∧ a < 2 ^ 38 ∧ (gran s (a / granuleBytes)).st = .free) ∧
    (∃ (s : State) (tag : BitVec 11) (a : Nat), let ctx := tagCtx tag; let i := fld a 21 17; ctx ≠ mgt ∧ bit a 38 = false ∧
      listAt s ctx i = none) ∧
    (∃ (s : State) (tag : BitVec 11) (a : Nat) (n : _), let ctx := tagCtx tag; let i := fld a 21 17; ctx ≠ mgt ∧ bit a 38 = false ∧
      listAt s ctx i = some n ∧ listBad s ctx i = true) ∧
    (∃ (s : State) (tag : BitVec 11) (a : Nat) (n : _), let ctx := tagCtx tag; let i := fld a 21 17; ctx ≠ mgt ∧ bit a 38 = false ∧
      listAt s ctx i = some n ∧ listBad s ctx i = false) ∧
    (∃ (s : State) (tag : BitVec 11) (a : Nat), let ctx := tagCtx tag; let g := fld a 21 12; ctx ≠ mgt ∧ bit a 38 = true ∧
      Tab.find s.mp.grants g = none) ∧
    (∃ (s : State) (tag : BitVec 11) (a : Nat) (e : _), let ctx := tagCtx tag; let g := fld a 21 12; ctx ≠ mgt ∧ bit a 38 = true ∧
      Tab.find s.mp.grants g = some e) ∧
    (∃ (s : State) (tag : BitVec 11) (n : _) (e : _), let ctx := tagCtx tag; ctx ≠ mgt ∧ Tab.find s.mp.grants n = some e) :=
  ⟨⟨(mkTag 256 1), (2 ^ 38), by decide +kernel, by decide +kernel⟩,
    ⟨rich, (mkTag 256 1), (2 ^ 21 * 2), by decide +kernel, by decide +kernel⟩,
    ⟨rich, (mkTag 256 1), (2 ^ 38 - 1), by decide +kernel, by decide +kernel⟩,
    ⟨rich, (mkTag 5 1), (2 ^ 21), by decide +kernel, by decide +kernel⟩,
    ⟨{ rich with mp := { rich.mp with badList := [0] } }, (mkTag 5 1), (2 ^ 21 - 1), 0, by decide +kernel, by decide +kernel⟩,
    ⟨rich, (mkTag 5 1), (2 ^ 21 - 1), 0, by decide +kernel, by decide +kernel⟩,
    ⟨rich, (mkTag 5 1), (2 ^ 38), by decide +kernel, by decide +kernel⟩,
    ⟨{ rich with mp := { rich.mp with grants := [(0, ⟨true, 1, 5, 6⟩)] } }, (mkTag 5 1), (2 ^ 38), _, by decide +kernel, by decide +kernel,
      rfl⟩,
    ⟨{ rich with mp := { rich.mp with grants := [(0, ⟨true, 1, 5, 6⟩)] } }, (mkTag 5 1), 0, _, by decide +kernel, rfl⟩⟩

theorem witness_PoolWriteFrame :
    (∃ (s : State) (ppa : Nat) (b : Bytes), b ≠ [] ∧ ppa % 2097152 + b.length ≤ 2097152 ∧ mirrors s ppa = false) ∧
    (∃ (s : State) (ppa : Nat) (b : Bytes) (a : _), b ≠ [] ∧ ppa % 2097152 + b.length ≤ 2097152 ∧ mirrors s ppa = false ∧
      (a < ppa ∨ ppa + b.length ≤ a)) ∧
    (∃ (s : State) (ppa : Nat) (b : Bytes) (l : _), b ≠ [] ∧ ppa % 2097152 + b.length ≤ 2097152 ∧ mirrors s ppa = false ∧ ppa ≤ 64 * l ∧
      64 * l + 64 ≤ ppa + b.length) ∧
    (∃ (s : State) (ppa : Nat) (b : Bytes) (l : _), b ≠ [] ∧ ppa % 2097152 + b.length ≤ 2097152 ∧ mirrors s ppa = false ∧
      64 * l < ppa + b.length ∧ ppa < 64 * l + 64 ∧ ((64 * l < ppa ∨ ppa + b.length < 64 * l + 64))) ∧
    (∃ (s : State) (ppa : Nat) (b : Bytes) (l : _), b ≠ [] ∧ ppa % 2097152 + b.length ≤ 2097152 ∧ mirrors s ppa = false ∧
      (64 * l + 64 ≤ ppa ∨ ppa + b.length ≤ 64 * l)) :=
  ⟨⟨rich, 2097088, (fill 64 1), by decide +kernel⟩,
    ⟨rich, 2097088, (fill 64 1), 2097152, by decide +kernel⟩,
    ⟨rich, 64, (fill 64 1), 1, by decide +kernel⟩,
    ⟨rich, 65, (fill 64 1), 1, by decide +kernel⟩,
    ⟨rich, 64, (fill 64 1), 2, by decide +kernel⟩⟩

theorem witness_GranuleCommands :
    (∃ (r : State) (s : State) (src : Nat) (ctx : _) (index : Option Nat) (stack : Option Nat) (i : _) (k : _) (g : _), Rings r src s ∧
      Served s src 0x08 ∧ Live s ctx ∧ i = assignIndex s ctx index ∧ i ≤ (granList s ctx).entries.length ∧ listAt s ctx i = none ∧
      k = stack.getD (bestStack s) ∧ k < 8 ∧ lowestFree s k = some g ∧ granHeld s ctx < granLimit s ctx ∧ i < 131072 ∧
      ((i = (granList s ctx).entries.length → listUsed s < 131072))) ∧
    (∃ (r : State) (s : State) (src : Nat) (ctx : _) (i : _) (g : _), Rings r src s ∧ Served s src 0x09 ∧ Live s ctx ∧
      listAt s ctx i = some g ∧ (gran s g).refs = 0 ∧ (gran s g).grants = 0) ∧
    (∃ (r : State) (s : State) (src : Nat) (ctx : _) (i : _) (g : _), Rings r src s ∧ Served s src 0x0A ∧ Live s ctx ∧
      listAt s ctx i = some g ∧ (gran s g).mirrored = false) ∧
    (∃ (r : State) (s : State) (src : Nat) (ctx : _) (i : _) (g : _), Rings r src s ∧ Served s src 0x0A ∧ Live s ctx ∧
      listAt s ctx i = some g ∧ (gran s g).mirrored = true) ∧
    (∃ (r : State) (s : State) (src : Nat) (g : _), Rings r src s ∧ Served s src 0x0B ∧ g < 131072 ∧ (gran s g).st = .free) ∧
    (∃ (r : State) (s : State) (src : Nat) (g : _), Rings r src s ∧ Served s src 0x0B ∧ g < 131072 ∧ (gran s g).st = .scrub) ∧
    (∃ (r : State) (s : State) (src : Nat) (tid : _) (limit : _), Rings r src s ∧ Served s src 0x0C ∧ tid < mgt ∧ Live s tid ∧
      limit ≤ 131072) ∧
    (∃ (s : State) (ctx : Nat) (i : Nat), i ≤ (granList s ctx).entries.length) ∧
    (∃ (s : State) (ctx : Nat) (i : Nat) (g : Nat) (h : Nat), i ≤ (granList s ctx).entries.length ∧ h ≠ g) ∧
    (∃ (s : State) (ctx : Nat) (i : Nat) (g : Nat), listAt s ctx i = some g) ∧
    (∃ (s : State) (ctx : Nat) (i : Nat) (g : Nat) (h : Nat), listAt s ctx i = some g ∧ h ≠ g) ∧
    (∃ (s : State) (ctx : Nat) (i : Nat) (g : Nat) (j : _), listAt s ctx i = some g ∧ j ≠ i) :=
  ⟨by refine ⟨rich, (tick8 rich), 8, 5, none, (some 7), _, _, _, rings_of (by decide +kernel), served_of (by decide +kernel),
      live_of (by decide +kernel), rfl, ?_, ?_, rfl, ?_, some_of 0 (by decide +kernel), ?_⟩ <;> decide +kernel,
    ⟨rich, (tick8 rich), 8, 5, 0, 0, rings_of (by decide +kernel), served_of (by decide +kernel), live_of (by decide +kernel),
      by decide +kernel⟩,
    ⟨(paired rich), (tick8 (paired rich)), 8, 5, 0, 0, rings_of (by decide +kernel), served_of (by decide +kernel),
      live_of (by decide +kernel), by decide +kernel⟩,
    ⟨(setGran rich 0 { gran rich 0 with mirrored := true }), (tick8 (setGran rich 0 { gran rich 0 with mirrored := true })), 8, 5, 0, 0,
      rings_of (by decide +kernel), served_of (by decide +kernel), live_of (by decide +kernel), by decide +kernel⟩,
    ⟨rich, (tick8 rich), 8, 131071, rings_of (by decide +kernel), served_of (by decide +kernel), by decide +kernel⟩,
    ⟨(setGran rich 131071 { st := .scrub }), (tick8 (setGran rich 131071 { st := .scrub })), 8, 131071, rings_of (by decide +kernel),
      served_of (by decide +kernel), by decide +kernel⟩,
    ⟨rich, (tick8 rich), 8, 5, 131072, rings_of (by decide +kernel), served_of (by decide +kernel), by decide +kernel,
      live_of (by decide +kernel), by decide +kernel⟩,
    ⟨rich, 5, 1, by decide +kernel⟩,
    ⟨rich, 5, 1, 9, 8, by decide +kernel⟩,
    ⟨rich, 5, 0, 0, by decide +kernel⟩,
    ⟨rich, 5, 0, 0, 1, by decide +kernel⟩,
    ⟨rich, 5, 0, 0, 1, by decide +kernel⟩⟩

theorem witness_GrantsKeysScrub :
    (∃ (r : State) (s : State) (src : Nat) (owner : _) (i : _) (grantee : _) (g : _) (n : _), Rings r src s ∧ Served s src 0x0D ∧
      Live s owner ∧ Live s grantee ∧ grantee < mgt ∧ grantee ≠ owner ∧ (tenant s grantee).st ≠ .quiesced ∧ listAt s owner i = some g ∧
      oneOf s 0 (Tab.freeKeys s.mp.grants 0 4096) = some n ∧ (gran s g).grants < 255) ∧
    (∃ (r : State) (s : State) (src : Nat) (n : _) (e : _), Rings r src s ∧ Served s src 0x0E ∧ Tab.find s.mp.grants n = some e) ∧
    (∃ (r : State) (s : State) (src : Nat) (slot : _) (key : BitVec 512), Rings r src s ∧ Served s src 0x0F ∧ Live s slot ∧
      BitVec.extractLsb' 0 256 key ≠ BitVec.extractLsb' 256 256 key ∧ granHeld s slot = 0 ∧
      s.mp.grants.any (fun e => e.2.owner == slot) = false) ∧
    (∃ (u : State) (k : _) (g : _) (rest : _), (stk u k).running = none ∧ (stk u k).order = g :: rest ∧ granuleQuiet u g = true) ∧
    (∃ (u : State) (k : _) (g : _), (stk u k).running = some g ∧ ((gran u g).mirrored && enrolledCtx u (gran u g).ctx) = false) ∧
    (∃ (u : State) (line : _), ((gran u (line / 32768)).st = .owned ∨ (gran u (line / 32768)).st = .retired)) ∧
    (∃ (s : State) (g : Nat) (a : Nat), PoolForm s.mp ∧ a / 2097152 = g) ∧
    (∃ (s : State) (g : Nat) (a : Nat), PoolForm s.mp ∧ a / 2097152 ≠ g) :=
  ⟨by refine ⟨rich, (tick8 rich), 8, 5, 0, 6, 0, _, rings_of (by decide +kernel), served_of (by decide +kernel),
      live_of (by decide +kernel), live_of (by decide +kernel), ?_, ?_, ?_, ?_, free_of 9 (by decide) (by decide +kernel),
      ?_⟩ <;> decide +kernel,
    ⟨{ rich with mp := { rich.mp with grants := [(0, ⟨true, 1, 5, 6⟩)] } },
      (tick8 { rich with mp := { rich.mp with grants := [(0, ⟨true, 1, 5, 6⟩)] } }), 8, 0, _, rings_of (by decide +kernel),
      served_of (by decide +kernel), rfl⟩,
    ⟨rich, (tick8 rich), 8, 7, 1, rings_of (by decide +kernel), served_of (by decide +kernel), live_of (by decide +kernel),
      by decide +kernel⟩,
    ⟨(setStk rich 0 { order := [0] }), 0, 0, [], by decide +kernel⟩,
    ⟨(setStk rich 0 { running := some 2 }), 0, 2, by decide +kernel⟩,
    ⟨rich, 32767, by decide +kernel⟩,
    ⟨(poolWrite rich 64 [1] false), 0, 64, ⟨by decide +kernel, by decide +kernel, by decide +kernel⟩, by decide +kernel⟩,
    ⟨(poolWrite rich 64 [1] false), 0, 2097152, ⟨by decide +kernel, by decide +kernel, by decide +kernel⟩, by decide +kernel⟩⟩

theorem witness_ReduceCommands :
    (∃ (r : State) (s : State) (src : Nat) (a : ReduceArgs) (w : _), Rings r src s ∧ Served s src 0x10 ∧ Live s a.ctx ∧
      legalCombo a.arrival a.format a.op = true ∧ 1 ≤ a.contributors ∧ a.contributors ≤ 4096 ∧ 1 ≤ a.chunks ∧ a.chunks ≤ 65536 ∧
      1 ≤ a.lastLines ∧ a.lastLines ≤ 1024 ∧ a.cqPrio ≤ 7 ∧ a.result % 65536 = 0 ∧ a.result + 65536 * a.chunks ≤ 2 ^ 38 ∧
      (queue? s a.cq).map (fun q => q.ctx) = some a.ctx ∧ ((∀ c, c < a.chunks → regionOk s a c = true)) ∧
      lowestInHalf s s.ru.windows 2048 4096 = some w ∧ ((a.rsv = true → rsvRoom s (newWindow a) = true)) ∧
      ((∀ g ∈ regionGranules s (newWindow a), (gran s g).refs < 255))) ∧
    (∃ (r : State) (s : State) (src : Nat) (w : _) (x : _), Rings r src s ∧ Served s src 0x11 ∧ rwin? s w = some x ∧ Live s x.ctx) ∧
    (∃ (r : State) (s : State) (src : Nat) (w : _) (x : _), Rings r src s ∧ Served s src 0x12 ∧ rwin? s w = some x ∧ Live s x.ctx) ∧
    (∃ (r : State) (s : State) (src : Nat) (ctx : _) (k : _) (n : _), Rings r src s ∧ Served s src 0x13 ∧ Live s ctx ∧ k < 8 ∧ n ≤ 48) ∧
    (∃ (r : State) (s : State) (src : Nat) (ctx : _) (n : _), Rings r src s ∧ Served s src 0x13 ∧ Live s ctx ∧ n ≤ 48) :=
  ⟨⟨rich, (tick8 rich), 8,
      { ctx := 5, arrival := true, format := 4, op := 0, sat := false, rsv := false, contributors := 4096, result := 0, chunks := 32, lastLines := 1024, cq := 10, cqPrio := 7, chunkItems := true },
      0, rings_of (by decide +kernel), served_of (by decide +kernel), live_of (by decide +kernel), by decide +kernel⟩,
    ⟨(withWindow rich 0 5), (tick8 (withWindow rich 0 5)), 8, 0, _, rings_of (by decide +kernel), served_of (by decide +kernel), rfl,
      live_of (by decide +kernel)⟩,
    ⟨(withWindow rich 0 5), (tick8 (withWindow rich 0 5)), 8, 0, _, rings_of (by decide +kernel), served_of (by decide +kernel), rfl,
      live_of (by decide +kernel)⟩,
    ⟨rich, (tick8 rich), 8, 5, 7, 48, rings_of (by decide +kernel), served_of (by decide +kernel), live_of (by decide +kernel),
      by decide +kernel⟩,
    ⟨rich, (tick8 rich), 8, 5, 48, rings_of (by decide +kernel), served_of (by decide +kernel), live_of (by decide +kernel),
      by decide +kernel⟩⟩

theorem witness_Contributions_1 :
    (∃ (s : State) (w : Nat), rwin? s w = none) ∧
    (∃ (s : State) (tag : BitVec 11) (w : Nat) (x : RWin), rwin? s w = some x ∧ x.ctx ≠ tagCtx tag) ∧
    (∃ (s : State) (w : Nat) (c : Nat) (x : RWin), rwin? s w = some x ∧ x.contribM1 < c) ∧
    (∃ (s : State) (tag : BitVec 11) (w : Nat) (c : Nat) (o : Nat) (x : RWin), rwin? s w = some x ∧ x.ctx = tagCtx tag ∧ c ≤ x.contribM1 ∧
      offRange x o = true) ∧
    (∃ (s : State) (tag : BitVec 11) (w : Nat) (c : Nat) (o : Nat) (e : Nat) (x : RWin), rwin? s w = some x ∧ x.ctx = tagCtx tag ∧
      c ≤ x.contribM1 ∧ offRange x o = false ∧ e % 256 ≠ x.epoch % 256) ∧
    (∃ (s : State) (tag : BitVec 11) (w : Nat) (c : Nat) (o : Nat) (e : Nat) (x : RWin), rwin? s w = some x ∧ x.ctx = tagCtx tag ∧
      c ≤ x.contribM1 ∧ offRange x o = false ∧ e % 256 = x.epoch % 256) ∧
    (∃ (s : State) (i : _) (k : _) (x : _) (ch : _), s.ru.waiting[i]? = some k ∧ aheadOf s.ru.waiting i k = false ∧ s.th.safe = false ∧
      tagSc k.tag = 0 ∧ rwin? s k.window = some x ∧ x.epoch = k.epoch ∧ ctxMode s x.ctx = .running ∧
      x.complete.contains (k.offset / 65536) = false ∧ x.arrival = false ∧ chunk? s k.window (k.offset / 65536) = some ch ∧ ((∀ p f,
      k.src ≠ .host p f))) ∧
    (∃ (s : State) (i : _) (k : _) (x : _) (ch : _) (u : _), s.ru.waiting[i]? = some k ∧ aheadOf s.ru.waiting i k = false ∧
      s.th.safe = false ∧ rwin? s k.window = some x ∧ x.epoch = k.epoch ∧ ctxMode s x.ctx = .running ∧
      x.complete.contains (k.offset / 65536) = false ∧
      ((x.arrival = true → writeRoom s (chunkGranule s x (k.offset / 65536) * granuleBytes) 64 = true)) ∧
      chunk? s k.window (k.offset / 65536) = some ch ∧ serveLine s i k = some u) ∧
    (∃ (s : State) (i : _) (k : _) (x : _), s.ru.waiting[i]? = some k ∧ aheadOf s.ru.waiting i k = false ∧ s.th.safe = false ∧
      rwin? s k.window = some x ∧ x.epoch ≠ k.epoch ∧ (((∃ n, k.src = .thread n) ∨ (∃ p f, k.src = .host p f) ∨ (∃ n, k.src = .shuttle n)))) ∧
    (∃ (s : State) (i : _) (k : _) (ecc : _) (u : _) (t : _), s.ru.waiting[i]? = some k ∧ aheadOf s.ru.waiting i k = false ∧
      s.th.safe = false ∧ ((∃ n, k.src = .thread n)) ∧ serveLine s i k = some u ∧
      presentLine (stageEcc { u with ru := { u.ru with waiting := u.ru.waiting.eraseIdx i } } ecc k.tag k.window) (if ecc = .uncorrectable then { k with poison := true } else k) = .took t) ∧
    (∃ (s : State) (w : Nat) (c : Nat) (x : _) (k : _), rwin? s w = some x ∧ chunk? s w c = some k ∧ k.phase = .full ∧
      ctxMode s x.ctx ≠ .frozen ∧ mirrors s (chunkGranule s x c * granuleBytes) = false) ∧
    (∃ (s : State) (w : Nat) (c : Nat) (k : _), s.ru.owed = [] ∧ chunk? s w c = some k ∧ k.phase = .items ∧
      ctxMode s (winCtx s w) ≠ .frozen) :=
  ⟨⟨rich, 4095, by decide +kernel⟩,
    ⟨(withWindow rich 0 5), (mkTag 6 1), 0, _, rfl, by decide +kernel⟩,
    ⟨(withWindow rich 0 5), 0, 2, _, rfl, by decide +kernel⟩,
    ⟨(withWindow rich 0 5), (mkTag 5 1), 0, 1, 64, _, rfl, by decide +kernel⟩,
    ⟨(withWindow rich 0 5), (mkTag 5 1), 0, 1, 0, 1, _, rfl, by decide +kernel⟩,
    ⟨(withWindow rich 0 5), (mkTag 5 1), 0, 1, 0, 256, _, rfl, by decide +kernel⟩,
    by refine ⟨(waiting (setChunk (withWindow rich 0 5) 0 0 { unit := 0, slices := 10, onReserve := false }) [{ line0 with tag := mkTag 5 0 }]),
      0, _, _, _, rfl, ?_, ?_, ?_, rfl, ?_, ?_, ?_, ?_, rfl, fun _ _ => nofun⟩ <;> decide +kernel,
    by refine ⟨(waiting (setChunk (withWindow rich 0 5) 0 0 { unit := 0, slices := 10, onReserve := false }) [line0]), 0, _, _, _, _, rfl,
      ?_, ?_, rfl, ?_, ?_, ?_, ?_, rfl, some_of State.reset (by decide +kernel)⟩ <;> decide +kernel,
    by refine ⟨(waiting (withWindow rich 0 5) [{ line0 with epoch := 1 }]), 0, _, _, rfl, ?_, ?_, rfl, ?_, .inl ⟨24,
      rfl⟩⟩ <;> decide +kernel,
    ⟨(waiting (withWindow rich 0 5) [line0]), 0, _, .ok, _, _, rfl, by decide +kernel, by decide +kernel, ⟨24, rfl⟩,
      some_of State.reset (by decide +kernel), took_of (by decide +kernel)⟩,
    ⟨(setChunk (withWindow rich 0 5) 0 0 { unit := 0, slices := 1, onReserve := false, phase := .full }), 0, 0, _, _, rfl, rfl,
      by decide +kernel⟩,
    ⟨(setChunk (withWindow rich 0 5) 0 0 { unit := 0, slices := 1, onReserve := false, phase := .items }), 0, 0, _, by decide +kernel, rfl,
      by decide +kernel⟩⟩

theorem witness_Contributions_2 :
    ∃ (s : State) (w : Nat) (c : Nat) (k : _), let u := linkOwed w s.ru.owed s []; chunk? u w c = some k ∧ k.phase ≠ .items :=
  ⟨(setChunk (withWindow rich 0 5) 0 0 { unit := 0, slices := 10, onReserve := false }), 0, 0, _, rfl, by decide +kernel⟩

theorem witness_LineIsCounted :
    ∃ (s : State) (t : State) (k : Contrib) (x : RWin) (c : Nat) (l : Nat) (ch : Chunk), rwin? s k.window = some x ∧ x.epoch = k.epoch ∧
      ctxMode s x.ctx = .running ∧ c = k.offset / 65536 ∧ l = k.offset % 65536 / 64 ∧ x.complete.contains c = false ∧ x.arrival = false ∧
      x.format ≤ 8 ∧ chunk? s k.window c = some ch ∧ Tab.get 0 ch.counts l ≤ x.contribM1 ∧ presentLine s k = .took t :=
  by refine ⟨(setChunk (withWindow rich 0 5) 0 0 { unit := 0, slices := 10, onReserve := false }), _,
    { src := .thread 24, tag := mkTag 5 1, window := 0, offset := 0, epoch := 0, data := 0, poison := false }, _, 0, 0, _, rfl, ?_, ?_, ?_,
    ?_, ?_, ?_, ?_, rfl, ?_, took_of (by decide +kernel)⟩ <;> decide +kernel

theorem witness_ReductionValues :
    (∃ (els : List Nat) (els' : List Nat), List.Perm els els') ∧
    (∃ (format : Nat), format ≤ 3) ∧
    (∃ (a : Acc) (format : Nat) (f : FFmt), fmtOf format = some f ∧ ((a.nan = true ∨ (a.pinf = true ∧ a.ninf = true)))) ∧
    (∃ (a : Acc) (format : Nat) (f : FFmt), fmtOf format = some f ∧ a.nan = false ∧ a.pinf = true ∧ a.ninf = false) :=
  ⟨⟨[1, 2], [2, 1], List.Perm.swap 2 1 []⟩,
    ⟨3, by decide +kernel⟩,
    ⟨{ pinf := true, ninf := true }, 8, _, rfl, by decide +kernel⟩,
    ⟨{ pinf := true }, 4, _, rfl, by decide +kernel⟩⟩

theorem witness_QueueCommands :
    (∃ (r : State) (s : State) (src : Nat) (ctx : _) (mode : _) (m : _) (limit : _) (h : _), Rings r src s ∧ Served s src 0x14 ∧
      Live s ctx ∧ qmodeOf mode = some m ∧ limitOk limit = true ∧ lowestInHalf s s.qm.queues 8192 16383 = some h ∧
      ctxQueues s ctx < queueQuota s ctx) ∧
    (∃ (r : State) (s : State) (src : Nat) (q : Nat) (x : Queue),
      let present : Prop := queue? s q = some x ∧ Live s x.ctx ∧ x.destroyed = false ∧ x.destroyReq = false; Rings r src s ∧
      Served s src 0x15 ∧ present ∧ q ≠ mgtQueue ∧ queueInUse s q = false) ∧
    (∃ (r : State) (s : State) (src : Nat) (q : Nat) (x : Queue),
      let present : Prop := queue? s q = some x ∧ Live s x.ctx ∧ x.destroyed = false ∧ x.destroyReq = false; Rings r src s ∧
      Served s src 0x16 ∧ present) ∧
    (∃ (r : State) (s : State) (src : Nat) (q : Nat) (x : Queue) (mode : _) (m : _) (limit : _),
      let present : Prop := queue? s q = some x ∧ Live s x.ctx ∧ x.destroyed = false ∧ x.destroyReq = false; Rings r src s ∧
      Served s src 0x17 ∧ present ∧ qmodeOf mode = some m ∧ limitOk limit = true ∧ ((0 < x.sendLimit → x.sendLimit + 64 ≤ limit)) ∧
      q ≠ mgtQueue) ∧
    (∃ (r : State) (s : State) (src : Nat) (q : Nat) (x : Queue) (sender : _) (lim : _),
      let present : Prop := queue? s q = some x ∧ Live s x.ctx ∧ x.destroyed = false ∧ x.destroyReq = false; Rings r src s ∧
      Served s src 0x18 ∧ present ∧ Live s sender ∧ sender < mgt ∧ sender ≠ x.ctx ∧ (tenant s sender).st ≠ .quiesced ∧ 64 ≤ lim ∧
      lim + 64 ≤ x.limit ∧ q ≠ mgtQueue ∧ x.openTid = none ∧ withinQuota s x.ctx lim 0 = true ∧ (lim : Int) ≤ sharedFree s) ∧
    (∃ (r : State) (s : State) (src : Nat) (q : Nat) (x : Queue),
      let present : Prop := queue? s q = some x ∧ Live s x.ctx ∧ x.destroyed = false ∧ x.destroyReq = false; Rings r src s ∧
      Served s src 0x19 ∧ present ∧ x.openTid.isSome = true ∧ x.closing = false ∧ x.closeReq = false) ∧
    (∃ (r : State) (s : State) (src : Nat) (ctx : _) (cells : _) (n : _), Rings r src s ∧ Served s src 0x1A ∧ Live s ctx ∧ 64 ≤ cells ∧
      cells ≤ 262144 ∧ n ≤ 16383) :=
  ⟨⟨rich, (tick8 rich), 8, 5, 2, .shed, 64, 0, rings_of (by decide +kernel), served_of (by decide +kernel), live_of (by decide +kernel),
      by decide +kernel⟩,
    ⟨{ rich with ne := { rich.ne with insts := [] } }, (tick8 { rich with ne := { rich.ne with insts := [] } }), 8, 10, _,
      rings_of (by decide +kernel), served_of (by decide +kernel), ⟨rfl, live_of (by decide +kernel), rfl, rfl⟩, by decide +kernel⟩,
    ⟨rich, (tick8 rich), 8, 10, _, rings_of (by decide +kernel), served_of (by decide +kernel), ⟨rfl, live_of (by decide +kernel), rfl,
      rfl⟩⟩,
    ⟨rich, (tick8 rich), 8, 10, _, 1, .overwrite, 262143, rings_of (by decide +kernel), served_of (by decide +kernel), ⟨rfl,
      live_of (by decide +kernel), rfl, rfl⟩, by decide +kernel⟩,
    ⟨rich, (tick8 rich), 8, 10, _, 6, 960, rings_of (by decide +kernel), served_of (by decide +kernel), ⟨rfl, live_of (by decide +kernel),
      rfl, rfl⟩, live_of (by decide +kernel), by decide +kernel⟩,
    ⟨(setQueue rich 10 { ctx := 5, mode := .hold, limit := 1024, mirrored := false, openTid := some 6, sendLimit := 64 }),
      (tick8 (setQueue rich 10 { ctx := 5, mode := .hold, limit := 1024, mirrored := false, openTid := some 6, sendLimit := 64 })), 8, 10,
      _, rings_of (by decide +kernel), served_of (by decide +kernel), ⟨rfl, live_of (by decide +kernel), rfl, rfl⟩, by decide +kernel⟩,
    ⟨rich, (tick8 rich), 8, 5, 262144, 16383, rings_of (by decide +kernel), served_of (by decide +kernel), live_of (by decide +kernel),
      by decide +kernel⟩⟩

theorem witness_QueueEvents_1 :
    (∃ (s : State) (q : Nat) (x : Queue), queue? s q = some x ∧ x.flushReq = true ∧ s.th.safe = false) ∧
    (∃ (s : State) (q : Nat) (x : Queue), queue? s q = some x) ∧
    (∃ (s : State) (q : Nat) (x : Queue), queue? s q = some x ∧ x.closeReq = true) ∧
    (∃ (s : State) (q : Nat) (x : Queue) (rest : _), queue? s q = some x ∧ s.qm.sweeps = none :: rest) ∧
    (∃ (s : State) (q : Nat) (x : Queue) (rest : _), queue? s q = some x ∧ s.qm.sweeps = some q :: rest) ∧
    (∃ (s : State) (q : Nat) (x : Queue), queue? s q = some x ∧ x.destroyed = true ∧ x.items = [] ∧ x.prog = [] ∧ x.stale = [] ∧
      creditHeld s q x true = 0 ∧ creditHeld s q x false = 0 ∧ s.th.safe = false) ∧
    (∃ (s : State) (q : Nat) (x : Queue), queue? s q = some x ∧ x.destroyed = false ∧ x.draining ≠ [] ∧ s.th.safe = false) ∧
    (∃ (s : State) (w : MemWrite) (t : _) (b : _), w.bar = 0 ∧ w.fn ≠ 0 ∧ 0x3000 ≤ w.offset ∧ w.offset < 0x4000 ∧
      postedHeld s w.port = false ∧ gate s w.port w.fn 0 w.offset w.bytes.length true = .serve ∧ w.unsupported = false ∧
      boundTo s w.port w.fn = some (t, b) ∧ pushShape w.offset w.bytes = true ∧ w.poisoned = false) ∧
    (∃ (s : State) (p : Nat) (x : _) (rest : _), let u := { s with qm := { s.qm with pushes := Tab.set [] s.qm.pushes p rest } };
      Tab.get [] s.qm.pushes p = x :: rest ∧ s.th.safe = false ∧ ((∀ k ∈ x.waits, k ∉ s.ru.waiting)) ∧
      Admits u x.queue x.prio x.tag x.bytes.length) ∧
    (∃ (s : State) (p : Nat) (x : _) (rest : _) (d : _), let u := { s with qm := { s.qm with pushes := Tab.set [] s.qm.pushes p rest } };
      let a := push u x.queue x.prio x.tag x.bytes x.poison; Tab.get [] s.qm.pushes p = x :: rest ∧ s.th.safe = false ∧ ((∀ k ∈ x.waits,
      k ∉ s.ru.waiting)) ∧ a.1 = .linked d) ∧
    (∃ (s : State) (p : Nat) (x : _) (rest : _), let u := { s with qm := { s.qm with pushes := Tab.set [] s.qm.pushes p rest } };
      let a := push u x.queue x.prio x.tag x.bytes x.poison; Tab.get [] s.qm.pushes p = x :: rest ∧ s.th.safe = false ∧ ((∀ k ∈ x.waits,
      k ∉ s.ru.waiting)) ∧ a.1 = .full) ∧
    (∃ (s : State) (p : Nat) (x : _) (rest : _), let u := { s with qm := { s.qm with pushes := Tab.set [] s.qm.pushes p rest } };
      let a := push u x.queue x.prio x.tag x.bytes x.poison; Tab.get [] s.qm.pushes p = x :: rest ∧ s.th.safe = false ∧ ((∀ k ∈ x.waits,
      k ∉ s.ru.waiting)) ∧ a.1 = .access) :=
  ⟨⟨(setQueue rich 10 { ctx := 5, mode := .hold, limit := 1024, mirrored := false, flushReq := true }), 10, _, rfl, by decide +kernel⟩,
    ⟨rich, 10, _, rfl⟩,
    ⟨(setQueue rich 10 { ctx := 5, mode := .hold, limit := 1024, mirrored := false, openTid := some 6, sendLimit := 64, closeReq := true }),
      10, _, rfl, by decide +kernel⟩,
    ⟨{ rich with qm := { rich.qm with sweeps := [none] } }, 10, _, _, rfl, rfl⟩,
    ⟨{ rich with qm := { rich.qm with sweeps := [some 10] } }, 10, _, _, rfl, rfl⟩,
    ⟨(setQueue rich 10 { ctx := 5, mode := .hold, limit := 1024, mirrored := false, destroyed := true }), 10, _, rfl, by decide +kernel⟩,
    ⟨(setQueue rich 10 { ctx := 5, mode := .hold, limit := 1024, mirrored := false, draining := [{ tag := mkTag 5 1, gen := 0, cells := [1] }] }),
      10, _, rfl, by decide +kernel⟩,
    by refine ⟨rich, { port := 1, fn := 3, bar := 0, offset := 0x3000, bytes := toLe 8 10 ++ fill 64 1, poisoned := false }, 5, _, ?_, ?_,
      ?_, ?_, ?_, ?_, ?_, rfl, ?_⟩ <;> decide +kernel,
    ⟨{ rich with qm := { (rich).qm with pushes := [(1, [{ fn := 3, queue := 10, prio := 7, bytes := fill 8 1, poison := false, tag := mkTag 5 1 }])] } },
      1, _, _, rfl, by decide +kernel, by decide +kernel, admits_of (by decide +kernel)⟩,
    ⟨{ rich with qm := { (rich).qm with pushes := [(1, [{ fn := 3, queue := 10, prio := 7, bytes := fill 8 1, poison := false, tag := mkTag 5 1 }])] } },
      1, _, _, false, rfl, by decide +kernel⟩,
    ⟨{ fillQueue rich 10 with qm := { (fillQueue rich 10).qm with pushes := [(1, [{ fn := 3, queue := 10, prio := 7, bytes := fill 8 1, poison := false, tag := mkTag 5 1 }])] } },
      1, _, _, rfl, by decide +kernel⟩,
    ⟨{ rich with qm := { (rich).qm with pushes := [(1, [{ fn := 3, queue := 11, prio := 7, bytes := fill 8 1, poison := false, tag := mkTag 5 1 }])] } },
      1, _, _, rfl, by decide +kernel⟩⟩

theorem witness_QueueEvents_2 :
    ∃ (s : State) (p : Nat) (x : _) (rest : _) (k : _), Tab.get [] s.qm.pushes p = x :: rest ∧ k ∈ x.waits ∧ k ∈ s.ru.waiting :=
  ⟨{ waiting rich [line0] with qm := { (waiting rich [line0]).qm with pushes := [(1, [{ fn := 3, queue := 10, prio := 7, bytes := fill 8 1, poison := false, tag := mkTag 5 1, waits := [line0] }])] } },
    1, _, _, line0, rfl, by decide +kernel⟩

theorem witness_QueueRules :
    (∃ (s : State) (q : Nat), queue? s q = none) ∧
    (∃ (s : State) (q : Nat) (tag : BitVec 11) (x : _), queue? s q = some x ∧ mayPush x (tagCtx tag) = false) ∧
    (∃ (s : State) (q : Nat) (prio : Nat) (tag : BitVec 11) (b : Bytes) (x : _), queue? s q = some x ∧ mayPush x (tagCtx tag) = true ∧
      discards s q x tag prio (cellsOf b.length) = none) ∧
    (∃ (s : State) (q : Nat) (prio : Nat) (tag : BitVec 11) (b : Bytes) (x : _), queue? s q = some x ∧ Admits s q prio tag b.length) ∧
    (∃ (s : State) (q : Nat) (x : Queue) (tag : BitVec 11) (prio : Nat) (n : Nat) (l : List Item), discards s q x tag prio n = some l ∧
      x.mode = .hold) ∧
    (∃ (s : State) (q : Nat) (x : Queue) (tag : BitVec 11) (prio : Nat) (n : Nat) (l : List Item), discards s q x tag prio n = some l ∧
      tagCtx tag ≠ x.ctx) ∧
    (∃ (s : State) (q : Nat) (x : Queue) (tag : BitVec 11) (prio : Nat) (n : Nat) (l : List Item) (i : _), i ∈ l ∧
      discards s q x tag prio n = some l) ∧
    (∃ (s : State) (q : Nat) (x : Queue) (tag : BitVec 11) (prio : Nat) (n : Nat) (l : List Item) (i : _), i ∈ l ∧
      discards s q x tag prio n = some l ∧ x.mode = .shed) ∧
    (∃ (s : State) (q : Nat) (x : Queue) (tag : BitVec 11) (prio : Nat) (n : Nat) (l : List Item) (i : _) (j : _), i ∈ l ∧ j ∈ x.items ∧
      discards s q x tag prio n = some l ∧ tagCtx j.tag = x.ctx ∧ j.prio < i.prio ∧ i.prio < 8) :=
  ⟨⟨rich, 9, by decide +kernel⟩,
    ⟨rich, 10, (mkTag 6 1), _, rfl, by decide +kernel⟩,
    ⟨(fillQueue rich 10), 10, 7, (mkTag 5 1), [1], _, rfl, by decide +kernel⟩,
    ⟨rich, 10, 7, (mkTag 5 1), [1], _, rfl, admits_of (by decide +kernel)⟩,
    ⟨rich, 10, { ctx := 5, mode := .hold, limit := 64, mirrored := false }, (mkTag 5 1), 7, 64, [], by decide +kernel⟩,
    ⟨rich, 10, { ctx := 5, mode := .shed, limit := 128, mirrored := false, sendLimit := 64 }, (mkTag 6 1), 7, 64, [], by decide +kernel⟩,
    ⟨rich, 10,
      { ctx := 5, mode := .overwrite, limit := 2, mirrored := false, items := [{ bytes := fill 300 1, prio := 6, poison := false, tag := mkTag 5 1, cells := [1, 2] }] },
      (mkTag 5 1), 0, 2, [{ bytes := fill 300 1, prio := 6, poison := false, tag := mkTag 5 1, cells := [1, 2] }],
      { bytes := fill 300 1, prio := 6, poison := false, tag := mkTag 5 1, cells := [1, 2] }, by decide +kernel, by decide +kernel⟩,
    ⟨rich, 10,
      { ctx := 5, mode := .shed, limit := 2, mirrored := false, items := [{ bytes := fill 300 1, prio := 6, poison := false, tag := mkTag 5 1, cells := [1, 2] }] },
      (mkTag 5 1), 7, 2, [{ bytes := fill 300 1, prio := 6, poison := false, tag := mkTag 5 1, cells := [1, 2] }],
      { bytes := fill 300 1, prio := 6, poison := false, tag := mkTag 5 1, cells := [1, 2] }, by decide +kernel, by decide +kernel⟩,
    by refine ⟨rich, 10,
      { ctx := 5, mode := .overwrite, limit := 4, mirrored := false, items := [{ bytes := fill 300 1, prio := 6, poison := false, tag := mkTag 5 1, cells := [1, 2] }, { bytes := fill 300 1, prio := 5, poison := false, tag := mkTag 5 1, cells := [3, 4] }] },
      (mkTag 5 1), 7, 3, [{ bytes := fill 300 1, prio := 5, poison := false, tag := mkTag 5 1, cells := [3, 4] },
      { bytes := fill 300 1, prio := 6, poison := false, tag := mkTag 5 1, cells := [1, 2] }],
      { bytes := fill 300 1, prio := 6, poison := false, tag := mkTag 5 1, cells := [1, 2] },
      { bytes := fill 300 1, prio := 5, poison := false, tag := mkTag 5 1, cells := [3, 4] }, ?_, ?_, ?_⟩ <;> decide +kernel⟩

theorem witness_ChannelCommands :
    (∃ (r : State) (s : State) (src : Nat) (a : ChannelArgs) (n : _), Rings r src s ∧ Served s src 0x1B ∧ Live s a.ctx ∧
      assignBad s a = false ∧ lowestInHalf s s.sh.chans 504 1008 = some n ∧ ((a.ctx < mgt → (chansOf s a.ctx).length < chanLimit s a.ctx))) ∧
    (∃ (r : State) (s : State) (src : Nat) (c : Nat), Rings r src s ∧ Served s src 0x1C ∧
      ((chan s c).st = .idle ∨ (chan s c).st = .halted) ∧ Live s (chan s c).ctx ∧ (chan s c).system = false ∧ bindingOf s .shuttle c = none) ∧
    (∃ (r : State) (s : State) (src : Nat) (c : Nat), Rings r src s ∧ Served s src 0x1D ∧ (chan s c).st ≠ .free ∧ Live s (chan s c).ctx) ∧
    (∃ (r : State) (s : State) (src : Nat) (tid : _) (limit : _), Rings r src s ∧ Served s src 0x1E ∧ tid < mgt ∧ Live s tid ∧ limit ≤ 16) ∧
    (∃ (s : State) (who : FnRef) (c : Nat), c < 1024 ∧ Controls s who (0x300018 + 0x40 * c) 4 ∧
      (((chan s c).ringPool = true → postedAhead s who.port = false))) ∧
    (∃ (s : State) (who : FnRef) (c : Nat), c < 1024 ∧ Controls s who (0x300020 + 0x40 * c) 4) ∧
    (∃ (s : State) (who : FnRef) (c : Nat) (t : _) (b : _) (k : _), who.fn ≠ 0 ∧ boundTo s who.port who.fn = some (t, b) ∧
      (chan s c).slot = some k ∧ k < 16 ∧ (chan s c).st ≠ .free ∧ (chan s c).ctx = t ∧ slotChan s t k = some (c, chan s c) ∧
      Posts s who (0x2010 + 0x40 * k) 4 ∧ (((chan s c).ringPool = true → postedAhead s who.port = false))) ∧
    (∃ (s : State) (who : FnRef) (c : Nat) (t : _) (b : _) (k : _), who.fn ≠ 0 ∧ boundTo s who.port who.fn = some (t, b) ∧
      (chan s c).slot = some k ∧ k < 16 ∧ (chan s c).st ≠ .free ∧ (chan s c).ctx = t ∧ slotChan s t k = some (c, chan s c) ∧
      Posts s who (0x2018 + 0x40 * k) 4) :=
  ⟨⟨rich, (tick8 rich), 8,
      { ctx := 5, cls := 3, engineProducer := true, ringPool := true, base := 1048576, ringLog2 := 14, port := 1, fn := 3, vector := some 3, cq := 10, retry := 7 },
      0, rings_of (by decide +kernel), served_of (by decide +kernel), live_of (by decide +kernel), by decide +kernel⟩,
    ⟨(setChan rich 0 { chan0 with st := .halted }), (tick8 (setChan rich 0 { chan0 with st := .halted })), 8, 0,
      rings_of (by decide +kernel), served_of (by decide +kernel), by decide +kernel, live_of (by decide +kernel), by decide +kernel⟩,
    ⟨(setChan rich 0 chan0), (tick8 (setChan rich 0 chan0)), 8, 0, rings_of (by decide +kernel), served_of (by decide +kernel),
      by decide +kernel, live_of (by decide +kernel)⟩,
    ⟨rich, (tick8 rich), 8, 5, 16, rings_of (by decide +kernel), served_of (by decide +kernel), by decide +kernel,
      live_of (by decide +kernel), by decide +kernel⟩,
    ⟨rich, ⟨0, 0⟩, 1023, by decide +kernel, controls_of (by decide +kernel), by decide +kernel⟩,
    ⟨rich, ⟨0, 0⟩, 1023, by decide +kernel, controls_of (by decide +kernel)⟩,
    by refine ⟨(setChan rich 0 { chan0 with slot := some 15 }), ⟨1, 3⟩, 0, 5, _, 15, ?_, rfl, ?_, ?_, ?_, ?_, ?_,
      posts_of (by decide +kernel), ?_⟩ <;> decide +kernel,
    by refine ⟨(setChan rich 0 { chan0 with slot := some 15 }), ⟨1, 3⟩, 0, 5, _, 15, ?_, rfl, ?_, ?_, ?_, ?_, ?_,
      posts_of (by decide +kernel)⟩ <;> decide +kernel⟩

theorem witness_ChannelSteps_1 :
    (∃ (s : State) (c : Nat) (host : ReadResult) (ppa : _) (k : _), let ch := chan s c; let pos := ch.head.toNat;
      let ready : Prop := fetches s ch = true ∧ ch.fetched = [] ∧ ch.halting = 0 ∧ ch.head ≠ ch.tail ∧ ch.fetchErr = none;
      let u := eccSpan s ppa 64 (chTag ch); ready ∧ ch.ringPool = true ∧ ch.tailBuf = [] ∧ host ≠ .timeout ∧
      check s (chTag ch) (chPoolAddr ch (slotAddr ch pos)) false = .allow ppa k ∧ poisonAt u ppa = false) ∧
    (∃ (s : State) (c : Nat) (b : Bytes) (n : _) (u : _), let ch := chan s c; let pos := ch.head.toNat;
      let ready : Prop := fetches s ch = true ∧ ch.fetched = [] ∧ ch.halting = 0 ∧ ch.head ≠ ch.tail ∧ ch.fetchErr = none; ready ∧
      ch.ringPool = false ∧ b.length = 64 ∧ sendRead s c ch pos (slotAddr ch pos) 64 = some (n, u)) ∧
    (∃ (s : State) (c : Nat) (k : _) (b : _), let ch := chan s c; let pos := ch.head.toNat; ch.fetched = [] ∧
      ((ch.st = .active ∨ ch.st = .stopping)) ∧ descBad s ch { pos := k, bytes := b } = false) ∧
    (∃ (s : State) (c : Nat) (p : _) (b : _) (rest : _) (ppa : _) (k : _), let ch := chan s c; ch.tailBuf = (p, b) :: rest ∧
      writeRoom s ppa 64 = true ∧ check s (chTag ch) (chPoolAddr ch (slotAddr ch p)) true = .allow ppa k) ∧
    (∃ (s : State) (c : Nat) (p : _) (b : _) (rest : _) (g : _), let ch := chan s c; ch.tailBuf = (p, b) :: rest ∧ ch.st ≠ .halted ∧
      check s (chTag ch) (chPoolAddr ch (slotAddr ch p)) true = .deny g) ∧
    (∃ (s : State) (c : Nat) (u : _) (v : _) (d : _) (rest : _), let ch := chan s c; s.th.safe = false ∧ ch.owed = none ∧
      settleHead s c = u ∧ (chan u c).fetched = d :: rest ∧ (((chan u c).st = .active ∨ (chan u c).st = .stopping)) ∧ 0 < d.code ∧
      d.code < 0x80 ∧ headComplete (chan u c) d = true ∧ slotReady u (chan u c) d.pos = true ∧ (((chan u c).ringPool = false ∧
      v = hostTlp (chan u c) false false u (slotAddr (chan u c) d.pos + 0x28) (slotStatus (chan u c) d)) ∨ writeSlot u (chan u c) d = some v) ∧
      dFlag d 1 = false) ∧
    (∃ (s : State) (c : Nat) (u : _), settleHead s c = u ∧ (chan u c).st = .pausing ∧ (chan u c).fetched = [] ∧ (chan u c).stopReq = false) ∧
    (∃ (s : State) (c : Nat) (u : _), settleHead s c = u ∧ (chan u c).st = .pausing ∧ (chan u c).fetched = [] ∧ (chan u c).stopReq = true) ∧
    (∃ (s : State) (c : Nat) (j : _) (d : _) (v : _) (u : _), let ch := chan s c; nextDesc ch.fetched 0 = some (j, d) ∧
      mayIssue s ch j d = true ∧ d.started = true ∧ d.code = 0 ∧ d.issued < d.length ∧ readAhead s (c % 16) + (nextBeat s ch d).2 ≤ 32768 ∧
      ((tagSc (chTag ch) = 0 ∧ v = s) ∨ serve s (8 + c % 16) { tag := chTag ch, len := (nextBeat s ch d).2 } (readyBeats s c) = some v) ∧
      issueBeat s c j d = some u) ∧
    (∃ (s : State) (c : Nat) (j : _) (d : _) (v : _) (i : _), let ch := chan s c; nextDesc ch.fetched 0 = some (j, d) ∧
      mayIssue s ch j d = true ∧ d.started = true ∧ d.code = 0 ∧ d.issued < d.length ∧ readAhead s (c % 16) + (nextBeat s ch d).2 ≤ 32768 ∧
      ((tagSc (chTag ch) = 0 ∧ v = s) ∨ serve s (8 + c % 16) { tag := chTag ch, len := (nextBeat s ch d).2 } (readyBeats s c) = some v) ∧
      dSrc d = 3 ∧ d.item = some i) ∧
    (∃ (s : State) (c : Nat) (k : Nat) (j : Nat) (i : Nat) (d : Desc) (b : Beat) (t : _) (a : _) (x : Bytes), let ch := chan s c;
      s.th.safe = false ∧ (beatsIn ch (fun b => b.st == .waiting || b.st == .arrived))[k]? = some (j, i) ∧ ch.fetched[j]? = some d ∧
      d.beats[i]? = some b ∧ b.st = .waiting ∧ b.tag = some t ∧ Tab.find (port s ch.port).active t = some a ∧ a.got + x.length = b.len) ∧
    (∃ (s : State) (c : Nat), let ch := chan s c; portSends s ch.port = true ∧ (port s ch.port).active.length < tagSpace s ch.port / 2 ∧
      (port s ch.port).fresh < tagSpace s ch.port) :=
  ⟨⟨(poolWrite (setChan rich 0 { chan0 with ringPool := true }) 0 nopDesc false), 0, .failed, 0, 5, by decide +kernel, by decide +kernel⟩,
    by refine ⟨(setChan rich 0 chan0), 0, nopDesc, _, _, ?_, ?_, ?_, somePair_of (0, State.reset) (by decide +kernel)⟩ <;> decide +kernel,
    ⟨(setChan rich 0 chan0), 0, 0, nopDesc, by decide +kernel, by decide +kernel⟩,
    ⟨(setChan rich 0 { chan0 with ringPool := true, engineProd := true, tailBuf := [(0, nopDesc)] }), 0, 0, nopDesc, [], 0, 5,
      by decide +kernel, by decide +kernel⟩,
    ⟨(setChan rich 0 { chan0 with ringPool := true, engineProd := true, base := 2097152, tailBuf := [(0, nopDesc)] }), 0, 0, nopDesc, [],
      none, by decide +kernel, by decide +kernel⟩,
    by refine ⟨(setChan rich 0 { chan0 with ringPool := true, fetched := [{ pos := 0, bytes := nopDesc, started := true, code := 1 }] }), 0,
      _, _, { pos := 0, bytes := nopDesc, started := true, code := 1 }, [], ?_, ?_, rfl, ?_, ?_, ?_, ?_, ?_, ?_,
      .inr (some_of State.reset (by decide +kernel)), ?_⟩ <;> decide +kernel,
    ⟨(setChan rich 0 { chan0 with st := .pausing }), 0, _, rfl, by decide +kernel⟩,
    ⟨(setChan rich 0 { chan0 with st := .pausing, stopReq := true }), 0, _, rfl, by decide +kernel⟩,
    by refine ⟨(setChan rich 0 { chan0 with fetched := [{ pos := 0, bytes := copyDesc, started := true, length := 64 }] }), 0, 0,
      { pos := 0, bytes := copyDesc, started := true, length := 64 }, _, _, ?_, ?_, ?_, ?_, ?_, ?_,
      .inr (some_of State.reset (by decide +kernel)), some_of State.reset (by decide +kernel)⟩ <;> decide +kernel,
    by refine ⟨(setChan rich 0 { chan0 with cls := 0, fetched := [{ pos := 0, bytes := 1 :: 0x13 :: fill 62 0, started := true, length := 64, item := some { bytes := fill 64 1, prio := 7, poison := false, tag := mkTag 5 1, cells := [1] } }] }),
      0, 0,
      { pos := 0, bytes := 1 :: 0x13 :: fill 62 0, started := true, length := 64, item := some { bytes := fill 64 1, prio := 7, poison := false, tag := mkTag 5 1, cells := [1] } },
      _, _, ?_, ?_, ?_, ?_, ?_, ?_, .inl ⟨by decide +kernel, rfl⟩, ?_, rfl⟩ <;> decide +kernel,
    by refine ⟨(setPort (setChan rich 0 { chan0 with fetched := [{ pos := 0, bytes := 1 :: 0x10 :: fill 62 0, started := true, length := 64, issued := 64, beats := [{ off := 0, len := 64, tag := some 0, st := .waiting }] }] }) 1 { linked with active := [(0, { channel := 0, fn := 3, pos := 0, addr := 0, len := 64, sent := 0 })] }),
      0, 0, 0, 0, _, _, 0, { channel := 0, fn := 3, pos := 0, addr := 0, len := 64, sent := 0 }, (fill 64 0), ?_, ?_, rfl, rfl,
      ?_⟩ <;> decide +kernel,
    ⟨(setChan rich 0 chan0), 0, by decide +kernel, by decide +kernel⟩⟩

theorem witness_ChannelSteps_2 :
    ∃ (s : State) (c : Nat) (k : Nat) (j : Nat) (i : Nat) (d : Desc) (b : Beat) (n : _) (u : _), let ch := chan s c;
      (beatsIn ch (fun b => b.st == .retry))[k]? = some (j, i) ∧ ch.fetched[j]? = some d ∧ d.beats[i]? = some b ∧ chanRuns s ch = true ∧
      ch.st = .active ∧ sendRead (passTo s b.due) c ch d.pos (dSrcA d + b.off) b.len = some (n, u) :=
  by refine ⟨(setChan rich 0 { chan0 with fetched := [{ pos := 0, bytes := 1 :: 0x10 :: fill 62 0, started := true, length := 64, issued := 64, beats := [{ off := 0, len := 64, tag := some 0, st := .retry }] }] }),
    0, 0, 0, 0, _, _, _, _, ?_, rfl, rfl, ?_, ?_, somePair_of (0, State.reset) (by decide +kernel)⟩ <;> decide +kernel

theorem witness_ChannelRules :
    (∃ (s : State) (c : Nat) (t : BitVec 32), let ch := chan s c; ch.st ≠ .free ∧ ch.engineProd = false ∧ ch.system = false ∧
      (t - ch.head).toNat ≤ 2 ^ ch.log2 ∧ (ch.tail - ch.head).toNat ≤ (t - ch.head).toNat) ∧
    (∃ (s : State) (c : Nat) (t : BitVec 32), let ch := chan s c;
      (ch.st = .free ∨ ch.engineProd = true ∨ ch.system = true ∨ 2 ^ ch.log2 < (t - ch.head).toNat ∨ (t - ch.head).toNat < (ch.tail - ch.head).toNat)) ∧
    (∃ (s : State) (c : Nat), let ch := chan s c; ch.st = .idle ∧ ch.system = false) ∧
    (∃ (s : State) (c : Nat), let ch := chan s c; ch.st = .paused ∧ ch.freezePause = false ∧ s.th.safe = false) ∧
    (∃ (s : State) (c : Nat), let ch := chan s c; ch.st = .halted ∧ ch.freezePause = false ∧ s.th.safe = false ∧ ch.head ≠ ch.tail) ∧
    (∃ (s : State) (c : Nat), let ch := chan s c; ch.st ≠ .stopping) ∧
    (∃ (d : Desc), d.issued < d.length) ∧
    (∃ (d : Desc), d.issued < d.length ∧ d.descending = false) ∧
    (∃ (d : Desc), d.issued < d.length ∧ d.descending = false ∧ dSrc d = 0) ∧
    (∃ (d : Desc), d.issued < d.length ∧ d.descending = false ∧ dSrc d ≠ 0) ∧
    (∃ (d : Desc), d.issued < d.length ∧ d.descending = true) :=
  ⟨⟨(setChan rich 0 chan0), 0, 16, by decide +kernel, by decide +kernel⟩,
    ⟨(setChan rich 0 chan0), 0, 17, by decide +kernel⟩,
    ⟨(setChan rich 0 { chan0 with st := .idle }), 0, by decide +kernel, by decide +kernel⟩,
    ⟨(setChan rich 0 { chan0 with st := .paused }), 0, by decide +kernel, by decide +kernel⟩,
    ⟨(setChan rich 0 { chan0 with st := .halted }), 0, by decide +kernel, by decide +kernel⟩,
    ⟨(setChan rich 0 chan0), 0, by decide +kernel⟩,
    ⟨{ pos := 0, bytes := copyDesc, started := true, length := 64, issued := 63 }, by decide +kernel⟩,
    ⟨{ pos := 0, bytes := copyDesc, started := true, length := 64 }, by decide +kernel⟩,
    ⟨{ pos := 0, bytes := 1 :: 0x10 :: fill 62 0, started := true, length := 64 }, by decide +kernel⟩,
    ⟨{ pos := 0, bytes := copyDesc, started := true, length := 64 }, by decide +kernel⟩,
    ⟨{ pos := 0, bytes := copyDesc, started := true, length := 64, descending := true }, by decide +kernel⟩⟩

theorem witness_NetworkCommands :
    (∃ (r : State) (s : State) (src : Nat) (a : _), Rings r src s ∧ Served s src 0x1F ∧ a ≤ 3 ∧
      s.wt.conns.any (fun e => e.2.st != .free && e.2.st != .closed) = false ∧ keepBusy s = false) ∧
    (∃ (r : State) (s : State) (src : Nat) (a : ListenArgs) (n : _), Rings r src s ∧ Served s src 0x20 ∧ Live s a.ctx ∧ a.service ≤ 65535 ∧
      maskOk s a.portMask = true ∧ 1 ≤ a.cls ∧ a.cls ≤ 3 ∧ ownsQueue s a.ctx a.rxQ = true ∧ ownsQueue s a.ctx a.reportQ = true ∧
      8 ≤ a.payloadLog2 ∧ a.payloadLog2 ≤ 13 ∧ grantLogOf a.grantLog2 ≤ 15 ∧ oneOf s 0 (Tab.freeKeys s.wt.listeners 0 256) = some n ∧
      s.wt.listeners.any (fun e => e.2.service == a.service && (e.2.portMask &&& a.portMask) != 0) = false) ∧
    (∃ (r : State) (s : State) (src : Nat) (n : _) (l : _), Rings r src s ∧ Served s src 0x21 ∧ Tab.find s.wt.listeners n = some l ∧
      Live s l.ctx) ∧
    (∃ (r : State) (s : State) (src : Nat) (a : ConnectArgs) (n : _) (k : _), Rings r src s ∧ Served s src 0x22 ∧ Live s a.ctx ∧
      a.port < etPorts s.et.arrangement ∧ a.service ≤ 65535 ∧ 1 ≤ a.cls ∧ a.cls ≤ 3 ∧ ownsQueue s a.ctx a.rxQ = true ∧
      ownsQueue s a.ctx a.reportQ = true ∧ 8 ≤ a.payloadLog2 ∧ a.payloadLog2 ≤ 13 ∧ grantLogOf a.grantLog2 ≤ 15 ∧ a.peer.prio ≤ 7 ∧
      a.peer.dscp ≤ 63 ∧ a.peer.vlan.getD 0 ≤ 4095 ∧ fullFrame a.peer a.payloadLog2 ≤ fld (regNat s (Reg.etMaxFrame a.port)) 0 14 ∧
      lowestInHalf s s.wt.conns 32768 65536 = some n ∧ connRoom s a.ctx = true ∧ peerFor s a.peer = some k) ∧
    (∃ (r : State) (s : State) (src : Nat) (c : Nat), let x := conn s c; Rings r src s ∧ Served s src 0x23 ∧ x.st ≠ .free ∧ x.st ≠ .closed ∧
      Live s x.ctx) ∧
    (∃ (r : State) (s : State) (src : Nat) (c : Nat) (port : _) (mac : BitVec 48) (vlan : Option Nat) (e : _) (k : _), let x := conn s c;
      Rings r src s ∧ Served s src 0x24 ∧ x.st = .opened ∧ Live s x.ctx ∧ port < etPorts s.et.arrangement ∧ vlan.getD 0 ≤ 4095 ∧
      peer? s x.peer = some e ∧ peerFor (dropPeer s x.peer) ⟨e.ip, mac, vlan, e.prio, e.dscp⟩ = some k) ∧
    (∃ (r : State) (s : State) (src : Nat) (tid : _) (n : _), Rings r src s ∧ Served s src 0x25 ∧ tid < mgt ∧ Live s tid ∧ n ≤ 65536) :=
  ⟨⟨rich, (tick8 rich), 8, 3, rings_of (by decide +kernel), served_of (by decide +kernel), by decide +kernel⟩,
    by refine ⟨rich, (tick8 rich), 8,
      { ctx := 5, service := 65535, portMask := 1, cls := 3, rxQ := 10, reportQ := 10, payloadLog2 := 13, grantLog2 := some 15 }, _,
      rings_of (by decide +kernel), served_of (by decide +kernel), live_of (by decide +kernel), ?_, ?_, ?_, ?_, ?_, ?_, ?_, ?_, ?_,
      free_of 3 (by decide) (by decide +kernel), ?_⟩ <;> decide +kernel,
    ⟨listening, (tick8 listening), 8, 0, listener0, rings_of (by decide +kernel), served_of (by decide +kernel), by decide +kernel,
      live_of (by decide +kernel)⟩,
    by refine ⟨rich, (tick8 rich), 8,
      { ctx := 5, port := 0, peer := { ip := 1, mac := 1, vlan := some 4095, prio := 7, dscp := 63 }, service := 65535, cls := 3, rxQ := 10, reportQ := 10, payloadLog2 := 8, grantLog2 := none, ecn := true },
      0, _, rings_of (by decide +kernel), served_of (by decide +kernel), live_of (by decide +kernel), ?_, ?_, ?_, ?_, ?_, ?_, ?_, ?_, ?_,
      ?_, ?_, ?_, ?_, ?_, ?_, peer_of (by decide +kernel)⟩ <;> decide +kernel,
    ⟨(connected rich), (tick8 (connected rich)), 8, 100, rings_of (by decide +kernel), served_of (by decide +kernel), by decide +kernel,
      by decide +kernel, live_of (by decide +kernel)⟩,
    by refine ⟨(connected rich), (tick8 (connected rich)), 8, 100, 1, (2 : BitVec 48), (some 4095), _, _, rings_of (by decide +kernel),
      served_of (by decide +kernel), ?_, live_of (by decide +kernel), ?_, ?_, rfl, peer_of (by decide +kernel)⟩ <;> decide +kernel,
    ⟨rich, (tick8 rich), 8, 5, 65536, rings_of (by decide +kernel), served_of (by decide +kernel), by decide +kernel,
      live_of (by decide +kernel), by decide +kernel⟩⟩

theorem witness_FrameSteps :
    (∃ (s : State) (f : EthFrame), (etPort s f.port).link = true ∧ s.th.safe = false ∧ f.fcsOk = false) ∧
    (∃ (s : State) (f : EthFrame), (etPort s f.port).link = true ∧ s.th.safe = false ∧ f.fcsOk = true) ∧
    (∃ (s : State) (f : EthFrame), (etPort s f.port).link = true ∧ s.th.safe = false ∧ f.fcsOk = true ∧
      f.bytes.length + 4 ≤ fld (regNat s (Reg.etMaxFrame f.port)) 0 14 ∧ (parseFrame f.bytes).tags ≠ 2 ∧
      (parseFrame f.bytes).fragment = false ∧ (parseFrame f.bytes).etherType = 0x8808) ∧
    (∃ (s : State) (p : Nat) (x : _) (i : _) (b : _), queue? s s.et.queue = some x ∧ headItem x = some i ∧ x.ctx = mgt ∧ s.th.safe = false ∧
      i.poison = false ∧ 16 ≤ i.bytes.length ∧ i.bytes.length = 16 + leAt i.bytes 2 2 ∧ p = leAt i.bytes 0 1 % 16 ∧
      b = slice i.bytes 16 (leAt i.bytes 2 2) ∧ (etPort s p).link = true ∧ prioPaused s p (parseFrame b).prio = false) ∧
    (∃ (s : State) (p : Nat) (up : _), p < etPorts s.et.arrangement ∧ (etPort s p).link ≠ up ∧ s.et.applied = true ∧
      ((up = true → s.th.safe = false ∧ anyTest s (portLanes s p).1 (portLanes s p).2 = false))) ∧
    (∃ (s : State) (p : Nat) (prio : _), prio ∈ (etPort s p).paused) :=
  ⟨⟨(connected rich), { port := 0, fcsOk := false, bytes := fill 60 0 }, by decide +kernel⟩,
    ⟨(connected rich), { port := 0, fcsOk := true, bytes := fill 60 0 }, by decide +kernel⟩,
    ⟨(connected rich), { port := 0, fcsOk := true, bytes := fill 12 0 ++ [0x88, 0x08] ++ fill 46 0 }, by decide +kernel⟩,
    by refine ⟨(withItem2 (connected rich)), 0, _, _, _, rfl, rfl, ?_, ?_, ?_, ?_, ?_, ?_, rfl, ?_⟩ <;> decide +kernel,
    ⟨(connected rich), 0, false, by decide +kernel⟩,
    ⟨(setEtPort (connected rich) 0 { link := true, paused := [8] }), 0, 8, by decide +kernel⟩⟩

theorem witness_DataPackets :
    (∃ (s : State) (w : WeftPacket) (kind : Nat) (i : Instr), let p := parseWeft w; let x := conn s p.dst; (i, kind) ∈ [(Instr.send w, 1),
      (.write w, 2), (.reduce w, 3)] ∧ ForConn s w kind ∧ dataShape x.plog p = true ∧ lineShape p = true ∧ psnDiff p.psn x.expPsn < 64 ∧
      psnDiff p.psn x.expPsn < wtWindow s ∧ wtWindow s ≤ 2 ^ 22 ∧ ((∀ k ∈ x.rxPkts, k.psn ≠ p.psn)) ∧
      units p.payload.length ≤ (x.rxLimit - x.rxCount).toNat) ∧
    (∃ (s : State) (w : WeftPacket) (kind : Nat) (i : Instr), let p := parseWeft w; let x := conn s p.dst; (i, kind) ∈ [(Instr.send w, 1),
      (.write w, 2), (.reduce w, 3)] ∧ ForConn s w kind ∧ dataShape x.plog p = true ∧ lineShape p = true ∧ wtWindow s ≤ 2 ^ 22 ∧
      2 ^ 24 - wtWindow s ≤ psnDiff p.psn x.expPsn) ∧
    (∃ (s : State) (w : WeftPacket) (kind : Nat) (i : Instr), let p := parseWeft w; let x := conn s p.dst; (i, kind) ∈ [(Instr.send w, 1),
      (.write w, 2), (.reduce w, 3)] ∧ ForConn s w kind ∧ dataShape x.plog p = true ∧ lineShape p = true ∧
      wtWindow s ≤ psnDiff p.psn x.expPsn ∧ psnDiff p.psn x.expPsn < 2 ^ 24 - wtWindow s) ∧
    (∃ (s : State) (c : Nat) (k : RxPkt) (m : RxMsg), let x := conn s c; s.th.safe = false ∧
      x.rxPkts.find? (fun p => p.psn.toNat == k.psn.toNat && !p.delivered) = some k ∧ x.rxMsgs.find? (fun n => n.num == k.msg) = some m ∧
      m.kind = WType.send) ∧
    (∃ (s : State) (c : Nat) (k : RxPkt) (m : RxMsg) (t : _), let x := conn s c; s.th.safe = false ∧
      x.rxPkts.find? (fun p => p.psn.toNat == k.psn.toNat && !p.delivered) = some k ∧ x.rxMsgs.find? (fun n => n.num == k.msg) = some m ∧
      m.kind = WType.write ∧ takeWrite s x m k.off (Tab.get [] m.parts k.off) k.poison = .took t) :=
  ⟨⟨(connected rich), (pkt 1 0x16 63 part64 (fill 64 1)), 1, (.send (pkt 1 0x16 63 part64 (fill 64 1))), by decide +kernel,
      forConn_of (by decide +kernel), by decide +kernel⟩,
    ⟨(connected rich), (pkt 2 6 16777215 part64 (fill 64 1)), 2, (.write (pkt 2 6 16777215 part64 (fill 64 1))), by decide +kernel,
      forConn_of (by decide +kernel), by decide +kernel⟩,
    ⟨(connected rich), (pkt 3 6 8388608 part64 (fill 64 1)), 3, (.reduce (pkt 3 6 8388608 part64 (fill 64 1))), by decide +kernel,
      forConn_of (by decide +kernel), by decide +kernel⟩,
    ⟨(net { conn100 with rxPkts := [{ psn := 0, msg := 0, off := 0, delivered := false, poison := false }], rxMsgs := [{ num := 0, kind := 1, len := 64, defq := false, operand := 0, parts := [(0, fill 64 1)] }] }),
      100, { psn := 0, msg := 0, off := 0, delivered := false, poison := false },
      { num := 0, kind := 1, len := 64, defq := false, operand := 0, parts := [(0, fill 64 1)] }, by decide +kernel, by decide +kernel⟩,
    by refine ⟨(net { conn100 with rxPkts := [{ psn := 0, msg := 0, off := 0, delivered := false, poison := false }], rxMsgs := [{ num := 0, kind := 2, len := 64, defq := false, operand := 0, parts := [(0, fill 64 1)] }] }),
      100, { psn := 0, msg := 0, off := 0, delivered := false, poison := false },
      { num := 0, kind := 2, len := 64, defq := false, operand := 0, parts := [(0, fill 64 1)] }, _, ?_, ?_, ?_, ?_,
      target_of (by decide +kernel)⟩ <;> decide +kernel⟩

theorem witness_ControlPackets :
    (∃ (s : State) (w : WeftPacket), ForConn s w 4) ∧
    (∃ (s : State) (w : WeftPacket), let p := parseWeft w; let x := conn s p.dst; Arrives s w 5 ∧ nakNoConnOk s x p = true) ∧
    (∃ (s : State) (w : WeftPacket), let p := parseWeft w; let x := conn s p.dst; Arrives s w 5 ∧ nakNoConnOk s x p = false ∧
      nakOk s x p = true ∧ fld p.w0 24 8 = 2) ∧
    (∃ (s : State) (w : WeftPacket) (l : _), let p := parseWeft w; let x := conn s p.dst; ForConn s w 6 ∧ x.reclaim = some l) ∧
    (∃ (s : State) (w : WeftPacket) (li : _) (l : _) (c : _) (n : _), let p := parseWeft w;
      let asked : Prop := Arrives s w 7 ∧ acceptedBefore s p = none ∧ reservedSet p w.bytes = false ∧ 8 ≤ fld p.w0 16 4 ∧ fld p.w0 16 4 ≤ 13;
      asked ∧ listenerOf s p.port (fld p.w0 0 16) = some (li, l) ∧ lowestInHalf s s.wt.conns 32768 65536 = some c ∧
      peerFor s (sourceAddr p) = some n ∧ connRoom s l.ctx = true) ∧
    (∃ (s : State) (w : WeftPacket), let p := parseWeft w;
      let asked : Prop := Arrives s w 7 ∧ acceptedBefore s p = none ∧ reservedSet p w.bytes = false ∧ 8 ≤ fld p.w0 16 4 ∧ fld p.w0 16 4 ≤ 13;
      asked ∧ listenerOf s p.port (fld p.w0 0 16) = none) ∧
    (∃ (s : State) (w : WeftPacket), let p := parseWeft w; let x := conn s p.dst; Arrives s w 8 ∧ answersConnect s x p = true ∧
      p.tag = x.localTag) ∧
    (∃ (s : State) (w : WeftPacket), let p := parseWeft w; let x := conn s p.dst; Arrives s w 9 ∧ answersConnect s x p = true ∧
      p.tag = x.localTag) ∧
    (∃ (s : State) (w : WeftPacket), ForConn s w 10) ∧
    (∃ (s : State) (w : WeftPacket), let p := parseWeft w; let x := conn s p.dst; ForConn s w 11 ∧ x.closeSent = true) :=
  ⟨⟨(connected rich), (pkt 4 0 0 (words 0 0 0 0) []), forConn_of (by decide +kernel)⟩,
    ⟨(net { conn100 with nextPsn := 1 }), (pkt 5 0 0 (words (2 ^ 24) 0 0 0x5678) []), arrives_of (by decide +kernel), by decide +kernel⟩,
    ⟨(net { conn100 with nextPsn := 1 }), (pkt 5 0 0 (words (2 ^ 25) 0 0 0) []), arrives_of (by decide +kernel), by decide +kernel⟩,
    ⟨(net { conn100 with reclaim := some 10 }), (pkt 6 0 0 (words 0 0 0 0) []), 10, forConn_of (by decide +kernel), by decide +kernel⟩,
    by refine ⟨listening, (connectPkt 7 13), 0, listener0, 0, _, ⟨arrives_of (by decide +kernel), by decide +kernel, by decide +kernel,
      by decide +kernel, by decide +kernel⟩, ?_, ?_, peer_of (by decide +kernel), ?_⟩ <;> decide +kernel,
    ⟨listening, (connectPkt 8 8), ⟨arrives_of (by decide +kernel), by decide +kernel, by decide +kernel, by decide +kernel,
      by decide +kernel⟩, by decide +kernel⟩,
    ⟨(net { conn100 with st := .connecting, nonce := 9 }), (pkt 8 0 0 (words 0 0 0 9) []), arrives_of (by decide +kernel),
      by decide +kernel⟩,
    ⟨(net { conn100 with st := .connecting, nonce := 9 }), (pkt 9 0 0 (words 0 0 0 9) []), arrives_of (by decide +kernel),
      by decide +kernel⟩,
    ⟨(connected rich), (pkt 10 0 0 (words 0 0 0 0) []), forConn_of (by decide +kernel)⟩,
    ⟨(net { conn100 with st := .closing, closeSent := true }), (pkt 11 0 0 (words 0 0 0 0) []), forConn_of (by decide +kernel),
      by decide +kernel⟩⟩

theorem witness_TransmissionAndTimers_1 :
    (∃ (s : State) (c : Nat) (k : _), let x := conn s c;
      let may : Prop := (x.st = .opened ∨ x.st = .closing) ∧ s.th.safe = false ∧ (etPort s x.port).link = true ∧ txPaused s x = false; may ∧
      x.txPkts.find? (fun k => k.again) = some k) ∧
    (∃ (s : State) (c : Nat) (m : _), let x := conn s c;
      let may : Prop := (x.st = .opened ∨ x.st = .closing) ∧ s.th.safe = false ∧ (etPort s x.port).link = true ∧ txPaused s x = false; may ∧
      x.txPkts.find? (fun k => k.again) = none ∧ nextMsg x = some m ∧ ctxMode s x.ctx = .running ∧ x.txPkts.length < wtWindow s) ∧
    (∃ (s : State) (c : Nat) (k : _) (d : _), let x := conn s c; s.th.safe = false ∧
      x.txPkts.find? (fun j => j.psn.toNat == k.psn.toNat) = some k ∧ k.due = some d ∧ wtRetryMax s ≤ x.timeouts) ∧
    (∃ (s : State) (c : Nat) (k : _) (d : _), let x := conn s c; s.th.safe = false ∧ x.txPkts = [k] ∧ k.due = some d ∧
      x.timeouts < wtRetryMax s) ∧
    (∃ (s : State) (c : Nat), let x := conn s c; ((x.st = .opened ∨ x.st = .closing)) ∧ x.rate < lineRate s) ∧
    (∃ (s : State) (c : Nat), let x := conn s c; grants s x = true ∧ 0 < grantWant s x ∧
      grantWant s x + ((wanting s c x).map (fun e => e.2.1)).sum ≤ asideLeft s x.port) ∧
    (∃ (s : State) (c : Nat), let x := conn s c; let live : Prop := (x.st = .opened ∨ x.st = .closing) ∧ s.th.safe = false; live ∧
      x.rxLimit ≠ x.rxCount ∧ x.reclaim = none ∧ overQuota s x = false) ∧
    (∃ (s : State) (c : Nat) (d : _), let x := conn s c; let live : Prop := (x.st = .opened ∨ x.st = .closing) ∧ s.th.safe = false; live ∧
      x.reclaimDue = some d) ∧
    (∃ (s : State) (c : Nat) (d : _), let x := conn s c; let live : Prop := (x.st = .opened ∨ x.st = .closing) ∧ s.th.safe = false; live ∧
      x.ackDue = some d) ∧
    (∃ (s : State) (c : Nat) (d : _), let x := conn s c; let live : Prop := (x.st = .opened ∨ x.st = .closing) ∧ s.th.safe = false; live ∧
      x.heldDue = some d ∧ heldNext x = true) ∧
    (∃ (s : State) (c : Nat) (d : _), let x := conn s c; s.th.safe = false ∧ x.connectDue = some d ∧ x.tries < 8) ∧
    (∃ (s : State) (c : Nat) (d : _), let x := conn s c; s.th.safe = false ∧ x.connectDue = some d ∧ 8 ≤ x.tries) :=
  ⟨⟨(net { conn100 with txPkts := [{ psn := 0, msg := 0, idx := 0, sentAt := 0, due := some 0, again := true }] }), 100, _,
      by decide +kernel, rfl⟩,
    ⟨(net { conn100 with txMsgs := [{ num := 0, kind := 1, defq := true, operand := 0, cells := [0], bytes := fill 64 1, poison := [] }] }),
      100, { num := 0, kind := 1, defq := true, operand := 0, cells := [0], bytes := fill 64 1, poison := [] }, by decide +kernel,
      by decide +kernel⟩,
    ⟨(net { conn100 with timeouts := 15, txPkts := [{ psn := 0, msg := 0, idx := 0, sentAt := 0, due := some 0 }] }), 100,
      { psn := 0, msg := 0, idx := 0, sentAt := 0, due := some 0 }, 0, by decide +kernel, by decide +kernel⟩,
    ⟨(net { conn100 with txPkts := [{ psn := 0, msg := 0, idx := 0, sentAt := 0, due := some 0 }] }), 100,
      { psn := 0, msg := 0, idx := 0, sentAt := 0, due := some 0 }, 0, by decide +kernel, by decide +kernel⟩,
    ⟨(connected rich), 100, by decide +kernel, by decide +kernel⟩,
    ⟨(connected rich), 100, by decide +kernel, by decide +kernel⟩,
    ⟨(connected rich), 100, by decide +kernel, by decide +kernel⟩,
    ⟨(net { conn100 with reclaimDue := some 0 }), 100, 0, by decide +kernel, by decide +kernel⟩,
    ⟨(net { conn100 with ackDue := some 0 }), 100, 0, by decide +kernel, by decide +kernel⟩,
    ⟨(net { conn100 with heldDue := some 0, rxPkts := [{ psn := 0, msg := 0, off := 0, delivered := false, poison := false }] }), 100, 0,
      by decide +kernel, by decide +kernel⟩,
    ⟨(net { conn100 with connectDue := some 0, tries := 7 }), 100, 0, by decide +kernel, by decide +kernel⟩,
    ⟨(net { conn100 with connectDue := some 0, tries := 8 }), 100, 0, by decide +kernel, by decide +kernel⟩⟩

theorem witness_TransmissionAndTimers_2 :
    (∃ (s : State) (c : Nat) (d : _), let x := conn s c; x.closeDue = some d) ∧
    (∃ (s : State) (c : Nat), let x := conn s c; x.st = .closed) :=
  ⟨⟨(net { conn100 with closeDue := some 0 }), 100, 0, by decide +kernel⟩,
    ⟨(net { conn100 with st := .closed }), 100, by decide +kernel⟩⟩

theorem witness_PacketFormat :
    ∃ (w : WeftPacket) (kind : Nat) (flags : Nat) (dst : Nat) (psn : Nat) (tag : Nat) (src : Nat) (part : Bytes) (payload : Bytes),
      kind < 16 ∧ flags < 256 ∧ dst < 65536 ∧ psn < 2 ^ 24 ∧ tag < 2 ^ 32 ∧ src < 65536 ∧ part.length = 16 ∧ payload.length < 65536 ∧
      w.bytes = weftBytes kind flags dst psn tag src part payload :=
  by refine ⟨(pkt 11 255 16777215 (fill 16 1) (fill 64 2)), 11, 255, 100, 16777215, 0x1234, 200, (fill 16 1), (fill 64 2), ?_, ?_, ?_, ?_,
    ?_, ?_, ?_, ?_, rfl⟩ <;> decide +kernel

theorem witness_ServiceClasses :
    (∃ (r : State) (s : State) (src : Nat) (p : _) (f : _) (rate : _) (depth : _), Rings r src s ∧ Served s src 0x26 ∧ p < 8 ∧ f < 256 ∧
      fnBound s p f = true ∧ 64 ≤ depth ∧ depth ≤ 4096 ∧ rateSumAfter s p - rateAfter s p f + rate ≤ rateLimit s p) ∧
    (∃ (r : State) (s : State) (src : Nat) (tid : _) (w : _), Rings r src s ∧ Served s src 0x27 ∧ tid < mgt ∧ Live s tid ∧ 1 ≤ w ∧ w ≤ 255) ∧
    (∃ (r : State) (s : State) (src : Nat) (a : _) (b : _) (c : _), Rings r src s ∧ Served s src 0x28 ∧ 1 ≤ a ∧ a ≤ 255 ∧ 1 ≤ b ∧ b ≤ 255 ∧
      1 ≤ c ∧ c ≤ 255) ∧
    (∃ (p : _), p < 8) ∧
    (∃ (s : State) (p : Nat) (f : Nat) (len : Nat), let b := creditBucket s.cycle (bucket s p f); b.rate ≠ 0 ∧ 64 * len ≤ b.tokens) ∧
    (∃ (s : State) (p : Nat) (f : Nat) (len : Nat), let b := creditBucket s.cycle (bucket s p f); (b.rate = 0 ∨ b.tokens < 64 * len)) ∧
    (∃ (p : Nat) (f : Nat) (q : _) (g : _), fnKey q g ≠ fnKey p f) :=
  ⟨⟨rich, (tick8 rich), 8, 1, 3, 64, 4096, rings_of (by decide +kernel), served_of (by decide +kernel), by decide +kernel⟩,
    ⟨rich, (tick8 rich), 8, 5, 255, rings_of (by decide +kernel), served_of (by decide +kernel), by decide +kernel,
      live_of (by decide +kernel), by decide +kernel⟩,
    ⟨rich, (tick8 rich), 8, 255, 1, 1, rings_of (by decide +kernel), served_of (by decide +kernel), by decide +kernel⟩,
    ⟨7, by decide +kernel⟩,
    ⟨(setBucket rich 1 3 { rate := 64, depth := 1024, tokens := 65536, at_ := 0 }), 1, 3, 1024, by decide +kernel, by decide +kernel⟩,
    ⟨rich, 0, 0, 1024, by decide +kernel⟩,
    ⟨0, 1, 0, 2, by decide +kernel⟩⟩

theorem witness_MemoryAndConfiguration :
    (∃ (s : State) (r : MemRead), r.bar = 2 ∧ r.kind = .memoryRead ∧ gate s r.port r.fn 2 r.offset r.length false = .serve) ∧
    (∃ (s : State) (r : MemRead) (ups : Upsets) (k : _) (w : _) (x : _) (c : _) (a : _) (key : _), let u := disturb (leaveL1 s r.port) ups;
      let tag := mkTag w.ctx c; r.bar = 2 ∧ r.kind = .memoryRead ∧ gate s r.port r.fn 2 r.offset r.length false = .serve ∧
      wClass w.live = c ∧ c ≠ 0 ∧ windowAt u r.port r.fn r.offset = some (k, w, x) ∧ windowAllows w x r.length false = true ∧
      windowCheck u w tag x false = .allow a key) ∧
    (∃ (s : State) (r : MemRead), r.bar = 4 ∧ r.kind = .memoryRead ∧ gate s r.port r.fn 4 r.offset r.length false = .serve ∧
      regAccess r.offset r.length = true) ∧
    (∃ (s : State) (r : MemRead) (t : _) (b : _), r.bar = 0 ∧ r.fn ≠ 0 ∧ r.kind = .memoryRead ∧
      gate s r.port r.fn 0 r.offset r.length false = .serve ∧ boundTo s r.port r.fn = some (t, b) ∧ r.offset < 0x3000 ∧
      regAccess r.offset r.length = true ∧ r.offset / 8 * 8 ≠ 0x18) ∧
    (∃ (s : State) (w : MemWrite) (k : _) (x : _) (win : _) (off : _) (ppa : _) (key : _), let u := leaveL1 s w.port; w.bar = 2 ∧
      w.poisoned = false ∧ w.unsupported = false ∧ postedHeld s w.port = false ∧
      gate s w.port w.fn 2 w.offset w.bytes.length true = .serve ∧ windowAt u w.port w.fn w.offset = some (k, win, off) ∧
      windowAllows win off w.bytes.length true = true ∧ wKind win.live ≠ 2 ∧ wClass win.live = x ∧ x ≠ 0 ∧
      windowCheck u win (mkTag win.ctx x) off true = .allow ppa key ∧ writeRoom u ppa w.bytes.length = true) ∧
    (∃ (s : State) (w : MemWrite), w.bar = 4 ∧ w.poisoned = false ∧ w.unsupported = false ∧ postedHeld s w.port = false ∧
      gate s w.port w.fn 4 w.offset w.bytes.length true = .serve ∧ regAccess w.offset w.bytes.length = true) ∧
    (∃ (s : State) (who : FnRef) (off : Nat) (b : Bytes),
      let q := writeReq { port := who.port, fn := who.fn, bar := 0, offset := off, bytes := b, poisoned := false };
      let u := leaveL1 s who.port; who.fn = 0 ∧ Posts s who off b.length ∧ waitsPosted u q mgt = false) ∧
    (∃ (s : State) (who : FnRef) (off : Nat) (b : Bytes) (t : _) (d : _),
      let q := writeReq { port := who.port, fn := who.fn, bar := 0, offset := off, bytes := b, poisoned := false };
      let u := leaveL1 s who.port; who.fn ≠ 0 ∧ Posts s who off b.length ∧ boundTo s who.port who.fn = some (t, d) ∧
      (off < 0x3000 ∨ 0x4000 ≤ off) ∧ waitsPosted u q t = false) ∧
    (∃ (s : State) (off : Nat) (p : _) (n : _), gate s p 0 6 off n false = .serve ∧ romPlace s p = none) ∧
    (∃ (s : State) (who : FnRef) (off : Nat),
      let here : Prop := who.port < 8 ∧ (port s who.port).link = true ∧ mergedUpper s who.port = false ∧ (who.fn = 0 ∨ (vfPresented s who.port who.fn = true ∧ who.fn < 256)) ∧ off % 4 = 0 ∧ off < 4096;
      let ready : Prop := s.pw.clkPll = true ∧ inFlr s who.port who.fn = false; here ∧ ¬ready) ∧
    (∃ (s : State) (who : FnRef) (off : Nat),
      let here : Prop := who.port < 8 ∧ (port s who.port).link = true ∧ mergedUpper s who.port = false ∧ (who.fn = 0 ∨ (vfPresented s who.port who.fn = true ∧ who.fn < 256)) ∧ off % 4 = 0 ∧ off < 4096;
      let ready : Prop := s.pw.clkPll = true ∧ inFlr s who.port who.fn = false; here ∧ ready) :=
  ⟨⟨windowed, { port := 1, fn := 3, bar := 2, offset := 0, length := 4096 }, by decide +kernel⟩,
    ⟨windowed, { port := 1, fn := 3, bar := 2, offset := 0, length := 4096 }, [], 0, window0, 0, 1, 0, 5, by decide +kernel,
      by decide +kernel⟩,
    ⟨rich, { port := 1, fn := 3, bar := 4, offset := 0, length := 8 }, by decide +kernel⟩,
    by refine ⟨rich, { port := 1, fn := 3, bar := 0, offset := 0x2FF8, length := 8 }, 5, _, ?_, ?_, ?_, ?_, rfl, ?_⟩ <;> decide +kernel,
    ⟨windowed, { port := 1, fn := 3, bar := 2, offset := 2097024, bytes := fill 128 1, poisoned := false }, 0, 1, window0, 2097024, 2097024,
      5, by decide +kernel, by decide +kernel⟩,
    ⟨rich, { port := 1, fn := 3, bar := 4, offset := 0, bytes := fill 8 1, poisoned := false }, by decide +kernel⟩,
    ⟨rich, ⟨0, 0⟩, 0, (fill 8 1), by decide +kernel, posts_of (by decide +kernel), by decide +kernel⟩,
    ⟨rich, ⟨1, 3⟩, 0x4000, (fill 8 1), 5, _, by decide +kernel, posts_of (by decide +kernel), rfl, by decide +kernel⟩,
    ⟨rich, 0, 1, 64, by decide +kernel⟩,
    ⟨{ rich with pw := { rich.pw with clkPll := false } }, ⟨1, 3⟩, 4092, by decide +kernel, by decide +kernel⟩,
    ⟨rich, ⟨0, 0⟩, 4092, by decide +kernel, by decide +kernel⟩⟩

theorem witness_RequestGate :
    (∃ (s : State) (p : Nat) (f : Nat) (bar : Nat) (off : Nat) (n : Nat),
      let there : Prop := p < 8 ∧ (port s p).link = true ∧ mergedUpper s p = false ∧ (f = 0 ∨ vfPresented s p f = true) ∧ f < 256 ∧ 0 < n ∧ off + n ≤ barSize s p f bar;
      there ∧ 4096 < off % 4096 + n) ∧
    (∃ (s : State) (p : Nat) (f : Nat) (bar : Nat) (off : Nat) (n : Nat) (wr : Bool),
      let there : Prop := p < 8 ∧ (port s p).link = true ∧ mergedUpper s p = false ∧ (f = 0 ∨ vfPresented s p f = true) ∧ f < 256 ∧ 0 < n ∧ off + n ≤ barSize s p f bar;
      let formed : Prop := off % 4096 + n ≤ 4096 ∧ (wr = true → n ≤ maxPayload s p); there ∧ formed ∧ (port s p).d3 = true) ∧
    (∃ (s : State) (p : Nat) (f : Nat) (bar : Nat) (off : Nat) (n : Nat) (wr : Bool),
      let there : Prop := p < 8 ∧ (port s p).link = true ∧ mergedUpper s p = false ∧ (f = 0 ∨ vfPresented s p f = true) ∧ f < 256 ∧ 0 < n ∧ off + n ≤ barSize s p f bar;
      let formed : Prop := off % 4096 + n ≤ 4096 ∧ (wr = true → n ≤ maxPayload s p); there ∧ formed ∧ (port s p).d3 = false ∧
      (port s p).step = .none ∧ s.th.safe = true ∧ safeServed s p f bar off wr = false) ∧
    (∃ (s : State) (p : Nat) (f : Nat) (bar : Nat) (off : Nat) (n : Nat) (wr : Bool),
      let there : Prop := p < 8 ∧ (port s p).link = true ∧ mergedUpper s p = false ∧ (f = 0 ∨ vfPresented s p f = true) ∧ f < 256 ∧ 0 < n ∧ off + n ≤ barSize s p f bar;
      let formed : Prop := off % 4096 + n ≤ 4096 ∧ (wr = true → n ≤ maxPayload s p); there ∧ formed ∧ (port s p).d3 = false ∧
      (port s p).step = .none ∧ s.th.safe = false ∧ f ≠ 0 ∧ boundTo s p f = none) ∧
    (∃ (s : State) (p : Nat) (f : Nat) (bar : Nat) (off : Nat) (n : Nat) (wr : Bool) (t : _) (b : _),
      let there : Prop := p < 8 ∧ (port s p).link = true ∧ mergedUpper s p = false ∧ (f = 0 ∨ vfPresented s p f = true) ∧ f < 256 ∧ 0 < n ∧ off + n ≤ barSize s p f bar;
      let formed : Prop := off % 4096 + n ≤ 4096 ∧ (wr = true → n ≤ maxPayload s p); there ∧ formed ∧ (port s p).d3 = false ∧
      (port s p).step = .none ∧ s.th.safe = false ∧ f ≠ 0 ∧ boundTo s p f = some (t, b) ∧ inFlr s p f = false ∧ bar ≠ 0 ∧
      ctxMode s t = .frozen) ∧
    (∃ (s : State) (p : Nat) (f : Nat) (bar : Nat) (off : Nat) (n : Nat) (wr : Bool),
      let there : Prop := p < 8 ∧ (port s p).link = true ∧ mergedUpper s p = false ∧ (f = 0 ∨ vfPresented s p f = true) ∧ f < 256 ∧ 0 < n ∧ off + n ≤ barSize s p f bar;
      let formed : Prop := off % 4096 + n ≤ 4096 ∧ (wr = true → n ≤ maxPayload s p); there ∧ formed ∧ (port s p).d3 = false ∧
      (port s p).step = .none ∧ s.th.safe = false ∧ f = 0) ∧
    (∃ (s : State) (p : Nat) (f : Nat) (bar : Nat) (off : Nat) (n : Nat) (q : Req),
      let there : Prop := p < 8 ∧ (port s p).link = true ∧ mergedUpper s p = false ∧ (f = 0 ∨ vfPresented s p f = true) ∧ f < 256 ∧ 0 < n ∧ off + n ≤ barSize s p f bar;
      there ∧ q.port = p ∧ q.fn = f ∧ q.foreign = true) :=
  ⟨⟨rich, 1, 3, 0, 4095, 2, by decide +kernel, by decide +kernel⟩,
    ⟨(setPort rich 1 { linked with d3 := true }), 1, 3, 0, 4092, 4, true, by decide +kernel, by decide +kernel⟩,
    ⟨{ rich with th := { rich.th with safe := true } }, 1, 3, 0, 0, 8, false, by decide +kernel, by decide +kernel⟩,
    ⟨rich, 1, 4, 0, 0, 8, true, by decide +kernel, by decide +kernel⟩,
    by refine ⟨(setTenant rich 5 { tenant rich 5 with st := .frozen }), 1, 3, 2, 0, 8, true, 5, _, ?_, ?_, ?_, ?_, ?_, ?_, rfl,
      ?_⟩ <;> decide +kernel,
    ⟨rich, 0, 0, 0, 0, 128, true, by decide +kernel, by decide +kernel⟩,
    ⟨rich, 0, 0, 0, 0, 128, { port := 0, fn := 0, bar := 0, offset := 0, length := 128, write := false, foreign := true },
      by decide +kernel, by decide +kernel⟩⟩

theorem witness_CompletionsAndTags :
    (∃ (s : State) (p : Nat) (t : Nat) (a : _), let h := port s p; h.link = true ∧ Tab.find h.active t = some a) ∧
    (∃ (s : State) (p : Nat) (t : Nat) (e : _), let h := port s p; h.link = true ∧ Tab.find h.active t = none ∧
      Tab.find h.quarantine t = some e ∧ h.lateLog.length < 16) ∧
    (∃ (s : State) (p : Nat) (t : Nat), let h := port s p; h.link = true ∧ Tab.find h.active t = none ∧ Tab.find h.quarantine t = none) ∧
    (∃ (s : State) (p : Nat) (t : Nat) (a : _) (n : _), let h := port s p; Tab.find h.active t = some a ∧ cplTimeout s p = some n) ∧
    (∃ (s : State) (p : Nat) (t : Nat) (d : _) (f : _), let h := port s p; Tab.find h.quarantine t = some (d, f)) ∧
    (∃ (s : State) (t : State) (p : Nat) (n : Nat), let h := port s p; ((∀ k, k ∈ h.freed → Tab.find h.active k = none ∧
      Tab.find h.quarantine k = none ∧ k < h.fresh)) ∧ ((∀ k, h.fresh ≤ k → Tab.find h.active k = none ∧ Tab.find h.quarantine k = none)) ∧
      takeTag s p = some (n, t)) :=
  ⟨⟨(port0 (fun h => { h with active := [(0, { channel := 0, fn := 3, pos := 0, addr := 0, len := 64, sent := 0 })] })), 0, 0,
      { channel := 0, fn := 3, pos := 0, addr := 0, len := 64, sent := 0 }, by decide +kernel, by decide +kernel⟩,
    ⟨(port0 (fun h => { h with quarantine := [(0, (0, 3))] })), 0, 0, (0, 3), by decide +kernel, by decide +kernel⟩,
    ⟨rich, 0, 255, by decide +kernel, by decide +kernel⟩,
    ⟨(port0 (fun h => { h with active := [(0, { channel := 0, fn := 3, pos := 0, addr := 0, len := 64, sent := 0 })] })), 0, 0,
      { channel := 0, fn := 3, pos := 0, addr := 0, len := 64, sent := 0 }, _, by decide +kernel, some_of 0 (by decide +kernel)⟩,
    ⟨(port0 (fun h => { h with quarantine := [(0, (0, 3))] })), 0, 0, 0, 3, by decide +kernel⟩,
    ⟨rich, _, 0, _, by decide, fun _ _ => ⟨rfl, rfl⟩, somePair_of (0, State.reset) (by decide +kernel)⟩⟩

theorem witness_PortPowerAndResets_1 :
    (∃ (s : State) (p : Nat), let h := port s p; p < 8 ∧ h.step ≠ .none) ∧
    (∃ (s : State) (p : Nat), let h := port s p; p < 8 ∧ h.step = .none ∧ h.d3 = false) ∧
    (∃ (s : State) (p : Nat), let h := port s p; p < 8 ∧ h.step = .none ∧ h.d3 = true) ∧
    (∃ (s : State) (p : Nat), let h := port s p; h.step = .drain ∧ h.active = [] ∧ h.latestD3 = true) ∧
    (∃ (s : State) (p : Nat), let h := port s p; h.step = .enter ∧ h.latestD3 = true) ∧
    (∃ (s : State) (p : Nat), let h := port s p; h.step = .resume ∧ h.latestD3 = false) ∧
    (∃ (s : State) (p : Nat), let h := port s p; h.link = true ∧ h.l1 = false ∧ cfgBit s p 0 Cfg.linkCtl 1 = true ∧
      fld (regNat s (Reg.hpLinkCfg p)) 3 10 ≠ 0 ∧ l1Refused s p = false) ∧
    (∃ (s : State) (p : Nat), let h := port s p; h.link = true ∧ h.flit = true ∧ h.l1 = false ∧ bit (regNat s (Reg.hpLinkCfg p)) 13 = true ∧
      4 ≤ h.l0pWidth) ∧
    (∃ (s : State) (p : Nat), let h := port s p; h.link = true) ∧
    (∃ (s : State) (p : Nat) (w : _), let h := port s p; h.link = true ∧ h.flit = true ∧ w ∈ [2, 4, 8, 16] ∧ w ≤ h.width) ∧
    (∃ (s : State) (p : Nat), let h := port s p; p < 8 ∧ mergedUpper s p = false ∧ h.perst = false ∧ h.d3cold = false ∧ h.d3 = false) ∧
    (∃ (s : State) (p : Nat), let h := port s p; mergedUpper s p = false ∧ h.perst = true ∧ h.d3cold = false) :=
  ⟨⟨(port0 (fun h => { h with step := .enter })), 0, by decide +kernel, by decide +kernel⟩,
    ⟨rich, 7, by decide +kernel, by decide +kernel⟩,
    ⟨(port0 (fun h => { h with d3 := true })), 0, by decide +kernel, by decide +kernel⟩,
    ⟨(port0 (fun h => { h with step := .drain, latestD3 := true })), 0, by decide +kernel, by decide +kernel⟩,
    ⟨(port0 (fun h => { h with step := .enter, latestD3 := true })), 0, by decide +kernel, by decide +kernel⟩,
    ⟨(port0 (fun h => { h with step := .resume })), 0, by decide +kernel, by decide +kernel⟩,
    ⟨(cfgSet (regSet rich (Reg.hpLinkCfg 0) 0x08) 0 0 Cfg.linkCtl 2), 0, by decide +kernel, by decide +kernel⟩,
    ⟨(regSet (port0 (fun h => { h with flit := true, l0pWidth := 4 })) (Reg.hpLinkCfg 0) 0x2000), 0, by decide +kernel, by decide +kernel⟩,
    ⟨rich, 0, by decide +kernel⟩,
    ⟨(port0 (fun h => { h with flit := true })), 0, 16, by decide +kernel, by decide +kernel⟩,
    ⟨rich, 7, by decide +kernel, by decide +kernel⟩,
    ⟨(port0 (fun h => { h with perst := true })), 0, by decide +kernel, by decide +kernel⟩⟩

theorem witness_PortPowerAndResets_2 :
    (∃ (s : State) (p : Nat), let h := port s p; mergedUpper s p = false ∧ h.link = true ∧ h.d3 = false) ∧
    (∃ (s : State) (p : Nat) (speed : _) (width : _), let h := port s p; p < 8 ∧ h.link = false ∧ h.perst = false ∧ h.ltssmHeld = false ∧
      mergedUpper s p = false ∧ (dom s p).st = .on ∧ 0 < speed ∧ speed ≤ speedCap s p ∧ width ∈ [1, 2, 4, 8, 16] ∧ width ≤ portWidth s p ∧
      anyTest s (8 * p) (portWidth s p) = false) ∧
    (∃ (s : State) (p : Nat), let h := port s p; h.link = true ∧ h.d3 = false) ∧
    (∃ (s : State) (p : Nat), let h := port s p; h.ltssmHeld = true ∧ h.perst = false ∧ h.inserted = false ∧ mergedUpper s p = false) ∧
    (∃ (s : State) (p : Nat) (e : LinkErr), let h := port s p; h.link = true ∧ e ≠ .malformedTlp) ∧
    (∃ (s : State) (p : Nat) (r : _) (src : _), let h := port s p; Rings r src s ∧ Served s src 0x29 ∧ p < 8 ∧ h.contained = true ∧
      mergedUpper s p = false) ∧
    (∃ (s : State) (r : _) (src : _) (pair : _), Rings r src s ∧ Served s src 0x2A ∧ pair < 4 ∧ keepBusy s = false) :=
  ⟨⟨rich, 0, by decide +kernel, by decide +kernel⟩,
    ⟨(cfgSet (setPort rich 7 {}) 7 0 Cfg.linkCtl2 6), 7, 6, 8, by decide +kernel, by decide +kernel⟩,
    ⟨rich, 0, by decide +kernel, by decide +kernel⟩,
    ⟨(port0 (fun h => { h with link := false, ltssmHeld := true })), 0, by decide +kernel, by decide +kernel⟩,
    ⟨rich, 0, .badTlp, by decide +kernel, by decide +kernel⟩,
    ⟨(tick8 (port0 (fun h => { h with contained := true }))), 0, (port0 (fun h => { h with contained := true })), 8,
      rings_of (by decide +kernel), served_of (by decide +kernel), by decide +kernel⟩,
    ⟨(tick8 rich), rich, 8, 3, rings_of (by decide +kernel), served_of (by decide +kernel), by decide +kernel⟩⟩

theorem witness_WindowCommands :
    (∃ (r : State) (s : State) (src : Nat) (ctx : _) (p : _) (f : _) (n : _), Rings r src s ∧ Served s src 0x35 ∧ Live s ctx ∧ p < 8 ∧
      fnOwned s ctx p f = true ∧ (managerPort s p = true ∨ ctx ≠ mgt) ∧ mergedUpper s p = false ∧
      Tab.lowestFree s.fn.windows 0 16384 = some n ∧ winHeld s ctx < winLimit s ctx) ∧
    (∃ (r : State) (s : State) (src : Nat) (i : Nat) (w : _), Rings r src s ∧ Served s src 0x36 ∧ window? s i = some w ∧
      ctxFrozen s w.ctx = false ∧ wValid w.live = false ∧ (tack s w.port w.fn).draining = none) ∧
    (∃ (r : State) (s : State) (src : Nat) (i : Nat) (w : _) (e : BitVec 128), Rings r src s ∧ Served s src 0x37 ∧ fld e.toNat 54 10 = 0 ∧
      fld e.toNat 88 40 = 0 ∧ window? s i = some w ∧ ctxFrozen s w.ctx = false ∧ (tack s w.port w.fn).held = false) ∧
    (∃ (r : State) (s : State) (src : Nat) (p : _) (f : _), Rings r src s ∧ Served s src 0x38 ∧ p < 8 ∧ f < 256 ∧ mergedUpper s p = false ∧
      boundTo s p f = none ∧ (tack s p f).held = false ∧ (tack s p f).draining = none ∧
      (tack (applyTack (accepted s src) p f) p f).last = 0) ∧
    (∃ (r : State) (s : State) (src : Nat) (tid : _) (n : _), Rings r src s ∧ Served s src 0x39 ∧ tid < mgt ∧ Live s tid ∧ n ≤ 16384) ∧
    (∃ (s : State) (p : _) (w : _), managerPort s p = true ∧ window? s (regNat s Reg.fnWinSel) = some w ∧ (tack s w.port w.fn).held = false) ∧
    (∃ (s : State) (p : _) (v : Word), managerPort s p = true ∧ postedAhead s p = false ∧
      (tack s (fld v.toNat 0 3) (fld v.toNat 3 8)).held = false ∧ (tack s (fld v.toNat 0 3) (fld v.toNat 3 8)).draining = none) ∧
    (∃ (s : State) (p : _) (f : _) (l : _), (tack s p f).draining = some l ∧
      (tack s p f).waits.any (fun k => s.ru.waiting.contains k) = false) :=
  ⟨⟨rich, (tick8 rich), 8, 5, 1, 3, 0, rings_of (by decide +kernel), served_of (by decide +kernel), live_of (by decide +kernel),
      by decide +kernel⟩,
    ⟨(setWindow rich 0 { window0 with live := 0 }), (tick8 (setWindow rich 0 { window0 with live := 0 })), 8, 0, _,
      rings_of (by decide +kernel), served_of (by decide +kernel), rfl, by decide +kernel⟩,
    by refine ⟨windowed, (tick8 windowed), 8, 0, _, 0x69, rings_of (by decide +kernel), served_of (by decide +kernel), ?_, ?_, rfl,
      ?_⟩ <;> decide +kernel,
    ⟨rich, (tick8 rich), 8, 1, 4, rings_of (by decide +kernel), served_of (by decide +kernel), by decide +kernel⟩,
    ⟨rich, (tick8 rich), 8, 5, 16384, rings_of (by decide +kernel), served_of (by decide +kernel), by decide +kernel,
      live_of (by decide +kernel), by decide +kernel⟩,
    ⟨windowed, 0, _, by decide +kernel, rfl, by decide +kernel⟩,
    ⟨windowed, 0, 0x1B, by decide +kernel⟩,
    ⟨(setTack rich 1 3 { draining := some [0] }), 1, 3, [0], by decide +kernel⟩⟩

theorem witness_TackIsAtomic :
    (∃ (s : State) (p : Nat) (f : Nat) (i : Nat) (w : Window), let u := applyTack s p f; window? s i = some w ∧ w.port = p ∧ w.fn = f ∧
      Tab.sorted s.fn.windows = true ∧ (tack u p f).last = 0) ∧
    (∃ (s : State) (p : Nat) (f : Nat) (i : Nat) (w : Window), let u := applyTack s p f; window? s i = some w ∧ w.port = p ∧ w.fn = f ∧
      Tab.sorted s.fn.windows = true ∧ (tack u p f).last ≠ 0) :=
  ⟨⟨windowed, 1, 3, 0, _, rfl, by decide +kernel⟩,
    ⟨(setWindow rich 0 { window0 with staged := 0x69 + 2 ^ 64 }), 1, 3, 0, _, rfl, by decide +kernel⟩⟩

theorem witness_FunctionResets :
    (∃ (s : State) (p : Nat) (f : Nat), 0 < f ∧ f < 256 ∧ vfPresented s p f = true ∧ boundTo s p f = none) ∧
    (∃ (s : State) (p : Nat) (f : Nat) (tid : Nat) (b : _), 0 < f ∧ f < 256 ∧ vfPresented s p f = true ∧ boundTo s p f = some (tid, b)) ∧
    (∃ (s : State) (p : Nat), p < 8 ∧ mergedUpper s p = false) ∧
    (∃ (s : State) (tid : Nat) (x : _), flr? s tid = some x ∧ quiesced s tid = true ∧ s.th.safe = false) ∧
    (∃ (s : State) (p : Nat), p < 8 ∧ cfgBit s p 0 Cfg.sriovCtl 0 = true ∧ boundOn s p = []) ∧
    (∃ (s : State) (b : _) (rest : _), s.fn.notices = b :: rest ∧ Admits s mgtQueue 7 (mkTag mgt 1) b.length) :=
  ⟨⟨rich, 1, 16, by decide +kernel⟩,
    by refine ⟨rich, 1, 3, 5, _, ?_, ?_, ?_, rfl⟩ <;> decide +kernel,
    ⟨rich, 7, by decide +kernel⟩,
    ⟨{ rich with fn := { rich.fn with flrs := [(5, { fns := [(1, 3)] })] } }, 5, _, rfl, by decide +kernel⟩,
    ⟨rich, 0, by decide +kernel⟩,
    ⟨{ rich with fn := { rich.fn with notices := [fill 16 1] } }, (fill 16 1), [], by decide +kernel, admits_of (by decide +kernel)⟩⟩

theorem witness_DirtyLogs :
    (∃ (r : State) (s : State) (src : Nat) (tid : Nat) (p : Nat) (low : _) (span : _) (a : _) (b : _) (u : _) (l : _), Rings r src s ∧
      Served s src 0x3A ∧ tid < mgt ∧ Live s tid ∧ logBad s tid p low span a b = false ∧ dirtyLog? s tid p = none ∧ mayPost s p = true ∧
      takeShadow (cdiv span (2 ^ 36)) (accepted s src) [] = some (u, l)) ∧
    (∃ (r : State) (s : State) (src : Nat) (tid : Nat) (p : Nat) (l : _), Rings r src s ∧ Served s src 0x3B ∧ Live s tid ∧
      dirtyLog? s tid p = some l ∧ mayPost s p = true) ∧
    (∃ (r : State) (s : State) (src : Nat) (tid : Nat) (p : Nat) (l : _), Rings r src s ∧ Served s src 0x3C ∧ Live s tid ∧
      dirtyLog? s tid p = some l ∧ mayPost s p = true) ∧
    (∃ (s : State) (tid : Nat) (p : Nat) (n : Nat) (l : DirtyLog) (rest : List Nat), dirtyLog? s tid p = some l ∧ l.lines = n :: rest ∧
      mayPost s p = true) ∧
    (∃ (s : State) (tag : BitVec 11) (p : Nat) (page : Nat) (l : DirtyLog), let i := page - l.low / 4096; let a := shadowAt l (i / 8);
      dirtyLog? s (tagCtx tag) p = some l ∧ l.low % 4096 = 0 ∧ l.low ≤ 4096 * page ∧ 4096 * page < l.low + l.span ∧ mirrors s a = false ∧
      Tab.get [] s.mp.upsets (a / 64) = []) ∧
    (∃ (s : State) (tag : BitVec 11) (p : Nat) (page : Nat) (l : DirtyLog) (b : _), let i := page - l.low / 4096;
      let a := shadowAt l (i / 8); dirtyLog? s (tagCtx tag) p = some l ∧ l.low % 4096 = 0 ∧ l.low ≤ 4096 * page ∧
      4096 * page < l.low + l.span ∧ mirrors s a = false ∧ Tab.get [] s.mp.upsets (a / 64) = [] ∧ b ≠ a) ∧
    (∃ (s : State) (tag : BitVec 11) (p : Nat) (page : Nat) (l : DirtyLog), dirtyLog? s (tagCtx tag) p = some l ∧ l.low % 4096 = 0 ∧
      (4096 * page < l.low ∨ l.low + l.span ≤ 4096 * page)) :=
  ⟨by refine ⟨rich, (tick8 rich), 8, 5, 1, 0, (2 ^ 36), 0, 64, _, _, rings_of (by decide +kernel), served_of (by decide +kernel), ?_,
      live_of (by decide +kernel), ?_, ?_, mayPost_of (by decide +kernel), somePair_of (State.reset,
      []) (by decide +kernel)⟩ <;> decide +kernel,
    ⟨logged, (tick8 logged), 8, 5, 1, _, rings_of (by decide +kernel), served_of (by decide +kernel), live_of (by decide +kernel), rfl,
      mayPost_of (by decide +kernel)⟩,
    ⟨logged, (tick8 logged), 8, 5, 1, _, rings_of (by decide +kernel), served_of (by decide +kernel), live_of (by decide +kernel), rfl,
      mayPost_of (by decide +kernel)⟩,
    ⟨logged, 5, 1, 0, _, [], rfl, rfl, mayPost_of (by decide +kernel)⟩,
    ⟨logged, (mkTag 5 1), 1, 8, _, rfl, by decide +kernel⟩,
    ⟨logged, (mkTag 5 1), 1, 8, _, 12345, rfl, by decide +kernel⟩,
    ⟨logged, (mkTag 5 1), 1, 9, _, rfl, by decide +kernel⟩⟩

theorem witness_TenantCommands :
    (∃ (r : State) (s : State) (src : Nat) (t : Nat) (cells : _) (queues : _) (granules : _) (channels : _) (windows : _) (contexts : _),
      Rings r src s ∧ Served s src 0x2B ∧ freeTid s = some t ∧ outOf 64 262144 cells = false ∧ outOf 0 16383 queues = false ∧
      outOf 0 131072 granules = false ∧ outOf 0 16 channels = false ∧ outOf 0 16384 windows = false ∧ outOf 0 65536 contexts = false) ∧
    (∃ (r : State) (s : State) (src : Nat) (t : Nat) (p : _) (vf : _) (vectors : _) (cls : _) (rep : Option Nat) (f : _),
      let old := if rep = some p then vfOn s t p else none; Rings r src s ∧ Served s src 0x2C ∧ ctxMissing s t = false ∧
      ((ctxFrozen s t = true → rep.isSome = true)) ∧ bindBad s t p vf vectors cls rep old = false ∧ pickVf s p vf old = some f ∧
      vectors ≤ ivFree s p + (old.map (fnVectors s p)).getD 0 ∧ ((∀ k, rep = some k → fnNamed s k ((vfOn s t k).getD 0) = false))) ∧
    (∃ (r : State) (s : State) (src : Nat) (t : Nat) (p : _) (f : _), Rings r src s ∧ Served s src 0x2D ∧ t < mgt ∧ Live s t ∧
      vfOn s t p = some f ∧ fnNamed s p f = false) ∧
    (∃ (r : State) (s : State) (src : Nat) (t : Nat), Rings r src s ∧ Served s src 0x2E ∧ t < mgt ∧ Live s t ∧
      ((tenant s t).st = .bound ∨ (tenant s t).st = .quiesced)) ∧
    (∃ (r : State) (s : State) (src : Nat) (t : Nat), Rings r src s ∧ Served s src 0x30 ∧ t < mgt ∧ ctxMissing s t = false ∧
      (tenant s t).mgrCause = true) ∧
    (∃ (s : State) (t : Nat), freeTid s = some t) ∧
    (∃ (s : State) (t : Nat), freeTid s = some t ∧ s.sm.enable = true) ∧
    (∃ (s : State) (t : Nat), freeTid s = none ∧ t < 256 ∧ ((s.sm.enable = true → (s.sm.role = true ↔ 128 ≤ t)))) ∧
    (∃ (t : Nat) (n : _), n ≠ t) ∧
    (∃ (s : State) (t : Nat), (tenant s t).mgrCause = false ∧ (tenant s t).containCause = false) :=
  ⟨⟨rich, (tick8 rich), 8, _, (some 262144), (some 16383), (some 131072), (some 16), (some 16384), (some 65536),
      rings_of (by decide +kernel), served_of (by decide +kernel),
      oneOf_some (List.ne_nil_of_mem ((mem_freeTids (t := 0)).mpr (by decide +kernel))), by decide +kernel⟩,
    by refine ⟨rich, (tick8 rich), 8, 6, 1, none, 2048, 3, none, _, rings_of (by decide +kernel), served_of (by decide +kernel), ?_, ?_, ?_,
      oneOf_some (by decide +kernel), ?_, fun _ h => nomatch h⟩ <;> decide +kernel,
    ⟨rich, (tick8 rich), 8, 5, 1, 3, rings_of (by decide +kernel), served_of (by decide +kernel), by decide +kernel,
      live_of (by decide +kernel), by decide +kernel⟩,
    ⟨rich, (tick8 rich), 8, 7, rings_of (by decide +kernel), served_of (by decide +kernel), by decide +kernel, live_of (by decide +kernel),
      by decide +kernel⟩,
    ⟨(ten5 (fun t => { t with mgrCause := true })), (tick8 (ten5 (fun t => { t with mgrCause := true }))), 8, 5,
      rings_of (by decide +kernel), served_of (by decide +kernel), by decide +kernel⟩,
    ⟨rich, _, oneOf_some (List.ne_nil_of_mem ((mem_freeTids (t := 0)).mpr (by decide +kernel)))⟩,
    ⟨(paired rich), _, oneOf_some (List.ne_nil_of_mem ((mem_freeTids (t := 0)).mpr (by decide +kernel))), by decide +kernel⟩,
    ⟨allTids, 255, (congrArg (oneOf allTids 0) (by decide +kernel : freeTids allTids = [])).trans (oneOf_nil _ _), by decide +kernel⟩,
    ⟨0, 255, by decide +kernel⟩,
    ⟨rich, 5, by decide +kernel⟩⟩

theorem witness_TenantTransitions :
    (∃ (s : State) (b : _), let x := savedIn s b; x.programs = [] ∧ x.insts = [] ∧ x.bindings = [] ∧ x.queueTab = [] ∧ x.chans = [] ∧
      x.rwins = [] ∧ x.windows = []) ∧
    (∃ (r : State) (s : State) (src : Nat) (t : Nat), Rings r src s ∧ Served s src 0x2F ∧ t < mgt ∧
      ((tenant s t).st = .running ∨ (tenant s t).st = .frozen) ∧ chansPaused (freezeByManager (accepted s src) t) t = true) ∧
    (∃ (r : State) (s : State) (src : Nat) (t : Nat), Rings r src s ∧ Served s src 0x2F ∧ t < mgt ∧ (tenant s t).st = .running ∧
      chansPaused (freezeByManager (accepted s src) t) t = false) ∧
    (∃ (r : State) (s : State) (src : Nat) (t : Nat),
      let q := quiesceTenant ((tenantFns s t).foldl dropPushes (setTenant (accepted s src) t { tenant s t with quiescing := true })) t;
      Rings r src s ∧ Served s src 0x31 ∧ t < mgt ∧ ((tenant s t).st = .running ∨ (tenant s t).st = .frozen) ∧
      (tenant s t).quiescing = false ∧ quiesced q t = true ∧ q.th.safe = false) ∧
    (∃ (r : State) (s : State) (src : Nat) (t : Nat),
      let c := closeAll (setTenant (accepted s src) t { tenant s t with st := .removed, removing := true }) t; Rings r src s ∧
      Served s src 0x32 ∧ t < mgt ∧ ((tenant s t).st = .bound ∨ (tenant s t).st = .quiesced) ∧ (tenant s t).removing = false ∧
      connsOpen c t = false) ∧
    (∃ (r : State) (s : State) (src : Nat) (t : Nat) (p : _) (n : _),
      let b := setTenant (accepted s src) t { tenant s t with saving := true }; let img := saveImage t (savedOf b t) (freeWord b).toNat;
      Rings r src s ∧ Served s src 0x33 ∧ t < mgt ∧ (tenant s t).st = .frozen ∧ (tenant s t).saving = false ∧ hostNameable s p = true ∧
      s.th.safe = false ∧ flr? s t = none ∧ mayPost s p = true ∧ img.length ≤ n) ∧
    (∃ (r : State) (s : State) (src : Nat) (t : Nat) (p : _) (n : _) (slots : _) (b : _) (u : _), Rings r src s ∧ Served s src 0x34 ∧
      t < mgt ∧ Live s t ∧ (tenant s t).st = .bound ∧ hostNameable s p = true ∧ s.th.safe = false ∧ b.length = n ∧ saveImageOk b n = true ∧
      mappingBad s t (savedIn s b) slots = false ∧ installTenant (accepted s src) t (savedIn s b) slots = some u) :=
  ⟨⟨{ rich with saves := [(emptySave, {})] }, emptySave, by decide +kernel, by decide +kernel⟩,
    ⟨rich, (tick8 rich), 8, 5, rings_of (by decide +kernel), served_of (by decide +kernel), by decide +kernel⟩,
    ⟨(setChan rich 0 { chan0 with fetched := [{ pos := 0, bytes := 1 :: 0x10 :: fill 62 0, started := true, length := 64, issued := 64, beats := [{ off := 0, len := 64 }] }] }),
      (tick8 (setChan rich 0 { chan0 with fetched := [{ pos := 0, bytes := 1 :: 0x10 :: fill 62 0, started := true, length := 64, issued := 64, beats := [{ off := 0, len := 64 }] }] })),
      8, 5, rings_of (by decide +kernel), served_of (by decide +kernel), by decide +kernel⟩,
    ⟨(setTenant { rich with qm := { rich.qm with queues := [] } } 5 { tenant rich 5 with st := .frozen }),
      (tick8 (setTenant { rich with qm := { rich.qm with queues := [] } } 5 { tenant rich 5 with st := .frozen })), 8, 5,
      rings_of (by decide +kernel), served_of (by decide +kernel), by decide +kernel⟩,
    ⟨rich, (tick8 rich), 8, 7, rings_of (by decide +kernel), served_of (by decide +kernel), by decide +kernel⟩,
    by refine ⟨(ten5 (fun t => { t with st := .frozen })), (tick8 (ten5 (fun t => { t with st := .frozen }))), 8, 5, 0, _,
      rings_of (by decide +kernel), served_of (by decide +kernel), ?_, ?_, ?_, ?_, ?_, ?_, mayPost_of (by decide +kernel),
      Nat.le_refl _⟩ <;> decide +kernel,
    by refine ⟨{ rich with saves := [(emptySave, {})] }, (tick8 { rich with saves := [(emptySave, {})] }), 8, 7, 0, 96, [], emptySave, _,
      rings_of (by decide +kernel), served_of (by decide +kernel), ?_, live_of (by decide +kernel), ?_, ?_, ?_, ?_, ?_, ?_,
      some_of State.reset (by decide +kernel)⟩ <;> decide +kernel⟩

theorem witness_DoorbellsAndFences :
    (∃ (s : State) (who : FnRef) (t : Nat) (b : Bind) (n : _), who.fn ≠ 0 ∧ n < 64 ∧ Posts s who (0x1000 + 8 * n) 8 ∧
      boundTo s who.port who.fn = some (t, b)) ∧
    (∃ (s : State) (who : FnRef) (t : Nat) (b : Bind), who.fn ≠ 0 ∧ gate s who.port who.fn 0 0x18 8 false = .serve ∧
      boundTo s who.port who.fn = some (t, b) ∧ (s.sm.mode ≠ .inSync ∨ (Tab.get 0 s.sm.portJsn who.port ≤ s.sm.jsnAcked ∧
      mirrorWaits s who.port = false))) ∧
    (∃ (s : State) (who : FnRef), who.fn = 0 ∧ gate s who.port 0 0 0x700070 8 false = .serve ∧ managerPort s who.port = true ∧
      (s.sm.mode ≠ .inSync ∨ (s.sm.jsnAcked = s.sm.jsnSent ∧ ∀ p, p < 8 → mirrorWaits s p = false))) :=
  ⟨⟨rich, ⟨1, 3⟩, 5, _, 63, by decide +kernel, by decide +kernel, posts_of (by decide +kernel), rfl⟩,
    by refine ⟨(paired rich), ⟨1, 3⟩, 5, _, ?_, ?_, rfl, ?_⟩ <;> decide +kernel,
    ⟨(paired rich), ⟨0, 0⟩, by decide +kernel⟩⟩

theorem witness_PairCommands :
    (∃ (r : State) (s : State) (src : Nat), Rings r src s ∧ Served s src 0x3D ∧ s.mg.keepDue ≤ s.now) ∧
    (∃ (r : State) (s : State) (src : Nat), Rings r src s ∧ Served s src 0x3E ∧ mayJoin s = true ∧ s.sm.linkUp = true ∧ s.sm.hello = true) ∧
    (∃ (r : State) (s : State) (src : Nat) (t : Nat), Rings r src s ∧ Served s src 0x3F ∧ t < mgt ∧ ctxMissing s t = false ∧
      s.sm.mode = .inSync ∧ (tenant s t).enrolled = true) ∧
    (∃ (r : State) (s : State) (src : Nat) (t : Nat), Rings r src s ∧ Served s src 0x3F ∧ t < mgt ∧ ctxMissing s t = false ∧
      s.sm.mode = .inSync ∧ (tenant s t).enrolled = false) ∧
    (∃ (r : State) (s : State) (src : Nat) (t : Nat), Rings r src s ∧ Served s src 0x3F ∧ t < mgt ∧ ctxMissing s t = false ∧
      s.sm.mode ≠ .inSync) ∧
    (∃ (r : State) (s : State) (src : Nat) (t : Nat), Rings r src s ∧ Served s src 0x40 ∧ t < mgt ∧ ctxMissing s t = false ∧
      (tenant s t).enrolled = true ∧ s.sm.mode ≠ .inSync) ∧
    (∃ (r : State) (s : State) (src : Nat) (t : Nat), Rings r src s ∧ Served s src 0x40 ∧ t < mgt ∧ ctxMissing s t = false ∧
      (tenant s t).enrolled = true ∧ s.sm.mode = .inSync) ∧
    (∃ (r : State) (s : State) (src : Nat) (i : _) (pi : _) (x : _), let p := program? s x.program; Rings r src s ∧ Served s src 0x41 ∧
      inst? s i = some x ∧ pi < 512 ∧ shadowCtx s ((p.map (fun p => p.ctx)).getD mgt) = true) ∧
    (∃ (r : State) (s : State) (src : Nat), Rings r src s ∧ Served s src 0x42 ∧ s.sm.mode = .inSync) ∧
    (∃ (r : State) (s : State) (src : Nat), Rings r src s ∧ Served s src 0x43 ∧ s.sm.fenceOut = true) ∧
    (∃ (s : State) (t : Nat) (code : _) (w : _), s.sm.linkUp = true ∧
      s.sm.replies.find? (fun w => w.code == code && w.tid == t && w.status.isNone) = some w) ∧
    (∃ (s : State) (src : Nat) (w : _), s.sm.replies.find? (fun w => w.src == src && w.status.isNone) = some w) :=
  ⟨⟨rich, (tick8 rich), 8, rings_of (by decide +kernel), served_of (by decide +kernel), by decide +kernel⟩,
    ⟨{ rich with sm := { rich.sm with linkUp := true, hello := true } },
      (tick8 { rich with sm := { rich.sm with linkUp := true, hello := true } }), 8, rings_of (by decide +kernel),
      served_of (by decide +kernel), by decide +kernel⟩,
    ⟨(paired rich), (tick8 (paired rich)), 8, 5, rings_of (by decide +kernel), served_of (by decide +kernel), by decide +kernel⟩,
    ⟨(paired rich), (tick8 (paired rich)), 8, 6, rings_of (by decide +kernel), served_of (by decide +kernel), by decide +kernel⟩,
    ⟨rich, (tick8 rich), 8, 6, rings_of (by decide +kernel), served_of (by decide +kernel), by decide +kernel⟩,
    ⟨(ten5 (fun t => { t with enrolled := true })), (tick8 (ten5 (fun t => { t with enrolled := true }))), 8, 5,
      rings_of (by decide +kernel), served_of (by decide +kernel), by decide +kernel⟩,
    ⟨(paired rich), (tick8 (paired rich)), 8, 5, rings_of (by decide +kernel), served_of (by decide +kernel), by decide +kernel⟩,
    ⟨(ten5 (fun t => { t with shadow := true })), (tick8 (ten5 (fun t => { t with shadow := true }))), 8, 0, 511, _,
      rings_of (by decide +kernel), served_of (by decide +kernel), rfl, by decide +kernel⟩,
    ⟨mirror, (tick8 mirror), 8, rings_of (by decide +kernel), served_of (by decide +kernel), by decide +kernel⟩,
    ⟨{ rich with sm := { rich.sm with fenceOut := true } }, (tick8 { rich with sm := { rich.sm with fenceOut := true } }), 8,
      rings_of (by decide +kernel), served_of (by decide +kernel), by decide +kernel⟩,
    ⟨{ rich with sm := { rich.sm with linkUp := true, replies := [{ src := 8, code := 0x3F, tid := 6, due := 0 }] } }, 6, 0x3F,
      { src := 8, code := 0x3F, tid := 6, due := 0 }, by decide +kernel⟩,
    ⟨{ rich with sm := { rich.sm with replies := [{ src := 8, code := 0x3F, tid := 6, due := 0 }] } }, 8,
      { src := 8, code := 0x3F, tid := 6, due := 0 }, by decide +kernel⟩⟩

theorem witness_SeamRecords_1 :
    (∃ (s : State) (r : SeamRecord) (g : _), let a := r.target.toNat; receiving s = true ∧ r.jsn = s.sm.jsnApplied + 1 ∧
      r.body.length ≤ 4096 ∧ Tab.find s.sm.granMap (a / granuleBytes) = some g ∧ r.body ≠ [] ∧
      a % granuleBytes + r.body.length ≤ granuleBytes) ∧
    (∃ (s : State) (r : SeamRecord) (g : _), let a := r.target.toNat; receiving s = true ∧ r.jsn = s.sm.jsnApplied + 1 ∧
      r.body.length ≤ 4096 ∧ Tab.find s.sm.granMap a = some g ∧ a < 2 ^ 17 ∧ r.aux = 0 ∧ r.body = []) ∧
    (∃ (s : State) (r : SeamRecord), let a := r.target.toNat; receiving s = true ∧ r.jsn = s.sm.jsnApplied + 1 ∧ r.body.length ≤ 4096 ∧
      a < 2 ^ 18 ∧ r.aux.toNat < 2 ^ 17 ∧ r.body = [] ∧ shadowCtx s (tagCtx r.tag) = true ∧ bit a 17 = true) ∧
    (∃ (s : State) (r : SeamRecord) (own : _), let a := r.target.toNat; receiving s = true ∧ r.jsn = s.sm.jsnApplied + 1 ∧
      r.body.length ≤ 4096 ∧ a < 2 ^ 18 ∧ r.aux.toNat < 2 ^ 17 ∧ r.body = [] ∧ shadowCtx s (tagCtx r.tag) = true ∧ bit a 17 = false ∧
      Tab.find s.sm.granMap (fld a 0 17) = some own) ∧
    (∃ (s : State) (r : SeamRecord) (x : _), let a := r.target.toNat; let q := fld a 0 14; receiving s = true ∧
      r.jsn = s.sm.jsnApplied + 1 ∧ r.body.length ≤ 4096 ∧ queue? s q = some x ∧ x.ctx = tagCtx r.tag ∧ shadowCtx s x.ctx = true ∧
      a < 2 ^ 17 ∧ r.aux.toNat = r.body.length ∧ r.body ≠ [] ∧ cellsOf r.body.length ≤ freeCells s ∧ s.sm.linkHeld = none) ∧
    (∃ (s : State) (r : SeamRecord) (x : _) (i : _), let a := r.target.toNat; let q := fld a 0 14; let p := fld a 14 3; receiving s = true ∧
      r.jsn = s.sm.jsnApplied + 1 ∧ r.body.length ≤ 4096 ∧ queue? s q = some x ∧ x.ctx = tagCtx r.tag ∧ shadowCtx s x.ctx = true ∧
      a < 2 ^ 17 ∧ r.aux.toNat < 4 ∧ r.body = [] ∧ x.items.find? (fun i => i.prio == p) = some i) ∧
    (∃ (s : State) (r : SeamRecord) (x : _), let a := r.target.toNat; let q := fld a 0 14; receiving s = true ∧
      r.jsn = s.sm.jsnApplied + 1 ∧ r.body.length ≤ 4096 ∧ queue? s q = some x ∧ x.ctx = tagCtx r.tag ∧ shadowCtx s x.ctx = true ∧
      a < 2 ^ 14 ∧ r.aux = 0 ∧ r.body = []) ∧
    (∃ (s : State) (r : SeamRecord) (x : _), let a := r.target.toNat; let q := fld a 0 14; receiving s = true ∧
      r.jsn = s.sm.jsnApplied + 1 ∧ r.body.length ≤ 4096 ∧ queue? s q = some x ∧ x.ctx = tagCtx r.tag ∧ shadowCtx s x.ctx = true ∧
      a < 2 ^ 14 ∧ r.aux = 1 ∧ r.body = []) ∧
    (∃ (s : State) (r : SeamRecord) (kind : _) (n : _), let a := r.target.toNat; receiving s = true ∧ r.jsn = s.sm.jsnApplied + 1 ∧
      r.body.length ≤ 4096 ∧ a = kind + 65536 * n ∧ n < 65536 ∧ r.aux = 0 ∧ numberTaken s kind n = false ∧ kind = 1) ∧
    (∃ (s : State) (r : SeamRecord) (kind : _) (n : _), let a := r.target.toNat; receiving s = true ∧ r.jsn = s.sm.jsnApplied + 1 ∧
      r.body.length ≤ 4096 ∧ a = kind + 65536 * n ∧ n < 65536 ∧ r.aux = 0 ∧ numberTaken s kind n = false ∧ kind = 2 ∧
      shadowCtx s (tagCtx r.tag) = true) ∧
    (∃ (s : State) (r : SeamRecord) (kind : _) (n : _), let a := r.target.toNat; receiving s = true ∧ r.jsn = s.sm.jsnApplied + 1 ∧
      r.body.length ≤ 4096 ∧ a = kind + 65536 * n ∧ n < 65536 ∧ r.aux = 0 ∧ numberTaken s kind n = false ∧ 3 ≤ kind ∧ kind ≤ 8 ∧
      (shadowCtx s (tagCtx r.tag) = true ∨ kind = 6 ∨ kind = 8)) ∧
    (∃ (s : State) (r : SeamRecord), let a := r.target.toNat; receiving s = true ∧ r.jsn = s.sm.jsnApplied + 1 ∧ r.body.length ≤ 4096 ∧
      a < 2 ^ 29 ∧ fld a 12 6 = 0 ∧ r.body ≠ [] ∧ fld a 12 17 + r.body.length ≤ 131072) :=
  ⟨⟨mirror, (jrec (8 * 2 ^ 21 - 64) 0 (fill 64 1)), 1, by decide +kernel, by decide +kernel⟩,
    ⟨mirror, (jrec 7 0 []), 1, by decide +kernel, by decide +kernel⟩,
    ⟨mirror, (jrec (2 ^ 17 + 7) 0 []), by decide +kernel, by decide +kernel⟩,
    ⟨mirror, (jrec 7 131071 []), 1, by decide +kernel, by decide +kernel⟩,
    by refine ⟨mirror, (jrec (7 * 2 ^ 14 + 11) 256 (fill 256 1)), _, ?_, ?_, ?_, rfl, ?_⟩ <;> decide +kernel,
    by refine ⟨(let s := withItem mirror 11 6; s), (jrec (7 * 2 ^ 14 + 11) 3 []), _, _, ?_, ?_, ?_, rfl, ?_, ?_, ?_, ?_, ?_,
      rfl⟩ <;> decide +kernel,
    by refine ⟨mirror, (jrec 11 0 []), _, ?_, ?_, ?_, rfl, ?_⟩ <;> decide +kernel,
    by refine ⟨mirror, (jrec 11 1 []), _, ?_, ?_, ?_, rfl, ?_⟩ <;> decide +kernel,
    ⟨mirror, (jrec (1 + 65536 * 255) 0 [1]), 1, 255, by decide +kernel, by decide +kernel⟩,
    ⟨mirror, (jrec (2 + 65536 * 16382) 0 [1]), 2, 16382, by decide +kernel, by decide +kernel⟩,
    ⟨mirror, (jrec (8 + 65536 * 0) 0 [1]), 8, 0, by decide +kernel, by decide +kernel⟩,
    ⟨mirror, (jrec (24 + 4096 * 131008) 0 (fill 64 1)), by decide +kernel, by decide +kernel⟩⟩

theorem witness_SeamRecords_2 :
    (∃ (s : State) (r : SeamRecord), let a := r.target.toNat; receiving s = true ∧ r.jsn = s.sm.jsnApplied + 1 ∧ r.body.length ≤ 4096 ∧
      a < 2 ^ 12 ∧ r.aux = 0 ∧ r.body.length = 1280) ∧
    (∃ (s : State) (r : SeamRecord), let a := r.target.toNat; receiving s = true ∧ r.jsn = s.sm.jsnApplied + 1 ∧ r.body.length ≤ 4096 ∧
      s.sm.mode = .joining ∧ r.body = [] ∧ a = 0) ∧
    (∃ (s : State) (r : SeamRecord), let a := r.target.toNat; receiving s = true ∧ r.jsn = s.sm.jsnApplied + 1 ∧ r.body.length ≤ 4096 ∧
      s.sm.mode = .joining ∧ r.body = [] ∧ a = 1) ∧
    (∃ (s : State) (r : SeamRecord) (c : _), c ∈ [Instr.lineWrite r, .granuleZero r, .granuleMap r, .queueLink r, .queueUnlink r,
      .queueReset r, .object r, .thread r, .scratch r, .mark r] ∧ receiving s = true ∧ s.sm.resending = false ∧ r.jsn ≠ s.sm.jsnApplied + 1) :=
  ⟨⟨mirror, (jrec 4095 0 (fill 1280 1)), by decide +kernel, by decide +kernel⟩,
    ⟨(sm (fun x => { x with mode := .joining })), (jrec 0 0 []), by decide +kernel, by decide +kernel⟩,
    ⟨(sm (fun x => { x with mode := .joining })), (jrec 1 0 []), by decide +kernel, by decide +kernel⟩,
    ⟨(sm (fun x => { x with jsnApplied := 5 })), (jrec 0 0 []), (.mark (jrec 0 0 [])), by decide +kernel, by decide +kernel⟩⟩

theorem witness_SeamLink_1 :
    (∃ (s : State), s.sm.enable = true ∧ s.sm.linkUp = false ∧ s.sm.trying = 0 ∧ s.sm.conflict = false ∧ seamOn s = true ∧
      anyTest s seamLane 16 = false) ∧
    (∃ (s : State), s.sm.trying = 3 ∧ s.sm.hello = true ∧ s.sm.helloSent = true ∧ s.sm.linkUp = true) ∧
    (∃ (s : State) (k : _), s.sm.trying = k ∧ 1 ≤ k ∧ k < 3 ∧ k < s.sm.partnerHighest ∧ s.sm.hello = true ∧ s.sm.helloSent = true ∧
      s.sm.linkUp = true) ∧
    (∃ (s : State) (k : _), s.sm.trying = k ∧ 1 < k) ∧
    (∃ (s : State), s.sm.linkUp = true) ∧
    (∃ (s : State) (h : HelloMsg), s.sm.enable = true ∧ s.sm.linkUp = true ∧ h.role ≠ s.sm.role ∧ h.arrange = s.et.arrangement ∧
      h.merge = s.hp.merge.toNat ∧ h.stepFsn = 0) ∧
    (∃ (s : State) (h : HelloMsg), s.sm.enable = true ∧ s.sm.linkUp = true ∧ (h.role = s.sm.role ∨ h.arrange ≠ s.et.arrangement)) ∧
    (∃ (s : State) (f : SeamFrame), s.sm.enable = true ∧ s.sm.linkUp = true ∧ f.crcOk = true ∧ f.fsn = (s.sm.rxFsn + 1) % 65536 ∧
      f.malformed = false) ∧
    (∃ (s : State) (f : SeamFrame), s.sm.enable = true ∧ s.sm.linkUp = true ∧ f.crcOk = false) ∧
    (∃ (s : State), s.sm.linkUp = true ∧ s.th.safe = false) ∧
    (∃ (s : State), s.sm.linkUp = true ∧ mayJoin s = true) ∧
    (∃ (s : State), s.sm.linkUp = true ∧ s.sm.mode = .joining) :=
  ⟨⟨{ up with sm := { up.sm with enable := true } }, by decide +kernel⟩,
    ⟨(sm (fun x => { x with trying := 3, helloSent := true })), by decide +kernel⟩,
    ⟨(sm (fun x => { x with trying := 2, helloSent := true, partnerHighest := 3 })), 2, by decide +kernel⟩,
    ⟨(sm (fun x => { x with trying := 3 })), 3, by decide +kernel⟩,
    ⟨mirror, by decide +kernel⟩,
    ⟨mirror, { role := true, highest := 3, arrange := mirror.et.arrangement, merge := mirror.hp.merge.toNat, stepFsn := 0, serial := 0 },
      by decide +kernel⟩,
    ⟨mirror, { role := false, highest := 3, arrange := mirror.et.arrangement, merge := mirror.hp.merge.toNat, stepFsn := 0, serial := 0 },
      by decide +kernel⟩,
    ⟨(sm (fun x => { x with rxFsn := 65535 })), { crcOk := true, kind := 0, fsn := 0, ackJsn := 0, malformed := false }, by decide +kernel⟩,
    ⟨mirror, { crcOk := false, kind := 0, fsn := 0, ackJsn := 0, malformed := false }, by decide +kernel⟩,
    ⟨mirror, by decide +kernel⟩,
    ⟨{ rich with sm := { rich.sm with linkUp := true } }, by decide +kernel⟩,
    ⟨(sm (fun x => { x with mode := .joining })), by decide +kernel⟩⟩

theorem witness_SeamLink_2 :
    ∃ (s : State), let u := resyncPump s; u.th.safe = false ∧ u.sm.mode = .joining ∧ u.sm.objQ = [] ∧ u.sm.copyQ = [] ∧
      u.sm.markSent = false ∧ journalRoom u 1 0 = true :=
  ⟨(sm (fun x => { x with mode := .joining })), by rw [pump_empty (by decide +kernel)]; decide +kernel⟩

theorem witness_HeartbeatAndFencing_1 :
    (∃ (s : State), s.sm.linkUp = true ∧ s.th.safe = false) ∧
    (∃ (s : State), s.sm.linkUp = true ∧ s.th.safe = true) ∧
    (∃ (s : State), s.sm.linkUp = true) ∧
    (∃ (s : State), awaited s = true ∧ s.sm.hbMiss < 8) ∧
    (∃ (s : State), 8 ≤ s.sm.hbMiss ∧ s.sm.mode = .inSync ∧ s.sm.promo = .none ∧ s.sm.role = false) ∧
    (∃ (s : State), 8 ≤ s.sm.hbMiss ∧ s.sm.mode = .inSync ∧ s.sm.promo = .none ∧ s.sm.role = true) ∧
    (∃ (s : State), 8 ≤ s.sm.hbMiss ∧ (s.sm.mode = .joining ∨ s.sm.mode = .unprotected)) ∧
    (∃ (s : State), s.sm.linkUp = true ∧ s.sm.mode = .inSync ∧ s.sm.promo = .none) ∧
    (∃ (s : State), s.sm.promo = .fenceWait) ∧
    (∃ (s : State), s.sm.enable = true ∧ s.sm.mode ≠ .fenced ∧ ignoresFence s = false ∧ s.th.safe = false) ∧
    (∃ (s : State), s.sm.enable = true) ∧
    (∃ (s : State), s.sm.promo = .settle) :=
  ⟨⟨mirror, by decide +kernel⟩,
    ⟨{ mirror with th := { mirror.th with safe := true } }, by decide +kernel⟩,
    ⟨mirror, by decide +kernel⟩,
    ⟨(sm (fun x => { x with hbMiss := 7 })), by decide +kernel⟩,
    ⟨(sm (fun x => { x with hbMiss := 8 })), by decide +kernel⟩,
    ⟨(sm (fun x => { x with hbMiss := 8, role := true })), by decide +kernel⟩,
    ⟨(sm (fun x => { x with hbMiss := 8, mode := .joining })), by decide +kernel⟩,
    ⟨mirror, by decide +kernel⟩,
    ⟨(sm (fun x => { x with promo := .fenceWait })), by decide +kernel⟩,
    ⟨mirror, by decide +kernel⟩,
    ⟨mirror, by decide +kernel⟩,
    ⟨(sm (fun x => { x with promo := .settle })), by decide +kernel⟩⟩

theorem witness_HeartbeatAndFencing_2 :
    ∃ (s : State), s.sm.promo = .promote ∧ s.th.safe = false :=
  ⟨(sm (fun x => { x with promo := .promote })), by decide +kernel⟩

theorem witness_FaultEvents_1 :
    (∃ (s : State) (n : Nat) (index : _) (extra : BitVec 40), Src.used n = true ∧ raisable s n index = true ∧ (¬ (n = Src.qmPtrMismatch ∧
      (queue? s index).isSome = true)) ∧ (¬ (n = Src.hpContained ∧ 1 ≤ fld (BitVec.toNat extra) 0 3 ∧ fld (BitVec.toNat extra) 0 3 ≤ 4))) ∧
    (∃ (s : State) (q : _) (x : _), queue? s q = some x ∧ raisable s Src.qmPtrMismatch q = true) ∧
    (∃ (p : _) (extra : BitVec 40), p < 8 ∧ 1 ≤ fld (BitVec.toNat extra) 0 3 ∧ fld extra.toNat 0 3 ≤ 4) ∧
    (∃ (s : State) (r : _) (rest : _), s.th.highQ = r :: rest) ∧
    (∃ (s : State) (r : _) (rest : _), s.th.highQ = [] ∧ s.th.lowQ = r :: rest ∧ s.th.logTick < 1024) ∧
    (∃ (s : State) (r : _) (rest : _), s.th.highQ = [] ∧ s.th.lowQ = r :: rest ∧ 1024 ≤ s.th.logTick) ∧
    (∃ (s : State) (r : _) (rest : _), s.th.histQ = r :: rest) ∧
    (∃ (n : Nat), Src.used n = true) ∧
    (∃ (r : State) (s : State) (src : Nat) (l : List (Nat × Nat)), Rings r src s ∧ Served s src 0x44 ∧ l.length ≤ 64 ∧ ((∀ e ∈ l,
      Src.used e.1 = true ∧ e.2 ≤ 4))) ∧
    (∃ (r : State) (s : State) (src : Nat) (i : _), Rings r src s ∧ Served s src 0x45 ∧ i < 32 ∧ histWritten s i = true) ∧
    (∃ (r : State) (s : State) (src : Nat) (n : Nat), Rings r src s ∧ Served s src 0x45 ∧ Src.used n = true) ∧
    (∃ (n : Nat), Src.used n = false) :=
  ⟨⟨rich, 609, 0, 0, by decide +kernel⟩,
    ⟨rich, 10, _, rfl, by decide +kernel⟩,
    ⟨7, 4, by decide +kernel⟩,
    ⟨(thim (fun x => { x with highQ := [raised 32] })), (raised 32), [], by decide +kernel⟩,
    ⟨(thim (fun x => { x with lowQ := [raised 32], logTick := 1023 })), (raised 32), [], by decide +kernel⟩,
    ⟨(thim (fun x => { x with lowQ := [raised 32], logTick := 1024 })), (raised 32), [], by decide +kernel⟩,
    ⟨(thim (fun x => { x with histQ := [raised 32] })), (raised 32), [], by decide +kernel⟩,
    ⟨609, by decide +kernel⟩,
    ⟨rich, (tick8 rich), 8, [(0, 4), (609, 0)], rings_of (by decide +kernel), served_of (by decide +kernel), by decide +kernel⟩,
    ⟨(keepSet rich Keep.thTotal 32), (tick8 (keepSet rich Keep.thTotal 32)), 8, 31, rings_of (by decide +kernel),
      served_of (by decide +kernel), by decide +kernel⟩,
    ⟨rich, (tick8 rich), 8, 609, rings_of (by decide +kernel), served_of (by decide +kernel), by decide +kernel⟩,
    ⟨1023, by decide +kernel⟩⟩

theorem witness_FaultEvents_2 :
    (∃ (s : State) (n : Nat), Src.used n = true ∧ thLive s n = 0) ∧
    (∃ (s : State) (n : Nat), Src.used n = true ∧ 2 ≤ thLive s n) ∧
    (∃ (s : State) (n : Nat), thLive s n < 4) ∧
    (∃ (s : State) (n : Nat), Src.used n = true ∧ 4 ≤ thLive s n) ∧
    (∃ (s : State) (n : Nat), Src.used n = true ∧ 4 ≤ thLive s n ∧ s.th.safe = false) ∧
    (∃ (s : State) (n : Nat) (t : _), Src.used n = true ∧ 4 ≤ thLive s n ∧ s.th.safe = false ∧ t < 512) ∧
    (∃ (s : State) (n : Nat), thLive s n < 3) ∧
    (∃ (s : State) (n : Nat) (r : Raise) (tag : _), Src.used n = true ∧ 3 ≤ thLive s n ∧ r.tag = some tag ∧ tagCtx tag < mgt ∧
      (tenant s (tagCtx tag)).st = .running) :=
  ⟨⟨(thim (fun x => { x with live := [(32, 0)] })), 32, by decide +kernel⟩,
    ⟨(thim (fun x => { x with live := [(32, 2)] })), 32, by decide +kernel⟩,
    ⟨(thim (fun x => { x with live := [(32, 3)] })), 32, by decide +kernel⟩,
    ⟨(thim (fun x => { x with live := [(32, 4)] })), 32, by decide +kernel⟩,
    ⟨(thim (fun x => { x with live := [(32, 4)] })), 32, by decide +kernel⟩,
    ⟨(thim (fun x => { x with live := [(32, 4)] })), 32, 511, by decide +kernel⟩,
    ⟨(thim (fun x => { x with live := [(32, 2)] })), 32, by decide +kernel⟩,
    by refine ⟨(thim (fun x => { x with live := [(32, 3)] })), 32, { tag := some (mkTag 5 1) }, _, ?_, ?_, rfl, ?_⟩ <;> decide +kernel⟩

theorem witness_PowerAndClocks_1 :
    (∃ (r : State) (s : State) (src : Nat) (d : Nat), Rings r src s ∧ Served s src 0x47 ∧ d < 150 ∧ domFree s d = true ∧
      (domGroup s d).any (domMoving s) = false ∧ s.pw.phase ≠ .stopEntry ∧ s.mg.keepDue ≤ s.now) ∧
    (∃ (s : State) (d : Nat), let x := dom s d; x.timedOut = false ∧ x.st = .switchingOn) ∧
    (∃ (s : State) (d : Nat), let x := dom s d; x.timedOut = false ∧ x.st = .switchingOff ∧ quadOf d = none) ∧
    (∃ (s : State) (d : Nat) (q : _), let x := dom s d; x.timedOut = false ∧ x.st = .switchingOff ∧ quadOf d = some q) ∧
    (∃ (s : State) (d : Nat), let x := dom s d; x.timedOut = false ∧ (x.st = .switchingOn ∨ x.st = .switchingOff)) ∧
    (∃ (s : State) (k : Nat), k < 12 ∧ (dom s (pllDomain k)).st = .on ∧ ((k < 2 → s.mg.running = true))) ∧
    (∃ (s : State) (q : _), q < 24 ∧ (dom s (pllDomain (q + 12))).st = .on) ∧
    (∃ (s : State) (w : Word), bit w.toNat 0 = true ∧ s.pw.clkPll = false ∧ (dom s 146).st = .on) ∧
    (∃ (s : State) (k : Nat), k < 12 ∧ bit s.pw.plls.toNat k = true) ∧
    (∃ (s : State) (k : Nat), k < 8 ∧ s.pw.inStop = false) ∧
    (∃ (s : State), s.pw.inStop = false ∧ s.pw.mainEn = true ∧ s.pw.mainPg = true) ∧
    (∃ (s : State), s.pw.inStop = false) :=
  ⟨⟨rich, (tick8 rich), 8, 101, rings_of (by decide +kernel), served_of (by decide +kernel), by decide +kernel⟩,
    ⟨(setDom rich 149 { st := .switchingOn, clamped := true }), 149, by decide +kernel, by decide +kernel⟩,
    ⟨(setDom rich 101 { st := .switchingOff, clamped := true }), 101, by decide +kernel, by decide +kernel⟩,
    ⟨(setDom rich 8 { st := .switchingOff, clamped := true }), 8, _, by decide +kernel, by decide +kernel, rfl⟩,
    ⟨(setDom rich 0 { st := .switchingOff, clamped := true }), 0, by decide +kernel, by decide +kernel⟩,
    ⟨rich, 11, by decide +kernel⟩,
    ⟨rich, 23, by decide +kernel⟩,
    ⟨(power (fun p => { p with clkPll := false })), 1, by decide +kernel⟩,
    ⟨(power (fun p => { p with plls := 0x800 })), 11, by decide +kernel⟩,
    ⟨rich, 7, by decide +kernel⟩,
    ⟨up, by decide +kernel⟩,
    ⟨up, by decide +kernel⟩⟩

theorem witness_PowerAndClocks_2 :
    (∃ (s : State), s.tb.ptp = true ∧ s.tb.running = true ∧ s.tb.holdover = false) ∧
    (∃ (s : State) (k : Nat), k < 8 ∧ (dom s (102 + k)).st = .on ∧ (dom s (110 + k)).st = .on ∧ (dom s (118 + k)).st = .on) ∧
    (∃ (s : State) (k : Nat), k < 8 ∧ (dom s (102 + k)).st = .on) ∧
    (∃ (s : State) (k : Nat), k < 8 ∧ (dom s (102 + k)).st = .on ∧ (stk s k).hot = false) ∧
    (∃ (s : State) (k : Nat), k < 8 ∧ (dom s (102 + k)).st = .on ∧ (stk s k).hot = true) ∧
    (∃ (s : State), s.pw.zeroFilled = false ∧ s.mg.running = true ∧ s.pw.clkPll = true ∧ ((∀ k, k < 8 → (stk s k).trained = true))) :=
  ⟨⟨{ rich with tb := { rich.tb with ptp := true, running := true } }, by decide +kernel⟩,
    ⟨rich, 7, by decide +kernel⟩,
    ⟨rich, 7, by decide +kernel⟩,
    ⟨rich, 7, by decide +kernel⟩,
    ⟨(setStk rich 7 { hot := true }), 7, by decide +kernel⟩,
    ⟨{ power (fun p => { p with zeroFilled := false }) with mp := { up.mp with stks := (upto 0 8).map (fun k => (k, { trained := true })) } },
      by decide +kernel⟩⟩

theorem witness_StopAndResets_1 :
    (∃ (r : State) (s : State) (src : Nat) (mask : _), Rings r src s ∧ Served s src 0x46 ∧ s.pw.phase ≠ .stopEntry ∧
      bit (keepNat s Keep.wake) 12 = true ∧ stopRefuser s mask = none) ∧
    (∃ (r : State) (s : State) (src : Nat) (mask : _) (c : _) (i : _), Rings r src s ∧ Served s src 0x46 ∧ s.pw.phase ≠ .stopEntry ∧
      bit (keepNat s Keep.wake) 12 = true ∧ stopRefuser s mask = some (c, i)) ∧
    (∃ (r : State) (s : State) (src : Nat) (th : _) (hy : _) (pol : _) (deb : _) (w : _), Rings r src s ∧ Served s src 0x48 ∧ th ≤ 63 ∧
      hy ≤ 1 ∧ pol ≤ 1 ∧ deb ≤ 15 ∧ 0 < w ∧ w ≤ 1000 ∧ s.mg.keepDue ≤ s.now) ∧
    (∃ (r : State) (s : State) (src : Nat), Rings r src s ∧ Served s src 0x49 ∧ s.mg.keepDue ≤ s.now) ∧
    (∃ (s : State) (e : StopEntry), s.pw.stop = some e ∧ e.points < 3 ∧ s.pw.wakeLive = true) ∧
    (∃ (s : State) (e : StopEntry), s.pw.stop = some e ∧ s.pw.wakeLive = false ∧ s.th.safe = true ∧ 1 ≤ e.points ∧ e.points < 3) ∧
    (∃ (s : State) (e : StopEntry), s.pw.stop = some e ∧ s.pw.wakeLive = false ∧ s.th.safe = false ∧ e.points = 0) ∧
    (∃ (s : State) (e : StopEntry), s.pw.stop = some e ∧ s.pw.wakeLive = false ∧ s.th.safe = false ∧ e.points = 1) ∧
    (∃ (s : State) (e : StopEntry), s.pw.stop = some e ∧ s.pw.wakeLive = false ∧ s.th.safe = false ∧ e.points = 2) ∧
    (∃ (s : State) (e : StopEntry), s.pw.stop = some e ∧ e.points = 3) ∧
    (∃ (s : State), s.pw.vaon = true) ∧
    (∃ (s : State) (t : _), s.pw.wakeDue = some t ∧ s.pw.mainPg = false) :=
  ⟨⟨(keepSet up Keep.wake 4096), (tick8 (keepSet up Keep.wake 4096)), 8, 0, rings_of (by decide +kernel), served_of (by decide +kernel),
      by decide +kernel⟩,
    ⟨(keepSet rich Keep.wake 4096), (tick8 (keepSet rich Keep.wake 4096)), 8, 0, 6, 0, rings_of (by decide +kernel),
      served_of (by decide +kernel), by decide +kernel⟩,
    ⟨rich, (tick8 rich), 8, 63, 1, 1, 15, 1000, rings_of (by decide +kernel), served_of (by decide +kernel), by decide +kernel⟩,
    ⟨rich, (tick8 rich), 8, rings_of (by decide +kernel), served_of (by decide +kernel), by decide +kernel⟩,
    ⟨(power (fun p => { p with stop := some { src := 8, mask := 0, points := 2 }, wakeLive := true })),
      { src := 8, mask := 0, points := 2 }, by decide +kernel⟩,
    ⟨{ (power (fun p => { p with stop := some { src := 8, mask := 0, points := 1 } })) with th := { up.th with safe := true } },
      { src := 8, mask := 0, points := 1 }, by decide +kernel⟩,
    ⟨(power (fun p => { p with stop := some { src := 8, mask := 0, points := 0 } })), { src := 8, mask := 0, points := 0 },
      by decide +kernel⟩,
    ⟨(power (fun p => { p with stop := some { src := 8, mask := 0, points := 1 } })), { src := 8, mask := 0, points := 1 },
      by decide +kernel⟩,
    ⟨(power (fun p => { p with stop := some { src := 8, mask := 0, points := 2 } })), { src := 8, mask := 0, points := 2 },
      by decide +kernel⟩,
    ⟨(power (fun p => { p with stop := some { src := 8, mask := 0, points := 3 } })), { src := 8, mask := 0, points := 3 },
      by decide +kernel⟩,
    ⟨State.reset, by decide +kernel⟩,
    ⟨(power (fun p => { p with wakeDue := some 5, mainPg := false })), 5, by decide +kernel⟩⟩

theorem witness_StopAndResets_2 :
    (∃ (r : State) (s : State) (src : Nat), Rings r src s ∧ takesUp s src = true ∧ notReady s 0x51 = false ∧ s.mg.keepDue ≤ s.now ∧
      s.mg.flash = none) ∧
    (∃ (s : State) (h0 : _) (h1 : _) (act : _), s.mg.running = false ∧ (dom s 144).st = .on ∧ s.pw.inStop = false ∧
      activeBank h0 h1 = some act) ∧
    (∃ (s : State) (h0 : _) (h1 : _), s.mg.running = false ∧ (dom s 144).st = .on ∧ s.pw.inStop = false ∧ activeBank h0 h1 = none) ∧
    (∃ (s : State), s.mg.running = true ∧ s.mg.wdtLeft = 0) ∧
    (∃ (s : State), s.pw.inStop = false) ∧
    (∃ (s : State), s.pw.mainEn = true ∧ s.pw.mainPg = false ∧ s.pw.supplyLost = false) ∧
    (∃ (s : State), s.pw.mainEn = true ∧ s.pw.supplyLost = true) ∧
    (∃ (s : State), s.pw.mainPg = false) ∧
    (∃ (s : State), s.pw.mainPg = true) ∧
    (∃ (s : State), s.pw.vaon = false) ∧
    (∃ (s : State) (i : _), s.pw.keepLost = false ∧ i ≠ Keep.resetCause) :=
  ⟨⟨rich, (tick8 rich), 8, rings_of (by decide +kernel), by decide +kernel⟩,
    ⟨{ up with mg := { up.mg with running := false } }, bootHeader, [], true, by decide +kernel⟩,
    ⟨{ up with mg := { up.mg with running := false } }, [], [], by decide +kernel⟩,
    ⟨{ up with mg := { up.mg with wdtLeft := 0 } }, by decide +kernel⟩,
    ⟨up, by decide +kernel⟩,
    ⟨(power (fun p => { p with mainPg := false })), by decide +kernel⟩,
    ⟨(power (fun p => { p with supplyLost := true })), by decide +kernel⟩,
    ⟨(power (fun p => { p with mainPg := false })), by decide +kernel⟩,
    ⟨up, by decide +kernel⟩,
    ⟨(power (fun p => { p with vaon := false })), by decide +kernel⟩,
    ⟨up, 0, by decide +kernel⟩⟩

theorem witness_LaneCommands_1 :
    (∃ (r : State) (s : State) (src : Nat) (first : Nat) (es : List EqEntry), Rings r src s ∧ Served s src 0x4A ∧ es ≠ [] ∧ first ≤ 95 ∧
      first + es.length ≤ 96 ∧ ((∀ e ∈ es, eqEntryOk e = true)) ∧ s.mg.keepDue ≤ s.now) ∧
    (∃ (s : State) (l : Nat) (v : Word), let x := serialLane s l; l < 96 ∧ lanePowered s l = true ∧ bit v.toNat 0 = true ∧ x.test = true) ∧
    (∃ (s : State) (l : Nat) (v : Word), let x := serialLane s l; l < 96 ∧ lanePowered s l = true ∧ bit v.toNat 0 = true ∧ x.test = false ∧
      testAllowed s l = true) ∧
    (∃ (s : State) (l : Nat) (v : Word), let x := serialLane s l; l < 96 ∧ lanePowered s l = true ∧ bit v.toNat 0 = true ∧ x.test = false ∧
      testAllowed s l = false) ∧
    (∃ (s : State) (l : Nat) (v : Word), let x := serialLane s l; l < 96 ∧ lanePowered s l = true ∧ bit v.toNat 0 = false ∧ x.test = true) ∧
    (∃ (s : State) (l : Nat) (v : Word), let x := serialLane s l; l < 96 ∧ lanePowered s l = true ∧ x.test = true ∧ 1 ≤ fld v.toNat 0 6 ∧
      fld v.toNat 0 6 ≤ 39) ∧
    (∃ (s : State) (l : Nat), let x := serialLane s l; l < 96 ∧ lanePowered s l = true ∧ x.test = true) ∧
    (∃ (s : State) (l : Nat), let x := serialLane s l; l < 96 ∧ lanePowered s l = true ∧ x.test = true ∧ x.gen = true ∧ x.check = true ∧
      x.prbsLock = true ∧ x.loop ≠ 3 ∧ x.loop ≠ 0) ∧
    (∃ (s : State) (l : Nat), let x := serialLane s l; l < 96 ∧ lanePowered s l = true ∧ x.test = true ∧ x.gen = true ∧ x.check = true ∧
      x.prbsLock = true ∧ x.loop = 0) ∧
    (∃ (s : State) (l : Nat), let x := serialLane s l; l < 96 ∧ lanePowered s l = true ∧ x.test = true ∧
      (x.gen = false ∨ x.check = false ∨ x.prbsLock = false ∨ x.loop = 3)) ∧
    (∃ (s : State) (l : Nat), l < 96 ∧ mayLock s l = true) ∧
    (∃ (s : State) (l : Nat), let x := serialLane s l; l < 96 ∧ x.prbsLock = true) :=
  ⟨by refine ⟨rich, (tick8 rich), 8, 95, [(0x3F0000 : BitVec 64)], rings_of (by decide +kernel), served_of (by decide +kernel),
      List.cons_ne_nil _ _, ?_, ?_, fun e he => by rw [List.mem_singleton.mp he]; decide +kernel, ?_⟩ <;> decide +kernel,
    ⟨(laneSet 63 { test := true }), 63, 1, by decide +kernel, by decide +kernel⟩,
    ⟨rich, 63, 1, by decide +kernel, by decide +kernel⟩,
    ⟨rich, 0, 1, by decide +kernel, by decide +kernel⟩,
    ⟨(laneSet 63 { test := true }), 63, 0, by decide +kernel, by decide +kernel⟩,
    ⟨(laneSet 63 { test := true }), 63, 39, by decide +kernel, by decide +kernel⟩,
    ⟨(laneSet 63 { test := true }), 63, by decide +kernel, by decide +kernel⟩,
    ⟨(laneSet 63 { test := true, gen := true, check := true, prbsLock := true, loop := 1 }), 63, by decide +kernel, by decide +kernel⟩,
    ⟨(laneSet 63 { test := true, gen := true, check := true, prbsLock := true }), 63, by decide +kernel, by decide +kernel⟩,
    ⟨(laneSet 63 { test := true }), 63, by decide +kernel, by decide +kernel⟩,
    ⟨(laneSet 63 { test := true, check := true, loop := 2, rxSleep := true }), 63, by decide +kernel⟩,
    ⟨(laneSet 63 { prbsLock := true }), 63, by decide +kernel, by decide +kernel⟩⟩

theorem witness_LaneCommands_2 :
    (∃ (s : State) (l : Nat), let x := serialLane s l; l < 96 ∧ x.test = false ∧ x.rxLock = true ∧ laneUsed s l = true) ∧
    (∃ (e : EqEntry), eqEntryOk e = true) :=
  ⟨⟨(laneSet 0 { rxLock := true }), 0, by decide +kernel, by decide +kernel⟩,
    ⟨(0x3F0000 : BitVec 64), by decide +kernel⟩⟩

theorem witness_ManagementCommands_1 :
    (∃ (s : State), s.pw.inStop = false) ∧
    (∃ (s : State) (src : Nat) (p : _), reachesMbox s p src = true ∧ sourceServed s src = true ∧ (mbox s src).pending = false ∧
      (mbox s src).running = none) ∧
    (∃ (s : State) (src : Nat) (p : _), reachesMbox s p src = true ∧ sourceServed s src = true ∧
      ((mbox s src).pending = true ∨ (mbox s src).running ≠ none)) ∧
    (∃ (s : State) (src : Nat) (from_ : _) (n : _), (mbox s src).running = some (.fetchFlash from_ n)) ∧
    (∃ (s : State) (src : Nat) (p : _), reachesMbox s p src = true) ∧
    (∃ (s : State) (src : Nat) (b : _), s.mg.flash = some (src, b)) ∧
    (∃ (r : State) (s : State) (src : Nat), Rings r src s ∧ Served s src 0x50) ∧
    (∃ (r : State) (s : State) (src : Nat) (v : Word), Rings r src s ∧ Served s src 0x53 ∧ s.mg.keepDue ≤ s.now ∧ v.toNat ≤ 255) ∧
    (∃ (r : State) (s : State) (src : Nat) (v : Word), Rings r src s ∧ Served s src 0x53 ∧ s.mg.keepDue ≤ s.now ∧ 21 ≤ v.toNat ∧
      v.toNat ≤ 40) ∧
    (∃ (r : State) (s : State) (src : Nat) (v : Word), Rings r src s ∧ Served s src 0x53 ∧ s.mg.keepDue ≤ s.now ∧ v.toNat < 2 ^ 32) ∧
    (∃ (r : State) (s : State) (src : Nat) (off : Nat) (b : Bytes), Rings r src s ∧ Served s src 0x53 ∧ s.mg.keepDue ≤ s.now ∧ b ≠ [] ∧
      off + b.length ≤ 2040) ∧
    (∃ (r : State) (s : State) (src : Nat) (m : _) (p : _) (d : _), Rings r src s ∧ Served s src 0x54 ∧ m ≤ 1 ∧ p ≤ 15 ∧ d ≤ 255) :=
  ⟨⟨rich, by decide +kernel⟩,
    ⟨rich, 8, 0, by decide +kernel⟩,
    ⟨(box 8 { pending := true }), 8, 0, by decide +kernel⟩,
    ⟨(box 8 { running := some (.fetchFlash (.host 0 0) 352) }), 8, (.host 0 0), 352, by decide +kernel⟩,
    ⟨rich, 8, 0, by decide +kernel⟩,
    ⟨(manage (fun m => { m with flash := some (8, [1]) })), 8, [1], by decide +kernel⟩,
    ⟨rich, (tick8 rich), 8, rings_of (by decide +kernel), served_of (by decide +kernel)⟩,
    ⟨rich, (tick8 rich), 8, 255, rings_of (by decide +kernel), served_of (by decide +kernel), by decide +kernel⟩,
    ⟨rich, (tick8 rich), 8, 40, rings_of (by decide +kernel), served_of (by decide +kernel), by decide +kernel⟩,
    ⟨rich, (tick8 rich), 8, 0xFFFFFFFF, rings_of (by decide +kernel), served_of (by decide +kernel), by decide +kernel⟩,
    ⟨rich, (tick8 rich), 8, 2039, [1], rings_of (by decide +kernel), served_of (by decide +kernel), by decide +kernel⟩,
    ⟨rich, (tick8 rich), 8, 1, 15, 255, rings_of (by decide +kernel), served_of (by decide +kernel), by decide +kernel⟩⟩

theorem witness_ManagementCommands_2 :
    (∃ (r : State) (s : State) (src : Nat) (q : Nat) (prio : _) (b : Bytes) (x : _), Rings r src s ∧ Served s src 0x55 ∧
      queue? s q = some x ∧ x.ctx = mgt ∧ x.destroyed = false ∧ prio ≤ 7 ∧ b ≠ [] ∧ b.length ≤ 4032 ∧ s.th.safe = false ∧
      Admits s q prio (mkTag mgt 1) b.length) ∧
    (∃ (r : State) (s : State) (src : Nat) (q : Nat) (x : _) (i : _), Rings r src s ∧ Served s src 0x56 ∧ queue? s q = some x ∧
      headItem x = some i ∧ x.ctx = mgt ∧ i.bytes.length ≤ 4032) ∧
    (∃ (s : State) (off : Nat) (b : Bytes), bmcUp s = true ∧ off + b.length ≤ 4096) ∧
    (∃ (s : State) (off : Nat) (b : Bytes), bmcUp s = true ∧ 4096 < off + b.length) ∧
    (∃ (s : State) (off : Nat) (n : Nat), bmcUp s = true ∧ off + n ≤ 4096) ∧
    (∃ (s : State) (off : Nat) (n : Nat), bmcUp s = true ∧ 4096 < off + n) ∧
    (∃ (s : State), bmcUp s = true ∧ (mbox s 8).pending = false ∧ (mbox s 8).running = none) ∧
    (∃ (s : State), bmcUp s = true) ∧
    (∃ (s : State), bmcUp s = true ∧ s.mg.i3c = true) :=
  ⟨by refine ⟨rich, (tick8 rich), 8, 0x3FFF, 7, (fill 4032 1), _, rings_of (by decide +kernel), served_of (by decide +kernel), rfl, ?_, ?_,
      ?_, ?_, ?_, ?_, admits_of (by decide +kernel)⟩ <;> decide +kernel,
    ⟨(withItem rich 0x3FFF 256), (tick8 (withItem rich 0x3FFF 256)), 8, 0x3FFF, _, _, rings_of (by decide +kernel),
      served_of (by decide +kernel), some_of { ctx := 0, mode := .hold, limit := 0, mirrored := false } (by decide +kernel),
      some_of { bytes := [], prio := 0, poison := false, tag := 0, cells := [] } (by decide +kernel), by decide +kernel⟩,
    ⟨(manage (fun m => { m with i3c := true })), 4095, [1], by decide +kernel⟩,
    ⟨(manage (fun m => { m with i3c := true })), 4096, [1], by decide +kernel⟩,
    ⟨(manage (fun m => { m with i3c := true })), 0, 4096, by decide +kernel⟩,
    ⟨(manage (fun m => { m with i3c := true })), 0, 4097, by decide +kernel⟩,
    ⟨(manage (fun m => { m with i3c := true })), by decide +kernel⟩,
    ⟨(manage (fun m => { m with i3c := true })), by decide +kernel⟩,
    ⟨(manage (fun m => { m with i3c := true })), by decide +kernel⟩⟩

theorem witness_MailboxAnswers :
    (∃ (code : Nat) (r : Reply), code < 256 ∧ (replyPayload r).length ≤ 4032) ∧
    (∃ (s : State) (src : Nat), takesUp s src = false) ∧
    (∃ (s : State) (src : Nat) (code : Nat), takesUp s src = true ∧ notReady s code = true) ∧
    (∃ (s : State) (src : Nat) (code : Nat) (l : List (Bool × Status)) (st : _), Served s src code ∧ firstRefusal l = some st) ∧
    (∃ (s : State) (src : Nat), sourceServed s src = true ∧ (mbox s src).running ≠ none) :=
  ⟨⟨255, { status := .ok }, by decide +kernel⟩,
    ⟨State.reset, 8, by decide +kernel⟩,
    ⟨(tick8 (manage (fun m => { m with recovery := true }))), 8, 0x51, by decide +kernel⟩,
    ⟨(tick8 rich), 8, 0x51, [(true, .busy)], _, served_of (by decide +kernel), rfl⟩,
    ⟨(box 8 { running := some .flashWrite }), 8, by decide +kernel⟩⟩

theorem witness_StepRunsFrontCommand :
    (∃ (s : State) (c : _) (rest : _), s.pending = c :: rest) ∧
    (∃ (s : State), s.pending = []) :=
  ⟨⟨{ rich with pending := [.pairUnfence 8] }, _, _, rfl⟩,
    ⟨rich, by decide +kernel⟩⟩

theorem witness_PackedFieldsReadBack :
    ∃ (l : List (Nat × Nat)), ((∀ f ∈ l, FieldFits f)) :=
  ⟨[(1, 255), (2, 65535), (4, 2 ^ 32 - 1), (8, 2 ^ 64 - 1)], by unfold FieldFits; decide +kernel⟩

theorem witness_StepKeepsPoolForm :
    ∃ (s : State) (t : State), PoolForm s.mp ∧ step s = .next t :=
  ⟨{ windowed with pending := [.memoryWrite { port := 1, fn := 3, bar := 2, offset := 2097024, bytes := fill 128 1, poisoned := false }] },
    _, ⟨by decide +kernel, by decide +kernel, by decide +kernel⟩, next_of (by decide +kernel)⟩

end Sys2Proof.Tests
end

section
/-! SUPPORT. The resets, boot, the Stop entry and the wake (chapters 14 and 16): what each row comes to, and the machine right after
reset. -/

namespace Sys2Proof.Proofs

open Sys2Proof Sys2Proof.Machine

/-! The commands of Stop (R379, R384) -/

theorem keepBusy_eq_false {s : State} (h : s.mg.keepDue ≤ s.now) : keepBusy s = false :=
  decide_eq_false (Nat.not_lt.mpr h)

/-- What a STOP_ENTER does once its arguments are good: the first refuser of Table 14-8 decides. -/
theorem doStopEnter_eq {s : State} (src : Nat) (mask : BitVec 8) (hp : s.pw.phase ≠ .stopEntry)
    (hw : bit (keepNat s Keep.wake) 12 = true) :
    doStopEnter s src mask 255 =
      match stopRefuser s mask with
      | some (code, i) =>
        (stopLast (keepBy (keepCount s Keep.stopRefusals 0 32) code) 2 code 0 i,
          some { status := .denied, detail := stopDetail code 0 i })
      | none => (setPw s (fun p => { p with phase := .stopEntry, stop := some { src := src, mask := mask, points := 0 } }), none) :=
  (if_neg hp).trans (if_neg (by simp [hw]))

theorem cmdStopEnter_enters {s : State} {src : Nat} {mask : BitVec 8} (h : Served s src 0x46) (hp : s.pw.phase ≠ .stopEntry)
    (hw : bit (keepNat s Keep.wake) 12 = true) (hr : stopRefuser s mask = none) :
    let a := setPw (accepted s src) (fun p => { p with phase := .stopEntry, stop := some { src := src, mask := mask, points := 0 } })
    cmdStopEnter src mask 255 s = .next (setMbox a src { mbox a src with running := some .stopEnter }) := by
  have hd := doStopEnter_eq (s := accepted s src) src mask hp hw
  rw [show stopRefuser (accepted s src) mask = none from hr] at hd
  exact congrArg _ (takeUp_runs s src 0x46 _ _ _ h hd)

theorem cmdStopEnter_refuses {s : State} {src : Nat} {mask : BitVec 8} {code i : Nat} (h : Served s src 0x46)
    (hp : s.pw.phase ≠ .stopEntry) (hw : bit (keepNat s Keep.wake) 12 = true) (hr : stopRefuser s mask = some (code, i)) :
    cmdStopEnter src mask 255 s = .next (answer
      (stopLast (keepBy (keepCount (accepted s src) Keep.stopRefusals 0 32) code) 2 code 0 i) src 0x46
      { status := .denied, detail := stopDetail code 0 i }) := by
  have hd := doStopEnter_eq (s := accepted s src) src mask hp hw
  rw [show stopRefuser (accepted s src) mask = some (code, i) from hr] at hd
  exact congrArg _ (takeUp_served s src 0x46 _ _ _ _ h hd)

theorem cmdWakeSet_writes {s : State} {src th hy pol deb w : Nat} (en : Bool) (h : Served s src 0x48) (hth : th ≤ 63) (hhy : hy ≤ 1)
    (hpol : pol ≤ 1) (hdeb : deb ≤ 15) (hw0 : 0 < w) (hw : w ≤ 1000) (hk : s.mg.keepDue ≤ s.now) :
    cmdWakeSet src th hy pol deb en w s = .next (answered s src 0x48 [] (fun u => keepWrite (keepWrite u Keep.wake
      (BitVec.ofNat 64 (th + 2 ^ 6 * hy + 2 ^ 7 * pol + 2 ^ 8 * deb + 2 ^ 12 * b2n en))) Keep.wakeWait (BitVec.ofNat 64 w))) := by
  have hargs : decide (63 < th ∨ 1 < hy ∨ 1 < pol ∨ 15 < deb ∨ w = 0 ∨ 1000 < w) = false := decide_eq_false (by omega)
  have hbusy : keepBusy (accepted s src) = false := keepBusy_eq_false hk
  exact congrArg _ (takeUp_served s src 0x48 _ _ _ _ h (guardAll_open (by simp [hargs, hbusy]) _))

theorem cmdStopStatsClear_clears {s : State} {src : Nat} (h : Served s src 0x49) (hk : s.mg.keepDue ≤ s.now) :
    cmdStopStatsClear src s = .next (answered s src 0x49 [] (fun u =>
      (upto Keep.stopEntries 6).foldl (fun v i => keepWrite v i 0) u)) := by
  have hbusy : keepBusy (accepted s src) = false := keepBusy_eq_false hk
  exact congrArg _ (takeUp_served s src 0x49 _ _ _ _ h (guardAll_open (by simp [hbusy]) _))

/-! The steps of a Stop entry, and the wake (R380 to R383, R385) -/

/-- At each point the comparator decides first, then safe state from the quiesce onward; else the entry takes its next step. -/
theorem execAbortPoint_eq {s : State} {e : StopEntry} (hs : s.pw.stop = some e) (hn : e.points < 3) :
    execAbortPoint e.points s =
      if s.pw.wakeLive = true then .next (abandonStop s e 7 e.points e.points)
      else if s.th.safe = true ∧ 1 ≤ e.points then .next (abandonStop s e 1 e.points 1)
      else if e.points = 0 then .next (quiesceFabric s e)
      else if e.points = 1 then .next (clampAll s e)
      else .next (setPw s (fun p => { p with stop := some { e with points := 3 } })) := by
  unfold execAbortPoint
  simp only [hs]
  rw [if_neg (by omega)]

/-- An entry that neither the comparator nor safe state ends goes on by the step of its point. -/
theorem execAbortPoint_steps {s : State} {e : StopEntry} {n : Nat} (hs : s.pw.stop = some e) (hn : e.points = n) (h3 : n < 3)
    (hl : s.pw.wakeLive = false) (hsafe : s.th.safe = false) :
    execAbortPoint n s =
      if n = 0 then .next (quiesceFabric s e)
      else if n = 1 then .next (clampAll s e)
      else .next (setPw s (fun p => { p with stop := some { e with points := 3 } })) := by
  subst hn
  rw [execAbortPoint_eq hs h3, if_neg (by simp [hl]), if_neg (by simp [hsafe])]

theorem execPointOfNoReturn_stops {s : State} {e : StopEntry} (hs : s.pw.stop = some e) (hn : e.points = 3) :
    let u := setPw (keepCount s Keep.stopEntries 0 32) (fun p => { p with mainEn := false, mainPg := false, ldoLow := true })
    let v := setPw (afterReset u u.pw.cause) (fun p => { p with inStop := true })
    execPointOfNoReturn s = .next (if v.pw.wakeLive && wakeArmed v then startWake v 4 else v) := by
  unfold execPointOfNoReturn
  simp only [hs]
  rw [if_neg (not_not.mpr hn)]
  rfl

theorem execWakeSense_senses {s : State} (on : Bool) (hv : s.pw.vaon = true) :
    let u := setPw s (fun p => { p with wakeLive := on })
    execWakeSense on s = .next
      (if on && !s.pw.wakeLive && s.pw.inStop && !s.pw.mainEn && bit (keepNat s Keep.wake) 12 then startWake u 4 else u) := by
  intro u
  have harmed : wakeArmed u = bit (keepNat s Keep.wake) 12 := by
    show (s.pw.vaon && bit (keepNat s Keep.wake) 12) = _
    rw [hv, Bool.true_and]
  unfold execWakeSense
  rw [if_neg (by simp [hv]), ← harmed]
  rfl

theorem execWakeWaitTimeout_gives_up {s : State} {t : Nat} (ht : s.pw.wakeDue = some t) (hm : s.pw.mainPg = false) :
    execWakeWaitTimeout s =
      .next (stopLast (setPw (passTo s t) (fun p => { p with mainEn := false, wakeDue := none })) 4 0 0 0) := by
  unfold execWakeWaitTimeout
  simp only [ht]
  rw [if_neg (by simp [hm])]

/-! The device resets (R8, R368, R377, R416) -/

theorem cmdDeviceReset_resets {s : State} {src : Nat} (ht : takesUp s src = true) (hn : notReady s 0x51 = false)
    (hk : s.mg.keepDue ≤ s.now) (hf : s.mg.flash = none) : cmdDeviceReset src s = .next (deviceReset s 3) :=
  if_pos (by simp [ht, hn, keepBusy_eq_false hk, hf])

theorem execDevResetN_resets {s : State} (h : s.pw.inStop = false) : execDevResetN s = .next (deviceReset s 2) :=
  if_neg (by simp [h])

theorem execMainPg_powers_up {s : State} (he : s.pw.mainEn = true) (hm : s.pw.mainPg = false) (hl : s.pw.supplyLost = false) :
    execMainPg s = .next (powerUp (setPw s (fun p => { p with mainPg := true, wakeDue := none }))) := by
  unfold execMainPg
  rw [if_neg (by simp [he]), if_neg (by simp [hl]), if_neg (by simp [hm])]

theorem execMainPg_resets {s : State} (he : s.pw.mainEn = true) (hl : s.pw.supplyLost = true) :
    execMainPg s = .next (deviceReset (setPw s (fun p => { p with mainPg := true })) 1) := by
  unfold execMainPg
  rw [if_neg (by simp [he]), if_pos hl]

/-- A brown-out resets the island; with MAIN_PG the power-up follows at once, else a wake starts. -/
theorem execBrownout_eq (s : State) (lost : Bool) :
    let u := afterReset (setPw s (fun p => { p with keepLost := lost })) 5
    execBrownout lost s = .next (
      if s.pw.mainPg then powerUp (setPw u (fun p => { p with inStop := false, mainEn := true, ldoLow := false }))
      else startWake (setPw u (fun p => { p with inStop := true })) 5) := by
  intro u
  show Host.Outcome.next (if s.pw.mainPg then
      powerUp (setPw (setPw u (fun p => { p with inStop := !s.pw.mainPg })) (fun p => { p with mainEn := true, ldoLow := false }))
    else startWake (setPw u (fun p => { p with inStop := !s.pw.mainPg })) 5) = _
  cases s.pw.mainPg <;> rfl

theorem execVaon_lost {s : State} (h : s.pw.vaon = true) :
    execVaon false s = .next (setPw s (fun p => { p with vaon := false })) := by
  unfold execVaon
  rw [if_neg (by simp [h]), if_neg (by simp)]
  rfl

theorem execVaon_returns {s : State} (h : s.pw.vaon = false) :
    execVaon true s = .next (
      if bit (freeWord s).toNat 0 = true then useFree { State.reset with
        pending := s.pending, out := s.out, saves := s.saves, freeCtr := s.freeCtr,
        mg := { State.reset.mg with
          floor := s.mg.floor, header0 := s.mg.header0, header1 := s.mg.header1, bankA := s.mg.bankA, bankB := s.mg.bankB } }
      else setPw (useFree s) (fun p => { p with vaon := true })) := by
  unfold execVaon
  rw [if_neg (by simp [h])]
  by_cases hb : bit (freeWord s).toNat 0 = true
  · rw [if_pos ⟨rfl, hb⟩, if_pos hb]
  · rw [if_neg (fun hc => hb hc.2), if_neg hb]
    rfl

theorem find_set_ne {α : Type} [DecidableEq α] (d : α) (m : Table α) {k x : Nat} (a : α) (h : x ≠ k) :
    Tab.find (Tab.set d m k a) x = Tab.find m x := by
  unfold Tab.set
  split_ifs
  · rw [Tab.find_del, if_neg h]
  · rw [Tab.find_put, if_neg h]

/-- Keep words but for the cause are read after a reset as before it, while the retention rail held (R368). -/
theorem keepGet_afterReset {s : State} (cause : Nat) (hl : s.pw.keepLost = false) {i : Nat} (hi : i ≠ Keep.resetCause) :
    keepGet (afterReset s cause) i = keepGet s i := by
  have hkeep : (afterReset s cause).keep =
      Tab.set (Keep.reset Keep.resetCause) s.keep Keep.resetCause (BitVec.ofNat 64 cause) := by
    show Tab.set _ (if s.pw.keepLost = true then lostKeep s else s.keep) _ _ = _
    rw [hl]
    rfl
  rw [keepGet, hkeep, keepGet, Tab.get, Tab.get, find_set_ne _ _ _ hi]

/-! Boot (R407 to R409) -/

/-- The ROM takes the bank that the newer header names, else the other one, else it stays in recovery. -/
theorem execBoot_eq {s : State} {h0 h1 : Bytes} {found : Option Bool} (a b : Bytes) (hr : s.mg.running = false) (hd : (dom s 144).st = .on)
    (hs : s.pw.inStop = false) (hf : activeBank h0 h1 = found) :
    let u := { s with mg := { s.mg with header0 := h0, header1 := h1, bankA := a, bankB := b } }
    let recovery := cutOff { u with mg := { u.mg with recovery := true } }
    execBoot h0 h1 a b s = .next (
      match found with
      | none => recovery
      | some act =>
        if bankOk s (if act then b else a) then startFirmware u (if act then b else a) act false
        else if bankOk s (if act then a else b) then startFirmware u (if act then a else b) (!act) true
        else recovery) := by
  intro u recovery
  unfold execBoot
  simp only [hf]
  rw [if_neg (by simp [hr, hd, hs])]
  cases found with
  | none => rfl
  | some act =>
    show (if bankOk s (if act then b else a) then Host.Outcome.next (startFirmware u (if act then b else a) act false)
      else if bankOk s (if act then a else b) then .next (startFirmware u (if act then a else b) (!act) true)
      else .next recovery) = _
    simp only [apply_ite Host.Outcome.next]

theorem execMgWatchdog_restarts {s : State} (hr : s.mg.running = true) (hw : s.mg.wdtLeft = 0) :
    execMgWatchdog s = .next (raiseSrc
      { setThread s mgEngine {} with mg := { s.mg with running := false, flash := none } } Src.mgWatchdog {}) :=
  if_pos ⟨hw, hr⟩

/-- Settles O53, row by row: each mailbox row by what its command does in the tick, each pin and each step of the island by its own
lemma, and what a reset keeps by the fields of the state after it. -/
theorem stopAndResets : Obligations.StopAndResets := by
  refine ⟨⟨fun r s src hr => ⟨?_, ?_, ?_, ?_⟩, fun s e => ⟨?_, ?_, ?_, ?_, ?_, ?_⟩⟩,
    ⟨?_, fun s => ⟨?_, ?_, ?_, ?_, ?_, ?_, ?_, ?_, ?_⟩⟩, fun s cause => ?_⟩
  -- the commands of Stop
  · exact fun mask h hp hw hn => atNextTick_rings hr (cmdStopEnter_enters h hp hw hn)
  · exact fun mask c i h hp hw hn => atNextTick_rings hr (cmdStopEnter_refuses h hp hw hn)
  · exact fun th hy pol deb en w h hth hhy hpol hdeb hw0 hw hk =>
      atNextTick_rings hr (cmdWakeSet_writes en h hth hhy hpol hdeb hw0 hw hk)
  · exact fun h hk => atNextTick_rings hr (cmdStopStatsClear_clears h hk)
  -- the steps of an entry, and the wake
  · exact fun hs hn hl => (execAbortPoint_eq hs hn).trans (if_pos hl)
  · exact fun hs hl hsafe h1 hn => (execAbortPoint_eq hs hn).trans ((if_neg (by simp [hl])).trans (if_pos ⟨hsafe, h1⟩))
  · exact fun hs hl hsafe => ⟨fun hn => execAbortPoint_steps hs hn (by decide) hl hsafe,
      fun hn => execAbortPoint_steps hs hn (by decide) hl hsafe, fun hn => execAbortPoint_steps hs hn (by decide) hl hsafe⟩
  · exact execPointOfNoReturn_stops
  · exact execWakeSense_senses
  · exact fun _ => execWakeWaitTimeout_gives_up
  -- the resets and boot
  · exact fun r s src hr ht hn hk hf => atNextTick_rings hr (cmdDeviceReset_resets ht hn hk hf)
  · exact fun h0 h1 a b act hr hd hs hact => execBoot_eq a b hr hd hs hact
  · exact fun h0 h1 a b hr hd hs hact => execBoot_eq a b hr hd hs hact
  · exact execMgWatchdog_restarts
  · exact execDevResetN_resets
  · exact execMainPg_powers_up
  · exact execMainPg_resets
  · exact fun lost => ⟨fun hm => (execBrownout_eq s lost).trans (congrArg _ (if_neg (by simp [hm]))),
      fun hm => (execBrownout_eq s lost).trans (congrArg _ (if_pos hm))⟩
  · exact execVaon_lost
  · exact execVaon_returns
  -- what a reset keeps
  · exact ⟨rfl, rfl, rfl, rfl, rfl, rfl, rfl, rfl, rfl, rfl, rfl, rfl, rfl, rfl, rfl, rfl, rfl,
      fun hl i hi => keepGet_afterReset cause hl hi⟩

/-! The machine right after reset -/

/-- A span that covers whole lines covers the bytes asked for. -/
theorem span_le_linesOf (a n : Nat) (hn : n ≠ 0) : a % 64 + n ≤ 64 * (linesOf a n).length := by
  rw [linesOf, if_neg hn, upto_length]
  omega

theorem flatMap_fill (l : List Nat) (n : Nat) : l.flatMap (fun _ => fill n 0) = fill (n * l.length) 0 := by
  induction l with
  | nil => rfl
  | cons x t ih => rw [List.flatMap_cons, ih, fill, fill, fill, List.replicate_append_replicate, List.length_cons, Nat.mul_succ,
      Nat.add_comm]

theorem slice_fill {m k n : Nat} (h : k + n ≤ m) : slice (fill m 0) k n = fill n 0 := by
  simp only [slice, fill, List.drop_replicate, List.take_replicate]
  rw [Nat.min_eq_left (by omega)]

/-- With no line written, every line reads zero (R113). -/
theorem poolBytes_of_unwritten {s : State} (h : s.mp.written = []) (a n : Nat) : poolBytes s a n = fill n 0 := by
  have hline : lineData s = fun _ => fill 64 0 := by
    funext l
    rw [lineData, h]
    rfl
  rw [poolBytes, hline, flatMap_fill]
  by_cases hn : n = 0
  · rw [hn]; rfl
  · exact slice_fill (span_le_linesOf a n hn)

/-- The management queue is the only one (R159). -/
theorem queue?_reset {q : Nat} (h : q ≠ mgtQueue) : queue? State.reset q = none := if_neg (Ne.symm h)

/-- What a table reads that lists one value under the keys lo + i, for the i of a list. -/
theorem find_map_const {α : Type} (lo : Nat) (v : α) (x : Nat) (l : List Nat) :
    Tab.find (l.map (fun i => (lo + i, v))) x = if lo ≤ x ∧ x - lo ∈ l then some v else none := by
  induction l with
  | nil => simp [Tab.find]
  | cons i t ih =>
    rw [List.map_cons, Tab.find, ih]
    by_cases h : lo + i = x
    · rw [if_pos h, if_pos ⟨by omega, List.mem_cons.mpr (.inl (by omega))⟩]
    · have hi : lo ≤ x → x - lo ≠ i := by omega
      rw [if_neg h]
      congr 1
      exact propext (and_congr_right fun hlo => by rw [List.mem_cons, or_iff_right (hi hlo)])

/-- Channels 1008 to 1023 are the system's and IDLE; every other one is FREE (R185). -/
theorem chan_reset_st {c : Nat} (hc : c < 1024) : (chan State.reset c).st = if 1008 ≤ c then .idle else .free := by
  have hfind : Tab.find State.reset.sh.chans c = if 1008 ≤ c ∧ c - 1008 ∈ List.range 16 then _ else none :=
    find_map_const 1008 _ c (List.range 16)
  rw [chan, Tab.get, hfind]
  by_cases h : 1008 ≤ c
  · rw [if_pos ⟨h, List.mem_range.mpr (by omega)⟩, if_pos h]
    rfl
  · rw [if_neg (fun hs => h hs.1), if_neg h]
    rfl

/-- A thread is FREE, p0 alone is true and every register reads zero (R29, R73). -/
theorem thread_reset (t : Nat) : (thread State.reset t).mode = .free ∧ (thread State.reset t).p = 1 ∧
    ∀ n, sGet (thread State.reset t) n = 0 ∧ vGet (thread State.reset t) n = 0 :=
  ⟨rfl, rfl, fun _ => ⟨ite_self _, rfl⟩⟩

/-- The 4 cells kept for queue-reset notices are not free (R182). -/
theorem freeCells_reset : freeCells State.reset = 262140 := rfl

/-- Settles O60. Each part is read off the reset values; the pool, the channels and the threads by their lemmas. -/
theorem resetState : Obligations.ResetState :=
  ⟨⟨rfl, rfl, rfl⟩, rfl, rfl, rfl, rfl, rfl, poolBytes_of_unwritten rfl, fun _ => rfl, fun _ => queue?_reset, fun _ => rfl,
    fun _ => rfl, fun _ => rfl, fun _ => rfl, fun _ => rfl, thread_reset, fun _ => chan_reset_st, fun _ => rfl, freeCells_reset,
    fun _ _ => ⟨rfl, rfl⟩, rfl, rfl, rfl, rfl, rfl, rfl, rfl⟩

end Sys2Proof.Proofs
end

section
/-! SUPPORT. What one step does, by whether a command waits. -/

namespace Sys2Proof.Proofs

open Sys2Proof Sys2Proof.Machine

theorem step_of_pending_cons {s : State} {c : Instr} {rest : List Instr} (h : s.pending = c :: rest) :
    step s = exec c { s with pending := rest } := by
  rw [step, h]

/-- With no command waiting time still passes (log entry 1). -/
theorem step_of_pending_nil {s : State} (h : s.pending = []) : step s = .next (passCycles s 1) := by
  rw [step, h]

/-- Settles O57, by the two cases of the queue. -/
theorem stepRunsFrontCommand : Obligations.StepRunsFrontCommand :=
  fun _ => ⟨fun _ _ => step_of_pending_cons, step_of_pending_nil⟩

end Sys2Proof.Proofs
end

section
/-! SUPPORT. What issuing a word comes to by the outcome of its body (R62), and what its legality says (R34). -/

namespace Sys2Proof.Proofs

open Sys2Proof Sys2Proof.Machine

/-! The outcome of a performed word -/

/-- A fault of the body is a fault of the issue, once no load is outstanding (R63). -/
theorem finish_fault {s : State} {t : Nat} (u : State) (f : PFault) (hp : (thread s t).plds = []) :
    finish s t (.fault u f) = issueFault u t f := by
  simp [finish, hp]

/-- A fault found before the state changed waits in the same way whether or not a load is outstanding. -/
theorem finish_fault_same (s : State) (t : Nat) (f : PFault) : finish s t (.fault s f) = issueFault s t f := by
  cases hp : (thread s t).plds with
  | nil => exact finish_fault s f hp
  | cons p l => simp [finish, issueFault, hp]

section
variable {s u : State} {t : Nat} {op : NOp} {w : Nat} {sel : Nat → Bool} {body : State → Thread → Nat → TRes}

theorem issue_ok (h : Performs s t op w) (hs : sel w = true) {f : Thread → Thread} (hb : body s (thread s t) w = .ok u f) :
    issue t op sel s body = .next (issued u t f) := by
  rw [issue_performs h sel hs, hb, finish_ok]

theorem issue_fault_same (h : Performs s t op w) (hs : sel w = true) {f : PFault} (hb : body s (thread s t) w = .fault s f) :
    issue t op sel s body = issueFault s t f := by
  rw [issue_performs h sel hs, hb, finish_fault_same]

theorem issue_fault (h : Performs s t op w) (hs : sel w = true) {f : PFault} (hp : (thread s t).plds = [])
    (hb : body s (thread s t) w = .fault u f) : issue t op sel s body = issueFault u t f := by
  rw [issue_performs h sel hs, hb, finish_fault u f hp]

end

/-! Legal words (R34) -/

theorem fieldsOk_of_decodeN {w : Nat} {op : NOp} (h : decodeN w = some op) : fieldsOk op w = true := by
  unfold decodeN at h
  split at h
  · cases h
  · rename_i o _
    split at h
    · rename_i hf
      cases h
      exact hf
    · cases h

theorem fieldsOk_of_performs {s : State} {t : Nat} {op : NOp} {w : Nat} (h : Performs s t op w) : fieldsOk op w = true :=
  fieldsOk_of_decodeN h.issues.legal

/-- The shift count of an immediate shift is its whole immediate, which a legal word keeps below 64. -/
theorem shiftCount_eq_wImm {w : Nat} (h : wImm w < 64) : fld w 0 6 = wImm w := by
  simp only [wImm, fld, Nat.shiftRight_zero] at h ⊢
  omega

/-- A thread that issues is not stalled. -/
theorem mode_ne_stalled_of_mayRun {th : Thread} (h : mayRun th = true) : th.mode ≠ .stalled := by
  intro hm
  simp [mayRun, hm] at h

/-! Fields replaced in a number -/

theorem fld_eq_div_mod (w lo n : Nat) : fld w lo n = w / 2 ^ lo % 2 ^ n := by
  rw [fld, Nat.shiftRight_eq_div_pow]

theorem bit_eq_testBit (w i : Nat) : bit w i = w.testBit i := by
  rw [bit, fld, Nat.testBit, Nat.one_and_eq_mod_two, pow_one]
  rcases Nat.mod_two_eq_zero_or_one (w >>> i) with h | h <;> rw [h] <;> rfl

/-- A number whose field of n bits at lo is replaced is its bits above the field, the new field and its bits below. -/
theorem replaceField_eq (x m lo n : Nat) :
    x - fld x lo n * 2 ^ lo + m * 2 ^ lo = 2 ^ lo * (2 ^ n * (x / 2 ^ lo / 2 ^ n) + m) + x % 2 ^ lo := by
  have h1 := Nat.div_add_mod x (2 ^ lo)
  have h2 := Nat.div_add_mod (x / 2 ^ lo) (2 ^ n)
  have h3 : x = 2 ^ lo * (2 ^ n * (x / 2 ^ lo / 2 ^ n)) + fld x lo n * 2 ^ lo + x % 2 ^ lo := by
    rw [fld_eq_div_mod, Nat.mul_comm (_ % _), ← Nat.mul_add, h2, h1]
  rw [Nat.mul_add, Nat.mul_comm m]
  omega

theorem testBit_replaceField (x lo n i : Nat) {m : Nat} (hm : m < 2 ^ n) :
    (x - fld x lo n * 2 ^ lo + m * 2 ^ lo).testBit i =
      if lo ≤ i ∧ i < lo + n then m.testBit (i - lo) else x.testBit i := by
  rw [replaceField_eq, Nat.testBit_two_pow_mul_add _ (Nat.mod_lt _ (Nat.two_pow_pos lo))]
  by_cases h1 : i < lo
  · rw [if_pos h1, if_neg (by omega), Nat.testBit_mod_two_pow, decide_eq_true h1, Bool.true_and]
  · rw [if_neg h1, Nat.testBit_two_pow_mul_add _ hm]
    by_cases h2 : i - lo < n
    · rw [if_pos h2, if_pos (by omega)]
    · rw [if_neg h2, if_neg (by omega), Nat.testBit_div_two_pow, Nat.testBit_div_two_pow]
      congr 1
      omega

end Sys2Proof.Proofs
end

section
/-! SUPPORT. Scalar registers and predicates, the scalar instructions and the corners of the ALU functions (R28, R38, Tables 02-5 to
02-7). -/

namespace Sys2Proof.Proofs

open Sys2Proof Sys2Proof.Machine

/-! Registers (R28) -/

theorem sSet_zero (x : Word) (th : Thread) : sSet 0 x th = th := if_pos rfl

theorem sGet_sSet_self {n : Nat} (hn : n ≠ 0) (x : Word) (th : Thread) : sGet (sSet n x th) n = x := by
  simp [sGet, sSet, hn]

theorem sGet_sSet_ne {n m : Nat} (h : m ≠ n) (x : Word) (th : Thread) : sGet (sSet n x th) m = sGet th m := by
  by_cases hn : n = 0
  · rw [hn, sSet_zero]
  · simp only [sGet, sSet, if_neg hn, Tab.get_set_ne _ _ _ _ _ h]

theorem pSet_zero (b : Bool) (th : Thread) : pSet 0 b th = th := if_pos rfl

/-- A predicate write replaces the one bit of its number. -/
theorem bit_pSet {n i : Nat} (hn : n ≠ 0) (hi : i < 8) (b : Bool) (th : Thread) :
    bit (pSet n b th).p.toNat i = if i = n then b else bit th.p.toNat i := by
  have hp : (pSet n b th).p.toNat = (th.p.toNat - fld th.p.toNat n 1 * 2 ^ n + b2n b * 2 ^ n) % 2 ^ 8 := by
    rw [pSet, if_neg hn, fld_eq_div_mod, pow_one]
    exact BitVec.toNat_ofNat ..
  have hb : b2n b < 2 ^ 1 := by cases b <;> decide
  rw [bit_eq_testBit, bit_eq_testBit, hp, Nat.testBit_mod_two_pow, decide_eq_true hi, Bool.true_and, testBit_replaceField _ _ _ _ hb]
  by_cases h : i = n
  · subst h
    rw [if_pos (by omega), if_pos rfl, Nat.sub_self]
    cases b <;> rfl
  · rw [if_neg (by omega), if_neg h]

theorem pGet_pSet_self {n : Nat} (hn : n ≠ 0) (h8 : n < 8) (b : Bool) (th : Thread) : pGet (pSet n b th) n = b := by
  simp [pGet, hn, bit_pSet hn h8]

theorem pGet_pSet_ne {n m : Nat} (h8 : m < 8) (h : m ≠ n) (b : Bool) (th : Thread) : pGet (pSet n b th) m = pGet th m := by
  by_cases hn : n = 0
  · rw [hn, pSet_zero]
  · rw [pGet, bit_pSet hn h8, if_neg h, pGet]

/-- Settles O3, register by register. -/
theorem registerZero : Obligations.RegisterZero :=
  fun th x b _ _ => ⟨rfl, sSet_zero x th, rfl, pSet_zero b th, fun hn => sGet_sSet_self hn x th, fun h => sGet_sSet_ne h x th,
    fun h0 h8 => pGet_pSet_self (Nat.ne_of_gt h0) h8 b th, fun _ h8 h => pGet_pSet_ne h8 h b th⟩

/-! Scalar instructions -/

theorem immOp_performs {s : State} {t : Nat} {op : NOp} {w : Nat} (h : Performs s t op w) (f : Word → Nat → Word) :
    immOp t op s f = .next (issued s t (sSet (wRd w) (f (sGet (thread s t) (wRa w)) w))) := regOnly_performs h _

/-- An immediate shift shifts by its whole immediate. -/
theorem immShift_performs {s : State} {t : Nat} {op : NOp} {w : Nat} (h : Performs s t op w) (hw : wImm w < 64)
    (shift : Word → Nat → Word) :
    immOp t op s (fun a w => shift a (fld w 0 6)) = .next (issued s t (sSet (wRd w) (shift (sGet (thread s t) (wRa w)) (wImm w)))) := by
  rw [← shiftCount_eq_wImm hw]
  exact immOp_performs h _

/-- Settles O1: each instruction only writes its register; the legality of an immediate shift bounds its count. -/
theorem scalarResults : Obligations.ScalarResults := by
  intro s t w
  refine ⟨?_, ?_, ?_, ?_, ?_, ?_, ?_, ?_, ?_, ?_⟩ <;> intro h
  · exact (regOnly_performs h _ : execAlu t s = _)
  · exact (immOp_performs h _ : execAddi t s = _)
  · exact (immOp_performs h _ : execAndi t s = _)
  · exact (immOp_performs h _ : execOri t s = _)
  · exact (immOp_performs h _ : execXori t s = _)
  · exact (immShift_performs h (of_decide_eq_true (fieldsOk_of_performs h)) (· <<< ·) : execSlli t s = _)
  · exact (immShift_performs h (of_decide_eq_true (fieldsOk_of_performs h)) (· >>> ·) : execSrli t s = _)
  · exact (immShift_performs h (of_decide_eq_true (fieldsOk_of_performs h)) BitVec.sshiftRight : execSrai t s = _)
  · exact (regOnly_performs h _ : execRdsp t s = _)
  · exact (regOnly_performs h _ : execMfs t s = _)

/-! Corners of the ALU functions (Table 02-6) -/

theorem aluFn_divu {a b d : Word} {p : BitVec 8} (hb : b ≠ 0) : aluFn 0x0D a b d p = a / b := by
  refine (if_neg hb).trans (BitVec.eq_of_toNat_eq ?_)
  rw [BitVec.toNat_ofNat, BitVec.toNat_udiv]
  exact Nat.mod_eq_of_lt (Nat.lt_of_le_of_lt (Nat.div_le_self ..) a.isLt)

theorem aluFn_remu {a b d : Word} {p : BitVec 8} (hb : b ≠ 0) : aluFn 0x0E a b d p = a % b := by
  refine (if_neg hb).trans (BitVec.eq_of_toNat_eq ?_)
  rw [BitVec.toNat_ofNat, BitVec.toNat_umod]
  exact Nat.mod_eq_of_lt (Nat.lt_of_le_of_lt (Nat.mod_le ..) a.isLt)

theorem aluFn_divs {a b d : Word} {p : BitVec 8} (hb : b ≠ 0) :
    aluFn 0x0F a b d p = BitVec.ofInt 64 (Int.tdiv a.toInt b.toInt) := if_neg hb

theorem aluFn_rems {a b d : Word} {p : BitVec 8} (hb : b ≠ 0) :
    aluFn 0x10 a b d p = BitVec.ofInt 64 (Int.tmod a.toInt b.toInt) := if_neg hb

/-- −2^63 / −1 wraps. -/
theorem aluFn_divs_intMin (d : Word) (p : BitVec 8) :
    aluFn 0x0F (BitVec.intMin 64) (BitVec.allOnes 64) d p = BitVec.intMin 64 := by
  rw [aluFn_divs (by decide)]
  decide

theorem aluFn_rems_intMin (d : Word) (p : BitVec 8) : aluFn 0x10 (BitVec.intMin 64) (BitVec.allOnes 64) d p = 0 := by
  rw [aluFn_rems (by decide)]
  decide

theorem wImm_lt (w : Nat) : wImm w < 2 ^ 16 := Nat.mod_lt _ (Nat.two_pow_pos 16)

/-- MOVK replaces the 16 bits that its opcode names. -/
theorem getLsbD_movk (a : Word) (w : Nat) {i : Nat} (hi : i < 64) :
    (movk a w).getLsbD i =
      if 16 * (wOp w - 0x10) ≤ i ∧ i < 16 * (wOp w - 0x10) + 16 then (wImm w).testBit (i - 16 * (wOp w - 0x10))
      else a.getLsbD i := by
  rw [movk, BitVec.getLsbD_ofNat, decide_eq_true hi, Bool.true_and, testBit_replaceField _ _ _ _ (wImm_lt w)]
  rfl

/-- Settles O2: the functions at their corners, then MOVK bit by bit. -/
theorem scalarCorners : Obligations.ScalarCorners := by
  refine ⟨fun a b d p => ⟨rfl, rfl, rfl, rfl, rfl, rfl, rfl, aluFn_divs_intMin d p, aluFn_rems_intMin d p,
    fun hb => ⟨aluFn_divu hb, aluFn_remu hb⟩, rfl, rfl⟩, ?_⟩
  rintro s t w _ h rfl
  exact ⟨_, (immOp_performs h movk : execMovk t s = _), rfl, fun i hi => getLsbD_movk _ w hi⟩

end Sys2Proof.Proofs
end

section
/-! SUPPORT. Predicates and vectors: the lanes of a packed vector, the bits of a mask, and the instructions that write them (R41 to
R48). -/

namespace Sys2Proof.Proofs

open Sys2Proof Sys2Proof.Machine

/-! Lanes (Table 02-8) -/

theorem etSize_mul_etLanes (et : Nat) : etSize et * etLanes et = 64 := by
  rw [etLanes, etSize]
  split_ifs <;> rfl

theorem etLanes_le (et : Nat) : etLanes et ≤ 64 := Nat.div_le_self ..

theorem packLanes_lt (size : Nat) (l : List Nat) : packLanes size l < 2 ^ (8 * size * l.length) := by
  induction l with
  | nil => simp [packLanes]
  | cons x l ih =>
    have hx : x % 2 ^ (8 * size) < 2 ^ (8 * size) := Nat.mod_lt _ (Nat.two_pow_pos _)
    have hl : 2 ^ (8 * size) * (packLanes size l + 1) ≤ 2 ^ (8 * size) * 2 ^ (8 * size * l.length) := Nat.mul_le_mul_left _ ih
    rw [Nat.mul_succ] at hl
    rw [packLanes, List.length_cons, Nat.mul_succ, Nat.pow_add, Nat.mul_comm (2 ^ (8 * size * l.length))]
    omega

theorem fld_packLanes (size : Nat) (l : List Nat) {k : Nat} (hk : k < l.length) :
    fld (packLanes size l) (8 * size * k) (8 * size) = l[k] % 2 ^ (8 * size) := by
  induction l generalizing k with
  | nil => simp at hk
  | cons x l ih =>
    cases k with
    | zero => simp [packLanes, fld]
    | succ k =>
      have hdiv : packLanes size (x :: l) / 2 ^ (8 * size) = packLanes size l := by
        rw [packLanes, Nat.add_mul_div_left _ _ (Nat.two_pow_pos _), Nat.div_eq_of_lt (Nat.mod_lt _ (Nat.two_pow_pos _)), Nat.zero_add]
      rw [List.getElem_cons_succ, ← ih (Nat.lt_of_succ_lt_succ hk), fld_eq_div_mod, fld_eq_div_mod, Nat.mul_succ, Nat.add_comm,
        Nat.pow_add, ← Nat.div_div_eq_div_mul, hdiv]

theorem toNat_ofLanes (et : Nat) {l : List Nat} (hl : l.length = etLanes et) :
    (ofLanes et l).toNat = packLanes (etSize et) l := by
  have hw : 8 * etSize et * l.length = 512 := by rw [hl, Nat.mul_assoc, etSize_mul_etLanes]
  have hlt := packLanes_lt (etSize et) l
  rw [ofLanes, BitVec.toNat_ofNat, ← hw]
  exact Nat.mod_eq_of_lt hlt

/-- A lane of a vector that is packed lane by lane. -/
theorem lane_ofLanes_map (et : Nat) (f : Nat → Nat) {k : Nat} (hk : k < etLanes et) :
    lane (ofLanes et ((upto 0 (etLanes et)).map f)) (etSize et) k = f k % 2 ^ (8 * etSize et) := by
  have hlen : ((upto 0 (etLanes et)).map f).length = etLanes et := by rw [List.length_map, upto_length]
  rw [lane, toNat_ofLanes et hlen, fld_packLanes _ _ (by rwa [hlen]), List.getElem_map, upto_getElem, Nat.zero_add]

theorem lane_lt (v : Line) (size i : Nat) : lane v size i < 2 ^ (8 * size) := Nat.mod_lt _ (Nat.two_pow_pos _)

/-! Masks -/

theorem upto_zero_eq_range (n : Nat) : upto 0 n = List.range n := by
  apply List.ext_getElem
  · rw [upto_length, List.length_range]
  · intro i h1 h2
    rw [upto_getElem, Nat.zero_add, List.getElem_range]

/-- A sum of distinct powers of two is below the next one, and its bits say which are in it. -/
theorem sum_pow_lt (p : Nat → Bool) (n : Nat) : ((List.range n).map (fun i => if p i then 2 ^ i else 0)).sum < 2 ^ n := by
  induction n with
  | zero => exact Nat.one_pos
  | succ n ih =>
    rw [List.range_succ, List.map_append, List.sum_append, List.map_singleton, List.sum_singleton, Nat.pow_succ]
    split <;> omega

theorem testBit_sum_pow (p : Nat → Bool) (n k : Nat) :
    ((List.range n).map (fun i => if p i then 2 ^ i else 0)).sum.testBit k = (decide (k < n) && p k) := by
  induction n with
  | zero => simp
  | succ n ih =>
    have hlast : (if p n then 2 ^ n else 0) = 2 ^ n * b2n (p n) := by cases p n <;> simp [b2n]
    rw [List.range_succ, List.map_append, List.sum_append, List.map_singleton, List.sum_singleton, hlast, Nat.add_comm,
      Nat.testBit_two_pow_mul_add _ (sum_pow_lt p n), ih]
    rcases Nat.lt_trichotomy k n with h | rfl | h
    · simp [h, Nat.lt_succ_of_lt h]
    · cases hp : p k <;> simp [b2n]
    · have hb : b2n (p n) < 2 ^ (k - n) := by
        have := Nat.lt_two_pow_self (n := k - n)
        have : b2n (p n) ≤ 1 := by cases p n <;> decide
        omega
      rw [if_neg (by omega), Nat.testBit_lt_two_pow hb, decide_eq_false (by omega), Bool.false_and]

/-- The scalar mask of the lanes that satisfy a test. -/
theorem getLsbD_laneMask (p : Nat → Bool) (et k : Nat) :
    (BitVec.ofNat 64 (((upto 0 (etLanes et)).map (fun i => if p i then 2 ^ i else 0)).sum)).getLsbD k =
      (decide (k < etLanes et) && p k) := by
  rw [BitVec.getLsbD_ofNat, upto_zero_eq_range, testBit_sum_pow]
  by_cases h : k < etLanes et
  · rw [decide_eq_true (Nat.lt_of_lt_of_le h (etLanes_le et)), Bool.true_and]
  · simp [h]

/-! Comparisons (Table 02-7) -/

theorem not_slt (a b : Word) : (!slt a b) = decide (b.toInt ≤ a.toInt) := by
  rw [slt, ← decide_not, decide_eq_decide, not_lt]

theorem not_ult (a b : Word) : (!ult a b) = decide (b.toNat ≤ a.toNat) := by
  rw [ult, ← decide_not, decide_eq_decide, not_lt]

theorem immCmp_performs {s : State} {t : Nat} {op : NOp} {w : Nat} (h : Performs s t op w) (f : Word → Word → Bool) :
    immCmp t op s f = .next (issued s t (pSet (wRd w) (f (sGet (thread s t) (wRa w)) (immS w)))) := regOnly_performs h _

theorem execPcmp_compares {s : State} {t w : Nat} (h : Performs s t .pcmp w) (hw : wFn w ≠ 0x14) :
    execPcmp t s = .next (issued s t (pSet (wRd w) (pcmpFn (thread s t) w))) := by
  rw [execPcmp, regOnly_performs h]
  simp only [if_neg hw]

/-- PLOAD. -/
theorem execPcmp_loads {s : State} {t w : Nat} (h : Performs s t .pcmp w) (hw : wFn w = 0x14) :
    execPcmp t s = .next (issued s t (fun x =>
      { x with p := BitVec.ofNat 8 ((sGet (thread s t) (wRa w)).toNat / 2 * 2 + 1) })) := by
  rw [execPcmp, regOnly_performs h]
  simp only [if_pos hw]

/-! VMOVE (R48) -/

/-- VMOV. -/
theorem vmoveBody_copies (s : State) (th : Thread) {w : Nat} (hv : wVf w = 0) :
    vmoveBody s th w = .ok s (vSet (wRd w) (vGet th (wRa w))) := by
  simp only [vmoveBody, hv]

/-- A lane to a scalar register. -/
theorem vmoveBody_extracts (s : State) (th : Thread) {w : Nat} (hv : wVf w = 3) (hi : (sGet th (wRb w)).toNat < etLanes (wEt w)) :
    vmoveBody s th w =
      .ok s (sSet (wRd w) (BitVec.ofNat 64 (lane (vGet th (wRa w)) (etSize (wEt w)) (sGet th (wRb w)).toNat))) := by
  simp only [vmoveBody, hv]
  rw [if_neg (Nat.not_le.mpr hi)]

/-- Settles O4, instruction by instruction; the lanes of VARITH and VMERGE are read back from the packed vector, the bits of VCMP from
the mask. -/
theorem predicatesAndVectors : Obligations.PredicatesAndVectors := by
  refine ⟨fun s t w => ?_, fun s t w => ?_⟩
  · refine ⟨?_, ?_, ?_, ?_, ?_, ?_, ?_, ?_⟩ <;> intro h
    · exact fun hw => (execPcmp_compares h hw : execPcmp t s = _)
    · exact fun hw => (execPcmp_loads h hw : execPcmp t s = _)
    · exact (immCmp_performs h _ : execPeqi t s = _)
    · exact (immCmp_performs h _ : execPnei t s = _)
    · exact (immCmp_performs h slt : execPlti t s = _)
    · rw [← not_slt]
      exact (immCmp_performs h (fun a i => !slt a i) : execPgei t s = _)
    · exact (immCmp_performs h ult : execPltui t s = _)
    · rw [← not_ult]
      exact (immCmp_performs h (fun a i => !ult a i) : execPgeui t s = _)
  · refine ⟨?_, ?_, ?_, ?_, ?_, ?_, ?_⟩ <;> intro h
    · exact ⟨_, (regOnly_performs h _ : execVarith t s = _), _, rfl, fun k hk => lane_ofLanes_map _ _ hk⟩
    · exact (regOnly_performs h _ : execVcvt t s = _)
    · exact (regOnly_performs h _ : execVred t s = _)
    · exact ⟨_, (regOnly_performs h _ : execVcmp t s = _), _, rfl, fun k => getLsbD_laneMask _ _ k⟩
    · exact ⟨_, (regOnly_performs h _ : execVmerge t s = _), _, rfl, fun k hk =>
        (lane_ofLanes_map _ _ hk).trans (Nat.mod_eq_of_lt (lane_lt ..))⟩
    · exact fun hv => (issue_ok h rfl (vmoveBody_copies s _ hv) : execVmove t s = _)
    · exact fun hv hi => (issue_ok h rfl (vmoveBody_extracts s _ hv hi) : execVmove t s = _)

end Sys2Proof.Proofs
end

section
/-! SUPPORT. Scratch: the check of an address, what a load reads, what a store changes, and the faults of an access (R31, R32, R37,
R432). -/

namespace Sys2Proof.Proofs

open Sys2Proof Sys2Proof.Machine

/-! The check of an address -/

section
variable {t a n : Nat} {th : Thread}

theorem scratchFault_inside (ha : a % n = 0) (hc : inControl t a = false) (hs : a + n ≤ th.scratchSize) :
    scratchFault t th a n = none := by
  simp [scratchFault, ha, hc, Nat.not_lt.mpr hs]

theorem scratchFault_control (hn : n = 4 ∨ n = 8) (ha : a % n = 0) (hc : inControl t a = true)
    (hr : reservedOff (a - 0x1000000) = false) : scratchFault t th a n = none := by
  have hn' : ¬(n ≠ 4 ∧ n ≠ 8) := by omega
  rw [scratchFault, if_neg (not_not.mpr ha), if_pos hc, if_neg hn', if_neg (by simp [hr])]

theorem scratchFault_align (ha : a % n ≠ 0) : scratchFault t th a n = some (alignFault a) := if_pos ha

theorem scratchFault_range (ha : a % n = 0) (hc : inControl t a = false) (hs : th.scratchSize < a + n) :
    scratchFault t th a n = some (rangeFault a) := by
  simp [scratchFault, ha, hc, hs]

end

/-! Loads and stores -/

section
variable {s : State} {t n w : Nat} {op : NOp} {put : Nat → Bytes → Thread → Thread} {get : Thread → Nat → Bytes}

/-- A load whose address passes its check. -/
theorem loadBody_of_sound {th : Thread} {off : Nat} (h : scratchFault t th (scratchAddr th w) n = none)
    (ho : scratchAddr th w - 0x1000000 = off) :
    loadBody t n put s th w =
      if inControl t (scratchAddr th w) ∧ off / 8 * 8 = 0x700070 ∧ !fenceReady s then .hold s
      else if inControl t (scratchAddr th w) then
        .ok (engineRead s off n).2 (put (wRd w) (toLe n (engineRead s off n).1))
      else if scratchPoison th (scratchAddr th w) n then .fault s (poisonFault (scratchAddr th w))
      else .ok s (put (wRd w) (scratchRead th (scratchAddr th w) n)) := by
  rw [loadBody, ho, h]

theorem loadBody_inside {th : Thread} (ha : scratchAddr th w % n = 0) (hc : inControl t (scratchAddr th w) = false)
    (hs : scratchAddr th w + n ≤ th.scratchSize) :
    loadBody t n put s th w =
      if scratchPoison th (scratchAddr th w) n then .fault s (poisonFault (scratchAddr th w))
      else .ok s (put (wRd w) (scratchRead th (scratchAddr th w) n)) := by
  rw [loadBody_of_sound (scratchFault_inside ha hc hs) rfl, if_neg (by simp [hc]), if_neg (by simp [hc])]

theorem load_inside (h : Performs s t op w) (ha : scratchAddr (thread s t) w % n = 0)
    (hc : inControl t (scratchAddr (thread s t) w) = false) (hs : scratchAddr (thread s t) w + n ≤ (thread s t).scratchSize)
    (hp : scratchPoison (thread s t) (scratchAddr (thread s t) w) n = false) :
    memOp t op s (loadBody t n put) =
      .next (issued s t (put (wRd w) (scratchRead (thread s t) (scratchAddr (thread s t) w) n))) :=
  issue_ok h rfl ((loadBody_inside ha hc hs).trans (if_neg (by simp [hp])))

/-- A line with a mark faults the load that touches it (R32). -/
theorem load_poisoned (h : Performs s t op w) (ha : scratchAddr (thread s t) w % n = 0)
    (hc : inControl t (scratchAddr (thread s t) w) = false) (hs : scratchAddr (thread s t) w + n ≤ (thread s t).scratchSize)
    (hp : scratchPoison (thread s t) (scratchAddr (thread s t) w) n = true) :
    memOp t op s (loadBody t n put) = issueFault s t (poisonFault (scratchAddr (thread s t) w)) :=
  issue_fault_same h rfl ((loadBody_inside ha hc hs).trans (if_pos hp))

/-- A load of the management engine from control space; SM_PAIR_FENCE must be ready (R334). -/
theorem load_control (h : Performs s t op w) (hn : n = 4 ∨ n = 8) (ha : scratchAddr (thread s t) w % n = 0)
    (hc : inControl t (scratchAddr (thread s t) w) = true) (hr : reservedOff (scratchAddr (thread s t) w - 0x1000000) = false)
    (hf : (scratchAddr (thread s t) w - 0x1000000) / 8 * 8 = 0x700070 → fenceReady s = true) :
    memOp t op s (loadBody t n put) =
      let e := engineRead s (scratchAddr (thread s t) w - 0x1000000) n
      .next (issued e.2 t (put (wRd w) (toLe n e.1))) := by
  have hwait : ¬(inControl t (scratchAddr (thread s t) w) = true ∧
      (scratchAddr (thread s t) w - 0x1000000) / 8 * 8 = 0x700070 ∧ (!fenceReady s) = true) := by
    rintro ⟨-, hfence, hready⟩
    rw [hf hfence] at hready
    cases hready
  rw [memOp, issue_performs h _ rfl, loadBody_of_sound (scratchFault_control hn ha hc hr) rfl, if_neg hwait, if_pos hc, finish_ok]

theorem load_faults (h : Performs s t op w) {f : PFault}
    (hf : scratchFault t (thread s t) (scratchAddr (thread s t) w) n = some f) :
    memOp t op s (loadBody t n put) = issueFault s t f := by
  refine issue_fault_same h rfl ?_
  simp only [loadBody, hf]

theorem store_inside (h : Performs s t op w) (ha : scratchAddr (thread s t) w % n = 0)
    (hc : inControl t (scratchAddr (thread s t) w) = false) (hs : scratchAddr (thread s t) w + n ≤ (thread s t).scratchSize) :
    memOp t op s (storeBody t n get) =
      .next (issued s t (scratchStore (scratchAddr (thread s t) w) (get (thread s t) (wRd w)))) := by
  refine issue_ok h rfl ?_
  simp [storeBody, scratchFault_inside ha hc hs, hc]

theorem store_control (h : Performs s t op w) (hn : n = 4 ∨ n = 8) (ha : scratchAddr (thread s t) w % n = 0)
    (hc : inControl t (scratchAddr (thread s t) w) = true) (hr : reservedOff (scratchAddr (thread s t) w - 0x1000000) = false) :
    memOp t op s (storeBody t n get) =
      .next (issued (engineWrite s (scratchAddr (thread s t) w - 0x1000000) n (le (get (thread s t) (wRd w)))) t id) := by
  refine issue_ok h rfl ?_
  simp only [storeBody, scratchFault_control hn ha hc hr]
  rw [if_pos hc]

theorem store_faults (h : Performs s t op w) {f : PFault}
    (hf : scratchFault t (thread s t) (scratchAddr (thread s t) w) n = some f) :
    memOp t op s (storeBody t n get) = issueFault s t f := by
  refine issue_fault_same h rfl ?_
  simp only [storeBody, hf]

end

/-- The scratch accesses, with their sizes (Table 02-5). -/
def scratchAccesses (t : Nat) : List (Instr × NOp × Nat) :=
  [(.ldb t, .ldb, 1), (.ldh t, .ldh, 2), (.ldw t, .ldw, 4), (.ldd t, .ldd, 8), (.vld t, .vld, 64),
   (.stb t, .stb, 1), (.sth t, .sth, 2), (.stw t, .stw, 4), (.std t, .std, 8), (.vst t, .vst, 64)]

/-- A scratch access whose address fails its check faults. -/
theorem scratchAccess_faults {s : State} {t w n : Nat} {i : Instr} {op : NOp} {f : PFault} (hi : (i, op, n) ∈ scratchAccesses t)
    (h : Performs s t op w) (hf : scratchFault t (thread s t) (scratchAddr (thread s t) w) n = some f) :
    exec i s = issueFault s t f := by
  simp only [scratchAccesses, List.mem_cons, List.not_mem_nil, or_false, Prod.mk.injEq] at hi
  rcases hi with ⟨rfl, rfl, rfl⟩ | ⟨rfl, rfl, rfl⟩ | ⟨rfl, rfl, rfl⟩ | ⟨rfl, rfl, rfl⟩ | ⟨rfl, rfl, rfl⟩ | ⟨rfl, rfl, rfl⟩ |
    ⟨rfl, rfl, rfl⟩ | ⟨rfl, rfl, rfl⟩ | ⟨rfl, rfl, rfl⟩ | ⟨rfl, rfl, rfl⟩
  · exact (load_faults h hf : execLdb t s = _)
  · exact (load_faults h hf : execLdh t s = _)
  · exact (load_faults h hf : execLdw t s = _)
  · exact (load_faults h hf : execLdd t s = _)
  · exact (load_faults h hf : execVld t s = _)
  · exact (store_faults h hf : execStb t s = _)
  · exact (store_faults h hf : execSth t s = _)
  · exact (store_faults h hf : execStw t s = _)
  · exact (store_faults h hf : execStd t s = _)
  · exact (store_faults h hf : execVst t s = _)

/-! What a store changes (R32) -/

theorem scratchRead_scratchStore (a : Nat) (b : Bytes) (th : Thread) : scratchRead (scratchStore a b th) a b.length = b :=
  Mem.read_write b th.scratch a

theorem byte_scratchStore_outside {a j : Nat} {b : Bytes} (th : Thread) (hj : j < a ∨ a + b.length ≤ j) :
    Mem.byte (scratchStore a b th).scratch j = Mem.byte th.scratch j :=
  Mem.byte_write_outside b th.scratch a j hj

/-- An aligned store of a whole line clears its mark; a narrower one leaves every mark. -/
theorem mark_scratchStore {a : Nat} {b : Bytes} (th : Thread) (ha : a % b.length = 0) (l : Nat) :
    Tab.get false (scratchStore a b th).poison l =
      (Tab.get false th.poison l && !(decide (b.length = 64) && decide (l = a / 64))) := by
  have hp : (scratchStore a b th).poison =
      if b.length = 64 ∧ a % 64 = 0 then Tab.set false th.poison (a / 64) false else th.poison := rfl
  rw [hp]
  by_cases hb : b.length = 64
  · rw [if_pos ⟨hb, by rwa [hb] at ha⟩, Tab.get_set, decide_eq_true hb, Bool.true_and]
    by_cases hl : l = a / 64 <;> simp [hl]
  · simp [hb]

/-- Everything that an aligned store of n bytes makes of its thread. -/
theorem scratchStore_keeps {a n : Nat} {b : Bytes} (th : Thread) (hb : b.length = n) (ha : a % n = 0) :
    scratchRead (scratchStore a b th) a n = b ∧
    (∀ j, j < a ∨ a + n ≤ j → Mem.byte (scratchStore a b th).scratch j = Mem.byte th.scratch j) ∧
    (scratchStore a b th).s = th.s ∧ (scratchStore a b th).v = th.v ∧
    (∀ l, Tab.get false (scratchStore a b th).poison l =
      (Tab.get false th.poison l && !(decide (n = 64) && decide (l = a / 64)))) := by
  subst hb
  exact ⟨scratchRead_scratchStore a b th, fun _ hj => byte_scratchStore_outside th hj, rfl, rfl, mark_scratchStore th ha⟩

/-- Settles O5: the loads, the stores with what they keep, and the two faults of every access. -/
theorem scratchAccess : Obligations.ScratchAccess := by
  refine ⟨fun s t w => ⟨?_, ?_, ?_, ?_, ?_, ?_, ?_⟩, fun s t w => ⟨?_, ?_, ?_, ?_, ?_, ?_, ?_⟩, fun s t w i op n => ?_⟩
  -- loads
  · exact fun h ⟨ha, hc, hs, hp⟩ => (load_inside h ha hc hs hp : execLdb t s = _)
  · exact fun h ⟨ha, hc, hs, hp⟩ => (load_inside h ha hc hs hp : execLdh t s = _)
  · exact fun h ⟨ha, hc, hs, hp⟩ => (load_inside h ha hc hs hp : execLdw t s = _)
  · exact fun h ⟨ha, hc, hs, hp⟩ => (load_inside h ha hc hs hp : execLdd t s = _)
  · exact fun h ⟨ha, hc, hs, hp⟩ => (load_inside h ha hc hs hp : execVld t s = _)
  · exact fun h ha hc hr hf => (load_control h (.inl rfl) ha hc hr hf : execLdw t s = _)
  · exact fun h ha hc hr hf => (load_control h (.inr rfl) ha hc hr hf : execLdd t s = _)
  -- stores
  · exact fun h ⟨ha, hc, hs⟩ => ⟨(store_inside h ha hc hs : execStb t s = _), scratchStore_keeps _ (toLe_length ..) ha⟩
  · exact fun h ⟨ha, hc, hs⟩ => ⟨(store_inside h ha hc hs : execSth t s = _), scratchStore_keeps _ (toLe_length ..) ha⟩
  · exact fun h ⟨ha, hc, hs⟩ => ⟨(store_inside h ha hc hs : execStw t s = _), scratchStore_keeps _ (toLe_length ..) ha⟩
  · exact fun h ⟨ha, hc, hs⟩ => ⟨(store_inside h ha hc hs : execStd t s = _), scratchStore_keeps _ (toLe_length ..) ha⟩
  · exact fun h ⟨ha, hc, hs⟩ => ⟨(store_inside h ha hc hs : execVst t s = _), scratchStore_keeps _ (toLe_length ..) ha⟩
  · exact fun h ha hc hr => (store_control h (.inl rfl) ha hc hr : execStw t s = _)
  · exact fun h ha hc hr => (store_control h (.inr rfl) ha hc hr : execStd t s = _)
  -- faults
  · exact fun hi h => ⟨fun ha => scratchAccess_faults hi h (scratchFault_align ha),
      fun ha hc hs => scratchAccess_faults hi h (scratchFault_range ha hc hs)⟩

end Sys2Proof.Proofs
end

section
/-! SUPPORT. Program faults, the checks before the guard, branches and the system instructions (R32, R35, R39, R40, R60 to R64, R67,
R94, R404). -/

namespace Sys2Proof.Proofs

open Sys2Proof Sys2Proof.Machine

/-! Program faults (R63, R64, R94) -/

/-- A fault of a thread that no freeze holds halts it: a halt that waited is done with, its loads are gone, and nothing else of it
changes. -/
theorem faultThread_eq (r : BitVec 320) {th : Thread} (hm : th.mode ≠ .frozen) (hf : th.freezeDue = false) :
    faultThread r th =
      { th with mode := .halted, faulted := true, fault := r, plds := [], stalledAt := none, haltDue := false } := by
  cases hd : th.haltDue with
  | false => simp [faultThread, setMode, settleThread, hm, hf, hd]
  | true => simp [faultThread, setMode, settleThread, haltNow, hm, hf, hd]

theorem le_cons_mod (b : Byte) (l : Bytes) : le (b :: l) % 256 = b.toNat := by
  have hb : b.toNat < 256 := b.isLt
  rw [le]
  omega

theorem toNat_ofNat_mod_256 {n : Nat} (hn : 8 ≤ n) (x : Nat) : (BitVec.ofNat n x).toNat % 256 = x % 256 := by
  rw [BitVec.toNat_ofNat]
  exact Nat.mod_mod_of_dvd x (Nat.pow_dvd_pow 2 hn)

/-- A fault record begins with its code (Table 03-8). -/
theorem faultRecord_code {code : Nat} (h : code < 256) (special pc tag word program inst : Nat) (detail event : Word) (time : Nat) :
    (BitVec.ofNat 320 (le (faultRecord code special pc tag word program inst detail event time))).toNat % 256 = code := by
  have hcons : ∃ l, faultRecord code special pc tag word program inst detail event time = BitVec.ofNat 8 code :: l := ⟨_, rfl⟩
  obtain ⟨l, hl⟩ := hcons
  rw [hl, toNat_ofNat_mod_256 (by decide), le_cons_mod, BitVec.toNat_ofNat]
  exact Nat.mod_eq_of_lt h

/-- Settles O8: the poisoned load, then the thread that a fault leaves, field by field. -/
theorem faultsKeepState : Obligations.FaultsKeepState := by
  refine ⟨fun s t w => ?_, fun s t f => ?_⟩
  · exact fun h ha hc hs hp _ => (load_poisoned h ha hc hs hp : execLdd t s = _)
  · intro th r u hm hf
    have hu : u = _ := faultThread_eq r hm hf
    rw [hu]
    exact ⟨rfl, rfl, rfl, rfl, rfl, rfl, rfl, rfl, rfl, rfl, fun h => faultRecord_code h ..⟩

/-! The checks before the guard (R62) -/

section
variable {s : State} {t w : Nat} {th : Thread}

theorem preIssue_budget (ht : t ≠ mgEngine) (hb : th.budget = 0) :
    preIssue s t th = .bad (FaultCode.budget, BitVec.ofNat 64 (activationBudget s t th)) := if_pos ⟨ht, hb⟩

theorem budget_left (hb : t = mgEngine ∨ th.budget ≠ 0) : ¬(t ≠ mgEngine ∧ th.budget = 0) := by
  rintro ⟨ht, h0⟩
  exact hb.elim ht (fun h => h h0)

theorem preIssue_fetch (hb : t = mgEngine ∨ th.budget ≠ 0) (hw : fetch s t th = none) :
    preIssue s t th = .bad (FaultCode.fetch, BitVec.ofNat 64 th.pc) := by
  rw [preIssue, if_neg (budget_left hb), hw]

theorem preIssue_illegal (hb : t = mgEngine ∨ th.budget ≠ 0) (hw : fetch s t th = some w) (hd : decodeN w = none) :
    preIssue s t th = .bad (FaultCode.illegal, 0) := by
  rw [preIssue, if_neg (budget_left hb), hw]
  simp only [hd]

theorem preIssue_priv {op : NOp} (ht : t ≠ mgEngine) (hb : th.budget ≠ 0) (hw : fetch s t th = some w) (hd : decodeN w = some op)
    (hop : op = .mfs ∨ op = .mts) : preIssue s t th = .bad (FaultCode.priv, BitVec.ofNat 64 (wImm w)) := by
  rw [preIssue, if_neg (budget_left (.inr hb)), hw]
  simp only [hd]
  exact if_pos ⟨hop, ht⟩

end

section
variable {s : State} {t w : Nat} {op : NOp}

theorem regOnly_predicated (h : Issues s t op w) (hg : guardTrue (thread s t) op w = false) (f : Thread → Nat → Thread → Thread) :
    regOnly t op s f = .next (issued s t id) := issue_predicated h hg _ rfl _

theorem regOnly_bad {f : PFault} (hm : mayRun (thread s t) = true) (hr : ctxRuns s (thread s t) = true)
    (h : preIssue s t (thread s t) = .bad f) (g : Thread → Nat → Thread → Thread) :
    regOnly t op s g = takeFault s t f := issue_bad hm hr h op _ _

end

/-- Settles O9: the predicated-off slot by the law of issue, then the checks in their order. -/
theorem issueChecks : Obligations.IssueChecks := by
  refine ⟨fun s t w => ⟨?_, ?_, ?_, ?_, rfl⟩, fun s t => ⟨?_, ?_, ?_, ?_, ?_⟩⟩
  · exact fun h hg => (regOnly_predicated h hg _ : execAlu t s = _)
  · exact fun h hg => (regOnly_predicated h hg _ : execVarith t s = _)
  · exact fun h hg chk => (issue_predicated h hg _ rfl _ : execQpush t chk s = _)
  · exact fun ht => if_neg ht
  · exact preIssue_budget
  · exact preIssue_fetch
  · exact fun _ => preIssue_illegal
  · exact fun _ _ => preIssue_priv
  · exact fun f hm hr hf => (regOnly_bad hm hr hf _ : execAlu t s = _)

/-! Branches (R39, R40) -/

theorem execBr_not_taken {s : State} {t w : Nat} (h : Performs s t .br w) (hp : pGet (thread s t) (wPt w) = wSn w) :
    execBr t s = .next (issued s t (sSet (wRd w) (BitVec.ofNat 64 ((thread s t).pc + 4)))) := by
  have hn : (pGet (thread s t) (wPt w) != wSn w) = false := bne_eq_false_iff_eq.mpr hp
  refine issue_ok h rfl ?_
  simp [hn]

theorem execBr_taken {s : State} {t w target : Nat} (h : Performs s t .br w) (hp : pGet (thread s t) (wPt w) ≠ wSn w)
    (ht : ((thread s t).pc : Int) + 4 * wOff w = target) (hc : target < codeLen s t (thread s t)) :
    execBr t s = .next (issued s t (fun x =>
      sSet (wRd w) (BitVec.ofNat 64 ((thread s t).pc + 4)) { x with pc := target })) := by
  have hn : (pGet (thread s t) (wPt w) != wSn w) = true := bne_iff_ne.mpr hp
  have hin : ¬((target : Int) < 0 ∨ (codeLen s t (thread s t) : Int) ≤ target) := by omega
  refine issue_ok h rfl ?_
  simp only [hn, ht, hin, and_false, if_false, if_true, Int.toNat_natCast]

theorem execJalr_jumps {s : State} {t w : Nat} (h : Performs s t .jalr w) (ha : (sGet (thread s t) (wRa w)).toNat % 4 = 0)
    (hr : (sGet (thread s t) (wRa w)).toNat < 2 ^ (if t = mgEngine then 18 else 15))
    (hc : (sGet (thread s t) (wRa w)).toNat < codeLen s t (thread s t)) :
    execJalr t s = .next (issued s t (fun x =>
      sSet (wRd w) (BitVec.ofNat 64 ((thread s t).pc + 4)) { x with pc := (sGet (thread s t) (wRa w)).toNat })) := by
  refine issue_ok h rfl (if_neg ?_)
  rintro (h4 | h2 | hl)
  · exact h4 ha
  · exact Nat.not_le.mpr hr h2
  · exact Nat.not_le.mpr hc hl

/-- Settles O6. -/
theorem branchTargets : Obligations.BranchTargets :=
  fun _ _ _ => ⟨execBr_not_taken, fun _ => execBr_taken, execJalr_jumps⟩

/-! The end of an activation and the system registers (R59, R60, R67, R404) -/

/-- The end of an activation that the journal does not record. -/
theorem endActivation_unmirrored {s : State} {t : Nat} {th : Thread} (h : mirrorsThread s t th = false) (f : Thread → Thread) :
    endActivation s t th f = .ok s f := if_neg (by simp [h])

theorem mirrorsThread_mgEngine (s : State) (th : Thread) : mirrorsThread s mgEngine th = false := rfl

theorem startMode_mgEngine (s : State) (th : Thread) : startMode s mgEngine th = false := rfl

/-- A fault takes its effect once the journal has room for its record (R329). -/
theorem issueFault_of_room {s : State} {t : Nat} (f : PFault) (hp : (thread s t).plds = [])
    (hr : pushFault s t (thread s t) (fill 40 0) ≠ none) : issueFault s t f = .next (programFault (spend s t) t f) := by
  obtain ⟨u, hu⟩ := Option.ne_none_iff_exists'.mp hr
  simp only [issueFault, hp, hu]
  rfl

section
variable {s : State} {t w : Nat}

theorem execYield_ends (h : Performs s t .yield w) (hm : mirrorsThread s t (thread s t) = false) :
    execYield t s = .next (issued s t (activate (activationBudget s t (thread s t)) (eventWord .yield_ 0 0 0))) :=
  issue_ok h rfl (endActivation_unmirrored hm _)

theorem execHalt_halts (h : Performs s t .halt w) (ht : t ≠ mgEngine) (hm : mirrorsThread s t (thread s t) = false)
    (hs : startMode s t (thread s t) = false) :
    execHalt t s = .next (issued s t (fun x => { x with mode := .halted, pc := (thread s t).pc })) := by
  refine issue_ok h rfl ?_
  simp only [if_neg ht, hs, Bool.false_eq_true, if_false, endActivation_unmirrored hm]

/-- In START mode the run ends and the thread is IDLE. -/
theorem execHalt_idles (h : Performs s t .halt w) (ht : t ≠ mgEngine) (hm : mirrorsThread s t (thread s t) = false)
    (hs : startMode s t (thread s t) = true) :
    execHalt t s = .next (issued s t (fun x => { x with mode := .idle, run := false })) := by
  refine issue_ok h rfl ?_
  simp only [if_neg ht, hs, if_true, endActivation_unmirrored hm]

/-- The management engine stops. -/
theorem execHalt_mgEngine (h : Performs s mgEngine .halt w) :
    execHalt mgEngine s = .next (issued { s with mg := { s.mg with running := false } } mgEngine
      (fun x => { x with mode := .halted, pc := (thread s mgEngine).pc })) := by
  refine issue_ok h rfl ?_
  simp only [if_true, startMode_mgEngine, Bool.false_eq_true, if_false, endActivation_unmirrored (mirrorsThread_mgEngine _ _)]

theorem execSrWdt_restarts (h : Performs s t .mts w) (hi : wImm w = 1) :
    execSrWdt t s = .next (issued { s with mg := { s.mg with wdtLeft := fld (regNat s Reg.mgWdt) 0 8 } } t id) :=
  issue_ok h (by simp [hi]) rfl

theorem execSrKpOpen_opens (h : Performs s t .mts w) (hi : wImm w = 3) (hb : (sGet (thread s t) (wRd w)).getLsbD 0 = true) :
    execSrKpOpen t s = .next (issued { s with mg := { s.mg with kpOpen := true } } t id) := by
  have hbit : bit (sGet (thread s t) (wRd w)).toNat 0 = true := (bit_eq_testBit _ 0).trans hb
  refine issue_ok h (by simp [hi]) ?_
  simp only [if_pos hbit]

theorem execSrReset_resets (h : Performs s t .mts w) (hi : wImm w = 4) (hv : sGet (thread s t) (wRd w) = 0x5253) :
    execSrReset t s = .next (deviceReset s 3) := by
  rw [execSrReset, issue_performs h _ (by simp [hi])]
  simp only [if_pos hv]
  rfl

theorem execTrap_faults (h : Performs s t .trap w) (hp : (thread s t).plds = [])
    (hr : pushFault s t (thread s t) (fill 40 0) ≠ none) :
    execTrap t s = .next (programFault (spend s t) t (FaultCode.trap, BitVec.ofNat 64 (wCode w))) :=
  (issue_fault_same h rfl rfl).trans (issueFault_of_room _ hp hr)

end

/-- Settles O7, instruction by instruction. -/
theorem systemInstructions : Obligations.SystemInstructions := by
  intro s t w
  refine ⟨?_, execYield_ends, execHalt_halts, execHalt_idles, ?_, execSrWdt_restarts, execSrKpOpen_opens, execSrReset_resets,
    execTrap_faults⟩
  · exact fun h => (regOnly_performs h _ : execFence t s = _)
  · rintro h rfl
    exact execHalt_mgEngine h

end Sys2Proof.Proofs
end

section
/-! SUPPORT. What a push comes to, what an instruction finds at the head of its queue, and the queue instructions (R50, R53, R54, R161
to R166). -/

namespace Sys2Proof.Proofs

open Sys2Proof Sys2Proof.Machine

/-! Pushes and heads -/

theorem scratchRead_length (th : Thread) (a n : Nat) : (scratchRead th a n).length = n := by
  rw [scratchRead, Mem.read, List.length_map, upto_length]

theorem checkedQueue_ok (s : State) (q : Nat) (may : Queue → Bool) : checkedQueue s q may .ok = s := by
  have hq : qmChecked s q .ok = s := by
    unfold qmChecked
    split <;> rfl
  unfold checkedQueue
  split
  · rfl
  · rw [hq, ite_self]

section
variable {s : State} {q prio : Nat} {tag : BitVec 11} {b : Bytes} {x : Queue}

theorem push_links {l : List Item} (poison : Bool) (hq : queue? s q = some x) (hm : mayPush x (tagCtx tag) = true)
    (hd : discards s q x tag prio (cellsOf b.length) = some l) (hr : queueRoom s x (l.length + 1) b.length = true) :
    push s q prio tag b poison =
      (.linked !l.isEmpty, raiseEvent (linkItem (l.foldl (displaceItem q) s) q prio tag b poison) .queue q 0 none) := by
  rw [push, pushBy]
  simp [hq, hm, hd, hr]

theorem push_full (poison : Bool) (hq : queue? s q = some x) (hm : mayPush x (tagCtx tag) = true)
    (hd : discards s q x tag prio (cellsOf b.length) = none) : push s q prio tag b poison = (.full, s) := by
  rw [push, pushBy]
  simp [hq, hm, hd]

end

section
variable {s : State} {t w : Nat} {th : Thread} {x : Queue}

/-- QPUSH finds room, discarding what the queue's mode gives. -/
theorem qpushBody_links {l : List Item} (ho : queueOperands t th w true true = none) (hs : s.th.safe = false)
    (hq : queue? s (xh th w) = some x) (hm : mayPush x (tagCtx th.tag) = true)
    (hd : discards s (xh th w) x th.tag (spanOf t (xa th w)).prio (cellsOf (spanOf t (xa th w)).len) = some l)
    (hr : queueRoom s x (l.length + 1) (spanOf t (xa th w)).len = true) :
    qpushBody t .ok s th w =
      .ok (raiseEvent (linkItem (l.foldl (displaceItem (xh th w)) s) (xh th w) (spanOf t (xa th w)).prio th.tag
          (scratchRead th (spanOf t (xa th w)).addr (spanOf t (xa th w)).len)
          (scratchPoison th (spanOf t (xa th w)).addr (spanOf t (xa th w)).len)) .queue (xh th w) 0 none)
        (sSet (wRd w) (statusWord .done 0 (!l.isEmpty) 0)) := by
  rw [← scratchRead_length th (spanOf t (xa th w)).addr (spanOf t (xa th w)).len] at hd hr
  simp [qpushBody, ho, checkedQueue_ok, hs, push_links _ hq hm hd hr, status]

/-- QPUSH with WT = 1 waits where there is no room (R51). -/
theorem qpushBody_stalls (ho : queueOperands t th w true true = none) (hs : s.th.safe = false)
    (hq : queue? s (xh th w) = some x) (hm : mayPush x (tagCtx th.tag) = true)
    (hd : discards s (xh th w) x th.tag (spanOf t (xa th w)).prio (cellsOf (spanOf t (xa th w)).len) = none) (hw : wWt w = true) :
    qpushBody t .ok s th w = .stall s id := by
  rw [← scratchRead_length th (spanOf t (xa th w)).addr (spanOf t (xa th w)).len] at hd
  simp [qpushBody, ho, checkedQueue_ok, hs, push_full _ hq hm hd, hw]

section
variable {span : Bool} {body : State → Queue → Item → TRes}

theorem withHead_item {i : Item} (ho : queueOperands t th w false span = none) (hq : queue? s (xh th w) = some x)
    (hown : ownQueue th x = true) (hi : headItem x = some i) : withHead t .ok s th w span body = body s x i := by
  simp [withHead, ho, checkedQueue_ok, hq, hown, hi]

theorem withHead_empty (ho : queueOperands t th w false span = none) (hq : queue? s (xh th w) = some x)
    (hown : ownQueue th x = true) (hi : headItem x = none) (hw : wWt w = false) :
    withHead t .ok s th w span body = .ok s (sSet (wRd w) (statusWord .empty 0 false 0)) := by
  simp [withHead, ho, checkedQueue_ok, hq, hown, hi, hw, status]

/-- A queue that does not exist is refused as one of another context is (R161). -/
theorem withHead_missing (ho : queueOperands t th w false span = none) (hq : queue? s (xh th w) = none) :
    withHead t .ok s th w span body = .fault (qmRefuse s (xh th w) th.tag) (accessFault 1 (xh th w)) := by
  simp [withHead, ho, checkedQueue_ok, hq]

end

theorem takeHead_room {q how : Nat} (i : Item) (f : Thread → Thread) (hr : queueRoom s x 1 0 = true) :
    takeHead s q x i how f = .ok (unlinkItem s q x i how) f := if_pos hr

/-! The queue instructions -/

theorem qpopBody_takes {i : Item} (hv : wXv w = 0) (ho : queueOperands t th w false true = none)
    (hq : queue? s (xh th w) = some x) (hown : ownQueue th x = true) (hi : headItem x = some i) (hp : i.poison = false)
    (hl : i.bytes.length ≤ (spanOf t (xa th w)).len) (hr : queueRoom s x 1 0 = true) :
    qpopBody t .ok s th w = .ok (unlinkItem s (xh th w) x i 0) (fun y =>
      sSet (wRd w) (statusWord .done i.prio false i.bytes.length) (scratchCopy (spanOf t (xa th w)).addr i.bytes y)) := by
  have hspan : (wXv w != 1) = true := by rw [hv]; rfl
  rw [qpopBody, hspan, withHead_item ho hq hown hi, if_neg (by rw [hv]; decide), if_neg (by simp [hp]), if_neg (Nat.not_lt.mpr hl),
    takeHead_room i _ hr]
  rfl

/-- QDROP: the head item is discarded and nothing is copied. -/
theorem qpopBody_drops {i : Item} (hv : wXv w = 1) (ho : queueOperands t th w false false = none)
    (hq : queue? s (xh th w) = some x) (hown : ownQueue th x = true) (hi : headItem x = some i) (hr : queueRoom s x 1 0 = true) :
    qpopBody t .ok s th w = .ok (unlinkItem s (xh th w) x i 1)
      (sSet (wRd w) (statusWord .done i.prio false i.bytes.length)) := by
  have hspan : (wXv w != 1) = false := by rw [hv]; rfl
  rw [qpopBody, hspan, withHead_item ho hq hown hi, if_pos hv, takeHead_room i _ hr]
  rfl

theorem qpeekBody_copies {i : Item} (ho : queueOperands t th w false true = none) (hq : queue? s (xh th w) = some x)
    (hown : ownQueue th x = true) (hi : headItem x = some i) (hp : i.poison = false)
    (hl : wXv w = 1 ∨ i.bytes.length ≤ (spanOf t (xa th w)).len) :
    qpeekBody t .ok s th w = .ok s (fun y => sSet (wRd w) (statusWord .done i.prio false i.bytes.length)
      (scratchCopy (spanOf t (xa th w)).addr (i.bytes.take (spanOf t (xa th w)).len) y)) := by
  have hfits : ¬(wXv w ≠ 1 ∧ (spanOf t (xa th w)).len < i.bytes.length) := by omega
  rw [qpeekBody, withHead_item ho hq hown hi, if_neg (by simp [hp]), if_neg hfits]
  rfl

end

/-- Settles O10: each instruction by what its body comes to. -/
theorem queueInstructions : Obligations.QueueInstructions := by
  intro s t w
  refine ⟨?_, ?_, ?_, ?_, ?_, ?_⟩
  · exact fun x l h ho hs hq hm hd hr => (issue_ok h rfl (qpushBody_links ho hs hq hm hd hr) : execQpush t .ok s = _)
  · exact fun x i h hv ho hq hown hi hp hl hr =>
      (issue_ok h rfl (qpopBody_takes hv ho hq hown hi hp hl hr) : execQpop t .ok s = _)
  · exact fun x i h hv ho hq hown hi hr => (issue_ok h rfl (qpopBody_drops hv ho hq hown hi hr) : execQpop t .ok s = _)
  · exact fun x i h ho hq hown hi hp hl => (issue_ok h rfl (qpeekBody_copies ho hq hown hi hp hl) : execQpeek t .ok s = _)
  · exact fun x h ho hq hown hi hw => (issue_ok h rfl (withHead_empty ho hq hown hi hw) : execQpop t .ok s = _)
  · exact fun h ho hq hp => (issue_fault h rfl hp (withHead_missing ho hq) : execQpop t .ok s = _)

end Sys2Proof.Proofs
end

section
/-! SUPPORT. Pool accesses of a thread, contributions, and the posting instructions (R55 to R58, R63, R66, R82). -/

namespace Sys2Proof.Proofs

open Sys2Proof Sys2Proof.Machine

/-! Pool accesses (R55, R63, R82) -/

section
variable {s : State} {t w ppa slot : Nat} {th : Thread}

theorem poolAccess_allow {wr : Bool} {body : Nat → TRes} (hw : poolWordOk (tagCtx th.tag == mgt) (xh th w) = true)
    (ha : xh th w % 64 = 0) (hc : check s th.tag (.tpa (xh th w)) wr = .allow ppa slot) : poolAccess s th w wr body = body ppa := by
  simp [poolAccess, firstFault, hw, ha, hc]

theorem pldBody_issues (hw : poolWordOk (tagCtx th.tag == mgt) (xh th w) = true) (ha : xh th w % 64 = 0)
    (hc : check s th.tag (.tpa (xh th w)) false = .allow ppa slot) (hl : loadSlot s t th = true) :
    pldBody t s th w = .ok s (fun y => { y with plds := y.plds ++
      [{ vd := wRd w, addr := BitVec.ofNat 64 (xh th w), ppa := ppa, pc := th.pc, s := th.s, v := th.v, p := th.p }] }) := by
  rw [pldBody, poolAccess_allow hw ha hc, if_pos hl]

/-- A whole line is written (LINE). -/
theorem pstBody_line (hv : wXv w = 0) (hw : poolWordOk (tagCtx th.tag == mgt) (xh th w) = true) (ha : xh th w % 64 = 0)
    (hc : check s th.tag (.tpa (xh th w)) true = .allow ppa slot) (hr : writeRoom s ppa 64 = true) :
    pstBody s th w = .ok (poolStore s th.tag ppa (lineBytes (vGet th (wXs w))) false) id := by
  rw [pstBody, poolAccess_allow hw ha hc]
  simp [hv, hr]

/-- The bytes of a mask that is neither empty nor full are written (MASKED). -/
theorem pstBody_masked (hv : wXv w = 1) (h0 : xa th w ≠ 0) (h1 : xa th w ≠ 2 ^ 64 - 1)
    (hw : poolWordOk (tagCtx th.tag == mgt) (xh th w) = true) (ha : xh th w % 64 = 0)
    (hc : check s th.tag (.tpa (xh th w)) true = .allow ppa slot) (hr : writeRoom s ppa 64 = true) :
    pstBody s th w = .ok (poolWrite (eccSpan s ppa 64 th.tag) ppa
      (maskBytes (xa th w) (poolBytes (eccSpan s ppa 64 th.tag) ppa 64) (lineBytes (vGet th (wXs w))))
      (poisonAt (eccSpan s ppa 64 th.tag) ppa)) id := by
  rw [pstBody, poolAccess_allow hw ha hc]
  simp only [hv, if_true, if_neg h0, hr, Bool.not_true, Bool.false_eq_true, if_false, if_neg h1]

theorem pstBody_empty_mask (hv : wXv w = 1) (h0 : xa th w = 0) (hw : poolWordOk (tagCtx th.tag == mgt) (xh th w) = true)
    (ha : xh th w % 64 = 0) (hc : check s th.tag (.tpa (xh th w)) true = .allow ppa slot) : pstBody s th w = .ok s id := by
  rw [pstBody, poolAccess_allow hw ha hc]
  simp only [hv, if_true, h0]

end

section
variable {s : State} {t : Nat} {p : Pld}

/-- A line that returns clean fills its vector. -/
theorem execPldComplete_fills {k : Nat} {ups : Upsets} (hp : (thread s t).plds[k]? = some p)
    (hf : ((thread s t).plds.take k).any (fun e => e.ppa == p.ppa) = false)
    (hc : poisonAt (eccSpan (disturb s ups) p.ppa 64 (thread s t).tag) p.ppa = false) :
    let u := eccSpan (disturb s ups) p.ppa 64 (thread s t).tag
    execPldComplete t k ups s = .next (setThread u t (settleThread (fillPld k p (poolLine u p.ppa) (thread u t)))) := by
  simp only [execPldComplete, hp, hf, hc, Bool.false_eq_true, if_false]

/-- A poisoned line makes the oldest load fault at its own PC (R66). -/
theorem execPldComplete_faults {rest : List Pld} {ups : Upsets} (hp : (thread s t).plds = p :: rest)
    (hc : poisonAt (eccSpan (disturb s ups) p.ppa 64 (thread s t).tag) p.ppa = true) :
    let u := eccSpan (disturb s ups) p.ppa 64 (thread s t).tag
    let v := setThread u t (undoPld p (thread u t))
    pushFault v t (thread v t) (fill 40 0) ≠ none →
    execPldComplete t 0 ups s = .next (programFault v t (poisonFault p.addr.toNat)) := by
  intro u v hr
  have h0 : (thread s t).plds[0]? = some p := by rw [hp]; rfl
  simp only [execPldComplete, h0, List.take_zero, List.any_nil, Bool.false_eq_true, if_false, if_pos hc, ne_eq, not_true]
  split
  · rename_i hnone
    exact absurd hnone hr
  · rfl

end

/-! Contributions (R56, R133, R140, R144, R146, R249) -/

/-- What the arbiter keeps is its own shares only. -/
theorem serve_sc {s u : State} {point : Nat} {e : Ready} {others : List Ready} (h : serve s point e others = some u) :
    u = { s with sc := u.sc } := by
  unfold serve at h
  split_ifs at h
  · cases h; rfl
  · dsimp only at h
    split at h
    · split at h
      · split_ifs at h
        cases h
        rfl
      · cases h
    · cases h

theorem serveLine_sc {s u : State} {i : Nat} {k : Contrib} (h : serveLine s i k = some u) : u = { s with sc := u.sc } := by
  unfold serveLine at h
  split at h
  · cases h; rfl
  · split_ifs at h
    · exact serve_sc h
    · cases h; rfl

/-- A line of SC0 is served at once, as is one that passes no arbiter (R248). -/
theorem serveLine_of_sc0 (s : State) (i : Nat) {k : Contrib} (h : tagSc k.tag = 0) : serveLine s i k = some s := by
  unfold serveLine
  split
  · rfl
  · split
    · exact if_pos h
    · rfl

section
variable {s : State} {k : Contrib} {x : RWin}

/-- A line of an open chunk is applied. -/
theorem presentLine_open {ch : Chunk} (hx : rwin? s k.window = some x) (he : x.epoch = k.epoch)
    (hr : ctxMode s x.ctx = .running) (hc : x.complete.contains (k.offset / 65536) = false)
    (ha : x.arrival = true → writeRoom s (chunkGranule s x (k.offset / 65536) * granuleBytes) 64 = true)
    (hch : chunk? s k.window (k.offset / 65536) = some ch) :
    presentLine s k = .took (applyLine s k x (k.offset / 65536) ch) := by
  have hroom : ¬(x.arrival = true ∧ (!writeRoom s (chunkGranule s x (k.offset / 65536) * granuleBytes) 64) = true) := by
    rintro ⟨h1, h2⟩
    rw [ha h1] at h2
    cases h2
  simp only [presentLine, hx]
  rw [if_neg (not_not.mpr he), if_neg (not_not.mpr hr), hc, if_neg Bool.false_ne_true, if_neg hroom, hch]

/-- A line of a complete chunk is in excess (R144). -/
theorem presentLine_complete (hx : rwin? s k.window = some x) (he : x.epoch = k.epoch) (hr : ctxMode s x.ctx = .running)
    (hc : x.complete.contains (k.offset / 65536) = true) :
    presentLine s k = .took (excessLine s k.window (k.offset / 65536) (k.offset % 65536 / 64) x) := by
  simp only [presentLine, hx]
  rw [if_neg (not_not.mpr he), if_neg (not_not.mpr hr), if_pos hc]

end

section
variable {s : State} {t w : Nat} {th : Thread}

/-- The contribution of a PRED that is presented for the first time. -/
def freshLine (s : State) (t : Nat) (th : Thread) (w : Nat) : Contrib :=
  { src := .thread t, tag := th.tag, window := xh th w % 4096, offset := xa th w
    epoch := ((rwin? s (xh th w % 4096)).map (fun x => x.epoch)).getD 0, data := vGet th (wXs w), poison := false }

theorem predLine_fresh (hm : th.mode ≠ .stalled) : predLine s t th w = freshLine s t th w := by
  have hw : fld (xh th w) 0 12 = xh th w % 4096 := rfl
  have he : predEpoch s th (xh th w % 4096) = ((rwin? s (xh th w % 4096)).map (fun x => x.epoch)).getD 0 := by
    unfold predEpoch
    split
    · rename_i hst _
      exact absurd hst hm
    · rfl
  rw [predLine, hw, he, freshLine]

theorem predCheck_fresh (hm : th.mode ≠ .stalled) :
    predCheck s th w =
      contribCheck s th.tag (xh th w % 4096) (xh th w / 4096 % 4096) (xa th w) (some (xh th w / 2 ^ 24 % 256)) := by
  rw [predCheck, if_neg hm, fld_eq_div_mod, fld_eq_div_mod, fld_eq_div_mod, pow_zero, Nat.div_one]
  simp only [Nat.reducePow]

/-- The operands of a PRED are in form. -/
theorem predOperands_ok {reg : Nat} (hh : xh th w < 2 ^ 32) (ho : xa th w % 64 = 0) :
    firstFault [(!handleOk (xh th w) 32, opFault reg), (xa th w % 64 != 0, alignFault (xa th w))] = none := by
  have hhandle : handleOk (xh th w) 32 = true := decide_eq_true hh
  simp [firstFault, hhandle, ho]

/-- A PRED whose line is taken, before the arbiter and after it. -/
theorem predBody_takes {u v v' : State} (hh : xh th w < 2 ^ 32) (ho : xa th w % 64 = 0) (hc : predCheck s th w = none)
    (hp : presentLine s (predLine s t th w) = .took v')
    (hs : serveLine s s.ru.waiting.length (predLine s t th w) = some u)
    (hu : presentLine u (predLine s t th w) = .took v) :
    predBody t s th w = .ok v (sSet (wRd w) (statusWord .done 0 false 0)) := by
  unfold predBody
  simp only [predOperands_ok hh ho, hc, hp, hs, hu]
  rfl

/-- A PRED on a window that is not the thread's own, or from a contributor that the window does not have (R133). -/
theorem predBody_owner (hh : xh th w < 2 ^ 32) (ho : xa th w % 64 = 0) (hc : predCheck s th w = some .owner) :
    predBody t s th w = .fault (contribRefuse s th.tag (xh th w % 4096) .owner) (accessFault 3 (xh th w % 4096)) := by
  unfold predBody
  simp only [predOperands_ok hh ho, hc]
  rfl

/-! HCOPY and NSEND (R57, R58, R189, R233) -/

end

/-- The context that an ENGINE channel belongs to may post to it. -/
theorem hcopy_allowed {s : State} {ctx c : Nat} (hc : c < 1024) (hst : (chan s c).st ≠ .free) (hctx : (chan s c).ctx = ctx)
    (he : (chan s c).engineProd = true) (b : Bytes) :
    hcopy s ctx c b =
      if ringSlots (chan s c) ≤ ((chan s c).tail - (chan s c).head).toNat then .full
      else if 8 ≤ (chan s c).tailBuf.length then .hold
      else .ok (setChan s c { setTail (chan s c) ((chan s c).tail + 1) with
        tailBuf := (chan s c).tailBuf ++ [((chan s c).tail.toNat, b)] }) :=
  if_neg (by simp [hst, hctx, he, hc])

section
variable {s : State} {t w : Nat} {th : Thread}

theorem hcopyBody_ok (hh : xh th w < 1024) (hst : (chan s (xh th w)).st ≠ .free) (hctx : (chan s (xh th w)).ctx = tagCtx th.tag)
    (he : (chan s (xh th w)).engineProd = true)
    (hr : ((chan s (xh th w)).tail - (chan s (xh th w)).head).toNat < ringSlots (chan s (xh th w)))
    (hb : (chan s (xh th w)).tailBuf.length < 8) :
    hcopyBody s th w = .ok (setChan s (xh th w) { setTail (chan s (xh th w)) ((chan s (xh th w)).tail + 1) with
        tailBuf := (chan s (xh th w)).tailBuf ++ [((chan s (xh th w)).tail.toNat, lineBytes (vGet th (wXs w)))] })
      (sSet (wRd w) (statusWord .done 0 false 0)) := by
  rw [hcopyBody, if_neg (by simp [handleOk, hh]), hcopy_allowed hh hst hctx he, if_neg (Nat.not_le.mpr hr), if_neg (Nat.not_le.mpr hb)]
  rfl

theorem hcopyBody_full (hh : xh th w < 1024) (hst : (chan s (xh th w)).st ≠ .free) (hctx : (chan s (xh th w)).ctx = tagCtx th.tag)
    (he : (chan s (xh th w)).engineProd = true)
    (hr : ringSlots (chan s (xh th w)) ≤ ((chan s (xh th w)).tail - (chan s (xh th w)).head).toNat) (hw : wWt w = false) :
    hcopyBody s th w = .ok s (sSet (wRd w) (statusWord .full 0 false 0)) := by
  rw [hcopyBody, if_neg (by simp [handleOk, hh]), hcopy_allowed hh hst hctx he, if_pos hr]
  exact if_neg (by simp [hw])

end

theorem conn_takeCell (s : State) : conn (takeCell s).2 = conn s := by
  unfold takeCell
  split
  · rfl
  · split <;> rfl

/-- Cells are taken from the free list only. -/
theorem conn_takeCells (n : Nat) (s : State) : conn (takeCells n s).2 = conn s := by
  induction n generalizing s with
  | zero => rfl
  | succ n ih => exact (ih (takeCell s).2).trans (conn_takeCell s)

/-- An NSEND of n units on an open connection finds credit and cells (R233). -/
theorem weftSend_sends {s : State} {c kind n : Nat} {tag : BitVec 11} {operand : Word} {b : Bytes} (defq : Bool) (poison : List Nat)
    (hn : units b.length = n) (hst : (conn s c).st = .opened) (hstale : kind = WType.reduce → (conn s c).staleValid = false)
    (hcr : serialGe (conn s c).txLimit ((conn s c).txIssued + BitVec.ofNat 32 n) = true)
    (hq : quotaRoom s (conn s c).ctx (tagSc tag) n 0 = true) (ha : allocStop s = false) :
    weftSend s c tag kind defq operand b poison =
      .ok (journalConn (noteLow (setConn (takeCells n s).2 c { conn s c with
        nextMsg := (conn s c).nextMsg + 1, txIssued := (conn s c).txIssued + BitVec.ofNat 32 n
        txMsgs := (conn s c).txMsgs ++ [{ num := (conn s c).nextMsg, kind := kind, defq := defq, operand := operand, bytes := b
                                          poison := poison, cells := (takeCells n s).1 }]
        staleValid := (conn s c).staleValid && !(kind == WType.reduce && (conn s c).staleWin == fld operand.toNat 0 12) })) c) := by
  subst hn
  have hfresh : (kind == WType.reduce && (conn s c).staleValid) = false := by
    by_cases hk : kind = WType.reduce
    · simp [hstale hk]
    · simp [hk]
  rw [weftSend, if_neg (not_not.mpr hst), if_neg (by simp [hfresh]), if_neg (by simp [hcr, hq, ha])]

theorem nsendBody_sends {s : State} {t w : Nat} {th : Thread} (hh : xh th w < 65536) (hs : spanOk t (xa th w) false = true)
    (h64 : wXv w = 2 → (spanOf t (xa th w)).len % 64 = 0) (hro : remoteOk (tagCtx th.tag == mgt) w (xs th w) = true)
    (hfit : spanFits th (spanOf t (xa th w)) = true) (hst : (conn s (xh th w)).st = .opened)
    (hctx : (conn s (xh th w)).ctx = tagCtx th.tag) {u : State}
    (hsend : weftSend s (xh th w) th.tag (nsendKind w) (wXv w == 0 && wXs w == 0) (sGet th (wXs w))
      (scratchRead th (spanOf t (xa th w)).addr (spanOf t (xa th w)).len)
      (sendPoison th (spanOf t (xa th w)) (2 ^ (conn s (xh th w)).plog)) = .ok u) :
    nsendBody t s th w = .ok u (sSet (wRd w) (statusWord .done 0 false 0)) := by
  have hform : (wXv w == 2 && (spanOf t (xa th w)).len % 64 != 0) = false := by
    by_cases hv : wXv w = 2
    · simp [h64 hv]
    · simp [hv]
  have hopen : ((conn s (xh th w)).st == .free || (conn s (xh th w)).ctx != tagCtx th.tag) = false := by simp [hst, hctx]
  have hhandle : handleOk (xh th w) 16 = true := decide_eq_true hh
  unfold nsendBody
  simp only [firstFault, hhandle, hs, hform, hro, hfit, hopen, Bool.not_true, Bool.or_false, Bool.false_eq_true, if_false, hsend]
  rfl

/-! The statements -/

/-- A line that the arbiter serves, or that is of SC0, leaves the state but for the arbiter's shares. -/
theorem served_line {s u : State} {k : Contrib} {i : Nat} (h : (tagSc k.tag = 0 ∧ u = s) ∨ serveLine s i k = some u) :
    serveLine s i k = some u ∧ u = { s with sc := u.sc } := by
  rcases h with ⟨h0, rfl⟩ | h
  · exact ⟨serveLine_of_sc0 u i h0, rfl⟩
  · exact ⟨h, serveLine_sc h⟩

section
variable {s u : State} {t w : Nat} {x : RWin}

/-- A PRED whose line is taken whatever the arbiter's shares are is performed on the state that the arbiter leaves. -/
theorem execPred_takes {g : State → State} (h : Performs s t .pred w) (hh : xh (thread s t) w < 2 ^ 32)
    (ho : xa (thread s t) w % 64 = 0)
    (hc : contribCheck s (thread s t).tag (xh (thread s t) w % 4096) (xh (thread s t) w / 4096 % 4096) (xa (thread s t) w)
      (some (xh (thread s t) w / 2 ^ 24 % 256)) = none)
    (hp : ∀ sc, presentLine { s with sc := sc } (freshLine s t (thread s t) w) = .took (g { s with sc := sc }))
    (hs : (tagSc (thread s t).tag = 0 ∧ u = s) ∨ serveLine s s.ru.waiting.length (freshLine s t (thread s t) w) = some u) :
    execPred t s = .next (issued (g u) t (sSet (wRd w) (statusWord .done 0 false 0))) := by
  have hm := mode_ne_stalled_of_mayRun h.issues.may
  obtain ⟨hserve, hu⟩ := served_line (k := freshLine s t (thread s t) w) hs
  have hps : presentLine s (freshLine s t (thread s t) w) = .took (g s) := hp s.sc
  have hpu : presentLine u (freshLine s t (thread s t) w) = .took (g u) := by
    rw [hu]
    exact hp u.sc
  rw [← predLine_fresh hm] at hserve hps hpu
  exact issue_ok h rfl (predBody_takes hh ho ((predCheck_fresh hm).trans hc) hps hserve hpu)

theorem freshLine_epoch (hx : rwin? s (xh (thread s t) w % 4096) = some x) :
    x.epoch = (freshLine s t (thread s t) w).epoch := by
  simp only [freshLine, hx, Option.map_some, Option.getD_some]

end

/-- Settles O12: the pool instructions, then the contributions, the descriptors and the messages. -/
theorem poolAndPosting : Obligations.PoolAndPosting := by
  refine ⟨fun s t w => ⟨?_, ?_, ?_, ?_, ?_, ?_⟩, fun s t w => ⟨?_, ?_, ?_, ?_, ?_, ?_⟩⟩
  -- the pool
  · exact fun ppa slot h hw ha hc hl => (issue_ok h rfl (pldBody_issues hw ha hc hl) : execPld t s = _)
  · exact fun k p ups hp hf hc => execPldComplete_fills hp hf hc
  · exact fun p rest ups hp hc hr => execPldComplete_faults hp hc hr
  · exact fun ppa slot h hv hw ha hc hr => (issue_ok h rfl (pstBody_line hv hw ha hc hr) : execPst t s = _)
  · exact fun ppa slot h hv h0 h1 hw ha hc hr => (issue_ok h rfl (pstBody_masked hv h0 h1 hw ha hc hr) : execPst t s = _)
  · exact fun h hv h0 hw ha ⟨ppa, slot, hc⟩ => (issue_ok h rfl (pstBody_empty_mask hv h0 hw ha hc) : execPst t s = _)
  -- contributions
  · exact fun x ch u h hh ho hc hx hr hopen ha hch hs =>
      execPred_takes (g := fun v => applyLine v (freshLine s t (thread s t) w) x (xa (thread s t) w / 65536) ch) h hh ho hc
        (fun sc => presentLine_open (s := { s with sc := sc }) hx (freshLine_epoch hx) hr hopen ha hch) hs
  · exact fun x u h hh ho hc hx hr hdone hs =>
      execPred_takes (g := fun v => excessLine v (xh (thread s t) w % 4096) (xa (thread s t) w / 65536)
        (xa (thread s t) w % 65536 / 64) x) h hh ho hc
        (fun sc => presentLine_complete (s := { s with sc := sc }) hx (freshLine_epoch hx) hr hdone) hs
  · intro h hh ho hc hp
    have hm := mode_ne_stalled_of_mayRun h.issues.may
    exact (issue_fault h rfl hp (predBody_owner hh ho ((predCheck_fresh hm).trans hc)) : execPred t s = _)
  -- descriptors and messages
  · exact fun h hh hst hctx he hr hb => (issue_ok h rfl (hcopyBody_ok hh hst hctx he hr hb) : execHcopy t s = _)
  · exact fun h hh hst hctx he hr hw => (issue_ok h rfl (hcopyBody_full hh hst hctx he hr hw) : execHcopy t s = _)
  · intro h hh hs h64 hro hfit hst hctx hstale n m x hcr hq ha
    have hx : x = conn s (xh (thread s t) w) := congrFun (conn_takeCells n s) _
    rw [hx]
    exact (issue_ok h rfl (nsendBody_sends hh hs h64 hro hfit hst hctx
      (weftSend_sends _ _ (congrArg units (scratchRead_length ..)) hst hstale hcr hq ha)) : execNsend t s = _)

end Sys2Proof.Proofs
end

section
/-! SUPPORT. The wait of a stalled instruction, WAITE, timers and activations (R51, R52, R59, R73, R77, R78, R80). -/

namespace Sys2Proof.Proofs

open Sys2Proof Sys2Proof.Machine

/-! Stalls (R51, R52) -/

/-- An instruction that must wait stalls with PC on it and nothing of it done. -/
theorem issue_stall {s : State} {t : Nat} {op : NOp} {w : Nat} {sel : Nat → Bool} {body : State → Thread → Nat → TRes}
    (h : Performs s t op w) (hs : sel w = true) {f : Thread → Thread} (hb : body s (thread s t) w = .stall s f) :
    issue t op sel s body = .next (setThread s t { f (thread s t) with mode := .stalled, stalledAt := some s.now }) := by
  have hmay := h.issues.may
  rw [issue_performs h sel hs, hb, finish, if_neg (mode_ne_stalled_of_mayRun hmay)]
  simp only [hmay, if_true]

/-- A stalled instruction that finds what it waited for is performed. -/
theorem execStallResume_performs {s u : State} {t w : Nat} {chk : QmCheck} {op : NOp} {body : State → Thread → Nat → TRes}
    {f : Thread → Thread} (hm : (thread s t).mode = .stalled) (hr : ctxRuns s (thread s t) = true)
    (hw : fetch s t (thread s t) = some w) (hd : decodeN w = some op) (hop : stallBody t chk op = some body)
    (hb : body s (thread s t) w = .ok u f) : execStallResume t chk s = .next (issued u t f) := by
  have hruns : ¬((thread s t).mode ≠ .stalled ∨ (!ctxRuns s (thread s t)) = true) := by simp [hm, hr]
  rw [execStallResume, if_neg hruns, hw]
  simp only [hd, Option.bind_some, hop, hb, finish_ok]

theorem tagStall_ne (s : State) (n : Nat) : (tagStall s n).ne = s.ne := by
  unfold tagStall
  generalize s.hp.ports = ports
  induction ports generalizing s with
  | nil => rfl
  | cons e l ih =>
    rw [List.foldl_cons, ih]
    split <;> rfl

/-- Time that passes leaves the engines as they are. -/
theorem passTo_ne (s : State) (due : Nat) : (passTo s due).ne = s.ne := by
  unfold passTo
  split
  · rfl
  · exact tagStall_ne s _

theorem passTo_past {s : State} {due : Nat} (h : due ≤ s.now) : passTo s due = s := if_pos h

theorem thread_passTo (s : State) (due t : Nat) : thread (passTo s due) t = thread s t := by
  rw [thread, thread, passTo_ne]

theorem instAt_passTo (s : State) (due t : Nat) (th : Thread) : instAt (passTo s due) t th = instAt s t th := by
  simp only [instAt, inst?, passTo_ne]

/-- A tenant's fault record for the management queue goes nowhere (R159). -/
theorem pushFault_no_queue {s : State} {t : Nat} {th : Thread} (b : Bytes)
    (hq : ∀ i, instAt s t th = some i → i.faultQueue = mgtQueue) (hc : tagCtx th.tag ≠ mgt) : pushFault s t th b = some s := by
  unfold pushFault
  split
  · rfl
  · rename_i i hi
    exact if_pos ⟨hq i hi, hc⟩

theorem takeFault_of_room {s : State} {t : Nat} (f : PFault) (hp : (thread s t).plds = [])
    (hr : pushFault s t (thread s t) (fill 40 0) ≠ none) : takeFault s t f = .next (programFault s t f) := by
  obtain ⟨u, hu⟩ := Option.ne_none_iff_exists'.mp hr
  simp only [takeFault, hp, hu]
  rfl

/-- Past the image's limit a stall is a fault. -/
theorem execStall_faults {s : State} {t w since : Nat} {p : Program} (hm : (thread s t).mode = .stalled)
    (hs : (thread s t).stalledAt = some since) (hp : programAt s t (thread s t) = some p)
    (hw : fetch s t (thread s t) = some w) (hc : closedSend s (thread s t) w = false) (hl : (thread s t).plds = [])
    (hr : pushFault (passTo s (since + 8 * p.stallLimit)) t (thread s t) (fill 40 0) ≠ none) :
    execStall t s =
      .next (programFault (passTo s (since + 8 * p.stallLimit)) t (FaultCode.stall, BitVec.ofNat 64 (wOp w))) := by
  rw [← thread_passTo s (since + 8 * p.stallLimit)] at hl hr
  rw [← takeFault_of_room _ hl hr]
  simp only [execStall, hm, hs, hp, hw, hc, ns]
  rfl

/-! WAITE (R59, R73, R78) -/

theorem waiteThread_timed (start : Bool) (now : Nat) {v : Nat} (hv : v ≠ 0) :
    waiteThread start now v = fun x => { x with mode := .waiting, timer := some (now + 8 * v) } := by
  funext x
  rw [waiteThread, if_neg (fun h => hv h.2), if_neg hv, ns]

theorem waiteThread_untimed (now : Nat) : waiteThread false now 0 = fun x => { x with mode := .waiting, timer := none } := rfl

/-- A START-mode run without a timer ends. -/
theorem waiteThread_start (now : Nat) : waiteThread true now 0 = fun x => { x with mode := .idle, run := false } := rfl

section
variable {s : State} {t w : Nat}

theorem execWaite_waits (h : Performs s t .waite w) (hv : xh (thread s t) w < 2 ^ 32)
    (hm : mirrorsThread s t (thread s t) = false) :
    execWaite t s =
      .next (issued s t (waiteThread (startMode s t (thread s t)) s.now (xh (thread s t) w))) :=
  issue_ok h rfl ((if_neg (Nat.not_le.mpr hv)).trans (endActivation_unmirrored hm _))

theorem execWaite_faults (h : Performs s t .waite w) (hv : 2 ^ 32 ≤ xh (thread s t) w) :
    execWaite t s = issueFault s t (FaultCode.operand, BitVec.ofNat 64 (wRa w)) := issue_fault_same h rfl (if_pos hv)

end

/-! Timers and activations (R77, R78, R80) -/

section
variable {s : State} {t : Nat}

theorem execTimer_raises {due : Nat} (ht : (thread s t).timer = some due) (hd : due ≤ s.now) (hm : (thread s t).mode = .waiting) :
    execTimer t s = .next (setThread s t { thread s t with timer := none, own := (thread s t).own ++ [.timer] }) := by
  simp only [execTimer, ht, passTo_past hd, hm, true_or, if_true]

theorem execActivation_own {k : EvKind} {rest : List EvKind} (hr : ctxRuns s (thread s t) = true)
    (hh : (thread s t).haltDue = false) (hf : (thread s t).freezeDue = false) (ho : (thread s t).own = k :: rest)
    (hm : (thread s t).mode = .waiting) :
    execActivation t s = .next (setThread s t (activate (activationBudget s t (thread s t)) (eventWord k 0 0 0)
      { thread s t with own := rest })) := by
  rw [execActivation, if_neg (by simp [hr, hh, hf])]
  simp only [ho, hm]

/-- In START mode an IDLE thread takes the next event that is bound for it. -/
theorem execActivation_start {i : Inst} {k : Nat} {b : Binding} (hr : ctxRuns s (thread s t) = true)
    (hh : (thread s t).haltDue = false) (hf : (thread s t).freezeDue = false) (ho : (thread s t).own = [])
    (hm : (thread s t).mode = .idle) (hs : startMode s t (thread s t) = true) (hi : instAt s t (thread s t) = some i)
    (hn : nextSlot i.served (pendingSlots s (thread s t).inst) = some (k, b)) :
    execActivation t s = .next (deliverTo s t (thread s t) i k b) := by
  rw [execActivation, if_neg (by simp [hr, hh, hf])]
  simp only [ho, hm, hs, hi, hn]
  rfl

end

/-- The state in which a binding's event has been taken and its slot is the one served last (R77). -/
def eventTaken (s : State) (th : Thread) (i : Inst) (k : Nat) (b : Binding) : State :=
  { s with ne := { s.ne with
    bindings := Tab.put s.ne.bindings k (deliver b).1
    insts := Tab.put s.ne.insts th.inst { i with served := k } } }

theorem activationBudget_eventTaken {s : State} {t : Nat} {th : Thread} {i : Inst} (k : Nat) (b : Binding)
    (ht : t ≠ mgEngine) (hi : inst? s th.inst = some i) :
    activationBudget (eventTaken s th i k b) t th = activationBudget s t th := by
  have hu : instAt (eventTaken s th i k b) t th = some { i with served := k } := by
    rw [instAt, if_neg ht]
    exact (Tab.find_put s.ne.insts th.inst th.inst _).trans (if_pos rfl)
  have hs : instAt s t th = some i := by rw [instAt, if_neg ht, hi]
  have hp : programAt (eventTaken s th i k b) t th = programAt s t th := rfl
  rw [activationBudget, activationBudget, hu, hs, hp]
  cases programAt s t th <;> rfl

/-- In START mode the program starts afresh on the event (R73). -/
theorem thread_deliverTo_start {s : State} {t : Nat} {th : Thread} {i : Inst} (k : Nat) (b : Binding) (ht : t ≠ mgEngine)
    (hs : startMode s t th = true) (hi : inst? s th.inst = some i) :
    thread (deliverTo s t th i k b) t = activate (activationBudget s t th) (deliver b).2
      (freshThread (((program? s th.program).map (fun p => p.entry)).getD 0) { th with run := true }) := by
  have hd : deliverTo s t th i k b = setThread (eventTaken s th i k b) t
      (activate (activationBudget (eventTaken s th i k b) t th) (deliver b).2
        (if startMode s t th then
          freshThread (((program? s th.program).map (fun p => p.entry)).getD 0) { th with run := true } else th)) := rfl
  rw [hd, thread_setThread, activationBudget_eventTaken k b ht hi, if_pos hs]

theorem find_bindings_deliverTo (s : State) (t : Nat) (th : Thread) (i : Inst) (k : Nat) (b : Binding) :
    Tab.find (deliverTo s t th i k b).ne.bindings k = some (deliver b).1 :=
  (Tab.find_put s.ne.bindings k k _).trans (if_pos rfl)

/-- Settles O13: the stall and its two ends, then WAITE, the timer and the activations. -/
theorem stallsAndWaits : Obligations.StallsAndWaits := by
  refine ⟨fun s t w => ⟨?_, ?_, ?_⟩, fun s t w => ⟨?_, ?_, ?_, ?_, ?_, ?_, ?_⟩⟩
  -- stalls
  · exact fun x h ho hs hq hm hd hw => (issue_stall h rfl (qpushBody_stalls ho hs hq hm hd hw) : execQpush t .ok s = _)
  · exact fun x l hm hr hw hop ho hs hq hmay hd hroom =>
      execStallResume_performs hm hr hw hop rfl (qpushBody_links ho hs hq hmay hd hroom)
  · intro since p ht hm hs hp hw hc hl u hroom
    refine execStall_faults hm hs ((if_neg ht).trans hp) hw hc hl ?_
    rcases hroom with ⟨hq, hctx⟩ | hroom
    · have hinst : ∀ i, instAt u t (thread s t) = some i → i.faultQueue = mgtQueue := by
        intro i hi
        rw [instAt_passTo, instAt, if_neg ht] at hi
        exact hq i hi
      rw [pushFault_no_queue _ hinst hctx]
      exact Option.some_ne_none u
    · exact hroom
  -- WAITE
  · intro h hv h0 hm
    rw [← waiteThread_timed (startMode s t (thread s t)) s.now h0]
    exact execWaite_waits h hv hm
  · intro h h0 hm hs
    have hw := execWaite_waits h (by rw [h0]; decide) hm
    rwa [h0, hs, waiteThread_untimed] at hw
  · exact fun h hv _ => execWaite_faults h hv
  · intro h h0 hm hs
    have hw := execWaite_waits h (by rw [h0]; decide) hm
    rwa [h0, hs, waiteThread_start] at hw
  -- timers and activations
  · exact fun _ => execTimer_raises
  · exact fun k rest hr hh hf ho hm => execActivation_own hr hh hf ho hm
  · intro i k b ht hr hh hf ho hm hs hi hn
    refine ⟨_, execActivation_start hr hh hf ho hm hs ((if_neg ht).trans hi) hn, ?_⟩
    simp only [thread_deliverTo_start k b ht hs hi]
    exact ⟨rfl, rfl, rfl, rfl, rfl, rfl, find_bindings_deliverTo ..⟩

end Sys2Proof.Proofs
end

section
/-! SUPPORT. The program commands: what each does once no rule refuses it (R72, R79, R84, R85, R88, R90, Table 03-7). -/

namespace Sys2Proof.Proofs

open Sys2Proof Sys2Proof.Machine

/-! A command that answers in its tick (R20, R412) -/

theorem atNextTick_answers {r s t : State} {src code : Nat} {c : Option Running} {body : State → Done} {reply : Reply}
    (hr : Rings r src s) (hs : Served s src code) (hb : body (accepted s src) = (t, some reply)) :
    atNextTick r src (fun u => .next (takeUp u src code c body)) = .next (tickRest src (answer t src code reply)) :=
  atNextTick_rings hr (congrArg _ (takeUp_served s src code c body t reply hs hb))

/-- Taking a command up draws nothing. -/
theorem drawn_accepted (s : State) (src n k : Nat) (l : List Nat) : drawn (accepted s src) n k l = drawn s n k l := by
  induction n generalizing k l with
  | zero => rfl
  | succ n ih =>
    simp only [drawn, ih]
    rfl

theorem someOf_accepted (s : State) (src n k : Nat) (l : List Nat) : someOf (accepted s src) n k l = someOf s n k l := by
  simp only [someOf, drawn_accepted]

/-! Commands that name a loaded or a started program -/

section
variable {s : State} {h i : Nat} {p : Program} {x : Inst}

/-- A loaded program of a live context is commanded. -/
theorem withProgram_live (hp : program? s h = some p) (hl : Live s p.ctx) (body : Program → Done) :
    withProgram s h body = body p := by
  obtain ⟨-, hmissing, hfrozen⟩ := hl
  unfold withProgram
  rw [hp]
  exact guardAll_open (by simp [hmissing, hfrozen]) _

/-- A started program of a live context is commanded. -/
theorem withInst_live (hx : inst? s i = some x) (hp : program? s x.program = some p) (hl : Live s p.ctx)
    (body : Inst → Program → Done) : withInst s i body = body x p := by
  unfold withInst
  rw [hx]
  exact withProgram_live hp hl _

end

/-! PROGRAM_LOAD (R85, R88) -/

/-- A sound image is loaded where every engine named is on, of a cluster that the image allows, and has room for it. -/
theorem loadImage_loads {s : State} {b : Bytes} {engines : BitVec 64} {h : Nat} (ctx : Nat) (hb : imageFault s ctx b = none)
    (he : ∀ e ∈ enginesOf engines, bit (imgClusters b) (cluster e) = true ∧ engineOn s e = true ∧
      (freeRun s e (cdiv (imgCode b) 512)).isSome = true)
    (hh : oneOf s 0 (Tab.freeKeys s.ne.programs 0 1024) = some h) :
    loadImage s ctx b engines = (useFreeN { s with ne := { s.ne with programs := Tab.put s.ne.programs h (programOf ctx b
        ((enginesOf engines).map (fun e => (e, (freeRun s e (cdiv (imgCode b) 512)).getD 0)))) } } 65,
      some { status := .ok, results := [(2, h), (8, leAt b 0x28 8)] }) := by
  have hruns : (enginesOf engines).map (fun e => (e, if engineOn s e then freeRun s e (cdiv (imgCode b) 512) else none)) =
      (enginesOf engines).map (fun e => (e, freeRun s e (cdiv (imgCode b) 512))) :=
    List.map_congr_left fun e hmem => by rw [if_pos (he e hmem).2.1]
  have hcluster : (enginesOf engines).any (fun e => !bit (imgClusters b) (cluster e)) = false :=
    List.any_eq_false.mpr fun e hmem => by simp [(he e hmem).1]
  have hroom : ((enginesOf engines).map (fun e => (e, freeRun s e (cdiv (imgCode b) 512)))).any (fun r => r.2.isNone) = false := by
    rw [List.any_map]
    exact List.any_eq_false.mpr fun e hmem => by simpa [Option.isSome_iff_ne_none] using (he e hmem).2.2
  unfold loadImage
  simp only [hb, hruns, hh]
  rw [guardAll_open (by simp only [hcluster, hroom]; simp), List.map_map]
  rfl

theorem doProgramLoad_loads {s v : State} {ctx n : Nat} {from_ : ImageSource} {host : Option Bytes} {b : Bytes}
    (engines : BitVec 64) (hl : Live s ctx) (hr : readImage s ctx from_ n host = (.ok b, v)) :
    doProgramLoad s ctx from_ n engines host = loadImage v ctx b engines := by
  obtain ⟨hle, hmissing, hfrozen⟩ := hl
  unfold doProgramLoad
  rw [guardAll_open (by simp [hmissing, hfrozen, hle]), hr]

/-! The start of a program, and its bindings (R72, R79, R84) -/

/-- The threads, the scratch and the SC0 places that the engine has left are enough. -/
theorem doProgramStart_starts {s : State} {h e n scratch cap fq i : Nat} {policy : FaultPolicy} {p : Program} {ts : List Nat}
    (hp : program? s h = some p) (hl : Live s p.ctx) (hbad : startBad s p e n scratch cap fq policy = false)
    (hon : engineOn s e = true) (hn : n ≤ (freeThreads s e).length) (hs : n * scratch ≤ engScratch s e)
    (h0 : p.cls = 0 → engSc0 s e + n ≤ 4) (hi : oneOf s 0 (Tab.freeKeys s.ne.insts 0 512) = some i)
    (hts : someOf s n 1 (freeThreads s e) = ts) :
    doProgramStart s h e n scratch cap fq policy = (ts.foldl
      (fun v t => setThread v t { startThread p h i scratch (min p.budget cap) with fault := (thread v t).fault })
      (useFreeN { s with ne := { s.ne with insts := Tab.put s.ne.insts i { program := h, engine := e, threads := ts
                                                                           budgetCap := cap, faultQueue := fq, policy := policy
                                                                           served := 32 * e + 31 } } } 9),
      some { status := .ok, results := [(2, i)] }) := by
  have hsc0 : (p.cls == 0 && decide (4 < engSc0 s e + n)) = false := by
    simpa [imp_iff_not_or, not_lt] using h0
  unfold doProgramStart
  rw [withProgram_live hp hl, hi, hts]
  exact guardAll_open (by simp [hbad, hon, hn, hs, hsc0]) _

theorem doProgramBind_binds {s : State} {i n k : Nat} {kind : EvKind} {x : Inst} {p : Program} (hx : inst? s i = some x)
    (hp : program? s x.program = some p) (hl : Live s p.ctx) (hkind : bindable kind x.engine = true)
    (hn : kind = .doorbell → n < 64) (ho : sourceOwned s p.ctx kind n = true)
    (hk : oneOf s 0 (Tab.freeKeys s.ne.bindings (32 * x.engine) 32) = some k)
    (hb : bindingOf s kind (sourceKey p.ctx kind n) = none) :
    doProgramBind s i kind n = done (firstEvent (useFree { s with ne := { s.ne with
      bindings := Tab.put s.ne.bindings k { kind := kind, source := sourceKey p.ctx kind n, inst := i } } }) kind n) := by
  have hbell : (kind == .doorbell && decide (64 ≤ n)) = false := by
    simpa [imp_iff_not_or, not_le] using hn
  unfold doProgramBind
  rw [withInst_live hx hp hl]
  simp only [hk]
  exact guardAll_open (by simp [hkind, hbell, ho, hb]) _

theorem doProgramUnbind_unbinds {s : State} {i n : Nat} {kind : EvKind} {x : Inst} {p : Program} (hx : inst? s i = some x)
    (hp : program? s x.program = some p) (hl : Live s p.ctx) :
    let hit : Binding → Bool := fun b => b.kind == kind && b.source == sourceKey p.ctx kind n && b.inst == i
    s.ne.bindings.any (fun e => hit e.2) = true → doProgramUnbind s i kind n = done (dropBindings s (fun _ b => hit b)) := by
  intro hit hany
  obtain ⟨-, hmissing, hfrozen⟩ := hl
  have hfound : (inst? s i).bind (fun x => program? s x.program) = some p := by rw [hx]; exact hp
  have hguards : ∀ e ∈ [(ctxMissing s p.ctx || !s.ne.bindings.any (fun e => hit e.2), Status.notFound),
      (ctxFrozen s p.ctx, Status.frozen)], e.1 = false := by
    rw [hany, hmissing, hfrozen]
    decide
  unfold doProgramUnbind
  rw [hfound]
  exact guardAll_open hguards _

/-! THREAD_READ (R90) -/

/-- A thread that has stopped can be read, and it is not FREE. -/
theorem doThreadRead_reads {s : State} {e k : Nat} (he : e < 64) (hk : k < 8)
    (hm : (thread s (8 * e + k)).mode = .halted ∨ (thread s (8 * e + k)).mode = .frozen) :
    doThreadRead s e k = (s, some { status := .ok, data := threadDump s (8 * e + k) (thread s (8 * e + k)) }) := by
  refine guardAll_open ?_ _
  rcases hm with hm | hm <;> simp [he, hk, hm]

/-- Settles O14: a load whose bytes arrive ends by that row; each other row, by what its command does in the tick. -/
theorem programCommands : Obligations.ProgramCommands := by
  refine ⟨fun u src ctx from_ n engines host hrun => if_pos hrun, fun r s src hr => ⟨?_, ?_, ?_, ?_, ?_, ?_, ?_⟩⟩
  -- PROGRAM_LOAD
  · intro ctx from_ n engines host b h v hs hl hread hb he hh
    have hload := (doProgramLoad_loads engines (s := accepted s src) hl hread).trans (loadImage_loads ctx hb he hh)
    exact atHostData_rings hr (congrArg _ (takeUp_served s src 0x01 _ _ _ _ hs hload))
  -- PROGRAM_UNLOAD
  · exact fun h p hs hp hl hi => atNextTick_answers hr hs
      ((withProgram_live (s := accepted s src) hp hl _).trans (guardAll_open (by simpa using hi) _))
  -- PROGRAM_START
  · exact fun h p e n scratch cap fq policy i hs hp hl hbad hon hn hscr h0 hi => atNextTick_answers hr hs
      (doProgramStart_starts (s := accepted s src) hp hl hbad hon hn hscr h0 hi (someOf_accepted ..))
  -- PROGRAM_STOP
  · exact fun i x p hs hx hp hl => atNextTick_answers hr hs (withInst_live (s := accepted s src) hx hp hl _)
  -- PROGRAM_BIND
  · exact fun i x p kind n k hs hx hp hl hkind hn ho hk hb => atNextTick_answers hr hs
      (doProgramBind_binds (s := accepted s src) hx hp hl hkind hn ho hk hb)
  -- PROGRAM_UNBIND
  · exact fun i x p kind n hs hx hp hl hany => atNextTick_answers hr hs
      (doProgramUnbind_unbinds (s := accepted s src) hx hp hl hany)
  -- THREAD_READ
  · exact fun e k hs he hk hm => atNextTick_answers hr hs (doThreadRead_reads (s := accepted s src) he hk hm)

end Sys2Proof.Proofs
end

section
/-! SUPPORT. The access check (R104, R108): which check an address and a context select. -/

namespace Sys2Proof.Proofs
open Sys2Proof Sys2Proof.Machine

theorem check_tpa_mgt {s : State} {tag : BitVec 11} {a : Nat} {wr : Bool} (h : tagCtx tag = mgt) :
    check s tag (.tpa a) wr = checkMgt s a wr := if_pos h

theorem check_tpa_window {s : State} {tag : BitVec 11} {a : Nat} {wr : Bool} (h : tagCtx tag ≠ mgt)
    (hb : bit a 38 = true) :
    check s tag (.tpa a) wr = checkGrant s (tagCtx tag) (fld a 21 12) (fld a 0 21) none wr := by
  simp [check, h, hb]

theorem check_tpa_hole {s : State} {tag : BitVec 11} {a : Nat} {wr : Bool} (h : tagCtx tag ≠ mgt) (hb : bit a 38 = false)
    (hl : listAt s (tagCtx tag) (fld a 21 17) = none) : check s tag (.tpa a) wr = .deny none := by
  simp [check, h, hb, hl]

theorem check_tpa_list {s : State} {tag : BitVec 11} {a g : Nat} {wr : Bool} (h : tagCtx tag ≠ mgt) (hb : bit a 38 = false)
    (hl : listAt s (tagCtx tag) (fld a 21 17) = some g) :
    check s tag (.tpa a) wr = if listBad s (tagCtx tag) (fld a 21 17) then .deny none
      else checkOwned s (tagCtx tag) g (fld a 0 21) := by
  simp [check, h, hb, hl]

theorem check_granted {s : State} {tag : BitVec 11} {a n : Nat} {wr : Bool} (h : tagCtx tag ≠ mgt) :
    check s tag (.granted a n) wr = checkGrant s (tagCtx tag) n (fld a 0 21) (some a) wr := if_neg h

theorem fld_offset (a : Nat) : fld a 0 21 = a % granuleBytes := by simp [fld, granuleBytes]

/-- Settles O15: the form of the address and the context select one check, and each clause is a branch of it. -/
theorem accessCheck : Obligations.AccessCheck := by
  intro s tag a wr ctx g i
  refine ⟨fun h h38 => ?_, fun h h38 hst => ?_, fun h h38 hst => ?_, fun h hb hl => ?_, fun n h hb hl hbad => ?_,
    fun n h hb hl hbad => ?_, fun h hb hg => ?_, fun e h hb hg => ?_, fun n e h hg => ?_⟩
  -- the management context
  · rw [check_tpa_mgt h]
    exact if_pos h38
  · rw [check_tpa_mgt h, checkMgt, if_neg (Nat.not_le.mpr h38)]
    rcases hst with hst | hst <;> simp only [hst]
  · rw [check_tpa_mgt h, checkMgt, if_neg (Nat.not_le.mpr h38)]
    simp only [hst]
  -- a list index
  · exact check_tpa_hole h hb hl
  · exact (check_tpa_list h hb hl).trans (if_pos hbad)
  · refine (check_tpa_list h hb hl).trans ((if_neg (Bool.eq_false_iff.mp hbad)).trans ?_)
    simp [checkOwned, fld_offset, granuleBytes, ctx]
  -- a grant window
  · rw [check_tpa_window h hb, checkGrant, hg]
  · rw [check_tpa_window h hb, checkGrant, hg]
    simp [fld_offset, granuleBytes, ctx, g]
  -- a window's PPA under its grant
  · rw [check_granted h, checkGrant, hg]
    by_cases hp : a / granuleBytes = e.granule <;> simp [granuleBytes, ctx] at hp ⊢ <;> simp [hp]

end Sys2Proof.Proofs
end

section
/-! SUPPORT. The granule commands (R101, R103, R109, R110, Table 04-7): the lists, the ownership entries, and what each command does once
no rule refuses it. -/

namespace Sys2Proof.Proofs
open Sys2Proof Sys2Proof.Machine

/-! What the journal leaves unchanged -/

theorem journalAdd_mode (s : State) (kind : Nat) (tag : BitVec 11) (target aux : Word) (body : Bytes) (poison resync : Bool) :
    (journalAdd s kind tag target aux body poison resync).sm.mode = s.sm.mode := by
  unfold journalAdd
  split
  · dsimp only
    split <;> rfl
  · rfl

theorem journalMap_mode (s : State) (g : Nat) (map resync : Bool) : (journalMap s g map resync).sm.mode = s.sm.mode :=
  journalAdd_mode ..

theorem journalObject_mode (s : State) (ctx kind index : Nat) : (journalObject s ctx kind index).sm.mode = s.sm.mode := by
  unfold journalObject
  split
  · exact journalAdd_mode ..
  · rfl

/-! The lists (R101, R109, R110) -/

theorem listAt_eq (s : State) (ctx i : Nat) : listAt s ctx i = (granList s ctx).entries[i]?.join := by
  unfold listAt
  split
  · next h => rw [h]; rfl
  · next h =>
    cases he : (granList s ctx).entries[i]? with
    | none => rfl
    | some x => cases x with
      | none => rfl
      | some g => exact absurd he (h g)

/-- What an index names does not depend on the trailing holes of the list. -/
theorem shrinkList_getElem?_join (l : List (Option Nat)) (i : Nat) : (shrinkList l)[i]?.join = l[i]?.join := by
  change (l.rdropWhile Option.isNone)[i]?.join = _
  induction l using List.reverseRecOn with
  | nil => rfl
  | append_singleton l x ih =>
    rw [List.rdropWhile_concat]
    split
    · next hx =>
      rw [ih, Option.isNone_iff_eq_none.mp hx, List.getElem?_append]
      split
      · rfl
      · next hi =>
        rw [List.getElem?_eq_none (Nat.not_lt.mp hi)]
        cases i - l.length <;> rfl
    · rfl

theorem entries_packLists (m : Table GranList) (at_ ctx : Nat) :
    (Tab.get {} (packLists at_ m) ctx).entries = (Tab.get {} m ctx).entries := by
  simp only [Tab.get]
  induction m generalizing at_ with
  | nil => rfl
  | cons e t ih =>
    obtain ⟨k, l⟩ := e
    simp only [packLists, Tab.find]
    split
    · rfl
    · exact ih _

theorem growList_gran (s : State) (ctx g : Nat) : gran (growList s ctx g) = gran s := by
  unfold growList
  dsimp only
  split <;> rfl

theorem growList_sm (s : State) (ctx g : Nat) : (growList s ctx g).sm = s.sm := by
  unfold growList
  dsimp only
  split <;> rfl

theorem growList_entries (s : State) (ctx g : Nat) :
    (granList (growList s ctx g) ctx).entries = (granList s ctx).entries ++ [some g] := by
  unfold growList
  dsimp only
  split
  · change (granList (setGranList s ctx _) ctx).entries = _
    rw [granList_setGranList, if_pos rfl]
  · refine (entries_packLists _ 0 ctx).trans ?_
    change (granList (setGranList s ctx _) ctx).entries = _
    rw [granList_setGranList, if_pos rfl]

theorem assignGranule_sm (s : State) (ctx i g : Nat) (m : Bool) : (assignGranule s ctx i g m).sm = s.sm := by
  unfold assignGranule
  dsimp only
  split
  · rfl
  · exact growList_sm ..

/-- An assigned granule is OWNED; no other entry changes (R109). -/
theorem gran_assignGranule (s : State) (ctx i g h : Nat) (m : Bool) : gran (assignGranule s ctx i g m) h =
    if h = g then { gran s g with st := .owned, ctx := ctx, mirrored := m, listIndex := i } else gran s h := by
  have hset : gran (assignGranule s ctx i g m) =
      gran (setGran s g { gran s g with st := .owned, ctx := ctx, mirrored := m, listIndex := i }) := by
    unfold assignGranule
    dsimp only
    split
    · rfl
    · exact growList_gran ..
  rw [hset, gran_setGran]

/-- An assigned granule stands at its index of the list (R101). -/
theorem listAt_assignGranule {s : State} {ctx i : Nat} (g : Nat) (m : Bool) (hi : i ≤ (granList s ctx).entries.length) :
    listAt (assignGranule s ctx i g m) ctx i = some g := by
  rw [listAt_eq]
  unfold assignGranule
  dsimp only
  split
  · next hlt => rw [granList_setGranList, if_pos rfl, List.getElem?_set_self hlt]; rfl
  · next hlt =>
    rw [growList_entries]
    change ((granList s ctx).entries ++ [some g])[i]?.join = _
    rw [show i = (granList s ctx).entries.length by omega, List.getElem?_concat_length]
    rfl

/-- A released granule is in SCRUB; no other entry changes (R110). -/
theorem gran_releaseGranule (s : State) (ctx i g h : Nat) :
    gran (releaseGranule s ctx i g) h = if h = g then { gran s g with st := .scrub } else gran s h := by
  change gran (setGran s g { gran s g with st := .scrub }) h = _
  rw [gran_setGran]

/-- The entry of a released granule is a hole; the others stay (R110). -/
theorem listAt_releaseGranule {s : State} {ctx i g : Nat} (h : listAt s ctx i = some g) (j : Nat) :
    listAt (releaseGranule s ctx i g) ctx j = if j = i then none else listAt s ctx j := by
  have hentries : (granList (releaseGranule s ctx i g) ctx).entries = shrinkList ((granList s ctx).entries.set i none) := by
    change (granList (setGranList (setGran s g _) ctx _) ctx).entries = _
    rw [granList_setGranList, if_pos rfl]
    rfl
  have hlt : i < (granList s ctx).entries.length := by
    by_contra hge
    rw [listAt_eq, List.getElem?_eq_none (Nat.not_lt.mp hge)] at h
    cases h
  rw [listAt_eq, hentries, shrinkList_getElem?_join]
  split
  · next hj => rw [hj, List.getElem?_set_self hlt]; rfl
  · next hj => rw [List.getElem?_set_ne (Ne.symm hj), listAt_eq]

/-! The granule commands (Table 04-7) -/

section
variable {s : State} {ctx i g : Nat}

theorem doGranuleAssign_assigns {index stack : Option Nat} {k : Nat} (mir : Bool) (hl : Live s ctx)
    (hi : i = assignIndex s ctx index) (hlen : i ≤ (granList s ctx).entries.length) (hfree : listAt s ctx i = none)
    (hk : k = stack.getD (bestStack s)) (hk8 : k < 8) (hg : lowestFree s k = some g) (hlimit : granHeld s ctx < granLimit s ctx)
    (hi17 : i < 131072) (hroom : i = (granList s ctx).entries.length → listUsed s < 131072) :
    let u := assignGranule s ctx i g mir
    doGranuleAssign s ctx index stack mir =
      (if mir = true ∧ enrolledCtx u ctx = true then journalObject (journalMap u g true false) ctx 7 0 else u,
        some { status := if mir = true ∧ s.sm.mode ≠ .inSync then .unprotected else .ok, results := [(4, i), (4, g)] }) := by
  intro u
  obtain ⟨hle, hmissing, hfrozen⟩ := hl
  subst hi hk
  have hmode : ∀ c : Bool, (if c then journalObject (journalMap u g true false) ctx 7 0 else u).sm.mode = s.sm.mode := fun c => by
    cases c
    · exact congrArg SmState.mode (assignGranule_sm ..)
    · exact (journalObject_mode ..).trans ((journalMap_mode ..).trans (congrArg SmState.mode (assignGranule_sm ..)))
  unfold doGranuleAssign
  rw [guardAll_open (by simp [hmissing, hfrozen, hle, hlen, hfree, hk8, hg, hlimit, hi17]; simpa using hroom)]
  simp only [hg, Option.getD_some]
  rw [hmode]
  simp [u]

theorem doGranuleRelease_releases (hl : Live s ctx) (hg : listAt s ctx i = some g) (hrefs : (gran s g).refs = 0)
    (hgrants : (gran s g).grants = 0) :
    doGranuleRelease s ctx i = done (journalObject (releaseGranule s ctx i g) (if (gran s g).mirrored then ctx else mgt) 7 0) := by
  obtain ⟨-, hmissing, hfrozen⟩ := hl
  unfold doGranuleRelease
  rw [guardAll_open (by simp [hmissing, hfrozen, hg, hrefs, hgrants])]
  simp [hg]

theorem doGranuleMirror_mirrors (hl : Live s ctx) (hg : listAt s ctx i = some g) (hm : (gran s g).mirrored = false) :
    let u := journalCopy (setGran s g { gran s g with mirrored := true }) g
    doGranuleMirror s ctx i true = (u, some { status := if u.sm.mode = .inSync then .ok else .unprotected }) := by
  obtain ⟨-, hmissing, hfrozen⟩ := hl
  unfold doGranuleMirror
  rw [guardAll_open (by simp [hmissing, hfrozen, hg])]
  simp [hg, hm]

theorem doGranuleMirror_unmirrors (hl : Live s ctx) (hg : listAt s ctx i = some g) (hm : (gran s g).mirrored = true) :
    let u := if enrolledCtx s ctx then journalMap s g false false else s
    doGranuleMirror s ctx i false = done (setGran u g { gran u g with mirrored := false }) := by
  obtain ⟨-, hmissing, hfrozen⟩ := hl
  unfold doGranuleMirror
  rw [guardAll_open (by simp [hmissing, hfrozen, hg])]
  simp [hg, hm, done]

end

theorem doGranuleRetire_free {s : State} {g : Nat} (hg : g < 131072) (hst : (gran s g).st = .free) :
    doGranuleRetire s g = done (setGran s g { gran s g with st := .retired }) := by
  unfold doGranuleRetire
  rw [guardAll_open (by simp [hst, hg])]
  simp [hst]

theorem doGranuleRetire_scrub {s : State} {g : Nat} (hg : g < 131072) (hst : (gran s g).st = .scrub) :
    doGranuleRetire s g = done (setGran s g { gran s g with retire := true }) := by
  unfold doGranuleRetire
  rw [guardAll_open (by simp [hst, hg])]
  simp [hst]

theorem doGranuleLimit_sets {s : State} {tid limit : Nat} (htid : tid < mgt) (hl : Live s tid) (hlimit : limit ≤ 131072) :
    doGranuleLimit s tid limit = done (journalObject (setTenant s tid { tenant s tid with granules := limit }) tid 1 tid) := by
  obtain ⟨-, hmissing, hfrozen⟩ := hl
  exact guardAll_open (by simp [hmissing, hfrozen, htid, hlimit]) _

/-- Settles O17: each row by what its command does once no rule refuses it, then the entry and the list index that it changes. -/
theorem granuleCommands : Obligations.GranuleCommands := by
  refine ⟨fun r s src hr => ⟨?_, ?_, ?_, ?_, ?_, ?_, ?_⟩, fun s ctx i g h m => ⟨fun hi => ?_, fun hg => ?_⟩⟩
  · exact fun ctx index stack mir i k g hs hl hi hlen hfree hk hk8 hg hlimit hi17 hroom => atNextTick_answers hr hs
      (doGranuleAssign_assigns (s := accepted s src) mir hl hi hlen hfree hk hk8 hg hlimit hi17 hroom)
  · exact fun ctx i g hs hl hg hrefs hgrants => atNextTick_answers hr hs
      (doGranuleRelease_releases (s := accepted s src) hl hg hrefs hgrants)
  · exact fun ctx i g hs hl hg hm => atNextTick_answers hr hs (doGranuleMirror_mirrors (s := accepted s src) hl hg hm)
  · exact fun ctx i g hs hl hg hm => atNextTick_answers hr hs (doGranuleMirror_unmirrors (s := accepted s src) hl hg hm)
  · exact fun g hs hg hst => atNextTick_answers hr hs (doGranuleRetire_free (s := accepted s src) hg hst)
  · exact fun g hs hg hst => atNextTick_answers hr hs (doGranuleRetire_scrub (s := accepted s src) hg hst)
  · exact fun tid limit hs htid hl hlimit => atNextTick_answers hr hs
      (doGranuleLimit_sets (s := accepted s src) htid hl hlimit)
  · have hgran := gran_assignGranule s ctx i g g m
    rw [if_pos rfl] at hgran
    refine ⟨by rw [hgran], by rw [hgran], by rw [hgran], by rw [hgran], listAt_assignGranule g m hi, fun hne => ?_⟩
    rw [gran_assignGranule, if_neg hne]
  · refine ⟨by rw [gran_releaseGranule, if_pos rfl], by rw [listAt_releaseGranule hg, if_pos rfl],
      fun hne => by rw [gran_releaseGranule, if_neg hne], fun j hj => by rw [listAt_releaseGranule hg, if_neg hj]⟩

end Sys2Proof.Proofs
end

section
/-! SUPPORT. A write to the pool (R106, R113, R114, R118): the bytes and the marks of each line, read back one by one. -/

namespace Sys2Proof.Proofs
open Sys2Proof Sys2Proof.Machine

/-! Strings of bytes -/

theorem toLe_le (b : Bytes) : toLe b.length (le b) = b := by
  induction b with
  | nil => rfl
  | cons x t ih =>
    have hx : x.toNat < 256 := x.isLt
    have hdiv : le (x :: t) / 256 = le t := by rw [le]; omega
    rw [List.length_cons, toLe, hdiv, ih]
    congr 1
    apply BitVec.eq_of_toNat_eq
    rw [BitVec.toNat_ofNat]
    exact le_cons_mod x t

theorem le_lt {b : Bytes} {m : Nat} (hm : 8 * b.length = m) : le b < 2 ^ m := by
  subst hm
  have h := le_toLe b.length (le b)
  rw [toLe_le] at h
  exact Nat.mod_eq_iff_lt (by positivity) |>.mp h.symm

theorem lineBytes_bytesLine {b : Bytes} (h : b.length = 64) : lineBytes (bytesLine b) = b := by
  rw [lineBytes, bytesLine, BitVec.toNat_ofNat, Nat.mod_eq_of_lt (le_lt (by rw [h])), ← h, toLe_le]

theorem bytesLine_lineBytes (l : Line) : bytesLine (lineBytes l) = l := by
  rw [bytesLine, lineBytes, le_toLe, Nat.mod_eq_of_lt l.isLt, BitVec.ofNat_toNat, BitVec.setWidth_eq]

theorem lineBytes_length (l : Line) : (lineBytes l).length = 64 := toLe_length ..

theorem slice_getD (b : Bytes) (off : Nat) {n k : Nat} (h : k < n) : (slice b off n).getD k 0 = b.getD (off + k) 0 := by
  simp [slice, List.getD_eq_getElem?_getD, h]

theorem slice_length (b : Bytes) (off n : Nat) : (slice b off n).length = min n (b.length - off) := by simp [slice]

theorem overlay_length {b d : Bytes} {off : Nat} (h : off + d.length ≤ b.length) : (overlay b off d).length = b.length := by
  simp only [overlay, List.length_append, List.length_take, List.length_drop]
  omega

theorem overlay_getD {b d : Bytes} {off : Nat} (h : off + d.length ≤ b.length) (k : Nat) :
    (overlay b off d).getD k 0 = if off ≤ k ∧ k < off + d.length then d.getD (k - off) 0 else b.getD k 0 := by
  have htake : (b.take off).length = off := by simp; omega
  simp only [overlay, List.getD_eq_getElem?_getD, List.append_assoc]
  by_cases hlo : k < off
  · rw [List.getElem?_append_left (by omega), if_neg (by omega), List.getElem?_take_of_lt hlo]
  · rw [List.getElem?_append_right (by omega), htake]
    by_cases hhi : k - off < d.length
    · rw [List.getElem?_append_left hhi, if_pos (by omega)]
    · rw [List.getElem?_append_right (by omega), if_neg (by omega), List.getElem?_drop]
      congr 2
      omega

/-- A byte of lines of equal length, one after the other. -/
theorem flatMap_upto_getD {f : Nat → Bytes} (hf : ∀ l, (f l).length = 64) (lo n k : Nat) (hk : k < 64 * n) :
    ((upto lo n).flatMap f).getD k 0 = (f (lo + k / 64)).getD (k % 64) 0 := by
  induction n generalizing lo k with
  | zero => omega
  | succ n ih =>
    rw [upto, List.flatMap_cons]
    by_cases h : k < 64
    · rw [List.getD_append _ _ _ _ (by rw [hf]; exact h), Nat.div_eq_of_lt h, Nat.mod_eq_of_lt h, Nat.add_zero]
    · rw [List.getD_append_right _ _ _ _ (by rw [hf]; omega), hf, ih _ _ (by omega),
        show lo + 1 + (k - 64) / 64 = lo + k / 64 by omega, show (k - 64) % 64 = k % 64 by omega]

theorem flatMap_length {f : Nat → Bytes} (hf : ∀ l, (f l).length = 64) (ls : List Nat) :
    (ls.flatMap f).length = 64 * ls.length := by
  simp [List.length_flatMap, hf, Nat.mul_comm]

theorem Mem.read_write_outside {b : Bytes} {a x n : Nat} (m : List Host.Cell) (h : x + n ≤ a ∨ a + b.length ≤ x) :
    Mem.read (Mem.write m a b) x n = Mem.read m x n := by
  refine List.map_congr_left fun y hy => Mem.byte_write_outside b m a y ?_
  have := (mem_upto x n y).mp hy
  omega

/-! The bytes of the pool -/

/-- The byte of the pool at a PPA. -/
def poolByte (s : State) (a : Nat) : Byte := (lineData s (a / 64)).getD (a % 64) 0

theorem lineData_length (s : State) (l : Nat) : (lineData s l).length = 64 := by
  unfold lineData
  split
  · exact lineBytes_length _
  · exact List.length_replicate

theorem mem_linesOf {ppa n l : Nat} (hn : n ≠ 0) : l ∈ linesOf ppa n ↔ ppa < 64 * l + 64 ∧ 64 * l < ppa + n := by
  rw [linesOf, if_neg hn, mem_upto]
  omega

/-- A span of the pool is its bytes one by one. -/
theorem poolBytes_eq_map (s : State) (ppa n : Nat) : poolBytes s ppa n = (upto ppa n).map (poolByte s) := by
  by_cases hn : n = 0
  · subst hn; rfl
  have hspan := span_le_linesOf ppa n hn
  have hlen : (poolBytes s ppa n).length = n := by
    rw [poolBytes, slice_length, flatMap_length (lineData_length s)]
    omega
  have hget : ∀ i, i < n → (poolBytes s ppa n).getD i 0 = poolByte s (ppa + i) := by
    intro i hi
    rw [poolBytes, slice_getD _ _ hi, linesOf, if_neg hn, flatMap_upto_getD (lineData_length s) _ _ _ (by omega), poolByte,
      show ppa / 64 + (ppa % 64 + i) / 64 = (ppa + i) / 64 by omega, show (ppa % 64 + i) % 64 = (ppa + i) % 64 by omega]
  refine List.ext_getElem (by simp [hlen, upto_length]) fun i h1 h2 => ?_
  have := hget i (hlen ▸ h1)
  rw [List.getD_eq_getElem _ _ h1] at this
  rw [this, List.getElem_map, upto_getElem]

theorem poolBytes_one (s : State) (a : Nat) : poolBytes s a 1 = [poolByte s a] := poolBytes_eq_map s a 1

/-! One line of a write -/

/-- The data of a line after a write of the span: its old data with the bytes of the write in place (R106). -/
def mergedLine (ppa : Nat) (b : Bytes) (s : State) (l : Nat) : Bytes :=
  let lo := max ppa (64 * l)
  let new := slice b (lo - ppa) (64 * l + 64 - lo)
  if wholeLine ppa b.length l then new else overlay (lineData s l) (lo - 64 * l) new

/-- The state with other stored bytes, written lines and flipped bits. -/
def withLines (s : State) (pool : List Host.Cell) (written : Table Bool) (upsets : Table (List Nat)) : State :=
  { s with mp := { s.mp with pool := pool, written := written, upsets := upsets } }

theorem withLines_pool (s : State) (p : List Host.Cell) (w : Table Bool) (u : Table (List Nat)) :
    (withLines s p w u).mp.pool = p := rfl

theorem withLines_written (s : State) (p : List Host.Cell) (w : Table Bool) (u : Table (List Nat)) :
    (withLines s p w u).mp.written = w := rfl

theorem lineKey_withLines (s : State) (p : List Host.Cell) (w : Table Bool) (u : Table (List Nat)) (l : Nat) :
    lineKey (withLines s p w u) l = lineKey s l := rfl

theorem withLines_poison (s : State) (p : List Host.Cell) (w : Table Bool) (u : Table (List Nat)) :
    (withLines s p w u).mp.poison = s.mp.poison := rfl

theorem mirrors_withLines (s : State) (p : List Host.Cell) (w : Table Bool) (u : Table (List Nat)) (a : Nat) :
    mirrors (withLines s p w u) a = mirrors s a := rfl

/-- A line is written encrypted, with ZERO cleared. -/
theorem writeLine_eq (ppa : Nat) (b : Bytes) (s : State) (l : Nat) :
    writeLine ppa b s l = withLines s
      (Mem.write s.mp.pool (64 * l) (lineBytes (xtsEncrypt (lineKey s l) l (bytesLine (mergedLine ppa b s l)))))
      (Tab.set false s.mp.written l true) (Tab.del s.mp.upsets l) := by
  unfold writeLine mergedLine withLines
  rfl

/-- The stack holds a line's ciphertext after its write (R114). -/
theorem storedLine_writeLine_same (ppa : Nat) (b : Bytes) (s : State) (l : Nat) :
    storedLine (writeLine ppa b s l) l = xtsEncrypt (lineKey s l) l (bytesLine (mergedLine ppa b s l)) := by
  have hread := Mem.read_write (lineBytes (xtsEncrypt (lineKey s l) l (bytesLine (mergedLine ppa b s l)))) s.mp.pool (64 * l)
  rw [lineBytes_length] at hread
  rw [storedLine, writeLine_eq, withLines_pool, hread, bytesLine_lineBytes]

theorem storedLine_writeLine_ne (ppa : Nat) (b : Bytes) (s : State) {l j : Nat} (h : j ≠ l) :
    storedLine (writeLine ppa b s l) j = storedLine s j := by
  rw [storedLine, writeLine_eq, withLines_pool, Mem.read_write_outside _ (by rw [lineBytes_length]; omega), storedLine]

section
variable {ppa : Nat} {b : Bytes} {l : Nat} (h : ppa < 64 * l + 64 ∧ 64 * l < ppa + b.length)
include h

theorem mergedLine_length (s : State) : (mergedLine ppa b s l).length = 64 := by
  have hold := lineData_length s l
  unfold mergedLine
  split
  case isTrue hw =>
    simp only [wholeLine, decide_eq_true_eq] at hw
    rw [slice_length]
    omega
  case isFalse => rw [overlay_length (by rw [slice_length]; omega), hold]

theorem mergedLine_getD (s : State) {k : Nat} (hk : k < 64) :
    (mergedLine ppa b s l).getD k 0 =
      if ppa ≤ 64 * l + k ∧ 64 * l + k < ppa + b.length then b.getD (64 * l + k - ppa) 0 else (lineData s l).getD k 0 := by
  have hold := lineData_length s l
  unfold mergedLine
  split
  case isTrue hw =>
    simp only [wholeLine, decide_eq_true_eq] at hw
    rw [slice_getD _ _ (by omega), if_pos (by omega)]
    congr 1
    omega
  case isFalse =>
    rw [overlay_getD (by rw [slice_length]; omega), slice_length]
    by_cases hin : ppa ≤ 64 * l + k ∧ 64 * l + k < ppa + b.length
    · rw [if_pos hin, if_pos (by omega), slice_getD _ _ (by omega)]
      congr 1
      omega
    · rw [if_neg hin, if_neg (by omega)]

theorem lineData_writeLine_same (s : State) : lineData (writeLine ppa b s l) l = mergedLine ppa b s l := by
  have hwritten : Tab.get false (writeLine ppa b s l).mp.written l = true := by
    rw [writeLine_eq, withLines_written, Tab.get_set_eq]
  have hkey : lineKey (writeLine ppa b s l) l = lineKey s l := by rw [writeLine_eq, lineKey_withLines]
  rw [lineData, hwritten, if_pos rfl, hkey, storedLine_writeLine_same, xtsDecrypt_xtsEncrypt,
    lineBytes_bytesLine (mergedLine_length h s)]

end

/-- A line's data are its stored bytes, its ZERO mark and its key. -/
theorem lineData_congr {s u : State} {l : Nat} (hs : storedLine u l = storedLine s l)
    (hw : Tab.get false u.mp.written l = Tab.get false s.mp.written l) (hk : lineKey u l = lineKey s l) :
    lineData u l = lineData s l := by
  rw [lineData, hs, hw, hk, lineData]

theorem lineData_writeLine_ne (ppa : Nat) (b : Bytes) (s : State) {l j : Nat} (h : j ≠ l) :
    lineData (writeLine ppa b s l) j = lineData s j := by
  refine lineData_congr (storedLine_writeLine_ne ppa b s h) ?_ (by rw [writeLine_eq, lineKey_withLines])
  rw [writeLine_eq, withLines_written, Tab.get_set_ne _ _ _ _ _ h]

theorem poolByte_writeLine {ppa : Nat} {b : Bytes} {l : Nat} (h : ppa < 64 * l + 64 ∧ 64 * l < ppa + b.length)
    (s : State) (a : Nat) :
    poolByte (writeLine ppa b s l) a =
      if a / 64 = l ∧ ppa ≤ a ∧ a < ppa + b.length then b.getD (a - ppa) 0 else poolByte s a := by
  rw [poolByte]
  by_cases hl : a / 64 = l
  · subst hl
    rw [lineData_writeLine_same h, mergedLine_getD h s (Nat.mod_lt _ (by decide)), Nat.div_add_mod]
    simp only [true_and]
    rfl
  · rw [lineData_writeLine_ne _ _ _ hl, if_neg (fun c => hl c.1)]
    rfl

theorem poolByte_writeLines {ppa : Nat} {b : Bytes} (ls : List Nat) (s : State)
    (h : ∀ l ∈ ls, ppa < 64 * l + 64 ∧ 64 * l < ppa + b.length) (a : Nat) :
    poolByte (ls.foldl (writeLine ppa b) s) a =
      if a / 64 ∈ ls ∧ ppa ≤ a ∧ a < ppa + b.length then b.getD (a - ppa) 0 else poolByte s a := by
  induction ls generalizing s with
  | nil => simp
  | cons l t ih =>
    rw [List.foldl_cons, ih _ fun x hx => h x (List.mem_cons_of_mem _ hx), poolByte_writeLine (h l List.mem_cons_self)]
    grind

/-! The poison marks of a write -/

theorem setPoison_poison (s : State) (ppa : Nat) (b : Bool) :
    (setPoison s ppa b).mp.poison = Tab.set false s.mp.poison (ppa / 64) b := by
  unfold setPoison
  split <;> rfl

/-- A mark changes the flag POISONED of one ownership entry, and no other field of any. -/
theorem gran_setPoison (s : State) (ppa : Nat) (b : Bool) (g : Nat) :
    ∃ p, gran (setPoison s ppa b) g = { gran s g with poisoned := p } := by
  unfold setPoison
  split
  · rw [gran_setGran]
    split
    · next hg => exact ⟨true, by rw [hg]; rfl⟩
    · exact ⟨_, rfl⟩
  · exact ⟨_, rfl⟩

theorem lineData_setPoison (s : State) (ppa : Nat) (b : Bool) (l : Nat) : lineData (setPoison s ppa b) l = lineData s l := by
  obtain ⟨p, hg⟩ := gran_setPoison s ppa b (l / 32768)
  have hfields : (setPoison s ppa b).mp.pool = s.mp.pool ∧ (setPoison s ppa b).mp.written = s.mp.written ∧
      (setPoison s ppa b).mp.keys = s.mp.keys := by
    unfold setPoison
    split <;> exact ⟨rfl, rfl, rfl⟩
  obtain ⟨hpool, hwritten, hkeys⟩ := hfields
  refine lineData_congr (by rw [storedLine, hpool, storedLine]) (by rw [hwritten]) ?_
  rw [lineKey, hg, hkeys]
  rfl

/-- The mark of a line that the span touches, after the write of it (R118). -/
def markAfter (ppa n : Nat) (poison : Bool) (l : Nat) (old : Bool) : Bool := poison || (old && !wholeLine ppa n l)

theorem poison_writeMark (ppa n : Nat) (poison : Bool) (s : State) (l j : Nat) :
    Tab.get false (writeMark ppa n poison s l).mp.poison j =
      if j = l then markAfter ppa n poison l (Tab.get false s.mp.poison l) else Tab.get false s.mp.poison j := by
  rw [writeMark, setPoison_poison, Tab.get_set, Nat.mul_div_cancel_left _ (by decide)]
  rfl

theorem poison_writeMarks (ppa n : Nat) (poison : Bool) (ls : List Nat) (s : State) (j : Nat) :
    Tab.get false (ls.foldl (writeMark ppa n poison) s).mp.poison j =
      if j ∈ ls then markAfter ppa n poison j (Tab.get false s.mp.poison j) else Tab.get false s.mp.poison j := by
  induction ls generalizing s with
  | nil => simp
  | cons l t ih =>
    rw [List.foldl_cons, ih, poison_writeMark]
    by_cases hj : j = l
    · subst hj
      by_cases hm : j ∈ t <;> cases poison <;> simp [hm, markAfter]
    · simp [hj]

/-! What a write leaves unchanged -/

/-- Nothing outside the pool differs. -/
def SameOutsidePool (s u : State) : Prop := u = { s with mp := u.mp }

theorem SameOutsidePool.trans {s u v : State} (h : SameOutsidePool s u) (h' : SameOutsidePool u v) : SameOutsidePool s v := by
  unfold SameOutsidePool at *
  rw [h', h]

theorem SameOutsidePool.foldl {α : Type} {f : State → α → State} (h : ∀ s x, SameOutsidePool s (f s x)) (l : List α) (s : State) :
    SameOutsidePool s (l.foldl f s) := by
  induction l generalizing s with
  | nil => rfl
  | cons x t ih => exact (h s x).trans (ih _)

theorem sameOutsidePool_setPoison (s : State) (ppa : Nat) (b : Bool) : SameOutsidePool s (setPoison s ppa b) := by
  unfold setPoison
  split <;> rfl

theorem sameOutsidePool_withLines (s : State) (p : List Host.Cell) (w : Table Bool) (u : Table (List Nat)) :
    SameOutsidePool s (withLines s p w u) := rfl

theorem sameOutsidePool_writeLine (ppa : Nat) (b : Bytes) (s : State) (l : Nat) : SameOutsidePool s (writeLine ppa b s l) := by
  rw [writeLine_eq]
  exact sameOutsidePool_withLines ..

/-! The write -/

/-- What each step of a fold keeps, the fold keeps. -/
theorem foldl_keeps {α β : Type} (g : State → β) {f : State → α → State} (h : ∀ s x, g (f s x) = g s) (l : List α) (s : State) :
    g (l.foldl f s) = g s := by
  induction l generalizing s with
  | nil => rfl
  | cons x t ih => exact (ih _).trans (h s x)

theorem mirrors_writeLine (ppa : Nat) (b : Bytes) (s : State) (l a : Nat) : mirrors (writeLine ppa b s l) a = mirrors s a := by
  rw [writeLine_eq, mirrors_withLines]

theorem mirrors_setPoison (s : State) (ppa : Nat) (b : Bool) (a : Nat) : mirrors (setPoison s ppa b) a = mirrors s a := by
  obtain ⟨p, hg⟩ := gran_setPoison s ppa b (a / granuleBytes)
  have henrolled : enrolledCtx (setPoison s ppa b) = enrolledCtx s := by
    unfold setPoison
    split <;> rfl
  rw [mirrors, hg, henrolled]
  rfl

theorem writeLine_poison (ppa : Nat) (b : Bytes) (s : State) (l : Nat) : (writeLine ppa b s l).mp.poison = s.mp.poison := by
  rw [writeLine_eq, withLines_poison]

theorem poolByte_writeMark (ppa n : Nat) (poison : Bool) (s : State) (l a : Nat) :
    poolByte (writeMark ppa n poison s l) a = poolByte s a := by
  rw [poolByte, writeMark, lineData_setPoison, poolByte]

/-- Without the journal a write is its lines and their marks. -/
theorem poolWrite_eq {s : State} {ppa : Nat} {b : Bytes} (poison : Bool) (hb : b ≠ []) (hm : mirrors s ppa = false) :
    poolWrite s ppa b poison = (linesOf ppa b.length).foldl (writeMark ppa b.length poison)
      ((linesOf ppa b.length).foldl (writeLine ppa b) s) := by
  have hkept : mirrors ((linesOf ppa b.length).foldl (writeMark ppa b.length poison)
      ((linesOf ppa b.length).foldl (writeLine ppa b) s)) ppa = false := by
    rw [foldl_keeps (mirrors · ppa) (f := writeMark ppa b.length poison) (fun s l => mirrors_setPoison s (64 * l) _ ppa),
      foldl_keeps (mirrors · ppa) (fun s l => mirrors_writeLine ppa b s l ppa), hm]
  unfold poolWrite
  rw [if_neg (by simpa using hb)]
  exact if_neg (by simp [hkept])

section
variable {s : State} {ppa : Nat} {b : Bytes} {poison : Bool} (hb : b ≠ []) (hm : mirrors s ppa = false)
include hb hm

/-- A write is read back, and every other byte reads as before (R106, R114). -/
theorem poolByte_poolWrite (a : Nat) : poolByte (poolWrite s ppa b poison) a =
    if ppa ≤ a ∧ a < ppa + b.length then b.getD (a - ppa) 0 else poolByte s a := by
  have hn : b.length ≠ 0 := by simpa using hb
  rw [poolWrite_eq poison hb hm, foldl_keeps (poolByte · a) (fun s l => poolByte_writeMark ppa _ poison s l a),
    poolByte_writeLines _ _ fun l hl => (mem_linesOf hn).mp hl]
  by_cases hin : ppa ≤ a ∧ a < ppa + b.length
  · rw [if_pos hin, if_pos ⟨(mem_linesOf hn).mpr (by omega), hin⟩]
  · rw [if_neg hin, if_neg fun h => hin h.2]

/-- A line that the write touches takes the mark of R118; another keeps its own. -/
theorem poisonAt_poolWrite (l : Nat) : poisonAt (poolWrite s ppa b poison) (64 * l) =
    if ppa < 64 * l + 64 ∧ 64 * l < ppa + b.length then markAfter ppa b.length poison l (poisonAt s (64 * l))
    else poisonAt s (64 * l) := by
  have hn : b.length ≠ 0 := by simpa using hb
  simp only [poisonAt, Nat.mul_div_cancel_left l (by decide : 0 < 64)]
  rw [poolWrite_eq poison hb hm, poison_writeMarks, foldl_keeps (·.mp.poison) (writeLine_poison ppa b)]
  simp only [mem_linesOf hn]

theorem sameOutsidePool_poolWrite : SameOutsidePool s (poolWrite s ppa b poison) := by
  rw [poolWrite_eq poison hb hm]
  exact (SameOutsidePool.foldl (sameOutsidePool_writeLine ppa b) _ s).trans
    (SameOutsidePool.foldl (fun s l => sameOutsidePool_setPoison s (64 * l) _) _ _)

end

/-- Settles O16: byte by byte and mark by mark, from what each line's write does; the write is a state with another pool. -/
theorem poolWriteFrame : Obligations.PoolWriteFrame := by
  intro s ppa b poison hb _ hm u
  have hbyte := fun a => poolByte_poolWrite (poison := poison) hb hm a
  have hmark := fun l => poisonAt_poolWrite (poison := poison) hb hm l
  have hsame : u = { s with mp := u.mp } := sameOutsidePool_poolWrite hb hm
  refine ⟨?_, fun a ha => ?_, fun l hlo hhi => ?_, fun l hlo hhi hpart => ?_, fun l hl => ?_,
    by rw [hsame], by rw [hsame], by rw [hsame], by rw [hsame], by rw [hsame], by rw [hsame], by rw [hsame]⟩
  · rw [poolBytes_eq_map]
    refine List.ext_getElem (by simp [upto_length]) fun i h1 h2 => ?_
    rw [List.getElem_map, upto_getElem, hbyte, if_pos (by omega), Nat.add_sub_cancel_left, List.getD_eq_getElem]
  · rw [poolBytes_one, poolBytes_one, hbyte, if_neg (by omega)]
  · have hwhole : wholeLine ppa b.length l = true := by simpa [wholeLine] using ⟨hlo, hhi⟩
    rw [hmark, if_pos (by omega), markAfter, hwhole]
    simp
  · have hnot : wholeLine ppa b.length l = false := by
      simp only [wholeLine, decide_eq_false_iff_not]
      omega
    rw [hmark, if_pos (by omega), markAfter, hnot]
    simp
  · rw [hmark, if_neg (by omega)]

end Sys2Proof.Proofs
end

section
/-! SUPPORT. Grants, keys, patrol and scrub (R107, R108, R111, R113, R115, R119). -/

namespace Sys2Proof.Proofs
open Sys2Proof Sys2Proof.Machine

/-! Grants and keys (R107, R108, R115) -/

theorem doGrant_grants {s : State} {owner i grantee g n : Nat} (wr : Bool) (ho : Live s owner) (he : Live s grantee)
    (hlt : grantee < mgt) (hne : grantee ≠ owner) (hq : (tenant s grantee).st ≠ .quiesced) (hg : listAt s owner i = some g)
    (hn : oneOf s 0 (Tab.freeKeys s.mp.grants 0 4096) = some n) (hgrants : (gran s g).grants < 255) :
    doGrant s owner i grantee wr = (useFree (setGran
      { s with mp := { s.mp with grants := Tab.put s.mp.grants n ⟨wr, g, grantee, owner⟩ } } g
        { gran s g with grants := (gran s g).grants + 1 }), some { status := .ok, results := [(2, n)] }) := by
  obtain ⟨hle, homissing, hofrozen⟩ := ho
  obtain ⟨-, hemissing, hefrozen⟩ := he
  unfold doGrant
  rw [guardAll_open (by simp [homissing, hemissing, hofrozen, hefrozen, hg, hle, hlt, hne, hq, hn, hgrants])]
  simp only [hg, hn, Option.getD_some]
  rfl

theorem doGrantRevoke_revokes {s : State} {n : Nat} {e : Grant} (h : Tab.find s.mp.grants n = some e) :
    doGrantRevoke s n = done (setGran { s with mp := { s.mp with grants := Tab.del s.mp.grants n } } e.granule
      { gran s e.granule with grants := (gran s e.granule).grants - 1 }) := by
  unfold doGrantRevoke revokeGrant
  simp only [h]
  rfl

theorem doKeySet_sets {s : State} {slot : Nat} {key : BitVec 512} (hl : Live s slot)
    (hkey : BitVec.extractLsb' 0 256 key ≠ BitVec.extractLsb' 256 256 key) (hheld : granHeld s slot = 0)
    (hgrants : s.mp.grants.any (fun e => e.2.owner == slot) = false) :
    doKeySet s slot key = done { s with mp := { s.mp with keys := Tab.put s.mp.keys slot key } } := by
  obtain ⟨hle, hmissing, hfrozen⟩ := hl
  exact guardAll_open (by simp only [hgrants]; simp [hmissing, hfrozen, hle, hkey, hheld]) _

/-! Scrub and patrol (R111, R119) -/

theorem execScrubStart_begins {u : State} {k g : Nat} {rest : List Nat} (hrun : (stk u k).running = none)
    (horder : (stk u k).order = g :: rest) (hq : granuleQuiet u g = true) :
    execScrubStart k u = .next (setStk u k { stk u k with running := some g, order := rest }) := by
  unfold execScrubStart
  simp only [hrun, horder, hq, if_true]

/-- Without the journal the scrub zeroes the granule and gives it its next state. -/
theorem execScrubComplete_zeroes {u : State} {k g : Nat} (hrun : (stk u k).running = some g)
    (hm : ((gran u g).mirrored && enrolledCtx u (gran u g).ctx) = false) :
    let v := setStk (setGran (count (zeroGranule u g) Reg.mpScrubbed) g
      { st := if (gran u g).retire then .retired else .free, damaged := (gran u g).damaged }) k { stk u k with running := none }
    execScrubComplete k u = .next (if (gran u g).ctx < mgt ∧ (tenant u (gran u g).ctx).st = .removed ∧
        (tenant u (gran u g).ctx).removing = false ∧ scrubsLeft v (gran u g).ctx = false
      then freeTenant v (gran u g).ctx else v) := by
  intro v
  have hm' : ((gran u g).mirrored && enrolledCtx (count (zeroGranule u g) Reg.mpScrubbed) (gran u g).ctx) = false := hm
  unfold execScrubComplete
  simp only [hrun, hm', Bool.false_eq_true, if_false, Bool.not_eq_true']
  by_cases hfree : (gran u g).ctx < mgt ∧ (tenant u (gran u g).ctx).st = .removed ∧
      (tenant u (gran u g).ctx).removing = false ∧ scrubsLeft v (gran u g).ctx = false
  · rw [if_pos hfree]
    exact if_pos hfree
  · rw [if_neg hfree]
    exact if_neg hfree

theorem execPatrolRead_reads {u : State} {line : Nat} (ups : Upsets)
    (h : (gran u (line / 32768)).st = .owned ∨ (gran u (line / 32768)).st = .retired) :
    execPatrolRead line ups u = .next (eccRead (disturb u ups) (64 * line) none) := by
  unfold execPatrolRead
  rcases h with h | h <;> simp only [h]

/-! A granule after its scrub (R111, R113) -/

theorem written_zeroGranule (s : State) (g l : Nat) :
    Tab.get false (zeroGranule s g).mp.written l = if l / 32768 != g then Tab.get false s.mp.written l else false :=
  Tab.get_keep false (fun l => l / 32768 != g) _ l

theorem poisonAt_zeroGranule (s : State) (g a : Nat) :
    poisonAt (zeroGranule s g) a = if a / 64 / 32768 != g then poisonAt s a else false :=
  Tab.get_keep false (fun l => l / 32768 != g) _ (a / 64)

/-- The scrub clears no byte of another granule. -/
theorem storedLine_zeroGranule {s : State} {g l : Nat} (h : l / 32768 ≠ g) :
    storedLine (zeroGranule s g) l = storedLine s l := by
  refine congrArg bytesLine (List.map_congr_left fun y hy => ?_)
  have hy := (mem_upto _ _ _).mp hy
  refine (Tab.get_keep 0 (fun k => decide (k < g * granuleBytes ∨ g * granuleBytes + granuleBytes ≤ k)) _ y).trans ?_
  have hout : y < g * granuleBytes ∨ g * granuleBytes + granuleBytes ≤ y := by
    rw [granuleBytes]
    omega
  rw [if_pos (decide_eq_true hout)]
  rfl

theorem poolByte_zeroGranule_same {s : State} {g a : Nat} (h : a / 2097152 = g) : poolByte (zeroGranule s g) a = 0 := by
  have hl : a / 64 / 32768 = g := by omega
  rw [poolByte, lineData, written_zeroGranule, hl, bne_self_eq_false]
  exact List.getD_replicate _ (show a % 64 < 64 from Nat.mod_lt _ (by decide))

theorem poolByte_zeroGranule_ne {s : State} {g a : Nat} (h : a / 2097152 ≠ g) :
    poolByte (zeroGranule s g) a = poolByte s a := by
  have hl : a / 64 / 32768 ≠ g := by omega
  rw [poolByte, lineData_congr (storedLine_zeroGranule hl) (by rw [written_zeroGranule, if_pos (by simpa using hl)]) rfl, poolByte]

/-- Settles O18: the rows of the grants and keys, the scrubber's three steps, then the bytes and marks that a scrub leaves. -/
theorem grantsKeysScrub : Obligations.GrantsKeysScrub := by
  refine ⟨⟨fun r s src hr => ⟨?_, ?_, ?_⟩, fun u => ⟨?_, ?_, ?_⟩⟩, fun s g a _ => ⟨fun h => ?_, fun h => ?_⟩⟩
  · exact fun owner i grantee wr g n hs ho he hlt hne hq hg hn hgrants => atNextTick_answers hr hs
      (doGrant_grants (s := accepted s src) wr ho he hlt hne hq hg hn hgrants)
  · exact fun n e hs he => atNextTick_answers hr hs (doGrantRevoke_revokes (s := accepted s src) he)
  · exact fun slot key hs hl hkey hheld hgrants => atNextTick_answers hr hs
      (doKeySet_sets (s := accepted s src) hl hkey hheld hgrants)
  · exact fun k g rest hrun horder hq => execScrubStart_begins hrun horder hq
  · exact fun k g hrun hm => execScrubComplete_zeroes hrun hm
  · exact fun line ups h => execPatrolRead_reads ups h
  · have hl : a / 64 / 32768 = g := by omega
    exact ⟨by rw [poolBytes_one, poolByte_zeroGranule_same h], by simp [poisonAt_zeroGranule, hl]⟩
  · have hl : a / 64 / 32768 ≠ g := by omega
    exact ⟨by rw [poolBytes_one, poolBytes_one, poolByte_zeroGranule_ne h], by simp [poisonAt_zeroGranule, hl]⟩

end Sys2Proof.Proofs
end

section
/-! SUPPORT. The operations that leave the memory pool's state as it is: one frame lemma for each, in the
order of the model's chapters. -/

namespace Sys2Proof.Proofs
open Sys2Proof Sys2Proof.Machine

@[simp] theorem mp_ite {c : Prop} [Decidable c] (a b : State) :
    (if c then a else b).mp = if c then a.mp else b.mp :=
  apply_ite ..

@[simp] theorem foldl_mp {α : Type} {f : State → α → State} (h : ∀ s x, (f s x).mp = s.mp) (l : List α)
    (s : State) :
    (l.foldl f s).mp = s.mp := foldl_keeps State.mp h l s

@[simp] theorem stopLast_mp (s outcome code point index) : (stopLast s outcome code point index).mp = s.mp :=
  rfl

/-! ### Contexts and their tags (R13) -/

@[simp] theorem giveCells_mp (s l) : (giveCells s l).mp = s.mp := rfl

@[simp] theorem dropProg_mp (s q key) : (dropProg s q key).mp = s.mp := by
  unfold dropProg
  (repeat' split) <;> simp

@[simp] theorem abandonProg_mp (s q key) : (abandonProg s q key).mp = s.mp := by
  unfold abandonProg
  split <;> simp

@[simp] theorem abandonShuttle_mp (s) : (abandonShuttle s).mp = s.mp := by simp [abandonShuttle]

/-! ### Named operations that every block shares -/

@[simp] theorem tagStall_mp (s n) : (tagStall s n).mp = s.mp := by simp [tagStall]

@[simp] theorem passCycles_mp (s n) : (passCycles s n).mp = s.mp := by simp [passCycles]

@[simp] theorem passTo_mp (s t) : (passTo s t).mp = s.mp := by simp [passTo]

@[simp] theorem cfgReset_mp (s p f) : (cfgReset s p f).mp = s.mp := rfl

@[simp] theorem pmeRaise_mp (s p) : (pmeRaise s p).mp = s.mp := by
  simp only [pmeRaise]
  (repeat' split) <;> simp

@[simp] theorem leaveL1_mp (s p) : (leaveL1 s p).mp = s.mp := rfl

@[simp] theorem transmit_mp (s p n) : (transmit s p n).mp = s.mp := by simp [transmit]

@[simp] theorem sendMsix_mp (s p f v) : (sendMsix s p f v).mp = s.mp := by simp [sendMsix]

@[simp] theorem notify_mp (c s pf) : (notify c s pf).mp = s.mp := by simp [notify]

@[simp] theorem notifyTenant_mp (c s tid) : (notifyTenant c s tid).mp = s.mp := by simp [notifyTenant]

@[simp] theorem systemMove_mp (s c n) : (systemMove s c n).mp = s.mp := rfl

@[simp] theorem freezeBlocks_mp (s tid) : (freezeBlocks s tid).mp = s.mp := rfl

@[simp] theorem thawBlocks_mp (s tid) : (thawBlocks s tid).mp = s.mp := rfl

@[simp] theorem freezeIfCause_mp (s tid) : (freezeIfCause s tid).mp = s.mp := by simp [freezeIfCause]

@[simp] theorem thawIfFree_mp (s tid) : (thawIfFree s tid).mp = s.mp := by simp [thawIfFree]

@[simp] theorem freezeByManager_mp (s tid) : (freezeByManager s tid).mp = s.mp := by simp [freezeByManager]

@[simp] theorem freezeByPort_mp (s tid) : (freezeByPort s tid).mp = s.mp := by simp [freezeByPort]

@[simp] theorem raiseEvent_mp (s kind source arg err) : (raiseEvent s kind source arg err).mp = s.mp := by
  unfold raiseEvent
  split <;> simp

@[simp] theorem seamSend_mp (s code ws) : (seamSend s code ws).mp = s.mp := rfl

@[simp] theorem journalAdd_mp (s kind tag target aux body poison resync) :
    (journalAdd s kind tag target aux body poison resync).mp = s.mp := by
  simp [journalAdd]

@[simp] theorem notePort_mp (s p was) : (notePort s p was).mp = s.mp := by
  unfold notePort
  split <;> rfl

@[simp] theorem objectRecord_mp (s ctx kind index resync) : (objectRecord s ctx kind index resync).mp = s.mp := by
  simp [objectRecord]

@[simp] theorem journalObject_mp (s ctx kind index) : (journalObject s ctx kind index).mp = s.mp := by
  simp [journalObject]

@[simp] theorem deviceFailed_mp (s pf) : (deviceFailed s pf).mp = s.mp := by simp [deviceFailed]

@[simp] theorem enterSafe_mp (s source fence) : (enterSafe s source fence).mp = s.mp := by
  simp only [enterSafe]
  (repeat' split) <;> simp

@[simp] theorem thIntake_mp (s r) : (thIntake s r).mp = s.mp := by simp [thIntake]

@[simp] theorem raiseSrc_mp (s n r) : (raiseSrc s n r).mp = s.mp := by
  unfold raiseSrc
  (repeat' split) <;> simp

@[simp] theorem raiseLimited_mp (s n who r) : (raiseLimited s n who r).mp = s.mp := by simp [raiseLimited]

@[simp] theorem containPort_mp (s p cause) : (containPort s p cause).mp = s.mp := by simp [containPort]

@[simp] theorem aerNote_mp (s p f unc b tag) : (aerNote s p f unc b tag).mp = s.mp := by
  simp only [aerNote]
  (repeat' split) <;> simp

@[simp] theorem aerFor_mp (s p f unc b tag) : (aerFor s p f unc b tag).mp = s.mp := by simp [aerFor]

@[simp] theorem aer_mp (s p f unc b) : (aer s p f unc b).mp = s.mp := by simp [aer]

@[simp] theorem adaptLane_mp (s l) : (adaptLane s l).mp = s.mp := rfl

@[simp] theorem adaptLanes_mp (s lo n) : (adaptLanes s lo n).mp = s.mp := foldl_mp adaptLane_mp ..

@[simp] theorem quietLanes_mp (s lo n) : (quietLanes s lo n).mp = s.mp := by
  unfold quietLanes
  exact foldl_mp (fun _ _ => by simp) ..

/-! ### How a mailbox command is answered (R412 to R414, R451) -/

@[simp] theorem answer_mp (s src code r) : (answer s src code r).mp = s.mp := by simp [answer]

@[simp] theorem keepWrite_mp (s i w) : (keepWrite s i w).mp = s.mp := rfl

/-! ### Memory pool (chapter 04) -/

@[simp] theorem poolDenied_mp (s tag g) : (poolDenied s tag g).mp = s.mp := by simp [poolDenied]

@[simp] theorem sc0Arrive_mp (s tag l) : (sc0Arrive s tag l).mp = s.mp := by simp [sc0Arrive]

@[simp] theorem journalWait_mp (s) : (journalWait s).mp = s.mp := rfl

@[simp] theorem journalPage_mp (ppa b s page) : (journalPage ppa b s page).mp = s.mp := by simp [journalPage]

@[simp] theorem journalMap_mp (s g map resync) : (journalMap s g map resync).mp = s.mp := by simp [journalMap]

/-! ### Bobbin (chapter 06) -/

@[simp] theorem qmRefuse_mp (s q tag) : (qmRefuse s q tag).mp = s.mp := by simp [qmRefuse]

@[simp] theorem noteLow_mp (s) : (noteLow s).mp = s.mp := by
  unfold noteLow
  split <;> rfl

@[simp] theorem journalQueue_mp (s x kind target aux) : (journalQueue s x kind target aux).mp = s.mp := by
  simp [journalQueue]

@[simp] theorem linkRecords_mp (q prio len tag poison resync x6 x7 x8) :
    (linkRecords q prio len tag poison resync x6 x7 x8).mp = x8.mp := by
  induction x6 generalizing x7 x8 with
  | zero => rfl
  | succ n ih => simp [linkRecords, ih]

@[simp] theorem journalLink_mp (s q ctx prio b poison resync) :
    (journalLink s q ctx prio b poison resync).mp = s.mp := by
  simp [journalLink]

@[simp] theorem unlinkItem_mp (s q x i how) : (unlinkItem s q x i how).mp = s.mp := by simp [unlinkItem]

@[simp] theorem displaceItem_mp (q s i) : (displaceItem q s i).mp = s.mp := by
  unfold displaceItem
  split <;> simp

@[simp] theorem linkCells_mp (s q prio tag b poison cells) :
    (linkCells s q prio tag b poison cells).mp = s.mp := by
  unfold linkCells
  split <;> simp

theorem freshCell_mp (s : State) : (freshCell s).2.mp = s.mp := rfl

@[simp] theorem takeCell_mp (s : State) : (takeCell s).2.mp = s.mp := by
  grind [takeCell, freshCell_mp]

@[simp] theorem takeCells_mp (n : Nat) (s : State) : (takeCells n s).2.mp = s.mp := by
  induction n generalizing s with
  | zero => rfl
  | succ n ih => simp [takeCells, ih]

@[simp] theorem linkItem_mp (s q prio tag b poison) : (linkItem s q prio tag b poison).mp = s.mp := by
  simp [linkItem]

@[simp] theorem holdCells_mp (s q key tag n) : (holdCells s q key tag n).mp = s.mp := by
  unfold holdCells
  split <;> simp

@[simp] theorem refuseItem_mp (s q) : (refuseItem s q).mp = s.mp := by
  unfold refuseItem
  split <;> rfl

@[simp] theorem pushBy_mp {link : State → State} (hl : ∀ v, (link v).mp = v.mp) (s : State) (q prio : Nat)
    (tag : BitVec 11) (b : Bytes) :
    (pushBy s q prio tag b link).2.mp = s.mp := by
  grind [pushBy, qmRefuse_mp, journalWait_mp, raiseEvent_mp, foldl_mp, displaceItem_mp]

@[simp] theorem push_mp (s : State) (q prio : Nat) (tag : BitVec 11) (b : Bytes) (poison : Bool) :
    (push s q prio tag b poison).2.mp = s.mp := pushBy_mp (fun _ => linkItem_mp ..) ..

@[simp] theorem pushCells_mp (s : State) (q prio : Nat) (tag : BitVec 11) (b : Bytes) (poison : Bool)
    (cells : List Nat) :
    (pushCells s q prio tag b poison cells).2.mp = s.mp := pushBy_mp (fun _ => by simp) ..

@[simp] theorem pushMgt_mp (s : State) (prio : Nat) (b : Bytes) : (pushMgt s prio b).2.mp = s.mp := by
  grind [pushMgt, push_mp, refuseItem_mp]

theorem takeKept_mp {s u : State} {c : Nat} (h : takeKept s = some (c, u)) : u.mp = s.mp := by
  grind [takeKept, freshCell_mp]

@[simp] theorem pushNotice_mp (s b) : (pushNotice s b).mp = s.mp := by
  grind [pushNotice, takeKept_mp, raiseEvent_mp, linkCells_mp, refuseItem_mp, pushMgt_mp]

@[simp] theorem resetQueue_mp (s q) : (resetQueue s q).mp = s.mp := by
  unfold resetQueue
  split <;> simp

@[simp] theorem mismatch_mp (s q) : (mismatch s q).mp = s.mp := by
  unfold mismatch
  split <;> simp

@[simp] theorem qmChecked_mp (s q chk) : (qmChecked s q chk).mp = s.mp := by
  unfold qmChecked
  (repeat' split) <;> simp

@[simp] theorem flushQueue_mp (s q) : (flushQueue s q).mp = s.mp := by
  unfold flushQueue
  split <;> simp

@[simp] theorem requestFlush_mp (s q destroy) : (requestFlush s q destroy).mp = s.mp := by
  unfold requestFlush
  split <;> rfl

/-! ### Reduce windows (chapter 05) -/

@[simp] theorem contribRefuse_mp (s tag w r) : (contribRefuse s tag w r).mp = s.mp := by simp [contribRefuse]

@[simp] theorem excessLine_mp (s w c l x) : (excessLine s w c l x).mp = s.mp := by
  simp only [excessLine]
  (repeat' split) <;> simp

@[simp] theorem stick_mp (s w f) : (stick s w f).mp = s.mp := by
  unfold stick
  split <;> rfl

@[simp] theorem writeFail_mp (s w c x g) : (writeFail s w c x g).mp = s.mp := by
  simp only [writeFail]
  (repeat' split) <;> simp

@[simp] theorem backPressure_mp (s k) : (backPressure s k).mp = s.mp := by
  unfold backPressure
  split <;> simp

@[simp] theorem queueLine_mp (s k) : (queueLine s k).mp = s.mp := by simp [queueLine]

@[simp] theorem stageEcc_mp (s ecc tag w) : (stageEcc s ecc tag w).mp = s.mp := by
  unfold stageEcc
  split <;> simp

@[simp] theorem setLost_mp (s w) : (setLost s w).mp = s.mp := by
  unfold setLost
  split <;> rfl

@[simp] theorem nextEpoch_mp (s w x) : (nextEpoch s w x).mp = s.mp := by simp [nextEpoch]

theorem linkRu_yes_mp {s u : State} {ctx cq prio : Nat} {b : Bytes} (h : linkRu s ctx cq prio b = .yes u) :
    u.mp = s.mp := by
  grind [linkRu, push_mp]

theorem linkRu_lost_mp {s u : State} {ctx cq prio : Nat} {b : Bytes} (h : linkRu s ctx cq prio b = .lost u) :
    u.mp = s.mp := by
  grind [linkRu, push_mp, count_mp, qmRefuse_mp]

@[simp] theorem linkEpoch_mp (s w c) : (linkEpoch s w c).mp = s.mp := by
  grind [linkEpoch, linkRu_yes_mp, linkRu_lost_mp, nextEpoch_mp, delChunk_mp]

@[simp] theorem linkItems_mp (s w c) : (linkItems s w c).mp = s.mp := by
  grind [linkItems, linkRu_yes_mp, linkRu_lost_mp, linkEpoch_mp, setChunk_mp, setLost_mp]

@[simp] theorem linkOwed_mp (w x1 x2 x3) : (linkOwed w x1 x2 x3).mp = x2.mp := by
  induction x1 generalizing x2 x3 with
  | nil => rfl
  | cons o t ih => grind [linkOwed, linkRu_yes_mp, linkRu_lost_mp, setLost_mp]

@[simp] theorem oweAbandoned_mp (s w x flags done epoch) : (oweAbandoned s w x flags done epoch).mp = s.mp := by
  simp [oweAbandoned]

@[simp] theorem abandonChunks_mp (s w) : (abandonChunks s w).mp = s.mp := by
  unfold abandonChunks
  split <;> simp

@[simp] theorem resetWindow_mp (s w) : (resetWindow s w).mp = s.mp := by
  simp only [resetWindow]
  (repeat' split) <;> simp

/-! ### Weft (chapter 08) -/

@[simp] theorem journalConn_mp (s c) : (journalConn s c).mp = s.mp := by simp [journalConn]

@[simp] theorem sendFrame_mp (s p b) : (sendFrame s p b).mp = s.mp := rfl

@[simp] theorem emitWeft_mp (s p r b) : (emitWeft s p r b).mp = s.mp := by simp [emitWeft]

@[simp] theorem releaseFrames_mp (s p) : (releaseFrames s p).mp = s.mp :=
  (foldl_mp (fun _ _ => sendFrame_mp ..) ..).trans (setEtPort_mp ..)

@[simp] theorem sendControl_mp (s c kind flags part) : (sendControl s c kind flags part).mp = s.mp := by
  simp only [sendControl]
  (repeat' split) <;> simp

@[simp] theorem sendAck_mp (s c reclaim) : (sendAck s c reclaim).mp = s.mp := by simp [sendAck]

@[simp] theorem report_mp (s c kind reason msg listener detail) :
    (report s c kind reason msg listener detail).mp = s.mp := by
  grind [report, push_mp, count_mp]

@[simp] theorem putConn_mp (s c x) : (putConn s c x).mp = s.mp := rfl

@[simp] theorem enterClosed_mp (s c reason) : (enterClosed s c reason).mp = s.mp := by simp [enterClosed]

@[simp] theorem giveUp_mp (s c reason) : (giveUp s c reason).mp = s.mp := by simp [giveUp]

@[simp] theorem trySendClose_mp (s c) : (trySendClose s c).mp = s.mp := by simp [trySendClose]

@[simp] theorem startClose_mp (s c reason) : (startClose s c reason).mp = s.mp := by
  simp only [startClose]
  (repeat' split) <;> simp

@[simp] theorem violation_mp (s c reg) : (violation s c reg).mp = s.mp := by simp [violation]

@[simp] theorem portViolation_mp (s p reg) : (portViolation s p reg).mp = s.mp := by simp [portViolation]

@[simp] theorem nakTo_mp (s p accessTag reason detail src) :
    (nakTo s p accessTag reason detail src).mp = s.mp := by
  simp [nakTo]

@[simp] theorem nakNoConn_mp (s p) : (nakNoConn s p).mp = s.mp := by simp [nakNoConn]

@[simp] theorem tagMiss_mp (s c p) : (tagMiss s c p).mp = s.mp := by simp [tagMiss]

@[simp] theorem malformedPkt_mp (s p) : (malformedPkt s p).mp = s.mp := by simp [malformedPkt]

@[simp] theorem markDelivered_mp (s c psn) : (markDelivered s c psn).mp = s.mp := rfl

@[simp] theorem ackHeld_mp (s) : (ackHeld s).mp = s.mp := rfl

@[simp] theorem packetEvent_mp (s c q) : (packetEvent s c q).mp = s.mp := by simp [packetEvent]

@[simp] theorem nakLocal_mp (s c psn msg reason detail) : (nakLocal s c psn msg reason detail).mp = s.mp := by
  simp [nakLocal]

/-! ### Bobbin (chapter 06) -/

theorem finishProg_mp (s : State) (q key prio : Nat) (b : Bytes) (poison : Bool) :
    (finishProg s q key prio b poison).2.mp = s.mp := by
  grind [finishProg, linkCells_mp, setQueue_mp, count_mp, dropProg_mp]

/-! ### Weft (chapter 08) -/

theorem linkSend_linked_mp {s u : State} {c : Nat} {x : Conn} {m : RxMsg} (h : linkSend s c x m = .linked u) :
    u.mp = s.mp := by
  grind [linkSend, finishProg_mp, pushCells_mp, packetEvent_mp, dropProg_mp]

theorem linkSend_hold_mp {s u : State} {c : Nat} {x : Conn} {m : RxMsg} (h : linkSend s c x m = .hold u) :
    u.mp = s.mp := by
  grind [linkSend, journalWait_mp]

theorem linkSend_refused_mp {s u : State} {c : Nat} {x : Conn} {m : RxMsg} (h : linkSend s c x m = .refused u) :
    u.mp = s.mp := by
  grind [linkSend, qmRefuse_mp, pushCells_mp, dropProg_mp]

@[simp] theorem advanceMsgs_mp (c x1 x2) : (advanceMsgs c x1 x2).mp = x2.mp := by
  induction x1 generalizing x2 with
  | zero => rfl
  | succ n ih =>
    grind [advanceMsgs, linkSend_linked_mp, linkSend_hold_mp, linkSend_refused_mp, setConn_mp, markDelivered_mp,
      violation_mp, nakLocal_mp]

@[simp] theorem refusePkt_mp (s c psn m reason detail) : (refusePkt s c psn m reason detail).mp = s.mp := by
  simp [refusePkt]

@[simp] theorem raiseLimit_mp (s c n) : (raiseLimit s c n).mp = s.mp := by simp [raiseLimit]

@[simp] theorem emitData_mp (s c x m i psn) : (emitData s c x m i psn).mp = s.mp := by
  unfold emitData
  split <;> simp

@[simp] theorem resend_mp (s c psn) : (resend s c psn).mp = s.mp := by
  simp only [resend]
  (repeat' split) <;> simp

@[simp] theorem takeAck_mp (s p x) : (takeAck s p x).mp = s.mp := by simp [takeAck]

@[simp] theorem failMsg_mp (s c msg reason detail) : (failMsg s c msg reason detail).mp = s.mp := by
  simp only [failMsg]
  (repeat' split) <;> simp

@[simp] theorem takeNak_mp (s p) : (takeNak s p).mp = s.mp := by simp [takeNak]

@[simp] theorem usePeer_mp (s n x2) : (usePeer s n x2).mp = s.mp := rfl

@[simp] theorem dropPeer_mp (s n) : (dropPeer s n).mp = s.mp := by
  unfold dropPeer
  split <;> rfl

@[simp] theorem sendConnect_mp (s c) : (sendConnect s c).mp = s.mp := by simp [sendConnect]

@[simp] theorem sendAccept_mp (s c) : (sendAccept s c).mp = s.mp := by simp [sendAccept]

@[simp] theorem rejectTo_mp (s p reason) : (rejectTo s p reason).mp = s.mp := by simp [rejectTo]

/-! ### Share arbiter of R249 -/

theorem serve_mp {s u : State} {point : Nat} {e : Ready} {others : List Ready}
    (h : serve s point e others = some u) :
    u.mp = s.mp := by
  rw [serve_sc h]

/-! ### Weft (chapter 08) -/

@[simp] theorem dealUnits_mp (x : Conn) (others : List Ready) (n : Nat) (s : State) :
    (dealUnits x others n s).2.mp = s.mp := by
  induction n generalizing s with
  | zero => rfl
  | succ n ih => grind [dealUnits, serve_mp]

@[simp] theorem grantUnits_mp (s : State) (c : Nat) (x : Conn) : (grantUnits s c x).2.mp = s.mp := by
  grind [grantUnits, dealUnits_mp]

@[simp] theorem firstCredit_mp (s c) : (firstCredit s c).mp = s.mp := by
  grind [firstCredit, grantUnits_mp, raiseLimit_mp, sendAck_mp]

@[simp] theorem acceptConn_mp (s p c peer li l) : (acceptConn s p c peer li l).mp = s.mp := by simp [acceptConn]

@[simp] theorem takeConnect_mp (s p b) : (takeConnect s p b).mp = s.mp := by
  unfold takeConnect
  (repeat' split) <;> simp

@[simp] theorem strayAnswer_mp (s x p) : (strayAnswer s x p).mp = s.mp := by simp [strayAnswer]

/-! ### Ethernet ports (chapter 08) -/

@[simp] theorem pushFrame_mp (s q b lost) : (pushFrame s q b lost).mp = s.mp := by
  grind [pushFrame, push_mp, count_mp, useFree_mp]

@[simp] theorem setPause_mp (s p prio quanta) : (setPause s p prio quanta).mp = s.mp := by simp [setPause]

@[simp] theorem takePause_mp (s p b h) : (takePause s p b h).mp = s.mp := by simp [takePause]

@[simp] theorem takeException_mp (s p b) : (takeException s p b).mp = s.mp := by simp [takeException]

@[simp] theorem recordStamp_mp (s p b) : (recordStamp s p b).mp = s.mp := by simp [recordStamp]

@[simp] theorem linkChange_mp (s p up) : (linkChange s p up).mp = s.mp := by simp [linkChange]

@[simp] theorem applyArrangement_mp (s x1) : (applyArrangement s x1).mp = s.mp := by simp [applyArrangement]

@[simp] theorem popStamp_mp (s p) : (popStamp s p).mp = s.mp := rfl

/-! ### Service classes (chapter 09) -/

@[simp] theorem refillBucket_mp (s p f) : (refillBucket s p f).mp = s.mp := rfl

@[simp] theorem zeroRate_mp (s p f bind) : (zeroRate s p f bind).mp = s.mp := rfl

@[simp] theorem probe_mp (s p ns_) : (probe s p ns_).mp = s.mp := by simp [probe]

@[simp] theorem applyChange_mp (s c) : (applyChange s c).mp = s.mp := by
  unfold applyChange
  (repeat' split) <;> simp

/-! ### Switched power domains (Table 14-3) -/

@[simp] theorem domPump_mp (x0 x1) : (domPump x0 x1).mp = x1.mp := by
  induction x0 generalizing x1 with
  | zero => rfl
  | succ n ih => grind [domPump, setDom_mp]

@[simp] theorem switchOn_mp (s l) : (switchOn s l).mp = s.mp := by simp [switchOn]

@[simp] theorem switchOff_mp (s d) : (switchOff s d).mp = s.mp := by simp [switchOff]

/-! ### Shuttle (chapter 07) -/

@[simp] theorem setTagWait_mp (s p c waits) : (setTagWait s p c waits).mp = s.mp := rfl

@[simp] theorem giveTag_mp (s p t) : (giveTag s p t).mp = s.mp := rfl

@[simp] theorem quarantineTag_mp (s p t) : (quarantineTag s p t).mp = s.mp := rfl

@[simp] theorem setDesc_mp (s c j d) : (setDesc s c j d).mp = s.mp := rfl

@[simp] theorem journalChan_mp (s c) : (journalChan s c).mp = s.mp := by simp [journalChan]

@[simp] theorem chanSignal_mp (s c ch index err) : (chanSignal s c ch index err).mp = s.mp := by
  unfold chanSignal
  (repeat' split) <;> simp

@[simp] theorem abandonItems_mp (s c ch) : (abandonItems s c ch).mp = s.mp := by simp [abandonItems]

@[simp] theorem linkOwedItem_mp (s c) : (linkOwedItem s c).mp = s.mp := by
  grind [linkOwedItem, push_mp, setChan_mp, chanSignal_mp]

@[simp] theorem errorHalt_mp (s c code pos d) : (errorHalt s c code pos d).mp = s.mp := by simp [errorHalt]

@[simp] theorem tagTimeout_mp (s p t fn) : (tagTimeout s p t fn).mp = s.mp := by simp [tagTimeout]

@[simp] theorem pieceArrived_mp (s c j i d b o x poison last) :
    (pieceArrived s c j i d b o x poison last).mp = s.mp :=
  rfl

@[simp] theorem beatFailed_mp (s c j i d b) : (beatFailed s c j i d b).mp = s.mp := by simp [beatFailed]

@[simp] theorem doorbell_mp (s ctx c t) : (doorbell s ctx c t).mp = s.mp := by simp [doorbell]

@[simp] theorem pauseWrite_mp (s c) : (pauseWrite s c).mp = s.mp := by simp [pauseWrite]

@[simp] theorem resumeWrite_mp (s c) : (resumeWrite s c).mp = s.mp := by simp [resumeWrite]

@[simp] theorem skipWrite_mp (s c) : (skipWrite s c).mp = s.mp := by simp [skipWrite]

@[simp] theorem flrChannel_mp (s c) : (flrChannel s c).mp = s.mp := by simp [flrChannel]

@[simp] theorem freeChannels_mp (s tid) : (freeChannels s tid).mp = s.mp := by simp [freeChannels]

@[simp] theorem spoilBuffer_mp (s c k) : (spoilBuffer s c k).mp = s.mp := by
  simp only [spoilBuffer]
  (repeat' split) <;> simp

/-! ### Host ports (chapter 10) -/

@[simp] theorem sendHeld_mp (s p) : (sendHeld s p).mp = s.mp := by simp [sendHeld]

@[simp] theorem pmStep_mp (s p st) : (pmStep s p st).mp = s.mp := rfl

@[simp] theorem pmSettle_mp (s p d3) : (pmSettle s p d3).mp = s.mp := by simp [pmSettle]

@[simp] theorem wakeL1_mp (s p) : (wakeL1 s p).mp = s.mp := by
  unfold wakeL1
  split <;> rfl

@[simp] theorem enterL1_mp (s p) : (enterL1 s p).mp = s.mp := rfl

@[simp] theorem resetFns_mp (s p fromCold) : (resetFns s p fromCold).mp = s.mp := by
  unfold resetFns
  split <;> rfl

@[simp] theorem retrain_mp (s p) : (retrain s p).mp = s.mp := by simp [retrain]

@[simp] theorem uncontain_mp (s tid) : (uncontain s tid).mp = s.mp := by simp [uncontain]

/-! ### Functions and windows (chapter 11) -/

@[simp] theorem basteRefused_mp (s) : (basteRefused s).mp = s.mp := rfl

@[simp] theorem basteWrite_mp (s second v) : (basteWrite s second v).mp = s.mp := by
  simp only [basteWrite]
  (repeat' split) <;> simp

@[simp] theorem pushFnNotice_mp (s b) : (pushFnNotice s b).mp = s.mp := by
  grind [pushFnNotice, push_mp, refuseItem_mp, count_mp]

@[simp] theorem dropPushes_mp (s pf) : (dropPushes s pf).mp = s.mp := rfl

@[simp] theorem resetFn_mp (s pf) : (resetFn s pf).mp = s.mp := rfl

@[simp] theorem finishPfFlr_mp (s p) : (finishPfFlr s p).mp = s.mp := by
  unfold finishPfFlr
  split <;> rfl

@[simp] theorem flrDone_mp (tid s pf) : (flrDone tid s pf).mp = s.mp := by simp [flrDone]

@[simp] theorem disableDone_mp (tid s pf) : (disableDone tid s pf).mp = s.mp := by simp [disableDone]

@[simp] theorem pfWrite_mp (s p x2 b) : (pfWrite s p x2 b).mp = s.mp := by simp [pfWrite]

@[simp] theorem streamWrite_mp (s p x2 b) : (streamWrite s p x2 b).mp = s.mp := by
  unfold streamWrite
  split <;> simp

@[simp] theorem zeroBitmap_mp (s p x2 n) : (zeroBitmap s p x2 n).mp = s.mp := by simp [zeroBitmap]

/-! ### Issue of an instruction (R62, R63) -/

@[simp] theorem applyPolicy_mp (s t th) : (applyPolicy s t th).mp = s.mp := by
  unfold applyPolicy
  (repeat' split) <;> simp

theorem pushFault_mp {s u : State} {t : Nat} {th : Thread} {b : Bytes} (h : pushFault s t th b = some u) :
    u.mp = s.mp := by
  grind [pushFault, push_mp, count_mp, refuseItem_mp]

@[simp] theorem programFault_mp (s t f) : (programFault s t f).mp = s.mp := by
  grind [programFault, pushFault_mp, journalWait_mp, setThread_mp, count_mp, raiseLimited_mp, applyPolicy_mp]

@[simp] theorem countIssue_mp (s t) : (countIssue s t).mp = s.mp := by
  unfold countIssue
  split <;> rfl

@[simp] theorem spend_mp (s t) : (spend s t).mp = s.mp := by simp [spend]

@[simp] theorem deliverTo_mp (s t th i k b) : (deliverTo s t th i k b).mp = s.mp := rfl

@[simp] theorem journalEnd_mp (s t th) : (journalEnd s t th).mp = s.mp := by simp [journalEnd]

/-! ### Programs (chapter 03) -/

@[simp] theorem unloadProgram_mp (s h) : (unloadProgram s h).mp = s.mp := rfl

@[simp] theorem dropBindings_mp (s p) : (dropBindings s p).mp = s.mp := rfl

@[simp] theorem stopInst_mp (s i x) : (stopInst s i x).mp = s.mp :=
  (foldl_mp (fun _ _ => setThread_mp ..) ..).trans (dropBindings_mp ..)

@[simp] theorem firstEvent_mp (s kind n) : (firstEvent s kind n).mp = s.mp := by
  unfold firstEvent
  split <;> simp

@[simp] theorem removePrograms_mp (s ctx) : (removePrograms s ctx).mp = s.mp :=
  (foldl_mp (fun _ _ => unloadProgram_mp ..) ..).trans (foldl_mp (fun _ _ => stopInst_mp ..) ..)

/-! ### Life of a tenant (R304 to R306, R310 to R315) -/

@[simp] theorem setQuotas_mp (s t cells queues channels weight) :
    (setQuotas s t cells queues channels weight).mp = s.mp :=
  rfl

@[simp] theorem unbindAt_mp (s t p) : (unbindAt s t p).mp = s.mp := by
  unfold unbindAt
  split <;> rfl

@[simp] theorem thawWindow_mp (s e) : (thawWindow s e).mp = s.mp := by
  unfold thawWindow
  split <;> simp

@[simp] theorem closeAll_mp (s t) : (closeAll s t).mp = s.mp := by simp [closeAll]

@[simp] theorem closeOpenings_mp (s t) : (closeOpenings s t).mp = s.mp := rfl

@[simp] theorem destroyQueues_mp (s t) : (destroyQueues s t).mp = s.mp := by
  unfold destroyQueues
  refine (foldl_mp (fun v q => ?_) ..).trans (closeOpenings_mp ..)
  split <;> simp

@[simp] theorem keepImage_mp (s img x) : (keepImage s img x).mp = s.mp := rfl

@[simp] theorem restoreThread_mp (t h i x s pair) : (restoreThread t h i x s pair).mp = s.mp := rfl

/-! ### Pairs and failover (chapter 12) -/

@[simp] theorem setSm_mp (s : State) (f : SmState → SmState) : (setSm s f).mp = s.mp := rfl

@[simp] theorem stopJournal_mp (s) : (stopJournal s).mp = s.mp := rfl

@[simp] theorem setPair_mp (s m) : (setPair s m).mp = s.mp := by simp [setPair]

@[simp] theorem unprotect_mp (s) : (unprotect s).mp = s.mp := by simp [unprotect]

@[simp] theorem alone_mp (s) : (alone s).mp = s.mp := by simp [alone]

@[simp] theorem sendCtl_mp (s code ws) : (sendCtl s code ws).mp = s.mp := by
  unfold sendCtl
  split <;> rfl

@[simp] theorem sendHello_mp (s fsn) : (sendHello s fsn).mp = s.mp := by simp [sendHello]

@[simp] theorem sendResend_mp (s j) : (sendResend s j).mp = s.mp := by simp [sendResend]

@[simp] theorem sendReply_mp (s code status tid) : (sendReply s code status tid).mp = s.mp := by
  simp [sendReply]

@[simp] theorem threadRecords_mp (s t) : (threadRecords s t).mp = s.mp := by simp [threadRecords]

@[simp] theorem copyObject_mp (s o) : (copyObject s o).mp = s.mp := by simp [copyObject]

@[simp] theorem copyObjects_mp (c s x2) : (copyObjects c s x2).mp = s.mp := by
  induction x2 generalizing s with
  | nil => rfl
  | cons o t ih => simp [copyObjects, ih]

@[simp] theorem checkInSync_mp (s) : (checkInSync s).mp = s.mp := by simp [checkInSync]

@[simp] theorem badRecord_mp (s j) : (badRecord s j).mp = s.mp := by simp [badRecord]

@[simp] theorem applied_mp (s j) : (applied s j).mp = s.mp := rfl

@[simp] theorem seen_mp (s kind index) : (seen s kind index).mp = s.mp := by
  unfold seen
  split <;> rfl

@[simp] theorem shadowQuotas_mp (s t x) : (shadowQuotas s t x).mp = s.mp := rfl

@[simp] theorem dropItems_mp (s q) : (dropItems s q).mp = s.mp := by
  unfold dropItems
  split <;> rfl

@[simp] theorem dropQueue_mp (s q) : (dropQueue s q).mp = s.mp := by simp [dropQueue]

@[simp] theorem applyQueue_mp (s t q b resync) : (applyQueue s t q b resync).mp = s.mp := by
  simp only [applyQueue]
  (repeat' split) <;> simp

@[simp] theorem seamDown_mp (s) : (seamDown s).mp = s.mp := by simp [seamDown]

@[simp] theorem trySeam_mp (s k) : (trySeam s k).mp = s.mp := rfl

@[simp] theorem seamLock_mp (s l) : (seamLock s l).mp = s.mp := rfl

@[simp] theorem alignLanes_mp (s) : (alignLanes s).mp = s.mp := foldl_mp seamLock_mp ..

@[simp] theorem dropFrame_mp (s fsn) : (dropFrame s fsn).mp = s.mp := by simp [dropFrame]

@[simp] theorem assertFence_mp (s) : (assertFence s).mp = s.mp := by
  unfold assertFence
  split <;> rfl

@[simp] theorem loseHeartbeat_mp (s failover) : (loseHeartbeat s failover).mp = s.mp := by simp [loseHeartbeat]

@[simp] theorem promoteInst_mp (x s e) : (promoteInst x s e).mp = s.mp := by
  unfold promoteInst
  split
  · rfl
  · refine foldl_mp (fun v q => ?_) ..
    split <;> simp

@[simp] theorem promoteChan_mp (t x s o) : (promoteChan t x s o).mp = s.mp := by
  unfold promoteChan
  split <;> rfl

@[simp] theorem promoteConn_mp (t s o) : (promoteConn t s o).mp = s.mp := by
  simp only [promoteConn]
  (repeat' split) <;> simp

@[simp] theorem promoteEvents_mp (s t) : (promoteEvents s t).mp = s.mp := by simp [promoteEvents]

@[simp] theorem adoptAddrs_mp (s) : (adoptAddrs s).mp = s.mp := rfl

@[simp] theorem showUncorr_mp (s) : (showUncorr s).mp = s.mp := rfl

/-! ### Thimble (chapter 13) -/

@[simp] theorem contextLost_mp (s c) : (contextLost s c).mp = s.mp := by
  unfold contextLost
  split <;> simp

@[simp] theorem engineError_mp (s t extra) : (engineError s t extra).mp = s.mp := by simp [engineError]

@[simp] theorem notifyItem_mp (s r) : (notifyItem s r).mp = s.mp := by grind [notifyItem, pushMgt_mp, count_mp]

@[simp] theorem notifyManagers_mp (s) : (notifyManagers s).mp = s.mp := by simp [notifyManagers]

@[simp] theorem notifyBmc_mp (s) : (notifyBmc s).mp = s.mp := by simp [notifyBmc]

@[simp] theorem notifyRecord_mp (s r) : (notifyRecord s r).mp = s.mp := by simp [notifyRecord]

@[simp] theorem ackEntry_mp (s i) : (ackEntry s i).mp = s.mp := by
  unfold ackEntry
  split <;> rfl

@[simp] theorem baste_mp (s n sev) : (baste s n sev).mp = s.mp := by
  unfold baste
  split <;> rfl

@[simp] theorem tackAll_mp (s) : (tackAll s).mp = s.mp := rfl

@[simp] theorem clearPending_mp (s n) : (clearPending s n).mp = s.mp := by simp [clearPending]

/-! ### Power, clocks, Stop and wake (chapter 14) -/

@[simp] theorem setPw_mp (s : State) (f : PwState → PwState) : (setPw s f).mp = s.mp := rfl

@[simp] theorem resetLane_mp (s l) : (resetLane s l).mp = s.mp := rfl

@[simp] theorem keepDomain_mp (s d off) : (keepDomain s d off).mp = s.mp := rfl

@[simp] theorem checkEq_mp (s) : (checkEq s).mp = s.mp := by
  unfold checkEq
  simp only [mp_ite, raiseSrc_mp, ite_self]
  exact foldl_mp (fun _ _ => setSerialLane_mp ..) ..

@[simp] theorem fenceAtReset_mp (s) : (fenceAtReset s).mp = s.mp := by simp [fenceAtReset]

@[simp] theorem cutOff_mp (s) : (cutOff s).mp = s.mp := by
  refine foldl_mp (fun v q => ?_) ..
  split <;> simp

@[simp] theorem startFirmware_mp (s b bank fell) : (startFirmware s b bank fell).mp = s.mp := by
  simp [startFirmware]

@[simp] theorem rebuildTime_mp (s) : (rebuildTime s).mp = s.mp := by grind [rebuildTime, setTime_mp]

@[simp] theorem writeTimePair_mp (s) : (writeTimePair s).mp = s.mp := rfl

@[simp] theorem keepCount_mp (s i lo n) : (keepCount s i lo n).mp = s.mp := by simp [keepCount]

@[simp] theorem keepBy_mp (s code) : (keepBy s code).mp = s.mp := by simp [keepBy]

@[simp] theorem abandonStop_mp (s e code point index) : (abandonStop s e code point index).mp = s.mp := by
  simp only [abandonStop, stopLast_mp, keepBy_mp, keepCount_mp, setPw_mp]
  exact foldl_mp (fun _ _ => setPort_mp ..) ..

@[simp] theorem quiesceFabric_mp (s e) : (quiesceFabric s e).mp = s.mp := foldl_mp (fun _ _ => setPort_mp ..) ..

@[simp] theorem clampAll_mp (s e) : (clampAll s e).mp = s.mp := by simp [clampAll]

@[simp] theorem startWake_mp (s cause) : (startWake s cause).mp = s.mp := rfl

/-! ### Serial lanes (chapter 15) -/

@[simp] theorem writeEq_mp (x0 x1 x2) : (writeEq x0 x1 x2).mp = x2.mp := by
  induction x0 generalizing x1 x2 with
  | nil => rfl
  | cons e t ih => simp [writeEq, ih]

@[simp] theorem settleBits_mp (s l on) : (settleBits s l on).mp = s.mp := rfl

@[simp] theorem withRate_mp (s : State) (q : Nat) {f : State → State} (hf : ∀ v, (f v).mp = v.mp) :
    (withRate s q f).mp = s.mp := by
  simp [withRate, hf]

@[simp] theorem retuneQuad_mp (q was s) : (retuneQuad q was s).mp = s.mp := rfl

@[simp] theorem laneRefused_mp (s) : (laneRefused s).mp = s.mp := rfl

@[simp] theorem laneDefaults_mp (s l) : (laneDefaults s l).mp = s.mp := rfl

@[simp] theorem laneFields_mp (s l w) : (laneFields s l w).mp = s.mp := rfl

@[simp] theorem dropDeaf_mp (s l) : (dropDeaf s l).mp = s.mp := by
  unfold dropDeaf
  split <;> rfl

@[simp] theorem absentLane_mp (s l) : (absentLane s l).mp = s.mp := by simp [absentLane]

@[simp] theorem prbsFields_mp (s l w) : (prbsFields s l w).mp = s.mp := by
  unfold prbsFields
  split <;> rfl

@[simp] theorem clearPrbs_mp (s l) : (clearPrbs s l).mp = s.mp := rfl

@[simp] theorem injectBit_mp (s l) : (injectBit s l).mp = s.mp := by simp [injectBit]

@[simp] theorem writePrbs_mp (s l w) : (writePrbs s l w).mp = s.mp := by simp [writePrbs]

@[simp] theorem showPrbsErr_mp (s l) : (showPrbsErr s l).mp = s.mp := by
  unfold showPrbsErr
  split <;> rfl

@[simp] theorem writeQuad_mp (s q w) : (writeQuad s q w).mp = s.mp := by
  have hrate := withRate_mp s q
    (f := fun v => retuneQuad q (quadRate s q) { v with ln := { v.ln with rate := Tab.set 0 v.ln.rate q (fld w 0 4) } })
    fun v => retuneQuad_mp ..
  simp [writeQuad, hrate]

/-! ### Management plane (chapter 16) -/

@[simp] theorem ringMailbox_mp (s src) : (ringMailbox s src).mp = s.mp := by simp [ringMailbox]

@[simp] theorem takeResponse_mp (s src) : (takeResponse s src).mp = s.mp := rfl

@[simp] theorem writeRequest_mp (s src off b) : (writeRequest s src off b).mp = s.mp := rfl

@[simp] theorem writeHeader_mp (s bank) : (writeHeader s bank).mp = s.mp := by
  unfold writeHeader
  split <;> rfl

@[simp] theorem writeBank_mp (s b) : (writeBank s b).mp = s.mp := by
  unfold writeBank
  split <;> rfl

@[simp] theorem writeUser_mp (s off b) : (writeUser s off b).mp = s.mp :=
  foldl_mp (fun _ _ => keepWrite_mp ..) ..

@[simp] theorem stepTime_mp (s t) : (stepTime s t).mp = s.mp := rfl

@[simp] theorem timeMode_mp (s ptp p d) : (timeMode s ptp p d).mp = s.mp := rfl

@[simp] theorem enterI3c_mp (s x1) : (enterI3c s x1).mp = s.mp := rfl

/-! ### Control space (chapter 17) -/

@[simp] theorem store_mp (s r bits w) : (store s r bits w).mp = s.mp := rfl

@[simp] theorem writeLinkCfg_mp (s r w) : (writeLinkCfg s r w).mp = s.mp := by simp [writeLinkCfg]

@[simp] theorem writeChCtrl_mp (s c w) : (writeChCtrl s c w).mp = s.mp := by simp [writeChCtrl]

@[simp] theorem writeChan_mp (s ctx c o x) : (writeChan s ctx c o x).mp = s.mp := by simp [writeChan]

@[simp] theorem writeNetwork_mp (s r x) : (writeNetwork s r x).mp = s.mp := by simp [writeNetwork]

@[simp] theorem writeMgmt_mp (s o x) : (writeMgmt s o x).mp = s.mp := by simp [writeMgmt]

@[simp] theorem clearNotice_mp (s p f w) : (clearNotice s p f w).mp = s.mp := rfl

@[simp] theorem writePublic_mp (s p r x) : (writePublic s p r x).mp = s.mp := by simp [writePublic]

@[simp] theorem writeKeepAt_mp (s off n v) : (writeKeepAt s off n v).mp = s.mp := by simp [writeKeepAt]

/-! ### Memory requests of the hosts (chapters 10, 11 and 17) -/

@[simp] theorem sendStatus_mp (s q st) : (sendStatus s q st).mp = s.mp := by simp [sendStatus]

@[simp] theorem answerUr_mp (s q tag) : (answerUr s q tag).mp = s.mp := by simp [answerUr]

@[simp] theorem answerCa_mp (s q tag) : (answerCa s q tag).mp = s.mp := by simp [answerCa]

@[simp] theorem notePoison_mp (s p poison) : (notePoison s p poison).mp = s.mp := by
  unfold notePoison
  split <;> rfl

@[simp] theorem answerData_mp (s q b mark) : (answerData s q b mark).mp = s.mp := by simp [answerData]

@[simp] theorem answerWord_mp (s q v) : (answerWord s q v).mp = s.mp := by simp [answerWord]

@[simp] theorem windowMiss_mp (s q) : (windowMiss s q).mp = s.mp := by simp [windowMiss]

@[simp] theorem storedMark_mp (s p f poison) : (storedMark s p f poison).mp = s.mp := by simp [storedMark]

@[simp] theorem dropPoisoned_mp (s p f) : (dropPoisoned s p f).mp = s.mp := by simp [dropPoisoned]

@[simp] theorem ringProgram_mp (s t n v) : (ringProgram s t n v).mp = s.mp := by simp [ringProgram]

@[simp] theorem writeVfReg_mp (s p f t r x) : (writeVfReg s p f t r x).mp = s.mp := by
  unfold writeVfReg
  (repeat' split) <;> simp

@[simp] theorem writeVf_mp (s q t b) : (writeVf s q t b).mp = s.mp := by simp [writeVf]

@[simp] theorem pushPage_mp (s q t cls b) : (pushPage s q t cls b).mp = s.mp := by simp [pushPage]

@[simp] theorem writeBar4_mp (s p f off b) : (writeBar4 s p f off b).mp = s.mp := by simp [writeBar4]

/-! ### Configuration space (R286 to R290) -/

@[simp] theorem cfgStore_mp (s p f off mask w) : (cfgStore s p f off mask w).mp = s.mp := rfl

@[simp] theorem cfgClear_mp (s p f off w) : (cfgClear s p f off w).mp = s.mp := rfl

@[simp] theorem writeLinkCtl_mp (s p w) : (writeLinkCtl s p w).mp = s.mp := by simp [writeLinkCtl]

@[simp] theorem writeMsixCtl_mp (s p f w) : (writeMsixCtl s p f w).mp = s.mp := by simp [writeMsixCtl]

/-! ### Attachment instructions (R49 to R61) -/

@[simp] theorem checkedQueue_mp (s q may chk) : (checkedQueue s q may chk).mp = s.mp := by
  unfold checkedQueue
  split <;> simp

/-! ### Management tick (R405) -/

@[simp] theorem badEnvelope_mp (s src) : (badEnvelope s src).mp = s.mp := by simp [badEnvelope]

@[simp] theorem answerStop_mp (s) : (answerStop s).mp = s.mp := by
  unfold answerStop
  split <;> simp

@[simp] theorem ptpSync_mp (s off adj) : (ptpSync s off adj).mp = s.mp := by simp [ptpSync]

@[simp] theorem servo_mp (s) : (servo s).mp = s.mp := by simp [servo]

@[simp] theorem renewTick_mp (s) : (renewTick s).mp = s.mp := rfl

end Sys2Proof.Proofs
end

section
/-! SUPPORT. The canonical form of the pool (R113, R116) is kept by every operation and every row of the
command table. The bytes, the poison marks and the written lines change in the few operations of the memory pool
only; every other operation keeps the form because it leaves the pool as it is or calls one that keeps it. One
lemma for each operation, callees first: `poolForm_f` for a state that `f` makes, `ansForm_f` for an answer. -/

namespace Sys2Proof.Proofs
open Sys2Proof Sys2Proof.Machine

/-- A next state that the answer names has the canonical form of the pool. -/
def AnsForm : Ans → Prop
  | .next t => PoolForm t.mp
  | _ => True

@[simp] theorem ansForm_next (t : State) : AnsForm (.next t) ↔ PoolForm t.mp := Iff.rfl

@[simp] theorem ansForm_fault (f : Fault) : AnsForm (.fault f) := trivial

@[simp] theorem ansForm_refused (r : Refusal) : AnsForm (.refused r) := trivial

@[simp] theorem ansForm_ite {c : Prop} [Decidable c] (a b : Ans) :
    AnsForm (if c then a else b) ↔ if c then AnsForm a else AnsForm b := by
  split <;> rfl

theorem ansForm_if {c : Prop} [Decidable c] {f g : State → Ans} {s : State} (hf : AnsForm (f s))
    (hg : AnsForm (g s)) :
    AnsForm ((if c then f else g) s) := by
  split
  · exact hf
  · exact hg

/-- The state in which an instruction's body leaves the device, whatever becomes of its thread. -/
def tresState : TRes → State
  | .ok s _ => s
  | .fault s _ => s
  | .hold s => s
  | .stall s _ => s
  | .leave s => s

@[simp] theorem tresState_ok (s : State) (f) : tresState (.ok s f) = s := rfl

@[simp] theorem tresState_fault (s : State) (f) : tresState (.fault s f) = s := rfl

@[simp] theorem tresState_hold (s : State) : tresState (.hold s) = s := rfl

@[simp] theorem tresState_stall (s : State) (f) : tresState (.stall s f) = s := rfl

@[simp] theorem tresState_leave (s : State) : tresState (.leave s) = s := rfl

theorem tresState_ite {c : Prop} [Decidable c] (a b : TRes) :
    tresState (if c then a else b) = if c then tresState a else tresState b :=
  apply_ite ..

/-- The state in which the start of a descriptor leaves the device. -/
@[simp] def startState : Start → State
  | .go s _ => s
  | .wait s => s

/-- The state in which a delivery to its target leaves the device. -/
@[simp] def targetState : Target → State
  | .took s => s
  | .hold s => s
  | .refuse s _ _ => s

/-- The state in which the linking of a message leaves the device. -/
@[simp] def sendLinkState : SendLink → State
  | .linked s => s
  | .hold s => s
  | .refused s => s

@[simp] theorem poolForm_ite {c : Prop} [Decidable c] (a b : MpState) :
    PoolForm (if c then a else b) ↔ if c then PoolForm a else PoolForm b := by
  split <;> rfl

/-- A fold keeps the canonical form when each of its steps does. -/
theorem poolForm_foldl {α : Type} {f : State → α → State} {s : State} (h : PoolForm s.mp)
    (hf : ∀ v x, PoolForm v.mp → PoolForm (f v x).mp) (l : List α) : PoolForm (l.foldl f s).mp :=
  List.foldlRecOn (motive := fun v => PoolForm v.mp) l f h fun v hv x _ => hf v x hv

theorem poolForm_foldl_iff {α : Type} {f : State → α → State} (hf : ∀ v x, PoolForm (f v x).mp ↔ PoolForm v.mp)
    (l : List α) (s : State) :
    PoolForm (l.foldl f s).mp ↔ PoolForm s.mp := by
  induction l generalizing s with
  | nil => rfl
  | cons x t ih => rw [List.foldl_cons, ih, hf]

theorem poolForm_foldl_fst {α β : Type} {f : State × β → α → State × β} {x : State × β} (h : PoolForm x.1.mp)
    (hf : ∀ v a, PoolForm v.1.mp → PoolForm (f v a).1.mp) (l : List α) : PoolForm (l.foldl f x).1.mp :=
  List.foldlRecOn (motive := fun v => PoolForm v.1.mp) l f h fun v hv a _ => hf v a hv

theorem poolForm_reset : PoolForm State.reset.mp := ⟨rfl, rfl, rfl⟩

/-! ### How a mailbox command is answered (R412 to R414, R451) -/

@[simp] theorem refuse_fst (s : State) (st : Status) : (refuse s st).1 = s := rfl

@[simp] theorem done_fst (s : State) : (done s).1 = s := rfl

@[simp] theorem poolForm_guardAll {s : State} {l : List (Bool × Status)} {body : Done} (h : PoolForm s.mp)
    (hb : PoolForm body.1.mp) : PoolForm (guardAll s l body).1.mp := by
  unfold guardAll
  split
  · exact h
  · exact hb

theorem poolForm_complete {s : State} {src code : Nat} {c : Option Running} {d : State → Done}
    (hd : PoolForm (d s).1.mp) : PoolForm (complete s src code c d).mp := by
  grind [complete, answer_mp, setMbox_mp]

theorem poolForm_takeUp {s : State} {src code : Nat} {c : Option Running} {body : State → Done}
    (h : PoolForm s.mp)
    (hb : ∀ v, PoolForm v.mp → PoolForm (body v).1.mp) : PoolForm (takeUp s src code c body).mp := by
  unfold takeUp
  split
  · dsimp only
    split
    · simp [h]
    · exact poolForm_complete (hb _ h)
  · exact h

/-! ### Memory pool (chapter 04) -/

@[simp] theorem poolForm_setGran {s g e} : PoolForm (setGran s g e).mp ↔ PoolForm s.mp := Iff.rfl

@[simp] theorem poolForm_setGranList {s ctx l} : PoolForm (setGranList s ctx l).mp ↔ PoolForm s.mp := Iff.rfl

@[simp] theorem poolForm_setStk {s k x} : PoolForm (setStk s k x).mp ↔ PoolForm s.mp := Iff.rfl

@[simp] theorem poolForm_setPoison {s ppa b} (h : PoolForm s.mp) : PoolForm (setPoison s ppa b).mp := by
  obtain ⟨hpool, hpoison, hwritten⟩ := h
  have hset := Tab.wf_set false s.mp.poison (ppa / 64) b hpoison
  unfold setPoison
  split <;> exact ⟨hpool, hset, hwritten⟩

@[simp] theorem poolForm_disturb {s u} : PoolForm (disturb s u).mp ↔ PoolForm s.mp := Iff.rfl

@[simp] theorem poolForm_keepUpsets {s l bits} (h : PoolForm s.mp) : PoolForm (keepUpsets s l bits).mp := by
  obtain ⟨hpool, hpoison, hwritten⟩ := h
  refine ⟨?_, hpoison, ?_⟩
  · unfold keepUpsets
    dsimp only
    split
    · exact hpool
    · exact Mem.wf_write _ _ _ hpool
  · unfold keepUpsets
    dsimp only
    split
    · exact Tab.wf_set _ _ _ _ hwritten
    · exact hwritten

@[simp] theorem poolForm_lineCorrected {s ppa} : PoolForm (lineCorrected s ppa).mp ↔ PoolForm s.mp := Iff.rfl

@[simp] theorem poolForm_linePoisoned {s ppa} (h : PoolForm s.mp) : PoolForm (linePoisoned s ppa).mp := by
  simp [linePoisoned, h]

@[simp] theorem poolForm_eccRead {s ppa tag} (h : PoolForm s.mp) : PoolForm (eccRead s ppa tag).mp := by
  have hclear : PoolForm ({ s with mp := { s.mp with upsets := Tab.del s.mp.upsets (ppa / 64) } } : State).mp :=
      h
  unfold eccRead
  dsimp only
  split
  · exact h
  · split
    · exact poolForm_keepUpsets hclear
    · simpa using hclear
    · simpa using poolForm_linePoisoned (poolForm_keepUpsets hclear)

@[simp] theorem poolForm_eccSpan {s ppa n tag} (h : PoolForm s.mp) : PoolForm (eccSpan s ppa n tag).mp :=
  poolForm_foldl h (fun v l hv => poolForm_eccRead (by simpa using hv)) _

@[simp] theorem poolForm_writeMark {ppa n poison s l} (h : PoolForm s.mp) :
    PoolForm (writeMark ppa n poison s l).mp := by
  simp [writeMark, h]

theorem poolForm_withLines {s : State} {p : List Host.Cell} {w : Table Bool} {u : Table (List Nat)}
    (h : PoolForm s.mp)
    (hp : Memory.wf p = true) (hw : Tab.wf false w = true) : PoolForm (withLines s p w u).mp := ⟨hp, h.2.1, hw⟩

@[simp] theorem poolForm_writeLine {ppa b s l} (h : PoolForm s.mp) : PoolForm (writeLine ppa b s l).mp := by
  rw [writeLine_eq]
  exact poolForm_withLines h (Mem.wf_write _ _ _ h.1) (Tab.wf_set _ _ _ _ h.2.2)

@[simp] theorem poolForm_eccMerge {s ppa n tag} (h : PoolForm s.mp) : PoolForm (eccMerge s ppa n tag).mp :=
  poolForm_foldl h (fun _ _ hv => poolForm_eccRead hv) _

@[simp] theorem poolForm_poolWrite {s ppa b poison} (h : PoolForm s.mp) :
    PoolForm (poolWrite s ppa b poison).mp := by
  have hlines := poolForm_foldl h (fun _ _ hv => poolForm_writeLine hv) (linesOf ppa b.length)
      (f := writeLine ppa b)
  have hmarks := poolForm_foldl hlines (fun _ _ hv => poolForm_writeMark hv) (linesOf ppa b.length)
      (f := writeMark ppa b.length poison)
  unfold poolWrite
  dsimp only
  split
  · exact h
  · split
    · rw [foldl_mp (journalPage_mp ppa b)]
      exact hmarks
    · exact hmarks

@[simp] theorem poolForm_poolStore {s tag ppa b poison} (h : PoolForm s.mp) :
    PoolForm (poolStore s tag ppa b poison).mp := by
  refine poolForm_poolWrite (poolForm_eccMerge ?_)
  rw [foldl_mp fun _ _ => sc0Arrive_mp ..]
  exact h

@[simp] theorem poolForm_copyLines {c s x2} (h : PoolForm s.mp) : PoolForm (copyLines c s x2).mp := by
  induction x2 generalizing s with
  | nil => exact h
  | cons l t ih =>
    unfold copyLines
    split
    · exact ih (by simpa using poolForm_eccRead h)
    · exact h

@[simp] theorem poolForm_copyPump {s} (h : PoolForm s.mp) : PoolForm (copyPump s).mp := by
  unfold copyPump
  (repeat' split) <;> simp [h]

@[simp] theorem poolForm_journalCopy {s g} (h : PoolForm s.mp) : PoolForm (journalCopy s g).mp := by
  unfold journalCopy
  split <;> simp [h]

@[simp] theorem poolForm_releaseGranule {s ctx i g} : PoolForm (releaseGranule s ctx i g).mp ↔ PoolForm s.mp :=
  Iff.rfl

theorem ansForm_execScrubStart {k s} (h : PoolForm s.mp) : AnsForm (execScrubStart k s) := by
  unfold execScrubStart
  (repeat' split) <;> simp [h]

@[simp] theorem poolForm_zeroGranule {s g} (h : PoolForm s.mp) : PoolForm (zeroGranule s g).mp := by
  obtain ⟨hpool, hpoison, hwritten⟩ := h
  exact ⟨Mem.wf_clear _ _ _ hpool, Tab.wf_keep _ _ _ hpoison, Tab.wf_keep _ _ _ hwritten⟩

@[simp] theorem poolForm_freeTenant {s tid} : PoolForm (freeTenant s tid).mp ↔ PoolForm s.mp := Iff.rfl

theorem ansForm_execScrubComplete {k s} (h : PoolForm s.mp) : AnsForm (execScrubComplete k s) := by
  unfold execScrubComplete
  split
  · exact h
  · next g _ =>
    have hz := poolForm_zeroGranule (g := g) h
    simp [hz]

theorem ansForm_execPatrolRead {line u s} (h : PoolForm s.mp) : AnsForm (execPatrolRead line u s) := by
  unfold execPatrolRead
  split <;> simp [h]

@[simp] theorem poolForm_growList {s ctx g} : PoolForm (growList s ctx g).mp ↔ PoolForm s.mp := by
  unfold growList
  dsimp only
  split <;> exact Iff.rfl

@[simp] theorem poolForm_assignGranule {s ctx i g mirrored} :
    PoolForm (assignGranule s ctx i g mirrored).mp ↔ PoolForm s.mp := by
  simp [assignGranule]

@[simp] theorem poolForm_doGranuleAssign {s ctx index stack mirrored} (h : PoolForm s.mp) :
    PoolForm (doGranuleAssign s ctx index stack mirrored).1.mp := by
  simp [doGranuleAssign, h]

theorem ansForm_cmdGranuleAssign {src ctx index stack mirrored s} (h : PoolForm s.mp) :
    AnsForm (cmdGranuleAssign src ctx index stack mirrored s) :=
  poolForm_takeUp h fun _ hv => poolForm_doGranuleAssign hv

@[simp] theorem poolForm_doGranuleRelease {s ctx i} (h : PoolForm s.mp) :
    PoolForm (doGranuleRelease s ctx i).1.mp := by
  simp [doGranuleRelease, h]

theorem ansForm_cmdGranuleRelease {src ctx i s} (h : PoolForm s.mp) : AnsForm (cmdGranuleRelease src ctx i s) :=
  poolForm_takeUp h fun _ hv => poolForm_doGranuleRelease hv

@[simp] theorem poolForm_doGranuleMirror {s ctx i on} (h : PoolForm s.mp) :
    PoolForm (doGranuleMirror s ctx i on).1.mp := by
  grind [doGranuleMirror, poolForm_guardAll, journalMap_mp, poolForm_setGran, poolForm_journalCopy]

theorem ansForm_cmdGranuleMirror {src ctx i on s} (h : PoolForm s.mp) :
    AnsForm (cmdGranuleMirror src ctx i on s) :=
  poolForm_takeUp h fun _ hv => poolForm_doGranuleMirror hv

@[simp] theorem poolForm_doGranuleRetire {s g} (h : PoolForm s.mp) : PoolForm (doGranuleRetire s g).1.mp := by
  grind [doGranuleRetire, poolForm_guardAll, done_fst, poolForm_setGran]

theorem ansForm_cmdGranuleRetire {src g s} (h : PoolForm s.mp) : AnsForm (cmdGranuleRetire src g s) :=
  poolForm_takeUp h fun _ hv => poolForm_doGranuleRetire hv

@[simp] theorem poolForm_doGranuleLimit {s tid limit} (h : PoolForm s.mp) :
    PoolForm (doGranuleLimit s tid limit).1.mp := by
  simp [doGranuleLimit, h]

theorem ansForm_cmdGranuleLimit {src tid limit s} (h : PoolForm s.mp) :
    AnsForm (cmdGranuleLimit src tid limit s) :=
  poolForm_takeUp h fun _ hv => poolForm_doGranuleLimit hv

@[simp] theorem poolForm_doGrant {s owner i grantee write} (h : PoolForm s.mp) :
    PoolForm (doGrant s owner i grantee write).1.mp :=
  poolForm_guardAll h h

theorem ansForm_cmdGrant {src owner i grantee write s} (h : PoolForm s.mp) :
    AnsForm (cmdGrant src owner i grantee write s) :=
  poolForm_takeUp h fun _ hv => poolForm_doGrant hv

@[simp] theorem poolForm_revokeGrant {s n} : PoolForm (revokeGrant s n).mp ↔ PoolForm s.mp := by
  unfold revokeGrant
  split <;> exact Iff.rfl

@[simp] theorem poolForm_doGrantRevoke {s n} (h : PoolForm s.mp) : PoolForm (doGrantRevoke s n).1.mp := by
  unfold doGrantRevoke
  split <;> simp [h]

theorem ansForm_cmdGrantRevoke {src n s} (h : PoolForm s.mp) : AnsForm (cmdGrantRevoke src n s) :=
  poolForm_takeUp h fun _ hv => poolForm_doGrantRevoke hv

@[simp] theorem poolForm_doKeySet {s slot key} (h : PoolForm s.mp) : PoolForm (doKeySet s slot key).1.mp :=
  poolForm_guardAll h h

theorem ansForm_cmdKeySet {src slot key s} (h : PoolForm s.mp) : AnsForm (cmdKeySet src slot key s) :=
  poolForm_takeUp h fun _ hv => poolForm_doKeySet hv

@[simp] theorem poolForm_fillKey {s slot} : PoolForm (fillKey s slot).mp ↔ PoolForm s.mp := Iff.rfl

/-! ### Bobbin (chapter 06) -/

theorem ansForm_execSweepEnd {s} (h : PoolForm s.mp) : AnsForm (execSweepEnd s) := by
  simp only [execSweepEnd]
  (repeat' split) <;> simp [h]

theorem ansForm_execFlush {q s} (h : PoolForm s.mp) : AnsForm (execFlush q s) := by
  unfold execFlush
  (repeat' split) <;> simp [h]

theorem ansForm_execLastCellFreed {q s} (h : PoolForm s.mp) : AnsForm (execLastCellFreed q s) := by
  unfold execLastCellFreed
  (repeat' split) <;> simp [h]

theorem ansForm_execOpeningClose {q s} (h : PoolForm s.mp) : AnsForm (execOpeningClose q s) := by
  unfold execOpeningClose
  (repeat' split) <;> simp [h]

@[simp] theorem poolForm_doQueueCreate {s ctx mode limit mirrored} (h : PoolForm s.mp) :
    PoolForm (doQueueCreate s ctx mode limit mirrored).1.mp := by
  simp [doQueueCreate, h]

theorem ansForm_cmdQueueCreate {src ctx mode limit mirrored s} (h : PoolForm s.mp) :
    AnsForm (cmdQueueCreate src ctx mode limit mirrored s) :=
  poolForm_takeUp h fun _ hv => poolForm_doQueueCreate hv

theorem poolForm_withQueue {s : State} {q : Nat} {more : Queue → List (Bool × Status)} {body : Queue → Done}
    (h : PoolForm s.mp) (hb : ∀ x, PoolForm (body x).1.mp) :
    PoolForm (withQueue s q more body).1.mp := by
  unfold withQueue
  split
  · exact h
  · exact poolForm_guardAll h (hb _)

@[simp] theorem poolForm_doQueueDestroy {s q} (h : PoolForm s.mp) : PoolForm (doQueueDestroy s q).1.mp :=
  poolForm_withQueue h fun _ => by simp [h]

theorem ansForm_cmdQueueDestroy {src q s} (h : PoolForm s.mp) : AnsForm (cmdQueueDestroy src q s) :=
  poolForm_takeUp h fun _ hv => poolForm_doQueueDestroy hv

@[simp] theorem poolForm_doQueueFlush {s q} (h : PoolForm s.mp) : PoolForm (doQueueFlush s q).1.mp :=
  poolForm_withQueue h fun _ => by simp [h]

theorem ansForm_cmdQueueFlush {src q s} (h : PoolForm s.mp) : AnsForm (cmdQueueFlush src q s) :=
  poolForm_takeUp h fun _ hv => poolForm_doQueueFlush hv

@[simp] theorem poolForm_doQueueSet {s q mode limit} (h : PoolForm s.mp) :
    PoolForm (doQueueSet s q mode limit).1.mp :=
  poolForm_withQueue h fun _ => by simp [h]

theorem ansForm_cmdQueueSet {src q mode limit s} (h : PoolForm s.mp) :
    AnsForm (cmdQueueSet src q mode limit s) :=
  poolForm_takeUp h fun _ hv => poolForm_doQueueSet hv

@[simp] theorem poolForm_doQueueOpen {s q sender lim} (h : PoolForm s.mp) :
    PoolForm (doQueueOpen s q sender lim).1.mp := by
  unfold doQueueOpen
  split <;> simp [h]

theorem ansForm_cmdQueueOpen {src q sender lim s} (h : PoolForm s.mp) :
    AnsForm (cmdQueueOpen src q sender lim s) :=
  poolForm_takeUp h fun _ hv => poolForm_doQueueOpen hv

@[simp] theorem poolForm_doQueueClose {s q} (h : PoolForm s.mp) : PoolForm (doQueueClose s q).1.mp := by
  grind [doQueueClose, refuse_fst, poolForm_guardAll, done_fst, setQueue_mp]

theorem ansForm_cmdQueueClose {src q s} (h : PoolForm s.mp) : AnsForm (cmdQueueClose src q s) :=
  poolForm_takeUp h fun _ hv => poolForm_doQueueClose hv

@[simp] theorem poolForm_doQmQuota {s ctx cells queues} (h : PoolForm s.mp) :
    PoolForm (doQmQuota s ctx cells queues).1.mp := by
  grind [doQmQuota, poolForm_guardAll, done_fst, atEpoch_mp]

theorem ansForm_cmdQmQuota {src ctx cells queues s} (h : PoolForm s.mp) :
    AnsForm (cmdQmQuota src ctx cells queues s) :=
  poolForm_takeUp h fun _ hv => poolForm_doQmQuota hv

/-! ### Reduce windows (chapter 05) -/

@[simp] theorem poolForm_arriveLine {s w c x k o l data poison first} (h : PoolForm s.mp) :
    PoolForm (arriveLine s w c x k o l data poison first).mp := by
  unfold arriveLine
  split <;> simp [h]

@[simp] theorem poolForm_applyLine {s k x c ch} (h : PoolForm s.mp) : PoolForm (applyLine s k x c ch).mp := by
  grind [applyLine, excessLine_mp, setChunk_mp, countN_mp, poolForm_arriveLine]

theorem poolForm_of_presentLine_took {s u : State} {k : Contrib} (h : PoolForm s.mp)
    (e : presentLine s k = .took u) :
    PoolForm u.mp := by
  grind [presentLine, excessLine_mp, journalWait_mp, poolForm_applyLine]

theorem poolForm_of_presentLine_wait {s u : State} {k : Contrib} (h : PoolForm s.mp)
    (e : presentLine s k = .wait u) :
    PoolForm u.mp := by
  grind [presentLine, excessLine_mp, journalWait_mp, poolForm_applyLine]

theorem poolForm_serveLine {s i k u} (h : PoolForm s.mp) (e : serveLine s i k = some u) : PoolForm u.mp := by
  grind [serveLine, serve_mp]

theorem ansForm_execContributionAccept {i ecc s0} (h : PoolForm s0.mp) :
    AnsForm (execContributionAccept i ecc s0) := by
  unfold execContributionAccept
  split
  · exact h
  · next k _ =>
    have hs : PoolForm (if s0.th.safe then useFree s0 else s0).mp := by simpa using h
    have hserve := fun u => poolForm_serveLine (i := i) (k := k) (u := u) hs
    revert hs hserve
    generalize (if s0.th.safe then useFree s0 else s0) = s
    intro hs hserve
    have htook := fun v k t hv => poolForm_of_presentLine_took (s := v) (k := k) (u := t) hv
    grind [ansForm_next, notePort_mp, contribRefuse_mp, stageEcc_mp]

@[simp] theorem poolForm_writeResult {w c x k s l} (h : PoolForm s.mp) :
    PoolForm (writeResult w c x k s l).mp := by
  grind [writeResult, setChunk_mp, poolForm_poolStore, writeFail_mp]

@[simp] theorem poolForm_markArrived {s w c l x} (h : PoolForm s.mp) : PoolForm (markArrived s w c l x).mp := by
  unfold markArrived
  split <;> simp [h]

@[simp] theorem poolForm_spoilLine {s w c l} (h : PoolForm s.mp) : PoolForm (spoilLine s w c l).mp := by
  unfold spoilLine
  (repeat' split) <;> simp [h]

@[simp] theorem poolForm_stageLines {tag w c s e} (h : PoolForm s.mp) : PoolForm (stageLines tag w c s e).mp := by
  unfold stageLines
  split <;> simp [h]

theorem ansForm_execChunkComplete {w c ecc s} (h : PoolForm s.mp) : AnsForm (execChunkComplete w c ecc s) := by
  have hstage : ∀ tag (l : List (Nat × Ecc)), PoolForm (l.foldl (stageLines tag w c) s).mp :=
    fun _ l => poolForm_foldl h (fun _ _ => poolForm_stageLines) l
  have hresult : ∀ x k (l : List Nat) (v : State), PoolForm v.mp → PoolForm (l.foldl (writeResult w c x k) v).mp
      :=
    fun _ _ l v hv => poolForm_foldl hv (fun _ _ => poolForm_writeResult) l
  grind [execChunkComplete, ansForm_next, journalWait_mp, linkItems_mp, journalObject_mp, raiseEvent_mp,
      count_mp, setRwin_mp, setChunk_mp]

theorem ansForm_execCompletionItemLink {w c s} (h : PoolForm s.mp) : AnsForm (execCompletionItemLink w c s) := by
  simp only [execCompletionItemLink]
  (repeat' split) <;> simp [h]

@[simp] theorem poolForm_addRef {up s g} : PoolForm (addRef up s g).mp ↔ PoolForm s.mp := Iff.rfl

@[simp] theorem poolForm_destroyWindow {s w} : PoolForm (destroyWindow s w).mp ↔ PoolForm s.mp := by
  have hfold : ∀ (l : List Nat) (v : State), PoolForm (l.foldl (addRef false) v).mp ↔ PoolForm v.mp :=
    fun l v => poolForm_foldl_iff (fun _ _ => poolForm_addRef) l v
  unfold destroyWindow
  split
  · rfl
  · simp [hfold]

theorem poolForm_withWindow {s : State} {w : Nat} {body : Done} (h : PoolForm s.mp) (hb : PoolForm body.1.mp) :
    PoolForm (withWindow s w body).1.mp := by
  unfold withWindow
  split
  · exact h
  · exact poolForm_guardAll h hb

@[simp] theorem poolForm_doReduceCreate {s x1} (h : PoolForm s.mp) : PoolForm (doReduceCreate s x1).1.mp := by
  refine poolForm_guardAll h ?_
  simp only [journalObject_mp]
  exact (poolForm_foldl_iff (fun _ _ => poolForm_addRef) _ _).mpr (by simpa using h)

theorem ansForm_cmdReduceCreate {src x1 s} (h : PoolForm s.mp) : AnsForm (cmdReduceCreate src x1 s) :=
  poolForm_takeUp h fun _ hv => poolForm_doReduceCreate hv

@[simp] theorem poolForm_doReduceDestroy {s w} (h : PoolForm s.mp) : PoolForm (doReduceDestroy s w).1.mp :=
  poolForm_withWindow h (by simp [h])

theorem ansForm_cmdReduceDestroy {src w s} (h : PoolForm s.mp) : AnsForm (cmdReduceDestroy src w s) :=
  poolForm_takeUp h fun _ hv => poolForm_doReduceDestroy hv

@[simp] theorem poolForm_doReduceReset {s w} (h : PoolForm s.mp) : PoolForm (doReduceReset s w).1.mp :=
  poolForm_withWindow h (by simp [h])

theorem ansForm_cmdReduceReset {src w s} (h : PoolForm s.mp) : AnsForm (cmdReduceReset src w s) :=
  poolForm_takeUp h fun _ hv => poolForm_doReduceReset hv

@[simp] theorem poolForm_doRuQuota {s ctx unit slices} (h : PoolForm s.mp) :
    PoolForm (doRuQuota s ctx unit slices).1.mp := by
  refine poolForm_guardAll h ?_
  simp only [done_fst]
  rw [foldl_mp fun _ _ => atEpoch_mp ..]
  exact h

theorem ansForm_cmdRuQuota {src ctx unit slices s} (h : PoolForm s.mp) :
    AnsForm (cmdRuQuota src ctx unit slices s) :=
  poolForm_takeUp h fun _ hv => poolForm_doRuQuota hv

/-! ### Weft (chapter 08) -/

theorem ansForm_receive {s : State} {w : WeftPacket} {kind : Nat} {body : State → WPkt → State}
    (h : PoolForm s.mp)
    (hb : ∀ v p, PoolForm v.mp → PoolForm (body v p).mp) : AnsForm (receive s w kind body) := by
  grind [receive, ansForm_next, count_mp, portViolation_mp, malformedPkt_mp]

theorem poolForm_forConn {s : State} {p : WPkt} {body : State → Conn → State} (h : PoolForm s.mp)
    (hb : ∀ x, PoolForm (body s x).mp) : PoolForm (forConn s p body).mp := by
  grind [forConn, nakNoConn_mp, tagMiss_mp]

@[simp] theorem poolForm_linkSend {s c x m} (h : PoolForm s.mp) :
    PoolForm (sendLinkState (linkSend s c x m)).mp := by
  grind [linkSend, sendLinkState, finishProg_mp, pushCells_mp, packetEvent_mp, dropProg_mp, journalWait_mp,
      qmRefuse_mp]

@[simp] theorem poolForm_writeLines {x poison x2 x3 x4} (h : PoolForm x4.mp) :
    PoolForm (targetState (writeLines x poison x2 x3 x4)).mp := by
  induction x2 generalizing x3 x4 with
  | nil => exact h
  | cons e t ih => grind [writeLines, targetState, poolForm_poolStore, poolDenied_mp]

@[simp] theorem poolForm_takeWrite {s x m off b poison} (h : PoolForm s.mp) :
    PoolForm (targetState (takeWrite s x m off b poison)).mp := by
  grind [takeWrite, targetState, poolForm_writeLines, poolDenied_mp, journalWait_mp]

@[simp] theorem poolForm_takeLines {tag c psn w poison epoch x6 x7 x8} (h : PoolForm x7.mp) :
    PoolForm (targetState (takeLines tag c psn w poison epoch x6 x7 x8)).mp := by
  induction x6 generalizing x7 x8 with
  | nil => grind [takeLines, targetState]
  | cons e t ih => grind [takeLines, targetState, queueLine_mp, poolForm_of_presentLine_took,
      poolForm_of_presentLine_wait]

@[simp] theorem poolForm_takeReduce {s c x m psn off b poison} (h : PoolForm s.mp) :
    PoolForm (targetState (takeReduce s c x m psn off b poison)).mp := by
  grind [takeReduce, targetState, poolForm_takeLines, contribRefuse_mp]

@[simp] theorem poolForm_deliverPkt {s c psn m off b poison} (h : PoolForm s.mp) :
    PoolForm (deliverPkt s c psn m off b poison).mp := by
  have hw := fun off b poison => poolForm_takeWrite (x := conn s c) (m := m) (off := off) (b := b)
      (poison := poison) h
  have hr := fun off b poison => poolForm_takeReduce (c := c) (x := conn s c) (m := m) (psn := psn) (off := off)
      (b := b) (poison := poison) h
  grind [deliverPkt, targetState, refusePkt_mp, holdCells_mp, setConn_mp, markDelivered_mp]

@[simp] theorem poolForm_acceptData {s p x} (h : PoolForm s.mp) : PoolForm (acceptData s p x).mp := by
  unfold acceptData
  split <;> simp [h]

@[simp] theorem poolForm_receiveData {s p} (h : PoolForm s.mp) : PoolForm (receiveData s p).mp := by
  simp only [receiveData]
  (repeat' split) <;> simp [h]

theorem ansForm_execSend {p s} (h : PoolForm s.mp) : AnsForm (execSend p s) := by
  grind [execSend, ansForm_next, ansForm_receive, poolForm_receiveData]

theorem ansForm_execWrite {p s} (h : PoolForm s.mp) : AnsForm (execWrite p s) := by
  grind [execWrite, ansForm_next, ansForm_receive, poolForm_receiveData]

theorem ansForm_execReduce {p s} (h : PoolForm s.mp) : AnsForm (execReduce p s) := by
  grind [execReduce, ansForm_next, ansForm_receive, poolForm_receiveData]

@[simp] theorem poolForm_retryLines {c psn x2 x3 x4} (h : PoolForm x4.mp) :
    PoolForm (retryLines c psn x2 x3 x4).1.mp := by
  fun_induction retryLines c psn x2 x3 x4 with
  | case1 => exact h
  | case2 => exact h
  | case3 => exact h
  | case4 _ _ _ _ _ _ _ _ _ ih => exact ih h
  | case5 _ _ _ _ _ _ _ _ _ _ ih => exact ih h
  | case6 _ _ _ _ _ _ _ _ _ _ _ _ _ e ih => 
    refine ih (poolForm_of_presentLine_took ?_ e)
    exact h
  | case7 _ _ _ _ _ _ _ _ _ _ _ _ _ _ ih => exact ih h
  | case8 _ _ _ _ _ _ _ _ _ _ _ _ _ ih => exact ih h

theorem ansForm_execHeldPacketDelivery {c psn s} (h : PoolForm s.mp) :
    AnsForm (execHeldPacketDelivery c psn s) := by
  have hw := fun m off b poison => poolForm_takeWrite (x := conn s c) (m := m) (off := off) (b := b)
      (poison := poison) h
  have hr := poolForm_retryLines (c := c) (psn := psn) (x2 := s.ru.waiting.length + 1) (x3 := 0) h
  grind [execHeldPacketDelivery, targetState, ansForm_next, sendAck_mp, markDelivered_mp, advanceMsgs_mp,
      journalConn_mp, refusePkt_mp, contribRefuse_mp]

theorem ansForm_execCreditGrant {c s} (h : PoolForm s.mp) : AnsForm (execCreditGrant c s) := by
  have hg := grantUnits_mp s c (conn s c)
  grind [execCreditGrant, ansForm_next, sendAck_mp, journalConn_mp, raiseLimit_mp]

theorem ansForm_execIdleReclaim {c s} (h : PoolForm s.mp) : AnsForm (execIdleReclaim c s) := by
  simp only [execIdleReclaim]
  (repeat' split) <;> simp [h]

theorem ansForm_execReclaimRepeat {c s} (h : PoolForm s.mp) : AnsForm (execReclaimRepeat c s) := by
  simp only [execReclaimRepeat]
  (repeat' split) <;> simp [h]

theorem ansForm_execCredret {p s} (h : PoolForm s.mp) : AnsForm (execCredret p s) := by
  grind [execCredret, ansForm_next, ansForm_receive, poolForm_forConn, journalConn_mp, setConn_mp]

theorem ansForm_execAckTimer {c s} (h : PoolForm s.mp) : AnsForm (execAckTimer c s) := by
  unfold execAckTimer
  (repeat' split) <;> simp [h]

theorem ansForm_execHeldAckTimer {c s} (h : PoolForm s.mp) : AnsForm (execHeldAckTimer c s) := by
  simp only [execHeldAckTimer]
  (repeat' split) <;> simp [h]

theorem ansForm_execPacketTransmit {c s} (h : PoolForm s.mp) : AnsForm (execPacketTransmit c s) := by
  simp only [execPacketTransmit]
  (repeat' split) <;> simp [h]

theorem ansForm_execAck {p s} (h : PoolForm s.mp) : AnsForm (execAck p s) := by
  grind [execAck, ansForm_next, ansForm_receive, poolForm_forConn, takeAck_mp]

theorem ansForm_execNak {p s} (h : PoolForm s.mp) : AnsForm (execNak p s) := by
  grind [execNak, ansForm_next, ansForm_receive, takeNak_mp]

theorem ansForm_execRetransmissionTimeout {c psn s} (h : PoolForm s.mp) :
    AnsForm (execRetransmissionTimeout c psn s) := by
  simp only [execRetransmissionTimeout]
  (repeat' split) <;> simp [h]

theorem ansForm_execRateStep {c s} (h : PoolForm s.mp) : AnsForm (execRateStep c s) := by
  simp only [execRateStep]
  (repeat' split) <;> simp [h]

theorem poolForm_of_weftSend_ok {s u : State} {c : Nat} {tag : BitVec 11} {kind : Nat} {defq : Bool}
    {operand : Word} {b : Bytes} {poison : List Nat} (h : PoolForm s.mp)
    (e : weftSend s c tag kind defq operand b poison = .ok u) :
    PoolForm u.mp := by
  grind [weftSend, takeCells_mp, journalConn_mp, noteLow_mp, setConn_mp]

theorem ansForm_execConnect {p s} (h : PoolForm s.mp) : AnsForm (execConnect p s) := by
  grind [execConnect, ansForm_next, ansForm_receive, takeConnect_mp]

theorem ansForm_execAccept {p s} (h : PoolForm s.mp) : AnsForm (execAccept p s) := by
  grind [execAccept, ansForm_next, ansForm_receive, strayAnswer_mp, tagMiss_mp, setConn_mp, report_mp,
      journalConn_mp]

theorem ansForm_execReject {p s} (h : PoolForm s.mp) : AnsForm (execReject p s) := by
  grind [execReject, ansForm_next, ansForm_receive, strayAnswer_mp, tagMiss_mp, enterClosed_mp, report_mp]

theorem ansForm_execClose {p s} (h : PoolForm s.mp) : AnsForm (execClose p s) := by
  grind [execClose, ansForm_next, ansForm_receive, poolForm_forConn, enterClosed_mp, sendControl_mp]

theorem ansForm_execCloseAck {p s} (h : PoolForm s.mp) : AnsForm (execCloseAck p s) := by
  grind [execCloseAck, ansForm_next, ansForm_receive, poolForm_forConn, enterClosed_mp]

theorem ansForm_execConnectRetry {c s} (h : PoolForm s.mp) : AnsForm (execConnectRetry c s) := by
  simp only [execConnectRetry]
  (repeat' split) <;> simp [h]

theorem ansForm_execClosingTimeout {c s} (h : PoolForm s.mp) : AnsForm (execClosingTimeout c s) := by
  simp only [execClosingTimeout]
  (repeat' split) <;> simp [h]

theorem ansForm_execClosedHoldExpiry {c s} (h : PoolForm s.mp) : AnsForm (execClosedHoldExpiry c s) := by
  grind [execClosedHoldExpiry, ansForm_next, setConn_mp, dropPeer_mp, passTo_mp]

/-! ### Ethernet ports (chapter 08) -/

theorem ansForm_weftRow {w s} (h : PoolForm s.mp) : AnsForm (weftRow w s) := by
  grind [weftRow, ansForm_next, ansForm_execSend, ansForm_execWrite, ansForm_execReduce, ansForm_execAck,
      ansForm_execNak, ansForm_execCredret, ansForm_execConnect, ansForm_execAccept, ansForm_execReject,
      ansForm_execClose, ansForm_execCloseAck, ansForm_receive]

theorem ansForm_classify {s0 f} (h : PoolForm s0.mp) : AnsForm (classify s0 f) := by
  grind [classify, ansForm_next, portViolation_mp, takePause_mp, pushFrame_mp, useFree_mp, ansForm_weftRow,
      takeException_mp, count_mp]

theorem ansForm_execFrameReceive {f s} (h : PoolForm s.mp) : AnsForm (execFrameReceive f s) := by
  simp [execFrameReceive, ansForm_classify, h]

theorem ansForm_execFrameTransmit {port s} (h : PoolForm s.mp) : AnsForm (execFrameTransmit port s) := by
  simp only [execFrameTransmit]
  (repeat' split) <;> simp [h]

theorem ansForm_execEtLink {p up s} (h : PoolForm s.mp) : AnsForm (execEtLink p up s) := by
  unfold execEtLink
  (repeat' split) <;> simp [h]

theorem ansForm_execPauseQuantaExpiry {p prio s} (h : PoolForm s.mp) :
    AnsForm (execPauseQuantaExpiry p prio s) := by
  unfold execPauseQuantaExpiry
  split <;> simp [h]

@[simp] theorem poolForm_doEthArrange {s x1} (h : PoolForm s.mp) : PoolForm (doEthArrange s x1).1.mp := by
  simp [doEthArrange, h]

theorem ansForm_cmdEthArrange {src x1 s} (h : PoolForm s.mp) : AnsForm (cmdEthArrange src x1 s) :=
  poolForm_takeUp h fun _ hv => poolForm_doEthArrange hv

@[simp] theorem poolForm_doWeftListen {s x1} (h : PoolForm s.mp) : PoolForm (doWeftListen s x1).1.mp := by
  grind [doWeftListen, poolForm_guardAll, useFree_mp]

theorem ansForm_cmdWeftListen {src x1 s} (h : PoolForm s.mp) : AnsForm (cmdWeftListen src x1 s) :=
  poolForm_takeUp h fun _ hv => poolForm_doWeftListen hv

@[simp] theorem poolForm_doWeftUnlisten {s n} (h : PoolForm s.mp) : PoolForm (doWeftUnlisten s n).1.mp := by
  grind [doWeftUnlisten, refuse_fst, poolForm_guardAll, done_fst]

theorem ansForm_cmdWeftUnlisten {src n s} (h : PoolForm s.mp) : AnsForm (cmdWeftUnlisten src n s) :=
  poolForm_takeUp h fun _ hv => poolForm_doWeftUnlisten hv

@[simp] theorem poolForm_doWeftConnect {s x1} (h : PoolForm s.mp) : PoolForm (doWeftConnect s x1).1.mp := by
  simp [doWeftConnect, h]

theorem ansForm_cmdWeftConnect {src x1 s} (h : PoolForm s.mp) : AnsForm (cmdWeftConnect src x1 s) :=
  poolForm_takeUp h fun _ hv => poolForm_doWeftConnect hv

theorem poolForm_withConn {s : State} {c : Nat} {more : Conn → List (Bool × Status)} {body : Conn → Done}
    (h : PoolForm s.mp) (hb : ∀ x, PoolForm (body x).1.mp) :
    PoolForm (withConn s c more body).1.mp := by
  exact poolForm_guardAll h (hb _)

theorem ansForm_cmdWeftClose {src c s} (h : PoolForm s.mp) : AnsForm (cmdWeftClose src c s) :=
  poolForm_takeUp h fun _ hv => poolForm_withConn hv fun _ => by simp [hv]

@[simp] theorem poolForm_doWeftMove {s c port mac vlan} (h : PoolForm s.mp) :
    PoolForm (doWeftMove s c port mac vlan).1.mp :=
  poolForm_withConn h fun _ => by simp [h]

theorem ansForm_cmdWeftMove {src c port mac vlan s} (h : PoolForm s.mp) :
    AnsForm (cmdWeftMove src c port mac vlan s) :=
  poolForm_takeUp h fun _ hv => poolForm_doWeftMove hv

theorem ansForm_cmdWeftLimit {src tid n s} (h : PoolForm s.mp) : AnsForm (cmdWeftLimit src tid n s) :=
  poolForm_takeUp h fun _ hv => poolForm_guardAll hv (by simp [hv])

theorem ansForm_execEtTxTsId {p s} (h : PoolForm s.mp) : AnsForm (execEtTxTsId p s) := h

/-! ### Service classes (chapter 09) -/

@[simp] theorem poolForm_admitBytes {s p f len} (h : PoolForm s.mp) : PoolForm (admitBytes s p f len).2.mp := by
  simp only [admitBytes]
  (repeat' split) <;> simp [h]

theorem ansForm_execClearMax {p s} (h : PoolForm s.mp) : AnsForm (execClearMax p s) := by
  unfold execClearMax
  split <;> simp [h]

theorem ansForm_execSchedulingEpoch {s} (h : PoolForm s.mp) : AnsForm (execSchedulingEpoch s) := by
  simp [execSchedulingEpoch, h]

@[simp] theorem poolForm_doScAdmit {s p f rate depth} (h : PoolForm s.mp) :
    PoolForm (doScAdmit s p f rate depth).1.mp := by
  grind [doScAdmit, poolForm_guardAll, done_fst, atEpoch_mp]

theorem ansForm_cmdScAdmit {src p f rate depth s} (h : PoolForm s.mp) :
    AnsForm (cmdScAdmit src p f rate depth s) :=
  poolForm_takeUp h fun _ hv => poolForm_doScAdmit hv

theorem ansForm_cmdScShare {src tid w s} (h : PoolForm s.mp) : AnsForm (cmdScShare src tid w s) :=
  poolForm_takeUp h fun _ hv => poolForm_guardAll hv (by simp [hv])

theorem ansForm_cmdScClassWeights {src x1 b c s} (h : PoolForm s.mp) :
    AnsForm (cmdScClassWeights src x1 b c s) :=
  poolForm_takeUp h fun _ hv => poolForm_guardAll hv (by simp [hv])

/-! ### Shuttle (chapter 07) -/

theorem poolForm_takeTag {s p u v} (h : PoolForm s.mp) (e : takeTag s p = some (v, u)) : PoolForm u.mp := by
  grind [takeTag, setPort_mp]

@[simp] theorem poolForm_markPage {tag p s page} (h : PoolForm s.mp) : PoolForm (markPage tag p s page).mp := by
  simp only [markPage]
  (repeat' split) <;> simp [h]

@[simp] theorem poolForm_markDirty {s tag p x3 n} (h : PoolForm s.mp) : PoolForm (markDirty s tag p x3 n).mp := by
  unfold markDirty
  split
  · exact h
  · exact poolForm_foldl h (fun _ _ hv => poolForm_markPage hv) _

@[simp] theorem poolForm_hostTlp {ch poison relaxed s x4 b} (h : PoolForm s.mp) :
    PoolForm (hostTlp ch poison relaxed s x4 b).mp := by
  simp [hostTlp, h]

theorem poolForm_destRefused {s ch d n u} (h : PoolForm s.mp) (e : destRefused s ch d n = some u) :
    PoolForm u.mp := by
  unfold destRefused at e
  split at e
  · cases e
  · grind [poolDenied_mp]
  · grind
  · grind [qmRefuse_mp]
  · obtain ⟨r, -, rfl⟩ := Option.map_eq_some_iff.mp e
    simpa using h

@[simp] theorem poolForm_startQueue {s c ch d n} (h : PoolForm s.mp) :
    PoolForm (startState (startQueue s c ch d n)).mp := by
  simp only [startQueue]
  (repeat' split) <;> simp [h]

@[simp] theorem poolForm_startDest {s c ch d n} (h : PoolForm s.mp) :
    PoolForm (startState (startDest s c ch d n)).mp := by
  grind [startDest, startState, poolForm_destRefused, poolForm_startQueue]

@[simp] theorem poolForm_startItem {s c ch d kept done} (h : PoolForm s.mp) :
    PoolForm (startState (startItem s c ch d kept done)).mp := by
  have hd := fun d n => poolForm_startDest (c := c) (ch := ch) (d := d) (n := n) h
  cases kept <;> grind [startItem, startState, qmRefuse_mp, journalWait_mp, unlinkItem_mp]

@[simp] theorem poolForm_startDesc {s c ch d kept done} (h : PoolForm s.mp) :
    PoolForm (startState (startDesc s c ch d kept done)).mp := by
  have hd := fun d n => poolForm_startDest (c := c) (ch := ch) (d := d) (n := n) h
  grind [startDesc, startState, poolForm_startItem]

theorem poolForm_sendRead {s c ch pos addr len u v} (h : PoolForm s.mp)
    (e : sendRead s c ch pos addr len = some (v, u)) :
    PoolForm u.mp := by
  grind [sendRead, poolForm_takeTag, setTagWait_mp, setPort_mp, emit_mp, transmit_mp]

@[simp] theorem poolForm_localRead {s ch d off n} (h : PoolForm s.mp) :
    PoolForm (localRead s ch d off n).2.mp := by
  unfold localRead
  (repeat' split) <;> simp [h]

@[simp] theorem poolForm_writePieces {tag poison x2 x3 x4} (h : PoolForm x2.mp) :
    PoolForm (writePieces tag poison x2 x3 x4).mp := by
  induction x3 generalizing x2 x4 with
  | nil => exact h
  | cons e t ih => exact ih (poolForm_poolStore h)

@[simp] theorem poolForm_spoilBeat {ch d s beat} (h : PoolForm s.mp) : PoolForm (spoilBeat ch d s beat).mp := by
  grind [spoilBeat, useFreeN_mp, poolForm_writePieces, setThread_mp]

theorem poolForm_issueBeat {s c j d u} (h : PoolForm s.mp) (e : issueBeat s c j d = some u) : PoolForm u.mp := by
  grind [issueBeat, poolForm_sendRead, count_mp, setDesc_mp, setChan_mp, poolForm_localRead]

@[simp] theorem poolForm_sendTlps {s ch d all} (h : PoolForm s.mp) : PoolForm (sendTlps s ch d all).1.mp := by
  refine poolForm_foldl_fst h (fun x t hx => ?_) _
  dsimp only
  split
  · exact poolForm_hostTlp hx
  · exact hx

@[simp] theorem poolForm_drainLines {c ch x2 x3 x4} (h : PoolForm x3.mp) :
    PoolForm (drainLines c ch x2 x3 x4).1.mp := by
  induction x2 generalizing x3 x4 with
  | zero => exact h
  | succ n ih => grind [drainLines, poolForm_of_presentLine_took, poolForm_of_presentLine_wait,
      contribRefuse_mp, backPressure_mp]

theorem poolForm_deliverPart {s c ch d i off x poison u v w} (h : PoolForm s.mp)
    (e : deliverPart s c ch d i off x poison = some (v, u, w)) :
    PoolForm u.mp := by
  grind [deliverPart, countN_mp, poolForm_sendTlps, poolForm_writePieces, poolDenied_mp, setThread_mp,
      poolForm_drainLines]

theorem poolForm_writeSlot {s ch d u} (h : PoolForm s.mp) (e : writeSlot s ch d = some u) : PoolForm u.mp := by
  grind [writeSlot, poolForm_poolStore, poolForm_hostTlp]

theorem poolForm_linkGathered {s c d u} (h : PoolForm s.mp) (e : linkGathered s c d = some u) : PoolForm u.mp := by
  grind [linkGathered, finishProg_mp, raiseEvent_mp]

@[simp] theorem poolForm_finishHead {s c ch d} (h : PoolForm s.mp) : PoolForm (finishHead s c ch d).1.mp := by
  grind [finishHead, poolForm_sendTlps, poolForm_linkGathered, journalWait_mp, poolForm_drainLines]

theorem poolForm_writeSlot_getD {s ch d} (h : PoolForm s.mp) : PoolForm ((writeSlot s ch d).getD s).mp := by
  cases e : writeSlot s ch d with
  | none => exact h
  | some u => exact poolForm_writeSlot h e

@[simp] theorem poolForm_settleHead {s c} (h : PoolForm s.mp) : PoolForm (settleHead s c).mp := by
  have hfinish : ∀ d, PoolForm (if d.code = 0 ∧ d.issued = d.length ∧ d.started then finishHead s c (chan s c) d
      else if d.code = 0x80 ∧ dDst d = 4 then drainLines c (chan s c) 257 s d else (s, d)).1.mp := by
    intro d
    split
    · exact poolForm_finishHead h
    · split
      · exact poolForm_drainLines h
      · exact h
  unfold settleHead
  dsimp only
  split
  · exact h
  · split
    · simp [h]
    · next d t _ =>
      split
      · exact h
      · have hv := hfinish d
        revert hv
        generalize (if d.code = 0 ∧ d.issued = d.length ∧ d.started then finishHead s c (chan s c) d
          else if d.code = 0x80 ∧ dDst d = 4 then drainLines c (chan s c) 257 s d else (s, d)) = x
        intro hv
        split
        · simpa using hv
        · have hsend : PoolForm
              (if dDst x.2 = 0 then sendTlps (setChan x.1 c { chan s c with fetched := x.2 :: t }) (chan s c) x.2 true
              else (setChan x.1 c { chan s c with fetched := x.2 :: t }, x.2)).1.mp := by
            split
            · exact poolForm_sendTlps (by simpa using hv)
            · simpa using hv
          rw [errorHalt_mp]
          exact poolForm_writeSlot_getD (poolForm_foldl hsend (fun _ _ => poolForm_spoilBeat) _)

@[simp] theorem poolForm_gotDesc {s c pos b} (h : PoolForm s.mp) : PoolForm (gotDesc s c pos b).mp := by
  grind [gotDesc, poolForm_settleHead, setChan_mp]

@[simp] theorem poolForm_fetchFailed {s c pos fails} (h : PoolForm s.mp) :
    PoolForm (fetchFailed s c pos fails).mp := by
  grind [fetchFailed, count_mp, poolForm_settleHead, setChan_mp]

@[simp] theorem poolForm_fetchHost {s c ch pos host} (h : PoolForm s.mp) :
    PoolForm (fetchHost s c ch pos host).mp := by
  grind [fetchHost, poolForm_sendRead, setTagWait_mp, count_mp, poolForm_fetchFailed, giveTag_mp, passTo_mp,
      tagTimeout_mp, poolForm_settleHead, setChan_mp, poolForm_gotDesc]

@[simp] theorem poolForm_fetchPool {s c ch pos} (h : PoolForm s.mp) : PoolForm (fetchPool s c ch pos).mp := by
  grind [fetchPool, poolForm_gotDesc, poolForm_eccSpan, poolForm_settleHead, setChan_mp, poolDenied_mp]

theorem ansForm_execDescriptorFetch {c host s} (h : PoolForm s.mp) : AnsForm (execDescriptorFetch c host s) := by
  simp only [execDescriptorFetch]
  (repeat' split) <;> simp [h]

/-- The state that the next beat leaves, where there is one. -/
def NextBeatForm : NextBeat → Prop
  | .none => True
  | .moved s => PoolForm s.mp
  | .beat s _ => PoolForm s.mp

theorem NextBeatForm_nextOf {s : State} {c : Nat} (h : PoolForm s.mp) : NextBeatForm (nextOf s c) := by
  have hstart := fun d k n => poolForm_startDesc (c := c) (ch := chan s c) (d := d) (kept := k) (done := n) h
  have hbeat := fun (v : State) j d u (hv : PoolForm v.mp) => poolForm_issueBeat (c := c) (j := j) (d := d)
      (u := u) hv
  have hsettle := fun (v : State) (hv : PoolForm v.mp) => poolForm_settleHead (c := c) hv
  grind [nextOf, NextBeatForm, startState, setDesc_mp, setTagWait_mp]

theorem ansForm_execBeatIssue {c s} (h : PoolForm s.mp) : AnsForm (execBeatIssue c s) := by
  have hb := NextBeatForm_nextOf (c := c) h
  grind [execBeatIssue, NextBeatForm, ansForm_next]

@[simp] theorem poolForm_deliverParts {c j i x3 x4} (h : PoolForm x4.mp) :
    PoolForm (deliverParts c j i x3 x4).mp := by
  fun_induction deliverParts c j i x3 x4 with
  | case1 => exact h
  | case2 => exact h
  | case3 => exact h
  | case4 => exact h
  | case5 _ _ _ _ _ _ _ _ _ _ _ _ e _ ih => exact ih (by simpa using poolForm_deliverPart h e)
  | case6 _ _ _ _ _ _ _ _ _ _ _ _ e => simpa using poolForm_deliverPart h e

@[simp] theorem poolForm_tryDeliver {s c j i} (h : PoolForm s.mp) : PoolForm (tryDeliver s c j i).mp := by
  simp [tryDeliver, h]

theorem ansForm_execBeatComplete {c k host s} (h : PoolForm s.mp) : AnsForm (execBeatComplete c k host s) := by
  unfold execBeatComplete
  dsimp only
  split
  · exact h
  · split
    · exact poolForm_settleHead h
    · split
      · exact h
      · split
        · exact poolForm_settleHead (poolForm_tryDeliver h)
        · split
          · exact h
          · split
            · split
              · exact h
              · exact poolForm_settleHead (poolForm_tryDeliver (by simpa using h))
            · exact poolForm_settleHead (by simpa using h)
            · split
              · exact poolForm_settleHead (by simpa using h)
              · exact h

theorem ansForm_execRetry {c k s} (h : PoolForm s.mp) : AnsForm (execRetry c k s) := by
  have hread := fun (v : State) pos a n t u (hv : PoolForm v.mp) => poolForm_sendRead (c := c) (ch := chan s c)
      (pos := pos) (addr := a) (len := n) (v := t) (u := u) hv
  grind [execRetry, ansForm_next, setTagWait_mp, setDesc_mp, count_mp, passTo_mp]

theorem ansForm_execDescriptorRetire {c s} (h : PoolForm s.mp) : AnsForm (execDescriptorRetire c s) := by
  have hs := poolForm_settleHead (c := c) h
  unfold execDescriptorRetire
  split
  · exact h
  · split
    · simpa using h
    · revert hs
      generalize settleHead s c = v
      intro hs
      have hslot := fun d u e => poolForm_writeSlot (ch := chan v c) (d := d) (u := u) hs e
      grind [ansForm_next, errorHalt_mp, poolDenied_mp, push_mp, journalWait_mp, journalChan_mp, setChan_mp,
          chanSignal_mp, poolForm_writeSlot_getD]

@[simp] theorem poolForm_flushDesc {c s j} (h : PoolForm s.mp) : PoolForm (flushDesc c s j).mp := by
  unfold flushDesc
  (repeat' split) <;> simp [h]

theorem ansForm_execPaused {c s} (h : PoolForm s.mp) : AnsForm (execPaused c s) := by
  have hflush : ∀ (l : List Nat) (v : State), PoolForm v.mp → PoolForm (l.foldl (flushDesc c) v).mp :=
    fun l v hv => poolForm_foldl hv (fun _ _ => poolForm_flushDesc) l
  grind [execPaused, ansForm_next, poolForm_settleHead, journalChan_mp, setChan_mp]

theorem ansForm_execTailBufferWriteThrough {c s} (h : PoolForm s.mp) :
    AnsForm (execTailBufferWriteThrough c s) := by
  grind [execTailBufferWriteThrough, ansForm_next, poolForm_poolStore, setChan_mp, journalWait_mp, errorHalt_mp,
      poolDenied_mp]

theorem poolForm_of_hcopy_ok {s u : State} {ctx c : Nat} {b : Bytes} (h : PoolForm s.mp)
    (e : hcopy s ctx c b = .ok u) :
    PoolForm u.mp := by
  grind [hcopy, setChan_mp]

@[simp] theorem poolForm_doChannelAssign {s x1} (h : PoolForm s.mp) : PoolForm (doChannelAssign s x1).1.mp := by
  simp [doChannelAssign, h]

theorem ansForm_cmdChannelAssign {src x1 s} (h : PoolForm s.mp) : AnsForm (cmdChannelAssign src x1 s) :=
  poolForm_takeUp h fun _ hv => poolForm_doChannelAssign hv

theorem poolForm_withChan {s : State} {c : Nat} {more : List (Bool × Status)} {body : Chan → Done}
    (h : PoolForm s.mp) (hb : ∀ x, PoolForm (body x).1.mp) :
    PoolForm (withChan s c more body).1.mp := by
  exact poolForm_guardAll h (hb _)

@[simp] theorem poolForm_doChannelRelease {s c} (h : PoolForm s.mp) : PoolForm (doChannelRelease s c).1.mp :=
  poolForm_withChan h fun _ => by simp [h]

theorem ansForm_cmdChannelRelease {src c s} (h : PoolForm s.mp) : AnsForm (cmdChannelRelease src c s) :=
  poolForm_takeUp h fun _ hv => poolForm_doChannelRelease hv

theorem ansForm_cmdChannelStop {src c s} (h : PoolForm s.mp) : AnsForm (cmdChannelStop src c s) :=
  poolForm_takeUp h fun _ hv => poolForm_withChan hv fun _ => by simp [hv]

theorem ansForm_cmdChannelLimit {src tid limit s} (h : PoolForm s.mp) :
    AnsForm (cmdChannelLimit src tid limit s) :=
  poolForm_takeUp h fun _ hv => poolForm_guardAll hv (by simp [hv])

/-! ### Host ports (chapter 10) -/

theorem ansForm_execPostedCredit {p s} (h : PoolForm s.mp) : AnsForm (execPostedCredit p s) := by
  simp only [execPostedCredit]
  (repeat' split) <;> simp [h]

@[simp] theorem poolForm_failBeat {s t x2} (h : PoolForm s.mp) : PoolForm (failBeat s t x2).mp := by
  unfold failBeat
  split <;> simp [h]

@[simp] theorem poolForm_retireTags {s p of fail} (h : PoolForm s.mp) : PoolForm (retireTags s p of fail).mp := by
  refine poolForm_foldl h (fun v e hv => ?_) _
  dsimp only
  split
  · exact poolForm_failBeat (by simpa using hv)
  · simpa using hv

@[simp] theorem poolForm_takeCompletion {s p t x3 st bc la b poison} (h : PoolForm s.mp) :
    PoolForm (takeCompletion s p t x3 st bc la b poison).mp := by
  grind [takeCompletion, aer_mp, count_mp, poolForm_failBeat, giveTag_mp, setPort_mp, poolForm_settleHead,
      poolForm_tryDeliver, pieceArrived_mp]

theorem ansForm_execCompletion {p fn t x b poison s} (h : PoolForm s.mp) :
    AnsForm (execCompletion p fn t x b poison s) := by
  simp only [execCompletion]
  (repeat' split) <;> simp [h]

theorem ansForm_execCompletionTimeout {p t s} (h : PoolForm s.mp) : AnsForm (execCompletionTimeout p t s) := by
  unfold execCompletionTimeout
  split <;> simp [h]

theorem ansForm_execQuarantineEnd {p t s} (h : PoolForm s.mp) : AnsForm (execQuarantineEnd p t s) := by
  unfold execQuarantineEnd
  split <;> simp [h]

theorem ansForm_execHpLateLog {p s} (h : PoolForm s.mp) : AnsForm (execHpLateLog p s) := h

theorem ansForm_execPowerstateWrite {p d3hot s} (h : PoolForm s.mp) : AnsForm (execPowerstateWrite p d3hot s) := by
  simp only [execPowerstateWrite]
  (repeat' split) <;> simp [h]

theorem ansForm_execPowerstateStepEnd {p s} (h : PoolForm s.mp) : AnsForm (execPowerstateStepEnd p s) := by
  simp only [execPowerstateStepEnd]
  (repeat' split) <;> simp [h]

theorem ansForm_execL1Idle {p s} (h : PoolForm s.mp) : AnsForm (execL1Idle p s) := by
  simp only [execL1Idle]
  (repeat' split) <;> simp [h]

theorem ansForm_execL0pNarrow {p s} (h : PoolForm s.mp) : AnsForm (execL0pNarrow p s) := by
  simp only [execL0pNarrow]
  (repeat' split) <;> simp [h]

theorem ansForm_execPartnerL1Request {p l1 width s} (h : PoolForm s.mp) :
    AnsForm (execPartnerL1Request p l1 width s) := by
  simp only [execPartnerL1Request]
  (repeat' split) <;> simp [h]

@[simp] theorem poolForm_dropLink {s p} (h : PoolForm s.mp) : PoolForm (dropLink s p).mp := by
  simp [dropLink, h]

@[simp] theorem poolForm_enterCold {s p} (h : PoolForm s.mp) : PoolForm (enterCold s p).mp := by
  simp [enterCold, h]

theorem ansForm_execPerstAssert {p s} (h : PoolForm s.mp) : AnsForm (execPerstAssert p s) := by
  grind [execPerstAssert, ansForm_next, poolForm_enterCold, poolForm_dropLink, setPort_mp, containPort_mp,
      resetFns_mp]

theorem ansForm_execPerstDeassert {p s} (h : PoolForm s.mp) : AnsForm (execPerstDeassert p s) := by
  simp only [execPerstDeassert]
  (repeat' split) <;> simp [h]

theorem ansForm_execHotReset {p s} (h : PoolForm s.mp) : AnsForm (execHotReset p s) := by
  simp only [execHotReset]
  (repeat' split) <;> simp [h]

theorem ansForm_execLinkUp {p speed width flit reversed s} (h : PoolForm s.mp) :
    AnsForm (execLinkUp p speed width flit reversed s) := by
  simp only [execLinkUp]
  (repeat' split) <;> simp [h]

theorem ansForm_execLinkDown {p s} (h : PoolForm s.mp) : AnsForm (execLinkDown p s) := by
  simp only [execLinkDown]
  (repeat' split) <;> simp [h]

theorem ansForm_execPartnerDetected {p s} (h : PoolForm s.mp) : AnsForm (execPartnerDetected p s) := by
  simp only [execPartnerDetected]
  (repeat' split) <;> simp [h]

@[simp] theorem poolForm_doPortRelease {s p} (h : PoolForm s.mp) : PoolForm (doPortRelease s p).1.mp := by
  simp [doPortRelease, h]

theorem ansForm_cmdPortRelease {src p s} (h : PoolForm s.mp) : AnsForm (cmdPortRelease src p s) :=
  poolForm_takeUp h fun _ hv => poolForm_doPortRelease hv

theorem ansForm_cmdPortMerge {src pair on s} (h : PoolForm s.mp) : AnsForm (cmdPortMerge src pair on s) :=
  poolForm_takeUp h fun _ hv => poolForm_guardAll hv (by simp [hv])

theorem ansForm_execLinkError {p err s} (h : PoolForm s.mp) : AnsForm (execLinkError p err s) := by
  unfold execLinkError
  split <;> simp [h]

/-! ### Functions and windows (chapter 11) -/

theorem poolForm_addRefs {s x1 u} (h : PoolForm s.mp) (e : addRefs s x1 = some u) : PoolForm u.mp := by
  induction x1 generalizing s with
  | nil => grind [addRefs]
  | cons g t ih => grind [addRefs, poolForm_addRef]

theorem poolForm_of_tackChecks_ok {s s0 u : State} {p f : Nat} {l : List (Nat × Window)} (h : PoolForm s.mp)
    (e : tackChecks s0 p f l s = .ok u) : PoolForm u.mp := by
  induction l generalizing s with
  | nil => grind [tackChecks]
  | cons x t ih => grind [tackChecks, poolForm_addRefs]

@[simp] theorem poolForm_applyTack {s p f} (h : PoolForm s.mp) : PoolForm (applyTack s p f).mp := by
  have hfold : ∀ (l : List (Nat × Window)) (v : State),
      (l.foldl (fun t e => setWindow t e.1 (commitWindow s e.2)) v).mp = v.mp :=
    foldl_mp fun _ _ => setWindow_mp ..
  grind [applyTack, setTack_mp, wakeL1_mp, poolForm_of_tackChecks_ok]

theorem poolForm_of_tryTack_held {s u : State} {p f : Nat} (h : PoolForm s.mp) (e : tryTack s p f = .held u) :
    PoolForm u.mp := by
  grind [tryTack, setTack_mp, poolForm_applyTack]

theorem poolForm_of_tryTack_applied {s u : State} {p f : Nat} (h : PoolForm s.mp)
    (e : tryTack s p f = .applied u) :
    PoolForm u.mp := by
  grind [tryTack, setTack_mp, poolForm_applyTack]

theorem ansForm_execBasting {p second v s} (h : PoolForm s.mp) : AnsForm (execBasting p second v s) := by
  unfold execBasting
  split <;> simp [h]

@[simp] theorem poolForm_tackWrite {s v} (h : PoolForm s.mp) : PoolForm (tackWrite s v).mp := by
  grind [tackWrite, poolForm_of_tryTack_held, poolForm_of_tryTack_applied, basteRefused_mp]

theorem ansForm_execFnTack {p v s} (h : PoolForm s.mp) : AnsForm (execFnTack p v s) := by
  unfold execFnTack
  split <;> simp [h]

theorem ansForm_execOldMappingDrained {p f s} (h : PoolForm s.mp) : AnsForm (execOldMappingDrained p f s) := by
  have hfold := poolForm_foldl_iff (f := addRef false) (fun _ _ => poolForm_addRef)
  grind [execOldMappingDrained, ansForm_next, setTack_mp, poolForm_applyTack]

@[simp] theorem poolForm_doWindowAlloc {s ctx p f} (h : PoolForm s.mp) :
    PoolForm (doWindowAlloc s ctx p f).1.mp := by
  grind [doWindowAlloc, poolForm_guardAll, setWindow_mp]

theorem ansForm_cmdWindowAlloc {src ctx p f s} (h : PoolForm s.mp) : AnsForm (cmdWindowAlloc src ctx p f s) :=
  poolForm_takeUp h fun _ hv => poolForm_doWindowAlloc hv

theorem poolForm_withWin {s : State} {i : Nat} {body : Window → Done} (h : PoolForm s.mp)
    (hb : ∀ w, PoolForm (body w).1.mp) :
    PoolForm (withWin s i body).1.mp := by
  unfold withWin
  split
  · exact h
  · exact poolForm_guardAll h (hb _)

@[simp] theorem poolForm_doWindowFree {s i} (h : PoolForm s.mp) : PoolForm (doWindowFree s i).1.mp := by
  grind [doWindowFree, poolForm_withWin, poolForm_guardAll, done_fst]

theorem ansForm_cmdWindowFree {src i s} (h : PoolForm s.mp) : AnsForm (cmdWindowFree src i s) :=
  poolForm_takeUp h fun _ hv => poolForm_doWindowFree hv

@[simp] theorem poolForm_doWindowStage {s i e} (h : PoolForm s.mp) : PoolForm (doWindowStage s i e).1.mp := by
  grind [doWindowStage, poolForm_withWin, poolForm_guardAll, done_fst, setWindow_mp]

theorem ansForm_cmdWindowStage {src i e s} (h : PoolForm s.mp) : AnsForm (cmdWindowStage src i e s) :=
  poolForm_takeUp h fun _ hv => poolForm_doWindowStage hv

@[simp] theorem poolForm_tackAnswer {s p f} (h : PoolForm s.mp) : PoolForm (tackAnswer s p f).1.mp := by
  unfold tackAnswer
  split <;> simp [h]

@[simp] theorem poolForm_doWindowTack {s p f} (h : PoolForm s.mp) : PoolForm (doWindowTack s p f).1.mp := by
  grind [doWindowTack, poolForm_guardAll, poolForm_of_tryTack_held, poolForm_of_tryTack_applied, refuse_fst,
      poolForm_tackAnswer]

@[simp] theorem poolForm_pollWindowTack {s p f} (h : PoolForm s.mp) : PoolForm (pollWindowTack s p f).1.mp := by
  unfold pollWindowTack
  split <;> simp [h]

theorem ansForm_cmdWindowTack {src p f s} (h : PoolForm s.mp) : AnsForm (cmdWindowTack src p f s) :=
  poolForm_takeUp h fun _ hv => poolForm_doWindowTack hv

@[simp] theorem poolForm_doWindowLimit {s tid limit} (h : PoolForm s.mp) :
    PoolForm (doWindowLimit s tid limit).1.mp := by
  simp [doWindowLimit, h]

theorem ansForm_cmdWindowLimit {src tid limit s} (h : PoolForm s.mp) :
    AnsForm (cmdWindowLimit src tid limit s) :=
  poolForm_takeUp h fun _ hv => poolForm_doWindowLimit hv

theorem ansForm_execNoticePush {s} (h : PoolForm s.mp) : AnsForm (execNoticePush s) := by
  have hp := fun b => push_mp s mgtQueue 7 (mkTag mgt 1) b false
  grind [execNoticePush, ansForm_next]

@[simp] theorem poolForm_quiesceTenant {s tid} (h : PoolForm s.mp) : PoolForm (quiesceTenant s tid).mp := by
  have hretire := poolForm_foldl h
      (fun (v : State) p hv => poolForm_retireTags (p := p) (of := fun a => (chansOf s tid).contains a.channel) (fail := false) hv)
      (upto 0 8)
  unfold quiesceTenant
  dsimp only
  rw [foldl_mp fun _ _ => requestFlush_mp .., foldl_mp journalChan_mp, foldl_mp flrChannel_mp]
  exact hretire

@[simp] theorem poolForm_startFlr {s tid pf} (h : PoolForm s.mp) : PoolForm (startFlr s tid pf).mp := by
  simp only [startFlr]
  (repeat' split) <;> simp [h]

theorem ansForm_execInitiateFlr {p f s} (h : PoolForm s.mp) : AnsForm (execInitiateFlr p f s) := by
  unfold execInitiateFlr
  (repeat' split) <;> simp [h]

theorem ansForm_execPfFlr {p s} (h : PoolForm s.mp) : AnsForm (execPfFlr p s) := by
  unfold execPfFlr
  split
  · exact h
  · dsimp only
    rw [ansForm_next, finishPfFlr_mp]
    refine poolForm_foldl ?_ (fun _ _ hv => poolForm_startFlr hv) _
    rw [setPort_mp, foldl_mp flrChannel_mp]
    exact poolForm_retireTags (by simpa using h)

theorem ansForm_execVfEnableClear {p s} (h : PoolForm s.mp) : AnsForm (execVfEnableClear p s) := by
  unfold execVfEnableClear
  split
  · exact h
  · refine poolForm_foldl (by rw [foldl_mp fun _ _ => resetFn_mp ..]; simpa using h) (fun v e hv => ?_) _
    grind [poolForm_quiesceTenant, dropPushes_mp]

theorem ansForm_execFlrComplete {tid s} (h : PoolForm s.mp) : AnsForm (execFlrComplete tid s) := by
  unfold execFlrComplete
  (repeat' split) <;> simp [h]

@[simp] theorem poolForm_dirtyLine {p l s n} (h : PoolForm s.mp) : PoolForm (dirtyLine p l s n).mp := by
  simp [dirtyLine, h]

theorem ansForm_execDirtyLineWrite {tid p s} (h : PoolForm s.mp) : AnsForm (execDirtyLineWrite tid p s) := by
  grind [execDirtyLineWrite, ansForm_next, poolForm_dirtyLine, setDirtyLog_mp]

@[simp] theorem poolForm_flushDirty {s p l} (h : PoolForm s.mp) : PoolForm (flushDirty s p l).mp := by
  rw [flushDirty]
  exact poolForm_foldl (f := dirtyLine p l) h (fun _ _ => poolForm_dirtyLine) l.lines

@[simp] theorem poolForm_clearShadow {s l} (h : PoolForm s.mp) : PoolForm (clearShadow s l).mp :=
  poolForm_foldl h (fun _ _ hv => poolForm_zeroGranule hv) _

theorem poolForm_takeShadow {x0 x1 x2 u v} (h : PoolForm x1.mp) (e : takeShadow x0 x1 x2 = some (u, v)) :
    PoolForm u.mp := by
  induction x0 generalizing x1 x2 with
  | zero => grind [takeShadow]
  | succ n ih => grind [takeShadow, poolForm_assignGranule]

@[simp] theorem poolForm_doDirtyLogStart {s tid p low span x5 b} (h : PoolForm s.mp) :
    PoolForm (doDirtyLogStart s tid p low span x5 b).1.mp := by
  rw [doDirtyLogStart]
  generalize hshadow : takeShadow _ s [] = sh
  refine poolForm_guardAll h ?_
  split
  · exact h
  · split
    · exact h
    · simpa using poolForm_takeShadow h hshadow

theorem ansForm_cmdDirtyLogStart {src tid p low span x5 b s} (h : PoolForm s.mp) :
    AnsForm (cmdDirtyLogStart src tid p low span x5 b s) :=
  poolForm_takeUp h fun _ hv => poolForm_doDirtyLogStart hv

theorem poolForm_withLog {s : State} {tid p : Nat} {body : DirtyLog → Done} (h : PoolForm s.mp)
    (hb : ∀ l, PoolForm (body l).1.mp) :
    PoolForm (withLog s tid p body).1.mp := by
  refine poolForm_guardAll h ?_
  split
  · exact h
  · split
    · exact hb _
    · exact h

@[simp] theorem poolForm_doDirtyLogSwap {s tid p} (h : PoolForm s.mp) :
    PoolForm (doDirtyLogSwap s tid p).1.mp :=
  poolForm_withLog h fun _ => by simp [h]

theorem ansForm_cmdDirtyLogSwap {src tid p s} (h : PoolForm s.mp) : AnsForm (cmdDirtyLogSwap src tid p s) :=
  poolForm_takeUp h fun _ hv => poolForm_doDirtyLogSwap hv

@[simp] theorem poolForm_releaseMgt {s g} : PoolForm (releaseMgt s g).mp ↔ PoolForm s.mp := by
  unfold releaseMgt
  split <;> simp

@[simp] theorem poolForm_doDirtyLogStop {s tid p} (h : PoolForm s.mp) :
    PoolForm (doDirtyLogStop s tid p).1.mp := by
  refine poolForm_withLog h fun l => ?_
  exact (poolForm_foldl_iff (fun _ _ => poolForm_releaseMgt) _ _).mpr (poolForm_flushDirty h)

theorem ansForm_cmdDirtyLogStop {src tid p s} (h : PoolForm s.mp) : AnsForm (cmdDirtyLogStop src tid p s) :=
  poolForm_takeUp h fun _ hv => poolForm_doDirtyLogStop hv

/-! ### Issue of an instruction (R62, R63) -/

theorem ansForm_takeFault {s t f} (h : PoolForm s.mp) : AnsForm (takeFault s t f) := by
  simp only [takeFault]
  (repeat' split) <;> simp [h]

theorem ansForm_issueFault {s t f} (h : PoolForm s.mp) : AnsForm (issueFault s t f) := by
  simp only [issueFault]
  (repeat' split) <;> simp [h]

theorem ansForm_finish {s : State} {t : Nat} {r : TRes} (h : PoolForm s.mp) (hr : PoolForm (tresState r).mp) :
    AnsForm (finish s t r) := by
  unfold finish
  cases r with
  | ok v f => simpa using hr
  | fault v f =>
    dsimp only
    split
    · exact ansForm_issueFault hr
    · exact h
  | hold v => exact hr
  | leave v => exact hr
  | stall v f =>
    dsimp only
    split
    · exact h
    · simpa using hr

theorem ansForm_issue {t : Nat} {op : NOp} {sel : Nat → Bool} {s : State} {body : State → Thread → Nat → TRes}
    (h : PoolForm s.mp) (hb : ∀ th w, PoolForm (tresState (body s th w)).mp) : AnsForm (issue t op sel s body) := by
  grind [issue, ansForm_next, ansForm_takeFault, ansForm_finish, countIssue_mp, setThread_mp]

theorem ansForm_regOnly {t op s f} (h : PoolForm s.mp) : AnsForm (regOnly t op s f) :=
  ansForm_issue h fun _ _ => h

theorem ansForm_execActivation {t s} (h : PoolForm s.mp) : AnsForm (execActivation t s) := by
  simp only [execActivation]
  (repeat' split) <;> simp [h]

theorem ansForm_execTimer {t s} (h : PoolForm s.mp) : AnsForm (execTimer t s) := by
  simp only [execTimer]
  (repeat' split) <;> simp [h]

@[simp] theorem poolForm_endActivation {s t th f} (h : PoolForm s.mp) :
    PoolForm (tresState (endActivation s t th f)).mp := by
  unfold endActivation
  (repeat' split) <;> simp [h]

/-! ### Programs (chapter 03) -/

theorem poolForm_readPiece {ctx : Nat} {x : ImageRead × State} {p : Nat × Nat} (h : PoolForm x.2.mp) :
    PoolForm (readPiece ctx x p).2.mp := by
  unfold readPiece
  dsimp only
  split
  · exact h
  · split
    · simpa using h
    · exact h
    · next a _ _ =>
      have hs := poolForm_eccSpan (ppa := a) (n := p.2) (tag := mkTag ctx 1) h
      split <;> exact hs

@[simp] theorem poolForm_readPoolSpan {s ctx x2 n} (h : PoolForm s.mp) :
    PoolForm (readPoolSpan s ctx x2 n).2.mp :=
  List.foldlRecOn (motive := fun x => PoolForm x.2.mp) _ (readPiece ctx) h fun _ hx _ _ => poolForm_readPiece hx

@[simp] theorem poolForm_readImage {s ctx src n host} (h : PoolForm s.mp) :
    PoolForm (readImage s ctx src n host).2.mp := by
  have hspan := fun a => poolForm_readPoolSpan (ctx := ctx) (x2 := a) (n := n) h
  cases src <;> grind [readImage, systemMove_mp]

@[simp] theorem poolForm_loadImage {s ctx b engines} (h : PoolForm s.mp) :
    PoolForm (loadImage s ctx b engines).1.mp := by
  grind [loadImage, poolForm_guardAll, useFreeN_mp]

@[simp] theorem poolForm_doProgramLoad {s ctx src n engines host} (h : PoolForm s.mp) :
    PoolForm (doProgramLoad s ctx src n engines host).1.mp := by
  grind [doProgramLoad, poolForm_guardAll, poolForm_readImage, poolForm_loadImage]

theorem ansForm_cmdProgramLoad {src ctx from_ n engines host s} (h : PoolForm s.mp) :
    AnsForm (cmdProgramLoad src ctx from_ n engines host s) :=
  poolForm_takeUp h fun _ hv => poolForm_doProgramLoad hv

theorem poolForm_withProgram {s : State} {i : Nat} {body : Program → Done} (h : PoolForm s.mp)
    (hb : ∀ p, PoolForm (body p).1.mp) :
    PoolForm (withProgram s i body).1.mp := by
  unfold withProgram
  split
  · exact h
  · exact poolForm_guardAll h (hb _)

theorem ansForm_cmdProgramUnload {src hnd s} (h : PoolForm s.mp) : AnsForm (cmdProgramUnload src hnd s) :=
  poolForm_takeUp h fun _ hv => poolForm_withProgram hv fun _ => poolForm_guardAll hv (by simp [hv])

@[simp] theorem poolForm_doProgramStart {s hnd e n scratch cap fq policy} (h : PoolForm s.mp) :
    PoolForm (doProgramStart s hnd e n scratch cap fq policy).1.mp := by
  refine poolForm_withProgram h fun p => poolForm_guardAll h ?_
  dsimp only
  rw [foldl_mp fun _ _ => setThread_mp .., useFreeN_mp]
  exact h

theorem ansForm_cmdProgramStart {src hnd e n scratch cap fq policy s} (h : PoolForm s.mp) :
    AnsForm (cmdProgramStart src hnd e n scratch cap fq policy s) :=
  poolForm_takeUp h fun _ hv => poolForm_doProgramStart hv

theorem poolForm_withInst {s : State} {i : Nat} {body : Inst → Program → Done} (h : PoolForm s.mp)
    (hb : ∀ x p, PoolForm (body x p).1.mp) :
    PoolForm (withInst s i body).1.mp := by
  unfold withInst
  split
  · exact h
  · exact poolForm_withProgram h (hb _)

theorem ansForm_cmdProgramStop {src i s} (h : PoolForm s.mp) : AnsForm (cmdProgramStop src i s) :=
  poolForm_takeUp h fun _ hv => poolForm_withInst hv fun _ _ => by simp [hv]

@[simp] theorem poolForm_doProgramBind {s i kind n} (h : PoolForm s.mp) :
    PoolForm (doProgramBind s i kind n).1.mp := by
  grind [doProgramBind, poolForm_withInst, poolForm_guardAll, done_fst, firstEvent_mp, useFree_mp]

theorem ansForm_cmdProgramBind {src i kind n s} (h : PoolForm s.mp) : AnsForm (cmdProgramBind src i kind n s) :=
  poolForm_takeUp h fun _ hv => poolForm_doProgramBind hv

@[simp] theorem poolForm_doProgramUnbind {s i kind n} (h : PoolForm s.mp) :
    PoolForm (doProgramUnbind s i kind n).1.mp := by
  grind [doProgramUnbind, refuse_fst, poolForm_guardAll, done_fst, dropBindings_mp]

theorem ansForm_cmdProgramUnbind {src i kind n s} (h : PoolForm s.mp) :
    AnsForm (cmdProgramUnbind src i kind n s) :=
  poolForm_takeUp h fun _ hv => poolForm_doProgramUnbind hv

@[simp] theorem poolForm_doThreadRead {s e k} (h : PoolForm s.mp) : PoolForm (doThreadRead s e k).1.mp := by
  simp [doThreadRead, h]

theorem ansForm_cmdThreadRead {src e k s} (h : PoolForm s.mp) : AnsForm (cmdThreadRead src e k s) :=
  poolForm_takeUp h fun _ hv => poolForm_doThreadRead hv

/-! ### Life of a tenant (R304 to R306, R310 to R315) -/

@[simp] theorem poolForm_newTenant {s t cells queues granules channels windows contexts} :
    PoolForm (newTenant s t cells queues granules channels windows contexts).mp ↔ PoolForm s.mp :=
  Iff.rfl

@[simp] theorem poolForm_doTenantCreate {s cells queues granules channels windows contexts} (h : PoolForm s.mp)
    :
    PoolForm (doTenantCreate s cells queues granules channels windows contexts).1.mp := by
  grind [doTenantCreate, poolForm_guardAll, poolForm_newTenant, useFree_mp]

theorem ansForm_cmdTenantCreate {src cells queues granules channels windows contexts s} (h : PoolForm s.mp) :
    AnsForm (cmdTenantCreate src cells queues granules channels windows contexts s) :=
  poolForm_takeUp h fun _ hv => poolForm_doTenantCreate hv

@[simp] theorem poolForm_doTenantBind {s t p vf vectors cls replace} (h : PoolForm s.mp) :
    PoolForm (doTenantBind s t p vf vectors cls replace).1.mp := by
  unfold doTenantBind
  (repeat' split) <;> simp [h]

theorem ansForm_cmdTenantBind {src t p vf vectors cls replace s} (h : PoolForm s.mp) :
    AnsForm (cmdTenantBind src t p vf vectors cls replace s) :=
  poolForm_takeUp h fun _ hv => poolForm_doTenantBind hv

@[simp] theorem poolForm_doTenantUnbind {s t p} (h : PoolForm s.mp) : PoolForm (doTenantUnbind s t p).1.mp := by
  simp [doTenantUnbind, h]

theorem ansForm_cmdTenantUnbind {src t p s} (h : PoolForm s.mp) : AnsForm (cmdTenantUnbind src t p s) :=
  poolForm_takeUp h fun _ hv => poolForm_doTenantUnbind hv

theorem poolForm_withTenant {s : State} {t : Nat} {l : List (Bool × Status)} {body : Done} (h : PoolForm s.mp)
    (hb : PoolForm body.1.mp) :
    PoolForm (withTenant s t l body).1.mp := by
  exact poolForm_guardAll h hb

@[simp] theorem poolForm_doTenantStart {s t} (h : PoolForm s.mp) : PoolForm (doTenantStart s t).1.mp :=
  poolForm_withTenant h (by simp [h])

theorem ansForm_cmdTenantStart {src t s} (h : PoolForm s.mp) : AnsForm (cmdTenantStart src t s) :=
  poolForm_takeUp h fun _ hv => poolForm_doTenantStart hv

@[simp] theorem poolForm_pollTenantFreeze {s t} (h : PoolForm s.mp) : PoolForm (pollTenantFreeze s t).1.mp := by
  unfold pollTenantFreeze
  split <;> simp [h]

@[simp] theorem poolForm_doTenantFreeze {s t} (h : PoolForm s.mp) : PoolForm (doTenantFreeze s t).1.mp :=
  poolForm_withTenant h (by simp [h])

theorem ansForm_cmdTenantFreeze {src t s} (h : PoolForm s.mp) : AnsForm (cmdTenantFreeze src t s) :=
  poolForm_takeUp h fun _ hv => poolForm_doTenantFreeze hv

@[simp] theorem poolForm_doTenantThaw {s t} (h : PoolForm s.mp) : PoolForm (doTenantThaw s t).1.mp :=
  poolForm_withTenant h (by simp [h])

theorem ansForm_cmdTenantThaw {src t s} (h : PoolForm s.mp) : AnsForm (cmdTenantThaw src t s) :=
  poolForm_takeUp h fun _ hv => poolForm_doTenantThaw hv

@[simp] theorem poolForm_pollTenantQuiesce {s t} (h : PoolForm s.mp) : PoolForm (pollTenantQuiesce s t).1.mp := by
  unfold pollTenantQuiesce
  split <;> simp [h]

@[simp] theorem poolForm_doTenantQuiesce {s t} (h : PoolForm s.mp) : PoolForm (doTenantQuiesce s t).1.mp := by
  refine poolForm_guardAll h (poolForm_pollTenantQuiesce (poolForm_quiesceTenant ?_))
  rw [foldl_mp dropPushes_mp, setTenant_mp]
  exact h

theorem ansForm_cmdTenantQuiesce {src t s} (h : PoolForm s.mp) : AnsForm (cmdTenantQuiesce src t s) :=
  poolForm_takeUp h fun _ hv => poolForm_doTenantQuiesce hv

@[simp] theorem poolForm_freeWindows {s t} : PoolForm (freeWindows s t).mp ↔ PoolForm s.mp := by
  have hrefs : ∀ (l : List Nat) (v : State), PoolForm (l.foldl (addRef false) v).mp ↔ PoolForm v.mp :=
    poolForm_foldl_iff (f := addRef false) fun _ _ => poolForm_addRef
  unfold freeWindows
  dsimp only
  rw [poolForm_foldl_iff (fun _ _ => poolForm_revokeGrant)]
  exact (poolForm_foldl_iff (fun _ _ => by simp [hrefs]) _ _).trans (hrefs _ _)

@[simp] theorem poolForm_surrender {t s i} : PoolForm (surrender t s i).mp ↔ PoolForm s.mp := by
  unfold surrender
  split <;> simp

@[simp] theorem poolForm_removeTenant {s t} : PoolForm (removeTenant s t).mp ↔ PoolForm s.mp := by
  have hwindows : ∀ (l : Table RWin) (v : State), PoolForm (l.foldl (fun s e => destroyWindow s e.1) v).mp ↔
      PoolForm v.mp :=
    poolForm_foldl_iff fun _ _ => poolForm_destroyWindow
  have hlist : ∀ (l : List Nat) (v : State), PoolForm (l.foldl (surrender t) v).mp ↔ PoolForm v.mp :=
    poolForm_foldl_iff (f := surrender t) fun _ _ => poolForm_surrender
  have hbinds : ∀ (l : List Bind) (v : State), (l.foldl (fun s b => unbindAt s t b.port) v).mp = v.mp :=
    foldl_mp fun _ _ => unbindAt_mp ..
  have hlogs : ∀ (l : Table DirtyLog) (v : State),
      PoolForm (l.foldl (fun s e => e.2.granules.foldl releaseMgt s) v).mp ↔ PoolForm v.mp :=
    poolForm_foldl_iff fun v e => poolForm_foldl_iff (fun _ _ => poolForm_releaseMgt) e.2.granules v
  unfold removeTenant
  dsimp only
  split <;> simp [hwindows, hlist, hbinds, hlogs]

@[simp] theorem poolForm_pollTenantRemove {s t} (h : PoolForm s.mp) : PoolForm (pollTenantRemove s t).1.mp := by
  unfold pollTenantRemove
  split <;> simp [h]

@[simp] theorem poolForm_doTenantRemove {s t} (h : PoolForm s.mp) : PoolForm (doTenantRemove s t).1.mp := by
  simp [doTenantRemove, h]

theorem ansForm_cmdTenantRemove {src t s} (h : PoolForm s.mp) : AnsForm (cmdTenantRemove src t s) :=
  poolForm_takeUp h fun _ hv => poolForm_doTenantRemove hv

@[simp] theorem poolForm_pollTenantSave {s t p x3 n} (h : PoolForm s.mp) :
    PoolForm (pollTenantSave s t p x3 n).1.mp := by
  simp only [pollTenantSave]
  (repeat' split) <;> simp [h]

@[simp] theorem poolForm_doTenantSave {s t p x3 n} (h : PoolForm s.mp) :
    PoolForm (doTenantSave s t p x3 n).1.mp := by
  grind [doTenantSave, poolForm_guardAll, refuse_fst, poolForm_pollTenantSave, setTenant_mp]

theorem ansForm_cmdTenantSave {src t p x3 n s} (h : PoolForm s.mp) : AnsForm (cmdTenantSave src t p x3 n s) :=
  poolForm_takeUp h fun _ hv => poolForm_doTenantSave hv

/-- What an option holds has the canonical form of the pool. -/
def HoldsForm {α : Type} (state : α → State) (r : Option α) : Prop := ∀ x, r = some x → PoolForm (state x).mp

theorem holdsForm_foldl {α β : Type} {state : α → State} {f : Option α → β → Option α}
    (hf : ∀ r e, HoldsForm state r → HoldsForm state (f r e)) (l : List β) {r : Option α} (h : HoldsForm state r) :
    HoldsForm state (l.foldl f r) := by
  induction l generalizing r with
  | nil => exact h
  | cons e t ih => exact ih (hf r e h)

theorem holdsForm_restoreProgram (t : Nat) (r : Option (State × Remap)) (e : Nat × Program)
    (h : HoldsForm Prod.fst r) :
    HoldsForm Prod.fst (restoreProgram t r e) := by
  rcases r with _ | ⟨s, m⟩ <;> grind [restoreProgram, HoldsForm, useFreeN_mp]

theorem holdsForm_restoreInst (t : Nat) (y : SavedTenant) (r : Option (State × Remap)) (e : Nat × Inst)
    (h : HoldsForm Prod.fst r) :
    HoldsForm Prod.fst (restoreInst t y r e) := by
  have hthreads : ∀ k i (l : List (Nat × Nat)) (v : State), (l.foldl (restoreThread t k i y) v).mp = v.mp :=
    fun k i => foldl_mp (restoreThread_mp t k i y)
  rcases r with _ | ⟨s, m⟩ <;> grind [restoreInst, HoldsForm, useFreeN_mp]

theorem holdsForm_restoreBinding (t : Nat) (y : SavedTenant) (r : Option (State × Remap)) (e : Nat × Binding)
    (h : HoldsForm Prod.fst r) : HoldsForm Prod.fst (restoreBinding t y r e) := by
  rcases r with _ | ⟨s, m⟩ <;> grind [restoreBinding, HoldsForm, useFree_mp]

theorem restoreItems_mp (t : Nat) (l : List Item) (r : State × List Item) :
    (l.foldl (restoreItem t) r).1.mp = r.1.mp := by
  induction l generalizing r with
  | nil => rfl
  | cons i l ih => rw [List.foldl_cons, ih, restoreItem, takeCells_mp]

theorem holdsForm_restoreQueue (t : Nat) (r : Option State) (e : Nat × Queue) (h : HoldsForm id r) :
    HoldsForm id (restoreQueue t r e) := by
  cases r <;> grind [restoreQueue, HoldsForm, noteLow_mp, setQueue_mp, restoreItems_mp]

theorem holdsForm_restoreChan (t : Nat) (y : SavedTenant) (slots : List Nat) (r : Option State) (e : Nat × Chan)
    (h : HoldsForm id r) : HoldsForm id (restoreChan t y slots r e) := by
  cases r <;> grind [restoreChan, HoldsForm, setChan_mp]

theorem holdsForm_restoreRwin (t : Nat) (r : Option State) (e : Nat × RWin) (h : HoldsForm id r) :
    HoldsForm id (restoreRwin t r e) := by
  have hrefs : ∀ (l : List Nat) (v : State), PoolForm (l.foldl (addRef true) v).mp ↔ PoolForm v.mp :=
    poolForm_foldl_iff (f := addRef true) fun _ _ => poolForm_addRef
  cases r <;> grind [restoreRwin, HoldsForm, setRwin_mp]

theorem holdsForm_restoreWindow (t : Nat) (slots : List Nat) (r : Option State) (e : Nat × Window)
    (h : HoldsForm id r) :
    HoldsForm id (restoreWindow t slots r e) := by
  intro u hu
  cases r with
  | none => cases hu
  | some s =>
    simp only [restoreWindow] at hu
    split at hu
    · cases hu
    · split at hu
      · cases hu
      · obtain ⟨v, hv, rfl⟩ := Option.map_eq_some_iff.mp hu
        simpa using poolForm_addRefs (h s rfl) hv

theorem poolForm_installTenant {s t x slots u} (h : PoolForm s.mp) (e : installTenant s t x slots = some u) :
    PoolForm u.mp := by
  have hbindings : ∀ r : State × Remap, r.1.mp = s.mp → HoldsForm id ((x.bindings.foldl (restoreBinding t x)
      (x.insts.foldl (restoreInst t x) (x.programs.foldl (restoreProgram t) (some r)))).map fun e => e.1) := by
    rintro r hr u hu
    obtain ⟨v, hv, rfl⟩ := Option.map_eq_some_iff.mp hu
    refine holdsForm_foldl (holdsForm_restoreBinding t x) _ (holdsForm_foldl (holdsForm_restoreInst t x) _
      (holdsForm_foldl (holdsForm_restoreProgram t) _ ?_)) v hv
    rintro _ ⟨⟩
    rw [hr]
    exact h
  have hrest : ∀ r, HoldsForm id r → HoldsForm id
      (x.windows.foldl (restoreWindow t slots) (x.rwins.foldl (restoreRwin t)
      (x.chans.foldl (restoreChan t x slots) (x.queueTab.foldl (restoreQueue t) r)))) := fun r hr =>
    holdsForm_foldl (holdsForm_restoreWindow t slots) _ (holdsForm_foldl (holdsForm_restoreRwin t) _
      (holdsForm_foldl (holdsForm_restoreChan t x slots) _ (holdsForm_foldl (holdsForm_restoreQueue t) _ hr)))
  unfold installTenant at e
  obtain ⟨v, hv, rfl⟩ := Option.map_eq_some_iff.mp e
  rw [foldl_mp fun _ _ => zeroRate_mp .., setTenant_mp]
  refine hrest _ (hbindings _ ?_) v hv
  simp

@[simp] theorem poolForm_doTenantRestore {s t p n slots host} (h : PoolForm s.mp) :
    PoolForm (doTenantRestore s t p n slots host).1.mp := by
  refine poolForm_guardAll h ?_
  split
  · exact h
  · split
    · exact h
    · split
      · exact h
      · refine poolForm_guardAll h ?_
        split
        · exact h
        · next e => exact poolForm_installTenant h e

theorem ansForm_cmdTenantRestore {src t p x3 n slots host s} (h : PoolForm s.mp) :
    AnsForm (cmdTenantRestore src t p x3 n slots host s) :=
  poolForm_takeUp h fun _ hv => poolForm_doTenantRestore hv

/-! ### Pairs and failover (chapter 12) -/

@[simp] theorem poolForm_resyncPump {s} (h : PoolForm s.mp) : PoolForm (resyncPump s).mp := by
  simp only [resyncPump]
  (repeat' split) <;> simp [h]

@[simp] theorem poolForm_startJoin {s} (h : PoolForm s.mp) : PoolForm (startJoin s).mp := by simp [startJoin, h]

theorem ansForm_execResyncCopyDone {s} (h : PoolForm s.mp) : AnsForm (execResyncCopyDone s) := by
  simp only [execResyncCopyDone]
  (repeat' split) <;> simp [h]

theorem ansForm_execResync {start s} (h : PoolForm s.mp) : AnsForm (execResync start s) := by
  unfold execResync
  (repeat' split) <;> simp [h]

theorem ansForm_takeRecord {s : State} {r : SeamRecord} {apply : State → Option State} (h : PoolForm s.mp)
    (ha : ∀ u, apply s = some u → PoolForm u.mp) : AnsForm (takeRecord s r apply) := by
  grind [takeRecord, ansForm_next, badRecord_mp, applied_mp]

@[simp] theorem poolForm_setMarks {aux s e} (h : PoolForm s.mp) : PoolForm (setMarks aux s e).mp := by
  unfold setMarks
  split <;> simp [h]

theorem poolForm_applyLineWrite {r s u} (h : PoolForm s.mp) (e : applyLineWrite r s = some u) : PoolForm u.mp := by
  have hmarks : ∀ (l : List (Nat × Nat)) (v : State), PoolForm v.mp → PoolForm (l.foldl (setMarks r.aux) v).mp
      :=
    fun l v hv => poolForm_foldl hv (fun _ _ => poolForm_setMarks) l
  grind [applyLineWrite, poolForm_poolStore]

theorem ansForm_execLineWrite {r s} (h : PoolForm s.mp) : AnsForm (execLineWrite r s) := by
  grind [execLineWrite, ansForm_next, ansForm_takeRecord, poolForm_applyLineWrite]

theorem ansForm_execGranuleZero {r s} (h : PoolForm s.mp) : AnsForm (execGranuleZero r s) := by
  refine ansForm_takeRecord h fun u e => ?_
  split at e
  · cases e
  · obtain ⟨g, -, rfl⟩ := Option.map_eq_some_iff.mp e
    simpa using poolForm_zeroGranule h

@[simp] theorem poolForm_unmapGranule {s g own} : PoolForm (unmapGranule s g own).mp ↔ PoolForm s.mp := Iff.rfl

@[simp] theorem poolForm_padList {s t i} : PoolForm (padList s t i).mp ↔ PoolForm s.mp := Iff.rfl

@[simp] theorem poolForm_mapGranule_shadow {g t i s} :
    PoolForm (mapGranule.shadow g t i s).mp ↔ PoolForm s.mp := by
  unfold mapGranule.shadow
  split <;> simp

@[simp] theorem poolForm_mapGranule {g t i s} (h : PoolForm s.mp) : PoolForm (mapGranule g t i s).mp := by
  have hunmap : ∀ (l : Table Nat) (v : State), PoolForm (l.foldl (fun s e => unmapGranule s e.1 e.2) v).mp ↔
      PoolForm v.mp :=
    poolForm_foldl_iff fun _ _ => poolForm_unmapGranule
  grind [mapGranule, seen_mp, poolForm_zeroGranule, poolForm_mapGranule_shadow, poolForm_unmapGranule]

theorem ansForm_execGranuleMap {r s} (h : PoolForm s.mp) : AnsForm (execGranuleMap r s) := by
  refine ansForm_takeRecord h fun u e => ?_
  dsimp only at e
  split at e
  · cases e
  · split at e
    · cases e
      exact poolForm_mapGranule h
    · obtain ⟨own, -, rfl⟩ := Option.map_eq_some_iff.mp e
      simpa using h

theorem ansForm_execQueueLink {r s} (h : PoolForm s.mp) : AnsForm (execQueueLink r s) := by
  grind [execQueueLink, ansForm_next, ansForm_takeRecord, setSm_mp, linkItem_mp]

theorem ansForm_execQueueUnlink {r s} (h : PoolForm s.mp) : AnsForm (execQueueUnlink r s) := by
  refine ansForm_takeRecord h fun u e => ?_
  split at e
  · cases e
  · split at e
    · cases e
    · obtain ⟨i, -, rfl⟩ := Option.map_eq_some_iff.mp e
      simpa using h

theorem ansForm_execQueueReset {r s} (h : PoolForm s.mp) : AnsForm (execQueueReset r s) := by
  grind [execQueueReset, ansForm_next, ansForm_takeRecord, flushQueue_mp, setQueue_mp]

@[simp] theorem poolForm_applyTenant {s t b} : PoolForm (applyTenant s t b).mp ↔ PoolForm s.mp := by
  unfold applyTenant
  split <;> simp

theorem ansForm_execObject {r s} (h : PoolForm s.mp) : AnsForm (execObject r s) := by
  grind [execObject, ansForm_next, ansForm_takeRecord, setSm_mp, poolForm_applyTenant, seen_mp, applyQueue_mp]

theorem ansForm_execScratch {r s} (h : PoolForm s.mp) : AnsForm (execScratch r s) := by
  grind [execScratch, ansForm_next, ansForm_takeRecord, setSm_mp]

theorem ansForm_execThread {r s} (h : PoolForm s.mp) : AnsForm (execThread r s) := by
  grind [execThread, ansForm_next, ansForm_takeRecord, setSm_mp, count_mp]

@[simp] theorem poolForm_dropUnseen {s} : PoolForm (dropUnseen s).mp ↔ PoolForm s.mp := by
  unfold dropUnseen
  dsimp only
  rw [setSm_mp, poolForm_foldl_iff (fun _ _ => poolForm_removeTenant), foldl_mp dropQueue_mp,
    poolForm_foldl_iff (fun _ _ => poolForm_unmapGranule)]

theorem ansForm_execMark {r s} (h : PoolForm s.mp) : AnsForm (execMark r s) := by
  grind [execMark, ansForm_next, ansForm_takeRecord, setSm_mp, checkInSync_mp, poolForm_dropUnseen]

theorem ansForm_execSeamLinkDown {s} (h : PoolForm s.mp) : AnsForm (execSeamLinkDown s) := by
  unfold execSeamLinkDown
  split <;> simp [h]

theorem ansForm_execSeamRetry {s} (h : PoolForm s.mp) : AnsForm (execSeamRetry s) := by
  unfold execSeamRetry
  split <;> simp [h]

theorem ansForm_execSeamStepPass {s} (h : PoolForm s.mp) : AnsForm (execSeamStepPass s) := by
  simp only [execSeamStepPass]
  (repeat' split) <;> simp [h]

theorem ansForm_execSeamStepFail {s} (h : PoolForm s.mp) : AnsForm (execSeamStepFail s) := by
  unfold execSeamStepFail
  extract_lets k v
  have hv : v.mp = s.mp := by rw [setSm_mp, passTo_mp]
  split
  · exact h
  · split
    · rw [ansForm_next, setSm_mp, quietLanes_mp, hv]
      exact h
    · rw [ansForm_next, raiseSrc_mp, hv]
      exact h

theorem ansForm_execHello {hnd s} (h : PoolForm s.mp) : AnsForm (execHello hnd s) := by simp [execHello, h]

@[simp] theorem poolForm_ackTo {s j} (h : PoolForm s.mp) : PoolForm (ackTo s j).mp := by
  grind [ackTo, setSm_mp, checkInSync_mp, poolForm_resyncPump, ackHeld_mp]

theorem ansForm_execSeamFrame {f s} (h : PoolForm s.mp) : AnsForm (execSeamFrame f s) := by
  unfold execSeamFrame
  split
  · exact h
  · split
    · simpa using h
    · split
      · simpa using h
      · have hack := poolForm_ackTo (s := setSm s (fun m => { m with rxFsn := f.fsn, rxFsnKnown := true }))
            (j := f.ackJsn) (by simpa using h)
        dsimp only
        split <;> simpa using hack

theorem ansForm_execResend {j s} (h : PoolForm s.mp) : AnsForm (execResend j s) := by
  unfold execResend
  split <;> simp [h]

theorem ansForm_execMapFail {_granule s} (h : PoolForm s.mp) : AnsForm (execMapFail _granule s) := by
  unfold execMapFail
  split <;> simp [h]

theorem ansForm_execHeartbeatSend {s} (h : PoolForm s.mp) : AnsForm (execHeartbeatSend s) := by
  simp only [execHeartbeatSend]
  (repeat' split) <;> simp [h]

theorem ansForm_execHeartbeat {_n _state s} (h : PoolForm s.mp) : AnsForm (execHeartbeat _n _state s) := by
  unfold execHeartbeat
  split <;> simp [h]

theorem ansForm_execHeartbeatMiss {s} (h : PoolForm s.mp) : AnsForm (execHeartbeatMiss s) := by
  unfold execHeartbeatMiss
  split <;> simp [h]

theorem ansForm_execHeartbeatLost {s} (h : PoolForm s.mp) : AnsForm (execHeartbeatLost s) := by
  unfold execHeartbeatLost
  split <;> simp [h]

theorem ansForm_execFailover {s} (h : PoolForm s.mp) : AnsForm (execFailover s) := by
  unfold execFailover
  split <;> simp [h]

theorem ansForm_execFenceWaitEnd {s} (h : PoolForm s.mp) : AnsForm (execFenceWaitEnd s) := by
  unfold execFenceWaitEnd
  split <;> simp [h]

theorem ansForm_execFenceIn {on s} (h : PoolForm s.mp) : AnsForm (execFenceIn on s) := by
  simp only [execFenceIn]
  (repeat' split) <;> simp [h]

theorem ansForm_execSettleEnd {s} (h : PoolForm s.mp) : AnsForm (execSettleEnd s) := by
  unfold execSettleEnd
  split <;> simp [h]

@[simp] theorem poolForm_promoteRwin {t s o} : PoolForm (promoteRwin t s o).mp ↔ PoolForm s.mp := by
  have hrefs : ∀ (l : List Nat) (v : State), PoolForm (l.foldl (addRef true) v).mp ↔ PoolForm v.mp :=
    poolForm_foldl_iff (f := addRef true) fun _ _ => poolForm_addRef
  grind [promoteRwin, setRwin_mp, nextEpoch_mp, oweAbandoned_mp]

@[simp] theorem poolForm_promoteTenant {s t} : PoolForm (promoteTenant s t).mp ↔ PoolForm s.mp := by
  unfold promoteTenant
  dsimp only
  rw
      [promoteEvents_mp, freezeIfCause_mp, setTenant_mp, foldl_mp (promoteConn_mp _), poolForm_foldl_iff (fun _ _ => poolForm_promoteRwin),
    foldl_mp (promoteChan_mp _ _), foldl_mp (promoteInst_mp _)]

theorem ansForm_execPromoted {s} (h : PoolForm s.mp) : AnsForm (execPromoted s) := by
  unfold execPromoted
  split
  · dsimp only
    rw [ansForm_next, foldl_mp (notifyTenant_mp _), setPair_mp, setSm_mp, count_mp,
      poolForm_foldl_iff (fun _ _ => poolForm_promoteTenant)]
    simpa using h
  · exact h

theorem ansForm_cmdPairConfig {src enable role s} (h : PoolForm s.mp) :
    AnsForm (cmdPairConfig src enable role s) :=
  poolForm_takeUp h fun _ hv => poolForm_guardAll hv (by simp [hv])

theorem ansForm_cmdPairResync {src s} (h : PoolForm s.mp) : AnsForm (cmdPairResync src s) :=
  poolForm_takeUp h fun _ hv => poolForm_guardAll hv (poolForm_startJoin (by simpa using hv))

@[simp] theorem poolForm_pollPair {s src} (h : PoolForm s.mp) : PoolForm (pollPair s src).1.mp := by
  unfold pollPair
  (repeat' split) <;> simp [h]

@[simp] theorem poolForm_awaitReply {s src code tid} (h : PoolForm s.mp) :
    PoolForm (awaitReply s src code tid).1.mp :=
  h

@[simp] theorem poolForm_enrol {s t} (h : PoolForm s.mp) : PoolForm (enrol s t).mp := by
  grind [enrol, setTenant_mp, poolForm_resyncPump, setSm_mp]

@[simp] theorem poolForm_doPairTenant {s src t} (h : PoolForm s.mp) : PoolForm (doPairTenant s src t).1.mp := by
  grind [doPairTenant, poolForm_guardAll, refuse_fst, poolForm_enrol, done_fst, poolForm_awaitReply,
      objectRecord_mp]

theorem ansForm_cmdPairTenant {src t s} (h : PoolForm s.mp) : AnsForm (cmdPairTenant src t s) :=
  poolForm_takeUp h fun _ hv => poolForm_doPairTenant hv

@[simp] theorem poolForm_doPairUntenant {s src t} (h : PoolForm s.mp) :
    PoolForm (doPairUntenant s src t).1.mp := by
  grind [doPairUntenant, poolForm_guardAll, objectRecord_mp, setTenant_mp, poolForm_awaitReply, done_fst]

theorem ansForm_cmdPairUntenant {src t s} (h : PoolForm s.mp) : AnsForm (cmdPairUntenant src t s) :=
  poolForm_takeUp h fun _ hv => poolForm_doPairUntenant hv

theorem ansForm_execReply {code status tid s} (h : PoolForm s.mp) : AnsForm (execReply code status tid s) := by
  unfold execReply
  split
  · exact h
  · split
    · exact h
    · dsimp only
      rw [ansForm_next, mp_ite, poolForm_ite]
      split
      · exact poolForm_enrol (by simpa using h)
      · simpa using h

theorem ansForm_execPartnerReplyTimeout {src s} (h : PoolForm s.mp) : AnsForm (execPartnerReplyTimeout src s) := by
  unfold execPartnerReplyTimeout
  split <;> simp [h]

theorem ansForm_cmdPairShadow {src i pi s} (h : PoolForm s.mp) : AnsForm (cmdPairShadow src i pi s) := by
  grind [cmdPairShadow, ansForm_next, poolForm_takeUp, refuse_fst, poolForm_guardAll, done_fst]

theorem ansForm_cmdPairPromote {src s} (h : PoolForm s.mp) : AnsForm (cmdPairPromote src s) := by
  grind [cmdPairPromote, ansForm_next, poolForm_takeUp, poolForm_guardAll, done_fst, loseHeartbeat_mp]

theorem ansForm_cmdPairUnfence {src s} (h : PoolForm s.mp) : AnsForm (cmdPairUnfence src s) := by
  grind [cmdPairUnfence, ansForm_next, poolForm_takeUp, poolForm_guardAll, done_fst, setSm_mp]

/-! ### Thimble (chapter 13) -/

@[simp] theorem poolForm_blockAction {s n index extra} (h : PoolForm s.mp) :
    PoolForm (blockAction s n index extra).mp := by
  have hpoison := fun ppa => poolForm_linePoisoned (ppa := ppa) h
  have hspoil := fun w c l => poolForm_spoilLine (w := w) (c := c) (l := l) h
  have hlist : PoolForm { s.mp with badList := s.mp.badList ++ [index % 131072] } := h
  have hgrant : PoolForm { s.mp with badGrant := s.mp.badGrant ++ [index % 4096] } := h
  rcases hw : window? s index with _ | w
  · cases hq : queue? s index <;> simp [blockAction, hw, hq, hpoison, hspoil, hlist, hgrant, h]
  · cases hq : queue? s index <;> simp [blockAction, hw, hq, hpoison, hspoil, hlist, hgrant, h]

theorem ansForm_execSourceRaise {n tag object index extra s} (h : PoolForm s.mp) :
    AnsForm (execSourceRaise n tag object index extra s) := by
  unfold execSourceRaise
  (repeat' split) <;> simp [h]

@[simp] theorem poolForm_logRecord {s r} (h : PoolForm s.mp) : PoolForm (logRecord s r).1.mp := h

theorem ansForm_execRecordForm {s} (h : PoolForm s.mp) : AnsForm (execRecordForm s) := by
  simp only [execRecordForm]
  (repeat' split) <;> simp [h]

theorem ansForm_execHistoryWrite {s} (h : PoolForm s.mp) : AnsForm (execHistoryWrite s) := by
  unfold execHistoryWrite
  split
  · exact h
  · simp only [ansForm_next, keepSet_mp]
    rw [foldl_mp fun _ _ => keepSet_mp ..]
    exact h

theorem ansForm_execThHistAck {w s} (h : PoolForm s.mp) : AnsForm (execThHistAck w s) := by
  simp [execThHistAck, h]

theorem ansForm_execThSrcCfg {n w s} (h : PoolForm s.mp) : AnsForm (execThSrcCfg n w s) := by
  simp [execThSrcCfg, h]

theorem ansForm_execThTack {s} (h : PoolForm s.mp) : AnsForm (execThTack s) := h

theorem ansForm_execThForce {w s} (h : PoolForm s.mp) : AnsForm (execThForce w s) := by simp [execThForce, h]

theorem ansForm_cmdFaultSeverity {src l s} (h : PoolForm s.mp) : AnsForm (cmdFaultSeverity src l s) := by
  have hbaste : ∀ v : State, (l.foldl (fun s e => baste s e.1 e.2) v).mp = v.mp := foldl_mp
      (fun _ _ => baste_mp ..) l
  exact poolForm_takeUp h fun _ hv => poolForm_guardAll hv (by simp [hbaste, hv])

theorem ansForm_cmdFaultAck {src entry source s} (h : PoolForm s.mp) :
    AnsForm (cmdFaultAck src entry source s) := by
  refine poolForm_takeUp h fun v hv => poolForm_guardAll hv ?_
  have hack : ∀ l : List Nat, (l.foldl ackEntry v).mp = v.mp := fun l => foldl_mp ackEntry_mp l v
  cases entry with
  | none => cases source <;> simp [hack, hv]
  | some i => cases source <;> simp [hv]

/-! ### Power, clocks, Stop and wake (chapter 14) -/

theorem ansForm_execDomainSwitchDone {d s} (h : PoolForm s.mp) : AnsForm (execDomainSwitchDone d s) := by
  have hreset : ∀ (l : List Nat) (v : State), (l.foldl resetLane v).mp = v.mp := foldl_mp resetLane_mp
  grind [execDomainSwitchDone, ansForm_next, domPump_mp, setDom_mp]

theorem ansForm_execPwDomainTimeout {d s} (h : PoolForm s.mp) : AnsForm (execPwDomainTimeout d s) := by
  unfold execPwDomainTimeout
  extract_lets x
  split
  · rw [ansForm_next, raiseSrc_mp, setDom_mp, passTo_mp]
    exact h
  · exact h

@[simp] theorem poolForm_pollDomain {s d on} (h : PoolForm s.mp) : PoolForm (pollDomain s d on).1.mp := by
  unfold pollDomain
  (repeat' split) <;> simp [h]

@[simp] theorem poolForm_doDomainPower {s d on} (h : PoolForm s.mp) : PoolForm (doDomainPower s d on).1.mp := by
  have hoff : ∀ (l : List Nat) (v : State), (l.foldl switchOff v).mp = v.mp := foldl_mp switchOff_mp
  refine poolForm_guardAll h (poolForm_pollDomain ?_)
  split <;> simp [hoff, h]

theorem ansForm_cmdDomainPower {src d on s} (h : PoolForm s.mp) : AnsForm (cmdDomainPower src d on s) :=
  poolForm_takeUp h fun _ hv => poolForm_doDomainPower hv

@[simp] theorem poolForm_powerUp {s} (h : PoolForm s.mp) : PoolForm (powerUp s).mp := by simp [powerUp, h]

@[simp] theorem poolForm_afterReset {s cause} : PoolForm (afterReset s cause).mp := by
  grind [afterReset, poolForm_reset]

@[simp] theorem poolForm_deviceReset {s cause} : PoolForm (deviceReset s cause).mp := by
  simp only [deviceReset]
  (repeat' split) <;> simp

theorem ansForm_execMainPg {s} (h : PoolForm s.mp) : AnsForm (execMainPg s) := by
  grind [execMainPg, ansForm_next, poolForm_deviceReset, setPw_mp, poolForm_powerUp]

theorem ansForm_execDevResetN {s} (h : PoolForm s.mp) : AnsForm (execDevResetN s) := by
  unfold execDevResetN
  split <;> simp [h]

theorem ansForm_cmdDeviceReset {src s} (h : PoolForm s.mp) : AnsForm (cmdDeviceReset src s) := by
  grind [cmdDeviceReset, ansForm_next, poolForm_deviceReset, poolForm_takeUp, refuse_fst]

theorem ansForm_execBoot {h0 h1 x2 b s} (h : PoolForm s.mp) : AnsForm (execBoot h0 h1 x2 b s) := by
  simp only [execBoot]
  (repeat' split) <;> simp [h]

theorem ansForm_execMgWatchdog {s} (h : PoolForm s.mp) : AnsForm (execMgWatchdog s) := by
  unfold execMgWatchdog
  split <;> simp [h]

theorem ansForm_execPllLock {k s} (h : PoolForm s.mp) : AnsForm (execPllLock k s) := by
  unfold execPllLock
  (repeat' split) <;> simp [h]

theorem ansForm_execCkClkSel {w s} (h : PoolForm s.mp) : AnsForm (execCkClkSel w s) := by
  unfold execCkClkSel
  split <;> simp [h]

theorem ansForm_execCkPllUnlock {k s} (h : PoolForm s.mp) : AnsForm (execCkPllUnlock k s) := by
  simp only [execCkPllUnlock]
  (repeat' split) <;> simp [h]

theorem ansForm_execCkFreq {k s} (h : PoolForm s.mp) : AnsForm (execCkFreq k s) := by
  unfold execCkFreq
  split <;> simp [h]

theorem ansForm_execPwSupplyUv {r s} (h : PoolForm s.mp) : AnsForm (execPwSupplyUv r s) := by
  unfold execPwSupplyUv
  split <;> simp [h]

theorem ansForm_execPwOvertemp {s} (h : PoolForm s.mp) : AnsForm (execPwOvertemp s) := by
  unfold execPwOvertemp
  split <;> simp [h]

theorem ansForm_execThermtripN {s} (h : PoolForm s.mp) : AnsForm (execThermtripN s) := h

theorem ansForm_execCrystalStop {s} (h : PoolForm s.mp) : AnsForm (execCrystalStop s) := h

theorem ansForm_execHoldover {s} (h : PoolForm s.mp) : AnsForm (execHoldover s) := by
  unfold execHoldover
  split <;> simp [h]

theorem ansForm_execHbmTrained {k repaired s} (h : PoolForm s.mp) : AnsForm (execHbmTrained k repaired s) := by
  unfold execHbmTrained
  split <;> simp [h]

theorem ansForm_execMcTrainFail {k s} (h : PoolForm s.mp) : AnsForm (execMcTrainFail k s) := by
  unfold execMcTrainFail
  split <;> simp [h]

theorem ansForm_execMcHot {k above t s} (h : PoolForm s.mp) : AnsForm (execMcHot k above t s) := by
  unfold execMcHot
  split <;> simp [h]

@[simp] theorem poolForm_assignRom {x0 x1} : PoolForm (assignRom x0 x1).mp ↔ PoolForm x1.mp := by
  induction x0 generalizing x1 with
  | zero => rfl
  | succ n ih =>
    unfold assignRom
    split
    · rfl
    · exact (ih ..).trans poolForm_assignGranule

@[simp] theorem poolForm_copyRom {s p} (h : PoolForm s.mp) : PoolForm (copyRom s p).mp := by simp [copyRom, h]

theorem ansForm_execZeroFillComplete {s} (h : PoolForm s.mp) : AnsForm (execZeroFillComplete s) := by
  have hcopy : ∀ (l : List Nat) (v : State), PoolForm v.mp → PoolForm (l.foldl copyRom v).mp :=
    fun l v hv => poolForm_foldl (f := copyRom) hv (fun _ _ => poolForm_copyRom) l
  unfold execZeroFillComplete
  split
  · exact h
  · rw [ansForm_next, setPw_mp]
    refine hcopy _ _ ?_
    rw [poolForm_assignRom]
    exact ⟨rfl, rfl, rfl⟩

@[simp] theorem poolForm_doStopEnter {s src mask seam} (h : PoolForm s.mp) :
    PoolForm (doStopEnter s src mask seam).1.mp := by
  unfold doStopEnter
  (repeat' split) <;> simp [h]

theorem ansForm_cmdStopEnter {src mask seam s} (h : PoolForm s.mp) : AnsForm (cmdStopEnter src mask seam s) :=
  poolForm_takeUp h fun _ hv => poolForm_doStopEnter hv

theorem ansForm_execAbortPoint {n s} (h : PoolForm s.mp) : AnsForm (execAbortPoint n s) := by
  unfold execAbortPoint
  split <;> simp [h]

theorem ansForm_execPointOfNoReturn {s} (h : PoolForm s.mp) : AnsForm (execPointOfNoReturn s) := by
  unfold execPointOfNoReturn
  split <;> simp [h]

theorem ansForm_execWakeSense {on s} (h : PoolForm s.mp) : AnsForm (execWakeSense on s) := by
  simp [execWakeSense, h]

theorem ansForm_execWakeWaitTimeout {s} (h : PoolForm s.mp) : AnsForm (execWakeWaitTimeout s) := by
  unfold execWakeWaitTimeout
  split <;> simp [h]

theorem ansForm_execBrownout {lost s} : AnsForm (execBrownout lost s) := by
  grind [execBrownout, ansForm_next, setPw_mp, poolForm_afterReset, poolForm_powerUp, startWake_mp]

theorem ansForm_execVaon {above s} (h : PoolForm s.mp) : AnsForm (execVaon above s) := by
  grind [execVaon, ansForm_next, useFree_mp, poolForm_reset, setPw_mp]

theorem ansForm_cmdWakeSet {src threshold hyst polarity debounce enable wait s} (h : PoolForm s.mp) :
    AnsForm (cmdWakeSet src threshold hyst polarity debounce enable wait s) := by
  grind [cmdWakeSet, ansForm_next, poolForm_takeUp, poolForm_guardAll, done_fst, keepWrite_mp]

theorem ansForm_cmdStopStatsClear {src s} (h : PoolForm s.mp) : AnsForm (cmdStopStatsClear src s) := by
  have hfold : ∀ (l : List Nat) (v : State), (l.foldl (fun s i => keepWrite s i 0) v).mp = v.mp :=
    foldl_mp fun _ _ => keepWrite_mp ..
  refine poolForm_takeUp h fun v hv => poolForm_guardAll hv ?_
  rw [done_fst, hfold]
  exact hv

/-! ### Serial lanes (chapter 15) -/

theorem ansForm_cmdLaneEqWrite {src first l s} (h : PoolForm s.mp) : AnsForm (cmdLaneEqWrite src first l s) := by
  grind [cmdLaneEqWrite, ansForm_next, poolForm_takeUp, poolForm_guardAll, writeEq_mp, done_fst, keepWrite_mp]

theorem ansForm_execLnLaneCtrl {l v s} (h : PoolForm s.mp) : AnsForm (execLnLaneCtrl l v s) := by
  have hrate : ∀ (v : State) (q was w : Nat), (withRate v q fun s => retuneQuad q was (laneFields s l w)).mp =
      v.mp :=
    fun v q was w => withRate_mp v q fun u => by rw [retuneQuad_mp, laneFields_mp]
  have hfold : ∀ (ls : List Nat) (v : State), (ls.foldl laneDefaults v).mp = v.mp := foldl_mp laneDefaults_mp
  unfold execLnLaneCtrl
  (repeat' split) <;> simp [hrate, hfold, h]

theorem ansForm_execLnSlip {l v s} (h : PoolForm s.mp) : AnsForm (execLnSlip l v s) := by simp [execLnSlip, h]

theorem ansForm_execClear {l s} (h : PoolForm s.mp) : AnsForm (execClear l s) := by simp [execClear, h]

theorem ansForm_execInject {l s} (h : PoolForm s.mp) : AnsForm (execInject l s) := by simp [execInject, h]

theorem ansForm_execPrbsLock {l s} (h : PoolForm s.mp) : AnsForm (execPrbsLock l s) := by simp [execPrbsLock, h]

theorem ansForm_execPrbsLockLoss {l s} (h : PoolForm s.mp) : AnsForm (execPrbsLockLoss l s) := by
  simp [execPrbsLockLoss, h]

theorem ansForm_execLnLockLost {l s} (h : PoolForm s.mp) : AnsForm (execLnLockLost l s) := by
  simp [execLnLockLost, h]

/-! ### Management plane (chapter 16) -/

theorem ansForm_execMgMbDoorbell {p src s} (h : PoolForm s.mp) : AnsForm (execMgMbDoorbell p src s) := by
  simp [execMgMbDoorbell, h]

theorem ansForm_execMgMbRsp {p src s} (h : PoolForm s.mp) : AnsForm (execMgMbRsp p src s) := by
  simp [execMgMbRsp, h]

theorem ansForm_cmdDeviceInfo {src s} (h : PoolForm s.mp) : AnsForm (cmdDeviceInfo src s) := by
  grind [cmdDeviceInfo, ansForm_next, poolForm_takeUp]

@[simp] theorem poolForm_doFlashWrite {s src from_ n host} (h : PoolForm s.mp) :
    PoolForm (doFlashWrite s src from_ n host).1.mp := by
  grind [doFlashWrite, refuse_fst, poolForm_readImage]

theorem ansForm_cmdFlashWrite {src from_ n host s} (h : PoolForm s.mp) :
    AnsForm (cmdFlashWrite src from_ n host s) :=
  poolForm_takeUp h fun _ hv => poolForm_doFlashWrite hv

theorem ansForm_execFlashWriteComplete {ok s} (h : PoolForm s.mp) : AnsForm (execFlashWriteComplete ok s) := by
  unfold execFlashWriteComplete
  split <;> simp [h]

theorem ansForm_cmdKeepWrite {src field v off b s} (h : PoolForm s.mp) :
    AnsForm (cmdKeepWrite src field v off b s) := by
  grind [cmdKeepWrite, ansForm_next, poolForm_takeUp, poolForm_guardAll, done_fst, keepWrite_mp, writeUser_mp]

theorem ansForm_cmdTimeSet {src mode p d step s} (h : PoolForm s.mp) :
    AnsForm (cmdTimeSet src mode p d step s) := by
  grind [cmdTimeSet, ansForm_next, poolForm_takeUp, poolForm_guardAll, timeMode_mp, done_fst, stepTime_mp]

@[simp] theorem poolForm_doQueuePush {s q prio b} (h : PoolForm s.mp) :
    PoolForm (doQueuePush s q prio b).1.mp := by
  grind [doQueuePush, poolForm_guardAll, refuseItem_mp, push_mp, done_fst]

theorem ansForm_cmdQueuePush {src q prio b s} (h : PoolForm s.mp) : AnsForm (cmdQueuePush src q prio b s) :=
  poolForm_takeUp h fun _ hv => poolForm_doQueuePush hv

@[simp] theorem poolForm_doQueuePop {s q} (h : PoolForm s.mp) : PoolForm (doQueuePop s q).1.mp := by
  unfold doQueuePop
  (repeat' split) <;> simp [h]

theorem ansForm_cmdQueuePop {src q s} (h : PoolForm s.mp) : AnsForm (cmdQueuePop src q s) :=
  poolForm_takeUp h fun _ hv => poolForm_doQueuePop hv

theorem ansForm_execRequestBufferWrite {off b s} (h : PoolForm s.mp) :
    AnsForm (execRequestBufferWrite off b s) := by
  simp [execRequestBufferWrite, h]

theorem ansForm_execResponseBufferRead {off n s} (h : PoolForm s.mp) :
    AnsForm (execResponseBufferRead off n s) := by
  simp [execResponseBufferRead, h]

theorem ansForm_execBmcDoorbell {s} (h : PoolForm s.mp) : AnsForm (execBmcDoorbell s) := by
  simp [execBmcDoorbell, h]

theorem ansForm_execStatusRead {s} (h : PoolForm s.mp) : AnsForm (execStatusRead s) := by
  simp [execStatusRead, h]

theorem ansForm_execEntdaa {x0 s} (h : PoolForm s.mp) : AnsForm (execEntdaa x0 s) := by simp [execEntdaa, h]

theorem ansForm_execSetdasa {x0 s} (h : PoolForm s.mp) : AnsForm (execSetdasa x0 s) := by simp [execSetdasa, h]

theorem ansForm_execRstdaa {s} (h : PoolForm s.mp) : AnsForm (execRstdaa s) := by simp [execRstdaa, h]

theorem ansForm_ccc {s body : State} (h : PoolForm s.mp) (hb : PoolForm body.mp) : AnsForm (ccc s body) := by
  grind [ccc, ansForm_next, emit_mp]

theorem ansForm_execEnec {s} (h : PoolForm s.mp) : AnsForm (execEnec s) := by
  grind [execEnec, ansForm_next, ansForm_ccc]

theorem ansForm_execDisec {s} (h : PoolForm s.mp) : AnsForm (execDisec s) := by
  grind [execDisec, ansForm_next, ansForm_ccc]

theorem ansForm_execGetpid {s} (h : PoolForm s.mp) : AnsForm (execGetpid s) := by
  grind [execGetpid, ansForm_next, ansForm_ccc, emit_mp]

theorem ansForm_execGetbcr {s} (h : PoolForm s.mp) : AnsForm (execGetbcr s) := by
  grind [execGetbcr, ansForm_next, ansForm_ccc, emit_mp]

theorem ansForm_execGetdcr {s} (h : PoolForm s.mp) : AnsForm (execGetdcr s) := by
  grind [execGetdcr, ansForm_next, ansForm_ccc, emit_mp]

theorem ansForm_execGetstatus {s} (h : PoolForm s.mp) : AnsForm (execGetstatus s) := by
  grind [execGetstatus, ansForm_next, ansForm_ccc, useFree_mp, emit_mp]

theorem ansForm_execGetmxds {s} (h : PoolForm s.mp) : AnsForm (execGetmxds s) := by
  grind [execGetmxds, ansForm_next, ansForm_ccc, emit_mp]

/-! ### Control space (chapter 17) -/

theorem poolForm_after {s : State} {a : Ans} (h : PoolForm s.mp) (ha : AnsForm a) : PoolForm (after s a).mp := by
  unfold after
  split
  · exact ha
  · exact h

@[simp] theorem poolForm_writeFn {s r x} (h : PoolForm s.mp) : PoolForm (writeFn s r x).mp := by
  unfold writeFn
  (repeat' split) <;> simp [h]

@[simp] theorem poolForm_writeClasses {s r x} (h : PoolForm s.mp) : PoolForm (writeClasses s r x).mp := by
  grind [writeClasses, store_mp, poolForm_after, ansForm_execClearMax]

@[simp] theorem poolForm_writeThimble {s o x} (h : PoolForm s.mp) : PoolForm (writeThimble s o x).mp := by
  grind [writeThimble, store_mp, tackAll_mp, poolForm_after, ansForm_execThForce, ansForm_execThHistAck,
      baste_mp, clearPending_mp]

@[simp] theorem poolForm_writeLanes {s o x} (h : PoolForm s.mp) : PoolForm (writeLanes s o x).mp := by
  grind [writeLanes, poolForm_after, ansForm_execLnLaneCtrl, writePrbs_mp, ansForm_execLnSlip, writeQuad_mp]

@[simp] theorem poolForm_writeCtl {s r x} (h : PoolForm s.mp) : PoolForm (writeCtl s r x).mp := by
  have hclk : ∀ w, PoolForm (after s (execCkClkSel w s)).mp := fun _ => poolForm_after h
      (ansForm_execCkClkSel h)
  simp [writeCtl, hclk, h]

@[simp] theorem poolForm_writeCtlAt {s off n v} (h : PoolForm s.mp) : PoolForm (writeCtlAt s off n v).mp := by
  simp [writeCtlAt, h]

@[simp] theorem poolForm_afterRead {s off} (h : PoolForm s.mp) : PoolForm (afterRead s off).mp := by
  grind [afterRead, useFree_mp, regSet_mp, showUncorr_mp, showPrbsErr_mp, poolForm_after, ansForm_execHpLateLog,
      popStamp_mp]

@[simp] theorem poolForm_engineRead {s off n} (h : PoolForm s.mp) : PoolForm (engineRead s off n).2.mp := by
  unfold engineRead
  (repeat' split) <;> simp [h]

@[simp] theorem poolForm_engineWrite {s off n v} (h : PoolForm s.mp) : PoolForm (engineWrite s off n v).mp := by
  unfold engineWrite
  (repeat' split) <;> simp [h]

/-! ### Memory requests of the hosts (chapters 10, 11 and 17) -/

theorem ansForm_through {s : State} {q : Req} {body : State → Ans} (h : PoolForm s.mp)
    (hb : ∀ v, PoolForm v.mp → AnsForm (body v)) : AnsForm (through s q body) := by
  grind [through, ansForm_next, leaveL1_mp, notePoison_mp, count_mp, aer_mp, answerUr_mp, answerCa_mp]

@[simp] theorem poolForm_admitted {s p f n w} (h : PoolForm s.mp) : PoolForm (admitted s p f n w).2.mp := by
  unfold admitted
  split <;> simp [h]

theorem poolForm_readWindow {s0 s : State} {q : Req} {lat : Option Nat} (h : PoolForm s.mp) :
    PoolForm (readWindow s0 s q lat).mp := by
  have hwindow := fun w => poolForm_admitted (p := q.port) (f := q.fn) (n := q.length) (w := w) h
  grind [readWindow, windowMiss_mp, poolForm_eccSpan, answerCa_mp, poolDenied_mp, answerData_mp, probe_mp]

@[simp] theorem poolForm_hostLine {s p f w tag x data poison} (h : PoolForm s.mp) :
    PoolForm (hostLine s p f w tag x data poison).2.mp := by
  have hserve := fun i k u => poolForm_serveLine (i := i) (k := k) (u := u) h
  unfold hostLine
  extract_lets hnd k
  split
  · simpa using h
  · split
    · simpa using h
    · split
      · simpa using h
      · next v hv =>
        have hvm : PoolForm v.mp := hserve _ _ _ hv
        split
        · next u hu => exact poolForm_of_presentLine_took hvm hu
        · next u hu => simpa using poolForm_of_presentLine_wait hvm hu
        · exact hvm

theorem poolForm_hostContrib {p f : Nat} {w : Window} {tag : BitVec 11} {poison : Bool} {l : List (Nat × Line)}
    {r : Bool × State}
    (h : PoolForm r.2.mp) : PoolForm (hostContrib p f w tag poison l r).2.mp := by
  induction l generalizing r with
  | nil => exact h
  | cons x t ih =>
    obtain ⟨bad, s⟩ := r
    exact ih (poolForm_hostLine h)

@[simp] theorem poolForm_writeReduceWindow {s q w x b} (h : PoolForm s.mp) :
    PoolForm (writeReduceWindow s q w x b).mp := by
  grind [writeReduceWindow, answerUr_mp, count_mp, notePoison_mp, poolForm_admitted, storedMark_mp,
      poolForm_hostContrib]

theorem ansForm_writeWindow {s0 s : State} {q : Req} {b : Bytes} (h0 : PoolForm s0.mp) (h : PoolForm s.mp) :
    AnsForm (writeWindow s0 s q b) := by
  have hwindow := fun w => poolForm_admitted (p := q.port) (f := q.fn) (n := b.length) (w := w) h
  grind [writeWindow, ansForm_next, windowMiss_mp, poolForm_writeReduceWindow, answerCa_mp, poolDenied_mp, notePoison_mp, journalWait_mp,
    poolForm_poolStore, storedMark_mp]

theorem ansForm_readPf {s0 s : State} {q : Req} (h0 : PoolForm s0.mp) (h : PoolForm s.mp) :
    AnsForm (readPf s0 s q) := by
  grind [readPf, ansForm_next, answerUr_mp, answerData_mp, takeResponse_mp, answerWord_mp, poolForm_afterRead]

@[simp] theorem poolForm_writePf {s q b} (h : PoolForm s.mp) : PoolForm (writePf s q b).mp := by
  simp only [writePf]
  (repeat' split) <;> simp [h]

theorem ansForm_readVf {s0 s : State} {q : Req} {t : Nat} (h0 : PoolForm s0.mp) (h : PoolForm s.mp) :
    AnsForm (readVf s0 s q t) := by
  simp [readVf, h0, h]

theorem ansForm_execHostPushLink {p chk s0} (h : PoolForm s0.mp) : AnsForm (execHostPushLink p chk s0) := by
  grind [execHostPushLink, ansForm_next, useFree_mp, qmChecked_mp, push_mp, notePort_mp, aerFor_mp, count_mp,
      journalWait_mp]

@[simp] theorem poolForm_readRom {s q} (h : PoolForm s.mp) : PoolForm (readRom s q).mp := by
  simp only [readRom]
  (repeat' split) <;> simp [h]

theorem ansForm_execExpansionRomRead {p off n s} (h : PoolForm s.mp) :
    AnsForm (execExpansionRomRead p off n s) := by
  grind [execExpansionRomRead, ansForm_next, ansForm_through, poolForm_readRom]

theorem ansForm_hostReadServed {q : Req} {lat : Option Nat} {s0 s : State} (h0 : PoolForm s0.mp)
    (h : PoolForm s.mp) :
    AnsForm (hostReadServed q lat s0 s) := by
  grind [hostReadServed, ansForm_next, poolForm_readWindow, poolForm_readRom, answerWord_mp, answerUr_mp, ansForm_readPf, ansForm_readVf]

theorem ansForm_execMemoryRead {r upsets lat s0} (h : PoolForm s0.mp) :
    AnsForm (execMemoryRead r upsets lat s0) :=
  ansForm_through h fun _ hv => ansForm_hostReadServed h (poolForm_disturb.mpr hv)

theorem ansForm_hostWriteServed {q : Req} {b : Bytes} {s0 s : State} (h0 : PoolForm s0.mp) (h : PoolForm s.mp) :
    AnsForm (hostWriteServed q b s0 s) := by
  have hw := ansForm_writeWindow (q := q) (b := b) h0 h
  grind [hostWriteServed, AnsForm, notePort_mp, answerUr_mp, notePoison_mp, pushPage_mp, dropPoisoned_mp, writeBar4_mp, poolForm_writePf,
    writeVf_mp]

theorem ansForm_hostWrite {w s} (h : PoolForm s.mp) : AnsForm (hostWrite w s) := by
  unfold hostWrite
  split
  · exact h
  · exact ansForm_through h fun _ hv => ansForm_hostWriteServed h hv

theorem ansForm_execMemoryWrite {w s} (h : PoolForm s.mp) : AnsForm (execMemoryWrite w s) := by
  grind [execMemoryWrite, ansForm_next, ansForm_hostWrite]

theorem ansForm_execRegisterWrite {who off b s} (h : PoolForm s.mp) : AnsForm (execRegisterWrite who off b s) := by
  grind [execRegisterWrite, ansForm_next, ansForm_hostWrite]

theorem ansForm_execPushPageWrite {w s} (h : PoolForm s.mp) : AnsForm (execPushPageWrite w s) := by
  grind [execPushPageWrite, ansForm_hostWrite, ansForm_next]

theorem ansForm_chanWrite {who c o v s} (h : PoolForm s.mp) : AnsForm (chanWrite who c o v s) := by
  grind [chanWrite, ansForm_next, ansForm_execRegisterWrite]

theorem ansForm_execShChTail {who c t s} (h : PoolForm s.mp) : AnsForm (execShChTail who c t s) := by
  grind [execShChTail, ansForm_next, ansForm_chanWrite]

theorem ansForm_execPause {who c s} (h : PoolForm s.mp) : AnsForm (execPause who c s) := by
  grind [execPause, ansForm_next, ansForm_chanWrite]

theorem ansForm_execResume {who c s} (h : PoolForm s.mp) : AnsForm (execResume who c s) := by
  grind [execResume, ansForm_next, ansForm_chanWrite]

theorem ansForm_execSkip {who c s} (h : PoolForm s.mp) : AnsForm (execSkip who c s) := by
  grind [execSkip, ansForm_next, ansForm_chanWrite]

theorem ansForm_execProgramDoorbell {who n v s} (h : PoolForm s.mp) : AnsForm (execProgramDoorbell who n v s) := by
  grind [execProgramDoorbell, ansForm_next, ansForm_execRegisterWrite]

theorem ansForm_readAt {who off s} (h : PoolForm s.mp) : AnsForm (readAt who off s) := by
  grind [readAt, ansForm_next, ansForm_execMemoryRead]

theorem ansForm_execSmVfPairFence {who s} (h : PoolForm s.mp) : AnsForm (execSmVfPairFence who s) := by
  grind [execSmVfPairFence, ansForm_next, ansForm_readAt]

theorem ansForm_execSmPairFence {p s} (h : PoolForm s.mp) : AnsForm (execSmPairFence p s) := by
  grind [execSmPairFence, ansForm_next, ansForm_readAt]

/-! ### Configuration space (R286 to R290) -/

@[simp] theorem poolForm_writePmcsr {s p w} (h : PoolForm s.mp) : PoolForm (writePmcsr s p w).mp := by
  grind [writePmcsr, cfgStore_mp, setPort_mp, cfgClear_mp, poolForm_after, ansForm_execPowerstateWrite]

@[simp] theorem poolForm_writeSriov {s p w} (h : PoolForm s.mp) : PoolForm (writeSriov s p w).mp := by
  grind [writeSriov, poolForm_after, ansForm_execVfEnableClear, cfgStore_mp, raiseSrc_mp]

@[simp] theorem poolForm_writeDevCtl {s p f w} (h : PoolForm s.mp) : PoolForm (writeDevCtl s p f w).mp := by
  grind [writeDevCtl, cfgStore_mp, poolForm_after, ansForm_execPfFlr, ansForm_execInitiateFlr]

@[simp] theorem poolForm_writeOwnCfg {s p f off w} (h : PoolForm s.mp) :
    PoolForm (writeOwnCfg s p f off w).mp := by
  unfold writeOwnCfg
  split <;> simp [h]

@[simp] theorem poolForm_writePfCfg {s p off w} (h : PoolForm s.mp) : PoolForm (writePfCfg s p off w).mp := by
  unfold writePfCfg
  split <;> simp [h]

theorem ansForm_execConfigurationRequest {who off write s} (h : PoolForm s.mp) :
    AnsForm (execConfigurationRequest who off write s) := by
  grind [execConfigurationRequest, ansForm_next, leaveL1_mp, emit_mp, transmit_mp, poolForm_writePfCfg,
      poolForm_writeOwnCfg]

/-! ### Nguron instructions other than the attachments (chapter 02) -/

theorem ansForm_execAlu {t s} (h : PoolForm s.mp) : AnsForm (execAlu t s) := ansForm_regOnly h

theorem ansForm_execPcmp {t s} (h : PoolForm s.mp) : AnsForm (execPcmp t s) := ansForm_regOnly h

theorem ansForm_immOp {t op s f} (h : PoolForm s.mp) : AnsForm (immOp t op s f) := ansForm_regOnly h

theorem ansForm_execAddi {t s} (h : PoolForm s.mp) : AnsForm (execAddi t s) := ansForm_immOp h

theorem ansForm_execAndi {t s} (h : PoolForm s.mp) : AnsForm (execAndi t s) := ansForm_immOp h

theorem ansForm_execOri {t s} (h : PoolForm s.mp) : AnsForm (execOri t s) := ansForm_immOp h

theorem ansForm_execXori {t s} (h : PoolForm s.mp) : AnsForm (execXori t s) := ansForm_immOp h

theorem ansForm_execSlli {t s} (h : PoolForm s.mp) : AnsForm (execSlli t s) := ansForm_immOp h

theorem ansForm_execSrli {t s} (h : PoolForm s.mp) : AnsForm (execSrli t s) := ansForm_immOp h

theorem ansForm_execSrai {t s} (h : PoolForm s.mp) : AnsForm (execSrai t s) := ansForm_immOp h

theorem ansForm_execMovk {t s} (h : PoolForm s.mp) : AnsForm (execMovk t s) := ansForm_immOp h

theorem ansForm_immCmp {t op s f} (h : PoolForm s.mp) : AnsForm (immCmp t op s f) := ansForm_regOnly h

theorem ansForm_execPeqi {t s} (h : PoolForm s.mp) : AnsForm (execPeqi t s) := ansForm_immCmp h

theorem ansForm_execPnei {t s} (h : PoolForm s.mp) : AnsForm (execPnei t s) := ansForm_immCmp h

theorem ansForm_execPlti {t s} (h : PoolForm s.mp) : AnsForm (execPlti t s) := ansForm_immCmp h

theorem ansForm_execPgei {t s} (h : PoolForm s.mp) : AnsForm (execPgei t s) := ansForm_immCmp h

theorem ansForm_execPltui {t s} (h : PoolForm s.mp) : AnsForm (execPltui t s) := ansForm_immCmp h

theorem ansForm_execPgeui {t s} (h : PoolForm s.mp) : AnsForm (execPgeui t s) := ansForm_immCmp h

@[simp] theorem poolForm_loadBody {t n put s th w} (h : PoolForm s.mp) :
    PoolForm (tresState (loadBody t n put s th w)).mp := by
  rw [loadBody]
  split
  · exact h
  · split
    · exact h
    · split
      · have hread : PoolForm (engineRead s (scratchAddr th w - 0x1000000) n).2.mp := poolForm_engineRead h
        rcases hr : engineRead s (scratchAddr th w - 0x1000000) n with ⟨v, u⟩
        rw [hr] at hread
        exact hread
      · split
        · exact h
        · exact h

@[simp] theorem poolForm_storeBody {t n get s th w} (h : PoolForm s.mp) :
    PoolForm (tresState (storeBody t n get s th w)).mp := by
  unfold storeBody
  extract_lets a
  split
  · exact h
  · rw [tresState_ite, tresState_ok, tresState_ok]
    split
    · exact poolForm_engineWrite h
    · exact h

theorem ansForm_memOp {t : Nat} {op : NOp} {s : State} {body : State → Thread → Nat → TRes}
    (h : PoolForm s.mp) (hb : ∀ th w, PoolForm (tresState (body s th w)).mp) : AnsForm (memOp t op s body) := ansForm_issue h hb

theorem ansForm_execLdb {t s} (h : PoolForm s.mp) : AnsForm (execLdb t s) :=
  ansForm_memOp h fun _ _ => by simp [h]

theorem ansForm_execLdh {t s} (h : PoolForm s.mp) : AnsForm (execLdh t s) :=
  ansForm_memOp h fun _ _ => by simp [h]

theorem ansForm_execLdw {t s} (h : PoolForm s.mp) : AnsForm (execLdw t s) :=
  ansForm_memOp h fun _ _ => by simp [h]

theorem ansForm_execLdd {t s} (h : PoolForm s.mp) : AnsForm (execLdd t s) :=
  ansForm_memOp h fun _ _ => by simp [h]

theorem ansForm_execStb {t s} (h : PoolForm s.mp) : AnsForm (execStb t s) :=
  ansForm_memOp h fun _ _ => by simp [h]

theorem ansForm_execSth {t s} (h : PoolForm s.mp) : AnsForm (execSth t s) :=
  ansForm_memOp h fun _ _ => by simp [h]

theorem ansForm_execStw {t s} (h : PoolForm s.mp) : AnsForm (execStw t s) :=
  ansForm_memOp h fun _ _ => by simp [h]

theorem ansForm_execStd {t s} (h : PoolForm s.mp) : AnsForm (execStd t s) :=
  ansForm_memOp h fun _ _ => by simp [h]

theorem ansForm_execVld {t s} (h : PoolForm s.mp) : AnsForm (execVld t s) :=
  ansForm_memOp h fun _ _ => by simp [h]

theorem ansForm_execVst {t s} (h : PoolForm s.mp) : AnsForm (execVst t s) :=
  ansForm_memOp h fun _ _ => by simp [h]

theorem ansForm_execRdsp {t s} (h : PoolForm s.mp) : AnsForm (execRdsp t s) := ansForm_regOnly h

theorem ansForm_execMfs {t s} (h : PoolForm s.mp) : AnsForm (execMfs t s) := ansForm_regOnly h

theorem ansForm_execSrWdt {t s} (h : PoolForm s.mp) : AnsForm (execSrWdt t s) :=
  ansForm_issue h fun _ _ => by simp [h]

theorem ansForm_execSrKpOpen {t s} (h : PoolForm s.mp) : AnsForm (execSrKpOpen t s) :=
  ansForm_issue h fun _ _ => by simp [h]

theorem ansForm_execSrReset {t s} (h : PoolForm s.mp) : AnsForm (execSrReset t s) := by
  refine ansForm_issue h fun th w => ?_
  split
  · exact poolForm_deviceReset
  · exact h

theorem ansForm_execBr {t s} (h : PoolForm s.mp) : AnsForm (execBr t s) := by
  refine ansForm_issue h fun th w => ?_
  dsimp only
  rw [tresState_ite, tresState_fault, tresState_ok, ite_self]
  exact h

theorem ansForm_execJalr {t s} (h : PoolForm s.mp) : AnsForm (execJalr t s) := by
  refine ansForm_issue h fun th w => ?_
  dsimp only
  rw [tresState_ite, tresState_fault, tresState_ok, ite_self]
  exact h

theorem ansForm_execVarith {t s} (h : PoolForm s.mp) : AnsForm (execVarith t s) := ansForm_regOnly h

theorem ansForm_execVcvt {t s} (h : PoolForm s.mp) : AnsForm (execVcvt t s) := ansForm_regOnly h

theorem ansForm_execVred {t s} (h : PoolForm s.mp) : AnsForm (execVred t s) := ansForm_regOnly h

theorem ansForm_execVcmp {t s} (h : PoolForm s.mp) : AnsForm (execVcmp t s) := ansForm_regOnly h

theorem ansForm_execVmerge {t s} (h : PoolForm s.mp) : AnsForm (execVmerge t s) := ansForm_regOnly h

@[simp] theorem poolForm_vmoveBody {s th w} (h : PoolForm s.mp) : PoolForm (tresState (vmoveBody s th w)).mp := by
  simp only [vmoveBody]
  (repeat' split) <;> simp [h]

theorem ansForm_execVmove {t s} (h : PoolForm s.mp) : AnsForm (execVmove t s) :=
  ansForm_issue h fun _ _ => by simp [h]

theorem ansForm_execFence {t s} (h : PoolForm s.mp) : AnsForm (execFence t s) := ansForm_regOnly h

theorem ansForm_execYield {t s} (h : PoolForm s.mp) : AnsForm (execYield t s) :=
  ansForm_issue h fun _ _ => by simp [h]

theorem ansForm_execHalt {t s} (h : PoolForm s.mp) : AnsForm (execHalt t s) := by
  grind [execHalt, ansForm_next, ansForm_issue, poolForm_endActivation]

theorem ansForm_execTrap {t s} (h : PoolForm s.mp) : AnsForm (execTrap t s) :=
  ansForm_issue h fun _ _ => by simp [h]

/-! ### Attachment instructions (R49 to R61) -/

@[simp] theorem poolForm_qpushBody {t chk s th w} (h : PoolForm s.mp) :
    PoolForm (tresState (qpushBody t chk s th w)).mp := by
  unfold qpushBody
  split
  · exact h
  · extract_lets q sp s'
    have hs : PoolForm s'.mp := by rwa [checkedQueue_mp]
    split
    · rw [tresState_ok, refuseItem_mp]
      exact hs
    · have hpush := push_mp s' q sp.prio th.tag (scratchRead th sp.addr sp.len)
          (scratchPoison th sp.addr sp.len)
      generalize push s' q sp.prio th.tag (scratchRead th sp.addr sp.len) (scratchPoison th sp.addr sp.len) = r
          at hpush
      obtain ⟨p, v⟩ := r
      have hv : PoolForm v.mp := by rwa [show v.mp = s'.mp from hpush]
      cases p with
      | linked | access | wait => exact hv
      | full =>
        dsimp only
        split
        · exact hv
        · rw [tresState_ok, refuseItem_mp]
          exact hv

theorem ansForm_execQpush {t chk s} (h : PoolForm s.mp) : AnsForm (execQpush t chk s) :=
  ansForm_issue h fun _ _ => by simp [h]

theorem poolForm_withHead {t : Nat} {chk : QmCheck} {s : State} {th : Thread} {w : Nat} {span : Bool}
    {body : State → Queue → Item → TRes} (h : PoolForm s.mp)
    (hb : ∀ v x i, PoolForm v.mp → PoolForm (tresState (body v x i)).mp) :
    PoolForm (tresState (withHead t chk s th w span body)).mp := by
  grind [withHead, tresState_fault, tresState_stall, tresState_ok, checkedQueue_mp, qmRefuse_mp]

@[simp] theorem poolForm_takeHead {s q x i how f} (h : PoolForm s.mp) :
    PoolForm (tresState (takeHead s q x i how f)).mp := by
  unfold takeHead
  split <;> simp [h]

@[simp] theorem poolForm_qpopBody {t chk s th w} (h : PoolForm s.mp) :
    PoolForm (tresState (qpopBody t chk s th w)).mp := by
  refine poolForm_withHead h fun v x i hv => ?_
  dsimp only
  split
  · exact poolForm_takeHead hv
  · split
    · exact hv
    · split
      · exact hv
      · exact poolForm_takeHead hv

theorem ansForm_execQpop {t chk s} (h : PoolForm s.mp) : AnsForm (execQpop t chk s) :=
  ansForm_issue h fun _ _ => by simp [h]

@[simp] theorem poolForm_qpeekBody {t chk s th w} (h : PoolForm s.mp) :
    PoolForm (tresState (qpeekBody t chk s th w)).mp := by
  refine poolForm_withHead h fun v x i hv => ?_
  dsimp only
  (repeat' split) <;> exact hv

theorem ansForm_execQpeek {t chk s} (h : PoolForm s.mp) : AnsForm (execQpeek t chk s) :=
  ansForm_issue h fun _ _ => by simp [h]

theorem poolForm_poolAccess {s : State} {th : Thread} {w : Nat} {write : Bool} {body : Nat → TRes}
    (h : PoolForm s.mp)
    (hb : ∀ ppa, PoolForm (tresState (body ppa)).mp) : PoolForm (tresState (poolAccess s th w write body)).mp := by
  unfold poolAccess
  extract_lets a
  split
  · exact h
  · split
    · exact hb _
    · exact hb _
    · rw [tresState_fault, poolDenied_mp]
      exact h

@[simp] theorem poolForm_pldBody {t s th w} (h : PoolForm s.mp) : PoolForm (tresState (pldBody t s th w)).mp := by
  refine poolForm_poolAccess h fun ppa => ?_
  dsimp only
  split <;> exact h

theorem ansForm_execPld {t s} (h : PoolForm s.mp) : AnsForm (execPld t s) :=
  ansForm_issue h fun _ _ => by simp [h]

theorem ansForm_execPldComplete {t k u s} (h : PoolForm s.mp) : AnsForm (execPldComplete t k u s) := by
  simp only [execPldComplete]
  (repeat' split) <;> simp [h]

@[simp] theorem poolForm_pstBody {s th w} (h : PoolForm s.mp) : PoolForm (tresState (pstBody s th w)).mp := by
  refine poolForm_poolAccess h fun ppa => ?_
  extract_lets mask new v
  split
  · exact h
  · split
    · exact h
    · split
      · exact poolForm_poolStore h
      · exact poolForm_poolWrite (poolForm_eccSpan h)

theorem ansForm_execPst {t s} (h : PoolForm s.mp) : AnsForm (execPst t s) :=
  ansForm_issue h fun _ _ => by simp [h]

@[simp] theorem poolForm_predBody {t s th w} (h : PoolForm s.mp) :
    PoolForm (tresState (predBody t s th w)).mp := by
  have hserve := fun i k u => poolForm_serveLine (i := i) (k := k) (u := u) h
  have hrefuse : ∀ tag win r, PoolForm (contribRefuse s tag win r).mp := fun _ _ _ => by rwa [contribRefuse_mp]
  unfold predBody
  extract_lets a off win refuse k full
  split
  · exact h
  · split
    · exact hrefuse _ _ _
    · exact hrefuse _ _ _
    · exact hrefuse _ _ _
    · split
      · split
        · exact h
        · next v hv =>
          have hvm : PoolForm v.mp := hserve _ _ _ hv
          split
          · next u hu => exact poolForm_of_presentLine_took hvm hu
          · exact hvm
      · exact hrefuse _ _ _
      · next v hv =>
        have hvm : PoolForm v.mp := poolForm_of_presentLine_wait h hv
        have hback : PoolForm (if th.mode = .stalled then v else backPressure v k).mp := by
          rwa [mp_ite, backPressure_mp, ite_self]
        extract_lets v'
        split
        · exact h
        · split <;> exact hback

theorem ansForm_execPred {t s} (h : PoolForm s.mp) : AnsForm (execPred t s) :=
  ansForm_issue h fun _ _ => by simp [h]

@[simp] theorem poolForm_hcopyBody {s th w} (h : PoolForm s.mp) : PoolForm (tresState (hcopyBody s th w)).mp := by
  unfold hcopyBody
  extract_lets c
  split
  · exact h
  · have hcopy := fun u => poolForm_of_hcopy_ok (s := s) (u := u) (ctx := tagCtx th.tag) (c := c)
        (b := lineBytes (vGet th (wXs w)))
    split
    · exact h
    · split <;> exact h
    · exact h
    · next u e => exact hcopy u h e

theorem ansForm_execHcopy {t s} (h : PoolForm s.mp) : AnsForm (execHcopy t s) :=
  ansForm_issue h fun _ _ => by simp [h]

@[simp] theorem poolForm_nsendBody {t s th w} (h : PoolForm s.mp) :
    PoolForm (tresState (nsendBody t s th w)).mp := by
  unfold nsendBody
  extract_lets c sp x
  split
  · exact h
  · split
    · exact h
    · split <;> exact h
    · exact h
    · next u e => exact poolForm_of_weftSend_ok h e

theorem ansForm_execNsend {t s} (h : PoolForm s.mp) : AnsForm (execNsend t s) :=
  ansForm_issue h fun _ _ => by simp [h]

theorem ansForm_execWaite {t s} (h : PoolForm s.mp) : AnsForm (execWaite t s) := by
  refine ansForm_issue h fun th w => ?_
  split
  · exact h
  · exact poolForm_endActivation h

theorem poolForm_stallBody {t : Nat} {chk : QmCheck} {op : NOp} {body : State → Thread → Nat → TRes}
    (hb : stallBody t chk op = some body) {s : State} (h : PoolForm s.mp) (th : Thread) (w : Nat) :
    PoolForm (tresState (body s th w)).mp := by
  unfold stallBody at hb
  split at hb <;> cases hb
  · exact poolForm_qpushBody h
  · exact poolForm_qpopBody h
  · exact poolForm_qpeekBody h
  · exact poolForm_predBody h
  · exact poolForm_hcopyBody h
  · exact poolForm_nsendBody h

theorem ansForm_execStallResume {t chk s} (h : PoolForm s.mp) : AnsForm (execStallResume t chk s) := by
  unfold execStallResume
  dsimp only
  split
  · exact h
  · split
    · exact h
    · split
      · exact h
      · next e =>
        obtain ⟨op, -, e⟩ := Option.bind_eq_some_iff.mp e
        exact ansForm_finish h (poolForm_stallBody e h _ _)

theorem ansForm_execStall {t s} (h : PoolForm s.mp) : AnsForm (execStall t s) := by
  grind [execStall, ansForm_next, ansForm_takeFault, passTo_mp]

/-! ### Management tick (R405) -/

theorem poolForm_orFetch {s : State} {d : Done} (h : PoolForm s.mp) (hd : PoolForm d.1.mp) :
    PoolForm (orFetch s d).1.mp := by
  unfold orFetch
  split
  · split
    · exact h
    · exact hd
  · exact hd

theorem ansForm_fetchProgram {src ctx from_ n engines s} (h : PoolForm s.mp) :
    AnsForm (fetchProgram src ctx from_ n engines s) := by
  grind [fetchProgram, ansForm_next, poolForm_takeUp, poolForm_orFetch, poolForm_doProgramLoad]

theorem ansForm_fetchFlash {src from_ n s} (h : PoolForm s.mp) : AnsForm (fetchFlash src from_ n s) := by
  grind [fetchFlash, ansForm_next, poolForm_takeUp, poolForm_orFetch, poolForm_doFlashWrite]

theorem ansForm_fetchRestore {src t p x3 n slots s} (h : PoolForm s.mp) :
    AnsForm (fetchRestore src t p x3 n slots s) := by
  grind [fetchRestore, ansForm_next, poolForm_takeUp, poolForm_orFetch, poolForm_doTenantRestore]

theorem poolForm_afterAns {s : State} {a : Ans} (h : PoolForm s.mp) (ha : AnsForm a) :
    PoolForm (afterAns s a).mp := by
  unfold afterAns
  split
  · exact ha
  · exact h
  · exact h

/-- A form's command keeps the canonical form of the pool. -/
def FormKeeps (f : Form) : Prop := ∀ src l d s, PoolForm s.mp → AnsForm (f.run src l d s)

theorem programForms_keep : ∀ f ∈ programForms, FormKeeps f := by
  simp only [programForms, List.forall_mem_cons, List.not_mem_nil, false_implies, implies_true, and_true]
  exact ⟨fun _ _ _ _ h => ansForm_if (ansForm_fetchProgram h) (ansForm_cmdProgramLoad h),
    fun _ _ _ _ h => ansForm_cmdProgramUnload h,
    fun _ _ _ _ h => ansForm_cmdProgramStart h,
    fun _ _ _ _ h => ansForm_cmdProgramStop h,
    fun _ _ _ _ h => ansForm_cmdProgramBind h,
    fun _ _ _ _ h => ansForm_cmdProgramUnbind h,
    fun _ _ _ _ h => ansForm_cmdThreadRead h⟩

theorem poolForms_keep : ∀ f ∈ poolForms, FormKeeps f := by
  simp only [poolForms, List.forall_mem_cons, List.not_mem_nil, false_implies, implies_true, and_true]
  exact ⟨fun _ _ _ _ h => ansForm_cmdGranuleAssign h,
    fun _ _ _ _ h => ansForm_cmdGranuleRelease h,
    fun _ _ _ _ h => ansForm_cmdGranuleMirror h,
    fun _ _ _ _ h => ansForm_cmdGranuleRetire h,
    fun _ _ _ _ h => ansForm_cmdGranuleLimit h,
    fun _ _ _ _ h => ansForm_cmdGrant h,
    fun _ _ _ _ h => ansForm_cmdGrantRevoke h,
    fun _ _ _ _ h => ansForm_cmdKeySet h⟩

theorem reduceForms_keep : ∀ f ∈ reduceForms, FormKeeps f := by
  simp only [reduceForms, List.forall_mem_cons, List.not_mem_nil, false_implies, implies_true, and_true]
  exact ⟨fun _ _ _ _ h => ansForm_cmdReduceCreate h,
    fun _ _ _ _ h => ansForm_cmdReduceDestroy h,
    fun _ _ _ _ h => ansForm_cmdReduceReset h,
    fun _ _ _ _ h => ansForm_cmdRuQuota h⟩

theorem queueForms_keep : ∀ f ∈ queueForms, FormKeeps f := by
  simp only [queueForms, List.forall_mem_cons, List.not_mem_nil, false_implies, implies_true, and_true]
  exact ⟨fun _ _ _ _ h => ansForm_cmdQueueCreate h,
    fun _ _ _ _ h => ansForm_cmdQueueDestroy h,
    fun _ _ _ _ h => ansForm_cmdQueueFlush h,
    fun _ _ _ _ h => ansForm_cmdQueueSet h,
    fun _ _ _ _ h => ansForm_cmdQueueOpen h,
    fun _ _ _ _ h => ansForm_cmdQueueClose h,
    fun _ _ _ _ h => ansForm_cmdQmQuota h⟩

theorem channelForms_keep : ∀ f ∈ channelForms, FormKeeps f := by
  simp only [channelForms, List.forall_mem_cons, List.not_mem_nil, false_implies, implies_true, and_true]
  exact ⟨fun _ _ _ _ h => ansForm_cmdChannelAssign h,
    fun _ _ _ _ h => ansForm_cmdChannelRelease h,
    fun _ _ _ _ h => ansForm_cmdChannelStop h,
    fun _ _ _ _ h => ansForm_cmdChannelLimit h⟩

theorem networkForms_keep : ∀ f ∈ networkForms, FormKeeps f := by
  simp only [networkForms, List.forall_mem_cons, List.not_mem_nil, false_implies, implies_true, and_true]
  exact ⟨fun _ _ _ _ h => ansForm_cmdEthArrange h,
    fun _ _ _ _ h => ansForm_cmdWeftListen h,
    fun _ _ _ _ h => ansForm_cmdWeftUnlisten h,
    fun _ _ _ _ h => ansForm_cmdWeftConnect h,
    fun _ _ _ _ h => ansForm_cmdWeftClose h,
    fun _ _ _ _ h => ansForm_cmdWeftMove h,
    fun _ _ _ _ h => ansForm_cmdWeftLimit h,
    fun _ _ _ _ h => ansForm_cmdScAdmit h,
    fun _ _ _ _ h => ansForm_cmdScShare h,
    fun _ _ _ _ h => ansForm_cmdScClassWeights h,
    fun _ _ _ _ h => ansForm_cmdPortRelease h,
    fun _ _ _ _ h => ansForm_cmdPortMerge h⟩

theorem tenantForms_keep : ∀ f ∈ tenantForms, FormKeeps f := by
  simp only [tenantForms, List.forall_mem_cons, List.not_mem_nil, false_implies, implies_true, and_true]
  exact ⟨fun _ _ _ _ h => ansForm_cmdTenantCreate h,
    fun _ _ _ _ h => ansForm_cmdTenantBind h,
    fun _ _ _ _ h => ansForm_cmdTenantUnbind h,
    fun _ _ _ _ h => ansForm_cmdTenantStart h,
    fun _ _ _ _ h => ansForm_cmdTenantFreeze h,
    fun _ _ _ _ h => ansForm_cmdTenantThaw h,
    fun _ _ _ _ h => ansForm_cmdTenantQuiesce h,
    fun _ _ _ _ h => ansForm_cmdTenantRemove h,
    fun _ _ _ _ h => ansForm_cmdTenantSave h,
    fun _ _ _ _ h => ansForm_fetchRestore h,
    fun _ _ _ _ h => ansForm_cmdWindowAlloc h,
    fun _ _ _ _ h => ansForm_cmdWindowFree h,
    fun _ _ _ _ h => ansForm_cmdWindowStage h,
    fun _ _ _ _ h => ansForm_cmdWindowTack h,
    fun _ _ _ _ h => ansForm_cmdWindowLimit h,
    fun _ _ _ _ h => ansForm_cmdDirtyLogStart h,
    fun _ _ _ _ h => ansForm_cmdDirtyLogSwap h,
    fun _ _ _ _ h => ansForm_cmdDirtyLogStop h⟩

theorem pairForms_keep : ∀ f ∈ pairForms, FormKeeps f := by
  simp only [pairForms, List.forall_mem_cons, List.not_mem_nil, false_implies, implies_true, and_true]
  exact ⟨fun _ _ _ _ h => ansForm_cmdPairConfig h,
    fun _ _ _ _ h => ansForm_cmdPairResync h,
    fun _ _ _ _ h => ansForm_cmdPairTenant h,
    fun _ _ _ _ h => ansForm_cmdPairUntenant h,
    fun _ _ _ _ h => ansForm_cmdPairShadow h,
    fun _ _ _ _ h => ansForm_cmdPairPromote h,
    fun _ _ _ _ h => ansForm_cmdPairUnfence h⟩

theorem faultForms_keep : ∀ f ∈ faultForms, FormKeeps f := by
  simp only [faultForms, List.forall_mem_cons, List.not_mem_nil, false_implies, implies_true, and_true]
  exact ⟨fun _ _ _ _ h => ansForm_cmdFaultSeverity h,
    fun _ _ _ _ h => ansForm_cmdFaultAck h,
    fun _ _ _ _ h => ansForm_cmdStopEnter h,
    fun _ _ _ _ h => ansForm_cmdDomainPower h,
    fun _ _ _ _ h => ansForm_cmdWakeSet h,
    fun _ _ _ _ h => ansForm_cmdStopStatsClear h,
    fun _ _ _ _ h => ansForm_cmdLaneEqWrite h⟩

theorem managementForms_keep : ∀ f ∈ managementForms, FormKeeps f := by
  simp only [managementForms, List.forall_mem_cons, List.not_mem_nil, false_implies, implies_true, and_true]
  exact ⟨fun _ _ _ _ h => ansForm_cmdDeviceInfo h,
    fun _ _ _ _ h => ansForm_cmdDeviceReset h,
    fun _ _ _ _ h => ansForm_if (ansForm_fetchFlash h) (ansForm_cmdFlashWrite h),
    fun _ _ _ _ h => ansForm_if (ansForm_cmdKeepWrite h) (ansForm_cmdKeepWrite h),
    fun _ _ _ _ h => ansForm_cmdTimeSet h,
    fun _ _ _ _ h => ansForm_cmdQueuePush h,
    fun _ _ _ _ h => ansForm_cmdQueuePop h⟩

theorem allForms_keep : ∀ f ∈ allForms, FormKeeps f := by
  simp only [allForms, List.forall_mem_append]
  exact
      ⟨⟨⟨⟨⟨⟨⟨⟨⟨programForms_keep, poolForms_keep⟩, reduceForms_keep⟩, queueForms_keep⟩, channelForms_keep⟩, networkForms_keep⟩,
    tenantForms_keep⟩, pairForms_keep⟩, faultForms_keep⟩, managementForms_keep⟩

@[simp] theorem poolForm_takePending {s src} (h : PoolForm s.mp) : PoolForm (takePending s src).mp := by
  unfold takePending
  dsimp only
  split
  · exact h
  · split
    · simpa using h
    · split
      · simpa using h
      · next f hf =>
        split
        · exact poolForm_takeUp h fun _ hv => hv
        · exact poolForm_afterAns h (allForms_keep f (List.mem_of_find?_eq_some hf) _ _ _ _ h)

@[simp] theorem poolForm_pollRunning {s src r} (h : PoolForm s.mp) : PoolForm (pollRunning s src r).1.mp := by
  unfold pollRunning
  split <;> simp [h]

@[simp] theorem poolForm_pollSource {s src} (h : PoolForm s.mp) : PoolForm (pollSource s src).mp := by
  grind [pollSource, poolForm_pollRunning, answer_mp]

@[simp] theorem poolForm_beginTick {s} (h : PoolForm s.mp) : PoolForm (beginTick s).mp := by
  rw [beginTick]
  refine poolForm_foldl (f := pollSource) ?_ (fun _ _ => poolForm_pollSource) _
  rw [answerStop_mp, servo_mp, mp_ite, writeTimePair_mp, ite_self, renewTick_mp, passTo_mp]
  exact h

theorem poolForm_takePending_upto {s : State} (n : Nat) (h : PoolForm s.mp) :
    PoolForm ((upto 0 n).foldl takePending s).mp :=
  poolForm_foldl (f := takePending) h (fun _ _ => poolForm_takePending) _

theorem ansForm_execManagementTick {s} (h : PoolForm s.mp) : AnsForm (execManagementTick s) := by
  unfold execManagementTick
  split
  · exact h
  · rw [ansForm_next]
    exact poolForm_takePending_upto 9 (poolForm_beginTick h)

@[simp] theorem poolForm_atTick {s src} (h : PoolForm s.mp) : PoolForm (atTick s src).mp := by
  have hb : PoolForm (beginTick (setMbox s src { mbox s src with pending := true, overrun := false })).mp :=
      poolForm_beginTick h
  rw [atTick]
  exact poolForm_takePending_upto src hb

@[simp] theorem poolForm_tickRest {src s} (h : PoolForm s.mp) : PoolForm (tickRest src s).mp :=
  poolForm_foldl h (fun _ _ => poolForm_takePending) _

theorem ansForm_atNextTick {s : State} {src : Nat} {f : State → Ans} (h : PoolForm s.mp)
    (hf : ∀ v, PoolForm v.mp → AnsForm (f v)) : AnsForm (atNextTick s src f) := by
  have ha := hf _ (poolForm_atTick (src := src) h)
  grind [atNextTick, AnsForm, poolForm_tickRest, setMbox_mp]

/-! ### Rows of the mailbox commands (Table 16-6) -/

theorem ansForm_atHostData {s : State} {src code : Nat} {fetch : Running} {c : Option Running}
    {d : State → Done}
    {f : State → Ans} (h : PoolForm s.mp) (hd : ∀ v, PoolForm v.mp → PoolForm (d v).1.mp) (hf : ∀ v, PoolForm v.mp → AnsForm (f v)) :
    AnsForm (atHostData s src code fetch c d f) := by
  unfold atHostData
  split
  · exact poolForm_complete (hd _ h)
  · exact ansForm_atNextTick h hf

theorem ansForm_execProgramLoad {src ctx from_ n engines host s} (h : PoolForm s.mp) :
    AnsForm (execProgramLoad src ctx from_ n engines host s) := by
  grind [execProgramLoad, ansForm_next, ansForm_atHostData, poolForm_doProgramLoad, ansForm_cmdProgramLoad]

theorem ansForm_execTenantRestore {src t p x3 n slots host s} (h : PoolForm s.mp) :
    AnsForm (execTenantRestore src t p x3 n slots host s) := by
  grind [execTenantRestore, ansForm_next, ansForm_atHostData, poolForm_doTenantRestore,
      ansForm_cmdTenantRestore]

theorem ansForm_execFlashWrite {src from_ n host s} (h : PoolForm s.mp) :
    AnsForm (execFlashWrite src from_ n host s) := by
  grind [execFlashWrite, ansForm_next, ansForm_atHostData, poolForm_doFlashWrite, ansForm_cmdFlashWrite]

/-! ### Every row, and the step -/

/-- Every row of the command table keeps the canonical form of the pool. -/
theorem ansForm_exec {s : State} (h : PoolForm s.mp) (i : Instr) : AnsForm (exec i s) := by
  cases i with
  | alu => exact ansForm_execAlu h
  | pcmp => exact ansForm_execPcmp h
  | jalr => exact ansForm_execJalr h
  | addi => exact ansForm_execAddi h
  | andi => exact ansForm_execAndi h
  | ori => exact ansForm_execOri h
  | xori => exact ansForm_execXori h
  | slli => exact ansForm_execSlli h
  | srli => exact ansForm_execSrli h
  | srai => exact ansForm_execSrai h
  | movk => exact ansForm_execMovk h
  | peqi => exact ansForm_execPeqi h
  | pnei => exact ansForm_execPnei h
  | plti => exact ansForm_execPlti h
  | pgei => exact ansForm_execPgei h
  | pltui => exact ansForm_execPltui h
  | pgeui => exact ansForm_execPgeui h
  | ldb => exact ansForm_execLdb h
  | ldh => exact ansForm_execLdh h
  | ldw => exact ansForm_execLdw h
  | ldd => exact ansForm_execLdd h
  | stb => exact ansForm_execStb h
  | sth => exact ansForm_execSth h
  | stw => exact ansForm_execStw h
  | std => exact ansForm_execStd h
  | vld => exact ansForm_execVld h
  | vst => exact ansForm_execVst h
  | rdsp => exact ansForm_execRdsp h
  | mfs => exact ansForm_execMfs h
  | srWdt => exact ansForm_execSrWdt h
  | srKpOpen => exact ansForm_execSrKpOpen h
  | srReset => exact ansForm_execSrReset h
  | br => exact ansForm_execBr h
  | fence => exact ansForm_execFence h
  | yield_ => exact ansForm_execYield h
  | halt => exact ansForm_execHalt h
  | trap => exact ansForm_execTrap h
  | varith => exact ansForm_execVarith h
  | vcvt => exact ansForm_execVcvt h
  | vred => exact ansForm_execVred h
  | vcmp => exact ansForm_execVcmp h
  | vmerge => exact ansForm_execVmerge h
  | vmove => exact ansForm_execVmove h
  | nsend => exact ansForm_execNsend h
  | waite => exact ansForm_execWaite h
  | qpush => exact ansForm_execQpush h
  | qpop => exact ansForm_execQpop h
  | qpeek => exact ansForm_execQpeek h
  | pld => exact ansForm_execPld h
  | pldComplete => exact ansForm_execPldComplete h
  | pst => exact ansForm_execPst h
  | pred => exact ansForm_execPred h
  | hcopy => exact ansForm_execHcopy h
  | stallResume => exact ansForm_execStallResume h
  | stall => exact ansForm_execStall h
  | activation => exact ansForm_execActivation h
  | timer => exact ansForm_execTimer h
  | programLoad => exact ansForm_execProgramLoad h
  | programUnload => exact ansForm_atNextTick h fun _ hv => ansForm_cmdProgramUnload hv
  | programStart => exact ansForm_atNextTick h fun _ hv => ansForm_cmdProgramStart hv
  | programStop => exact ansForm_atNextTick h fun _ hv => ansForm_cmdProgramStop hv
  | programBind => exact ansForm_atNextTick h fun _ hv => ansForm_cmdProgramBind hv
  | programUnbind => exact ansForm_atNextTick h fun _ hv => ansForm_cmdProgramUnbind hv
  | threadRead => exact ansForm_atNextTick h fun _ hv => ansForm_cmdThreadRead hv
  | granuleAssign => exact ansForm_atNextTick h fun _ hv => ansForm_cmdGranuleAssign hv
  | granuleRelease => exact ansForm_atNextTick h fun _ hv => ansForm_cmdGranuleRelease hv
  | granuleMirror => exact ansForm_atNextTick h fun _ hv => ansForm_cmdGranuleMirror hv
  | granuleRetire => exact ansForm_atNextTick h fun _ hv => ansForm_cmdGranuleRetire hv
  | granuleLimit => exact ansForm_atNextTick h fun _ hv => ansForm_cmdGranuleLimit hv
  | grant => exact ansForm_atNextTick h fun _ hv => ansForm_cmdGrant hv
  | grantRevoke => exact ansForm_atNextTick h fun _ hv => ansForm_cmdGrantRevoke hv
  | keySet => exact ansForm_atNextTick h fun _ hv => ansForm_cmdKeySet hv
  | scrubStart => exact ansForm_execScrubStart h
  | scrubComplete => exact ansForm_execScrubComplete h
  | patrolRead => exact ansForm_execPatrolRead h
  | reduceCreate => exact ansForm_atNextTick h fun _ hv => ansForm_cmdReduceCreate hv
  | reduceDestroy => exact ansForm_atNextTick h fun _ hv => ansForm_cmdReduceDestroy hv
  | reduceReset => exact ansForm_atNextTick h fun _ hv => ansForm_cmdReduceReset hv
  | ruQuota => exact ansForm_atNextTick h fun _ hv => ansForm_cmdRuQuota hv
  | contributionAccept => exact ansForm_execContributionAccept h
  | chunkComplete => exact ansForm_execChunkComplete h
  | completionItemLink => exact ansForm_execCompletionItemLink h
  | queueCreate => exact ansForm_atNextTick h fun _ hv => ansForm_cmdQueueCreate hv
  | queueDestroy => exact ansForm_atNextTick h fun _ hv => ansForm_cmdQueueDestroy hv
  | queueFlush => exact ansForm_atNextTick h fun _ hv => ansForm_cmdQueueFlush hv
  | flush => exact ansForm_execFlush h
  | queueSet => exact ansForm_atNextTick h fun _ hv => ansForm_cmdQueueSet hv
  | queueOpen => exact ansForm_atNextTick h fun _ hv => ansForm_cmdQueueOpen hv
  | queueClose => exact ansForm_atNextTick h fun _ hv => ansForm_cmdQueueClose hv
  | openingClose => exact ansForm_execOpeningClose h
  | qmQuota => exact ansForm_atNextTick h fun _ hv => ansForm_cmdQmQuota hv
  | sweepEnd => exact ansForm_execSweepEnd h
  | hostPushLink => exact ansForm_execHostPushLink h
  | pushPageWrite => exact ansForm_execPushPageWrite h
  | channelAssign => exact ansForm_atNextTick h fun _ hv => ansForm_cmdChannelAssign hv
  | channelRelease => exact ansForm_atNextTick h fun _ hv => ansForm_cmdChannelRelease hv
  | channelStop => exact ansForm_atNextTick h fun _ hv => ansForm_cmdChannelStop hv
  | channelLimit => exact ansForm_atNextTick h fun _ hv => ansForm_cmdChannelLimit hv
  | shChTail => exact ansForm_execShChTail h
  | pause => exact ansForm_execPause h
  | resume => exact ansForm_execResume h
  | skip => exact ansForm_execSkip h
  | paused => exact ansForm_execPaused h
  | descriptorFetch => exact ansForm_execDescriptorFetch h
  | tailBufferWriteThrough => exact ansForm_execTailBufferWriteThrough h
  | beatIssue => exact ansForm_execBeatIssue h
  | beatComplete => exact ansForm_execBeatComplete h
  | retry => exact ansForm_execRetry h
  | descriptorRetire => exact ansForm_execDescriptorRetire h
  | ethArrange => exact ansForm_atNextTick h fun _ hv => ansForm_cmdEthArrange hv
  | weftListen => exact ansForm_atNextTick h fun _ hv => ansForm_cmdWeftListen hv
  | weftUnlisten => exact ansForm_atNextTick h fun _ hv => ansForm_cmdWeftUnlisten hv
  | weftConnect => exact ansForm_atNextTick h fun _ hv => ansForm_cmdWeftConnect hv
  | weftClose => exact ansForm_atNextTick h fun _ hv => ansForm_cmdWeftClose hv
  | weftMove => exact ansForm_atNextTick h fun _ hv => ansForm_cmdWeftMove hv
  | weftLimit => exact ansForm_atNextTick h fun _ hv => ansForm_cmdWeftLimit hv
  | frameReceive => exact ansForm_execFrameReceive h
  | frameTransmit => exact ansForm_execFrameTransmit h
  | etLink => exact ansForm_execEtLink h
  | send => exact ansForm_execSend h
  | write => exact ansForm_execWrite h
  | reduce => exact ansForm_execReduce h
  | heldPacketDelivery => exact ansForm_execHeldPacketDelivery h
  | ack => exact ansForm_execAck h
  | nak => exact ansForm_execNak h
  | credret => exact ansForm_execCredret h
  | connect => exact ansForm_execConnect h
  | accept => exact ansForm_execAccept h
  | reject => exact ansForm_execReject h
  | close => exact ansForm_execClose h
  | closeAck => exact ansForm_execCloseAck h
  | packetTransmit => exact ansForm_execPacketTransmit h
  | creditGrant => exact ansForm_execCreditGrant h
  | ackTimer => exact ansForm_execAckTimer h
  | retransmissionTimeout => exact ansForm_execRetransmissionTimeout h
  | heldAckTimer => exact ansForm_execHeldAckTimer h
  | connectRetry => exact ansForm_execConnectRetry h
  | closingTimeout => exact ansForm_execClosingTimeout h
  | closedHoldExpiry => exact ansForm_execClosedHoldExpiry h
  | idleReclaim => exact ansForm_execIdleReclaim h
  | reclaimRepeat => exact ansForm_execReclaimRepeat h
  | rateStep => exact ansForm_execRateStep h
  | scAdmit => exact ansForm_atNextTick h fun _ hv => ansForm_cmdScAdmit hv
  | scShare => exact ansForm_atNextTick h fun _ hv => ansForm_cmdScShare hv
  | scClassWeights => exact ansForm_atNextTick h fun _ hv => ansForm_cmdScClassWeights hv
  | schedulingEpoch => exact ansForm_execSchedulingEpoch h
  | clearMax => exact ansForm_execClearMax h
  | memoryRead => exact ansForm_execMemoryRead h
  | memoryWrite => exact ansForm_execMemoryWrite h
  | expansionRomRead => exact ansForm_execExpansionRomRead h
  | configurationRequest => exact ansForm_execConfigurationRequest h
  | completion => exact ansForm_execCompletion h
  | completionTimeout => exact ansForm_execCompletionTimeout h
  | quarantineEnd => exact ansForm_execQuarantineEnd h
  | powerstateWrite => exact ansForm_execPowerstateWrite h
  | powerstateStepEnd => exact ansForm_execPowerstateStepEnd h
  | l1Idle => exact ansForm_execL1Idle h
  | l0pNarrow => exact ansForm_execL0pNarrow h
  | perstAssert => exact ansForm_execPerstAssert h
  | perstDeassert => exact ansForm_execPerstDeassert h
  | hotReset => exact ansForm_execHotReset h
  | linkUp => exact ansForm_execLinkUp h
  | linkDown => exact ansForm_execLinkDown h
  | partnerDetected => exact ansForm_execPartnerDetected h
  | portRelease => exact ansForm_atNextTick h fun _ hv => ansForm_cmdPortRelease hv
  | portMerge => exact ansForm_atNextTick h fun _ hv => ansForm_cmdPortMerge hv
  | initiateFlr => exact ansForm_execInitiateFlr h
  | pfFlr => exact ansForm_execPfFlr h
  | flrComplete => exact ansForm_execFlrComplete h
  | vfEnableClear => exact ansForm_execVfEnableClear h
  | noticePush => exact ansForm_execNoticePush h
  | basting => exact ansForm_execBasting h
  | fnTack => exact ansForm_execFnTack h
  | oldMappingDrained => exact ansForm_execOldMappingDrained h
  | tenantCreate => exact ansForm_atNextTick h fun _ hv => ansForm_cmdTenantCreate hv
  | tenantBind => exact ansForm_atNextTick h fun _ hv => ansForm_cmdTenantBind hv
  | tenantUnbind => exact ansForm_atNextTick h fun _ hv => ansForm_cmdTenantUnbind hv
  | tenantStart => exact ansForm_atNextTick h fun _ hv => ansForm_cmdTenantStart hv
  | tenantFreeze => exact ansForm_atNextTick h fun _ hv => ansForm_cmdTenantFreeze hv
  | tenantThaw => exact ansForm_atNextTick h fun _ hv => ansForm_cmdTenantThaw hv
  | tenantQuiesce => exact ansForm_atNextTick h fun _ hv => ansForm_cmdTenantQuiesce hv
  | tenantRemove => exact ansForm_atNextTick h fun _ hv => ansForm_cmdTenantRemove hv
  | tenantSave => exact ansForm_atNextTick h fun _ hv => ansForm_cmdTenantSave hv
  | tenantRestore => exact ansForm_execTenantRestore h
  | windowAlloc => exact ansForm_atNextTick h fun _ hv => ansForm_cmdWindowAlloc hv
  | windowFree => exact ansForm_atNextTick h fun _ hv => ansForm_cmdWindowFree hv
  | windowStage => exact ansForm_atNextTick h fun _ hv => ansForm_cmdWindowStage hv
  | windowTack => exact ansForm_atNextTick h fun _ hv => ansForm_cmdWindowTack hv
  | windowLimit => exact ansForm_atNextTick h fun _ hv => ansForm_cmdWindowLimit hv
  | dirtyLogStart => exact ansForm_atNextTick h fun _ hv => ansForm_cmdDirtyLogStart hv
  | dirtyLogSwap => exact ansForm_atNextTick h fun _ hv => ansForm_cmdDirtyLogSwap hv
  | dirtyLogStop => exact ansForm_atNextTick h fun _ hv => ansForm_cmdDirtyLogStop hv
  | dirtyLineWrite => exact ansForm_execDirtyLineWrite h
  | programDoorbell => exact ansForm_execProgramDoorbell h
  | smVfPairFence => exact ansForm_execSmVfPairFence h
  | smPairFence => exact ansForm_execSmPairFence h
  | pairConfig => exact ansForm_atNextTick h fun _ hv => ansForm_cmdPairConfig hv
  | pairResync => exact ansForm_atNextTick h fun _ hv => ansForm_cmdPairResync hv
  | pairTenant => exact ansForm_atNextTick h fun _ hv => ansForm_cmdPairTenant hv
  | pairUntenant => exact ansForm_atNextTick h fun _ hv => ansForm_cmdPairUntenant hv
  | pairShadow => exact ansForm_atNextTick h fun _ hv => ansForm_cmdPairShadow hv
  | pairPromote => exact ansForm_atNextTick h fun _ hv => ansForm_cmdPairPromote hv
  | pairUnfence => exact ansForm_atNextTick h fun _ hv => ansForm_cmdPairUnfence hv
  | partnerReplyTimeout => exact ansForm_execPartnerReplyTimeout h
  | seamFrame => exact ansForm_execSeamFrame h
  | lineWrite => exact ansForm_execLineWrite h
  | granuleZero => exact ansForm_execGranuleZero h
  | granuleMap => exact ansForm_execGranuleMap h
  | queueLink => exact ansForm_execQueueLink h
  | queueUnlink => exact ansForm_execQueueUnlink h
  | queueReset => exact ansForm_execQueueReset h
  | object => exact ansForm_execObject h
  | thread => exact ansForm_execThread h
  | scratch => exact ansForm_execScratch h
  | mark => exact ansForm_execMark h
  | hello => exact ansForm_execHello h
  | heartbeat n p => exact ansForm_execHeartbeat (_n := n) (_state := p) h
  | resend => exact ansForm_execResend h
  | failover => exact ansForm_execFailover h
  | mapFail g => exact ansForm_execMapFail (_granule := g) h
  | resync => exact ansForm_execResync h
  | reply => exact ansForm_execReply h
  | heartbeatSend => exact ansForm_execHeartbeatSend h
  | heartbeatLost => exact ansForm_execHeartbeatLost h
  | fenceWaitEnd => exact ansForm_execFenceWaitEnd h
  | fenceIn => exact ansForm_execFenceIn h
  | settleEnd => exact ansForm_execSettleEnd h
  | promoted => exact ansForm_execPromoted h
  | resyncCopyDone => exact ansForm_execResyncCopyDone h
  | seamStepPass => exact ansForm_execSeamStepPass h
  | seamStepFail => exact ansForm_execSeamStepFail h
  | seamRetry => exact ansForm_execSeamRetry h
  | seamLinkDown => exact ansForm_execSeamLinkDown h
  | sourceRaise => exact ansForm_execSourceRaise h
  | recordForm => exact ansForm_execRecordForm h
  | historyWrite => exact ansForm_execHistoryWrite h
  | thTack => exact ansForm_execThTack h
  | thSrcCfg => exact ansForm_execThSrcCfg h
  | thForce => exact ansForm_execThForce h
  | thHistAck => exact ansForm_execThHistAck h
  | faultSeverity => exact ansForm_atNextTick h fun _ hv => ansForm_cmdFaultSeverity hv
  | faultAck => exact ansForm_atNextTick h fun _ hv => ansForm_cmdFaultAck hv
  | stopEnter => exact ansForm_atNextTick h fun _ hv => ansForm_cmdStopEnter hv
  | abortPoint => exact ansForm_execAbortPoint h
  | pointOfNoReturn => exact ansForm_execPointOfNoReturn h
  | domainPower => exact ansForm_atNextTick h fun _ hv => ansForm_cmdDomainPower hv
  | domainSwitchDone => exact ansForm_execDomainSwitchDone h
  | pwDomainTimeout => exact ansForm_execPwDomainTimeout h
  | wakeSet => exact ansForm_atNextTick h fun _ hv => ansForm_cmdWakeSet hv
  | stopStatsClear => exact ansForm_atNextTick h fun _ hv => ansForm_cmdStopStatsClear hv
  | wakeSense => exact ansForm_execWakeSense h
  | mainPg => exact ansForm_execMainPg h
  | wakeWaitTimeout => exact ansForm_execWakeWaitTimeout h
  | brownout => exact ansForm_execBrownout
  | devResetN => exact ansForm_execDevResetN h
  | boot => exact ansForm_execBoot h
  | mgWatchdog => exact ansForm_execMgWatchdog h
  | pllLock => exact ansForm_execPllLock h
  | ckClkSel => exact ansForm_execCkClkSel h
  | ckPllUnlock => exact ansForm_execCkPllUnlock h
  | ckFreq => exact ansForm_execCkFreq h
  | pwSupplyUv => exact ansForm_execPwSupplyUv h
  | pwOvertemp => exact ansForm_execPwOvertemp h
  | thermtripN => exact ansForm_execThermtripN h
  | mcTrainFail => exact ansForm_execMcTrainFail h
  | zeroFillComplete => exact ansForm_execZeroFillComplete h
  | crystalStop => exact ansForm_execCrystalStop h
  | holdover => exact ansForm_execHoldover h
  | laneEqWrite => exact ansForm_atNextTick h fun _ hv => ansForm_cmdLaneEqWrite hv
  | lnLaneCtrl => exact ansForm_execLnLaneCtrl h
  | lnSlip => exact ansForm_execLnSlip h
  | clear => exact ansForm_execClear h
  | inject => exact ansForm_execInject h
  | prbsLock => exact ansForm_execPrbsLock h
  | prbsLockLoss => exact ansForm_execPrbsLockLoss h
  | lnLockLost => exact ansForm_execLnLockLost h
  | managementTick => exact ansForm_execManagementTick h
  | mgMbDoorbell => exact ansForm_execMgMbDoorbell h
  | mgMbRsp => exact ansForm_execMgMbRsp h
  | hpLateLog => exact ansForm_execHpLateLog h
  | etTxTsId => exact ansForm_execEtTxTsId h
  | deviceInfo => exact ansForm_atNextTick h fun _ hv => ansForm_cmdDeviceInfo hv
  | deviceReset => exact ansForm_atNextTick h fun _ hv => ansForm_cmdDeviceReset hv
  | flashWrite => exact ansForm_execFlashWrite h
  | keepWrite => exact ansForm_atNextTick h fun _ hv => ansForm_cmdKeepWrite hv
  | timeSet => exact ansForm_atNextTick h fun _ hv => ansForm_cmdTimeSet hv
  | queuePush => exact ansForm_atNextTick h fun _ hv => ansForm_cmdQueuePush hv
  | queuePop => exact ansForm_atNextTick h fun _ hv => ansForm_cmdQueuePop hv
  | requestBufferWrite => exact ansForm_execRequestBufferWrite h
  | responseBufferRead => exact ansForm_execResponseBufferRead h
  | bmcDoorbell => exact ansForm_execBmcDoorbell h
  | statusRead => exact ansForm_execStatusRead h
  | entdaa => exact ansForm_execEntdaa h
  | setdasa => exact ansForm_execSetdasa h
  | rstdaa => exact ansForm_execRstdaa h
  | enec => exact ansForm_execEnec h
  | disec => exact ansForm_execDisec h
  | getpid => exact ansForm_execGetpid h
  | getbcr => exact ansForm_execGetbcr h
  | getdcr => exact ansForm_execGetdcr h
  | getstatus => exact ansForm_execGetstatus h
  | getmxds => exact ansForm_execGetmxds h
  | registerWrite => exact ansForm_execRegisterWrite h
  | vaon => exact ansForm_execVaon h
  | mcHot => exact ansForm_execMcHot h
  | hbmTrained => exact ansForm_execHbmTrained h
  | lastCellFreed => exact ansForm_execLastCellFreed h
  | flashWriteComplete => exact ansForm_execFlashWriteComplete h
  | heartbeatMiss => exact ansForm_execHeartbeatMiss h
  | pauseQuantaExpiry => exact ansForm_execPauseQuantaExpiry h
  | linkError => exact ansForm_execLinkError h
  | partnerL1Request => exact ansForm_execPartnerL1Request h
  | postedCredit => exact ansForm_execPostedCredit h

/-- Settles O59: a step without a command lets a cycle pass, and every other step is a row of the command table. -/
theorem stepKeepsPoolForm : Obligations.StepKeepsPoolForm := by
  intro s t h hstep
  have hnext : AnsForm (step s) := by
    unfold step
    split
    · simpa using h
    · exact ansForm_exec (by exact h) _
  rwa [hstep] at hnext

end Sys2Proof.Proofs
end

section
/-! SUPPORT. Reduction (chapter 05): what accepting a contribution line does to the counts and the accumulators of its chunk (R135,
R144, R150). -/

namespace Sys2Proof.Proofs
open Sys2Proof Sys2Proof.Machine

/-! Accumulators (R135) -/

/-- Consecutive elements are applied to consecutive accumulators, each once. -/
theorem get_accLine (format op : Nat) (els : List Nat) (i j : Nat) (m : Table Acc) :
    Tab.get {} (accLine format op i els m) j =
      if h : i ≤ j ∧ j - i < els.length then accApply format op (els[j - i]'h.2) (Tab.get {} m j) else Tab.get {} m j := by
  induction els generalizing i m with
  | nil => simp [accLine]
  | cons el els ih =>
    rw [accLine, ih, Tab.upd, Tab.get_set]
    rcases lt_trichotomy j i with hj | rfl | hj
    · rw [dif_neg (by omega), dif_neg (by omega), if_neg (by omega)]
    · simp
    · obtain ⟨d, rfl⟩ : ∃ d, j = i + 1 + d := ⟨j - (i + 1), by omega⟩
      rw [if_neg (by omega)]
      simp [show i + 1 + d - i = d + 1 by omega, show i + 1 ≤ i + 1 + d by omega, show i ≤ i + 1 + d by omega]

/-- An accumulator of the line takes its own lane. -/
theorem get_accLine_lane (format op l : Nat) (data : Line) (m : Table Acc) {j : Nat} (hj : j < etLanes format) :
    Tab.get {} (accLine format op (etLanes format * l) (lanesOf data format) m) (etLanes format * l + j) =
      accApply format op (lane data (etSize format) j) (Tab.get {} m (etLanes format * l + j)) := by
  rw [get_accLine, dif_pos ⟨Nat.le_add_right .., by simpa [lanesOf, upto_length] using hj⟩]
  simp [lanesOf, upto_getElem]

/-- The accumulators of other lines keep their values. -/
theorem get_accLine_other_line (format op : Nat) (data : Line) (m : Table Acc) {i l : Nat} (hi : i / etLanes format ≠ l) :
    Tab.get {} (accLine format op (etLanes format * l) (lanesOf data format) m) i = Tab.get {} m i := by
  rw [get_accLine, dif_neg]
  rintro ⟨hle, hlt⟩
  rw [lanesOf, List.length_map, upto_length] at hlt
  exact hi (Nat.div_eq_of_lt_le (by rwa [Nat.mul_comm]) (by rw [Nat.mul_comm, Nat.mul_succ]; omega))

/-! Chunks (R144, R150) -/

theorem chunk?_setChunk_same (s : State) (w c : Nat) (k : Chunk) : chunk? (setChunk s w c k) w c = some k :=
  (Tab.find_put ..).trans (if_pos rfl)

/-- The chunk of an EXACT window after a line that it takes: the line is counted once more, marked if it is poisoned, and its elements
are applied. -/
def absorbedChunk (k : Contrib) (x : RWin) (ch : Chunk) : Chunk :=
  let l := k.offset % 65536 / 64
  { ch with
    counts := Tab.set 0 ch.counts l (Tab.get 0 ch.counts l + 1)
    poison := if k.poison then Tab.set false ch.poison l true else ch.poison
    accs := accLine x.format x.op (etLanes x.format * l) (lanesOf k.data x.format) ch.accs }

theorem get_counts_absorbedChunk (k : Contrib) (x : RWin) (ch : Chunk) (j : Nat) :
    Tab.get 0 (absorbedChunk k x ch).counts j =
      if j = k.offset % 65536 / 64 then Tab.get 0 ch.counts (k.offset % 65536 / 64) + 1 else Tab.get 0 ch.counts j := by
  simp only [absorbedChunk, Tab.get_set]

/-- An EXACT line that is not in excess is absorbed; that it may have filled the chunk changes neither a count nor an accumulator. -/
theorem chunk?_applyLine_exact {s : State} {k : Contrib} {x : RWin} {c : Nat} {ch : Chunk} (ha : x.arrival = false)
    (hn : Tab.get 0 ch.counts (k.offset % 65536 / 64) ≤ x.contribM1) :
    ∃ d, chunk? (applyLine s k x c ch) k.window c = some d ∧ d.counts = (absorbedChunk k x ch).counts ∧
      d.accs = (absorbedChunk k x ch).accs := by
  unfold applyLine
  rw [if_neg (Nat.not_lt.mpr hn)]
  simp only [ha, Bool.false_eq_true, if_false, chunk?_setChunk_same]
  change ∃ d, chunk? (if chunkFull x c (absorbedChunk k x ch) = true then _ else _) k.window c = some d ∧ _
  split
  · exact ⟨_, chunk?_setChunk_same .., rfl, rfl⟩
  · exact ⟨absorbedChunk k x ch, chunk?_setChunk_same .., rfl, rfl⟩

/-- Settles O21: the line is applied, which counts it and gives each of its accumulators its own lane. -/
theorem lineIsCounted : Obligations.LineIsCounted := by
  rintro s t k x c l ch hx he hr rfl rfl hc ha - hch hn ht
  rw [presentLine_open hx he hr hc (by simp [ha]) hch] at ht
  cases ht
  obtain ⟨d, hd, hcounts, haccs⟩ := chunk?_applyLine_exact (s := s) (c := k.offset / 65536) ha hn
  refine ⟨d, hd, ?_, ?_, ?_, ?_⟩
  · rw [hcounts, get_counts_absorbedChunk, if_pos rfl]
  · intro j hj
    rw [hcounts, get_counts_absorbedChunk, if_neg hj]
  · intro j hj
    rw [haccs]
    exact get_accLine_lane _ _ _ _ _ hj
  · intro i hi
    rw [haccs]
    exact get_accLine_other_line _ _ _ _ hi

end Sys2Proof.Proofs
end

section
/-! SUPPORT. The reduce commands: what each does once no rule refuses it (R130, R140, R152, R153, Table 05-9). -/

namespace Sys2Proof.Proofs
open Sys2Proof Sys2Proof.Machine

/-- What R130 and R141 ask of a REDUCE_CREATE: an owner, sizes, a region, a queue and a reserve in form, and a free number. -/
structure Creatable (s : State) (a : ReduceArgs) (w : Nat) : Prop where
  live : Live s a.ctx
  combo : legalCombo a.arrival a.format a.op = true
  contributors : 1 ≤ a.contributors ∧ a.contributors ≤ 4096
  chunks : 1 ≤ a.chunks ∧ a.chunks ≤ 65536
  lastLines : 1 ≤ a.lastLines ∧ a.lastLines ≤ 1024
  prio : a.cqPrio ≤ 7
  align : a.result % 65536 = 0
  ends : a.result + 65536 * a.chunks ≤ 2 ^ 38
  queue : (queue? s a.cq).map (fun q => q.ctx) = some a.ctx
  region : ∀ c, c < a.chunks → regionOk s a c = true
  free : lowestInHalf s s.ru.windows 2048 4096 = some w
  reserve : a.rsv = true → rsvRoom s (newWindow a) = true
  refs : ∀ g ∈ regionGranules s (newWindow a), (gran s g).refs < 255

/-- A region in form lies in granules of the owner, each of which can be referred to once more, and the units can reserve for it. -/
theorem Creatable.room {s : State} {a : ReduceArgs} {w : Nat} (h : Creatable s a w) :
    (upto 0 a.chunks).all (regionOk s a) = true ∧ (a.rsv && !rsvRoom s (newWindow a)) = false ∧
      (regionGranules s (newWindow a)).any (fun g => decide (255 ≤ (gran s g).refs)) = false := by
  refine ⟨List.all_eq_true.mpr fun c hmem => h.region c ?_, ?_, List.any_eq_false.mpr fun g hmem => ?_⟩
  · simpa using ((mem_upto ..).mp hmem).2
  · simpa using h.reserve
  · simpa using h.refs g hmem

theorem doReduceCreate_creates {s : State} {a : ReduceArgs} {w : Nat} (h : Creatable s a w) :
    doReduceCreate s a = (journalObject ((regionGranules s (newWindow a)).foldl (addRef true) (setRwin s w (newWindow a))) a.ctx 4 w,
      some { status := .ok, results := [(2, w)] }) := by
  obtain ⟨hle, hmissing, hfrozen⟩ := h.live
  obtain ⟨hregion, hrsv, hrefs⟩ := h.room
  unfold doReduceCreate
  rw [h.free]
  refine guardAll_open ?_ _
  simpa [hmissing, hfrozen, hle, hregion, hrsv, hrefs, h.combo, h.contributors, h.chunks, h.lastLines, h.prio, h.align, h.queue]
    using h.ends

/-- A window of a live context is commanded. -/
theorem withWindow_live {s : State} {w : Nat} {x : RWin} (hx : rwin? s w = some x) (hl : Live s x.ctx) (body : Done) :
    withWindow s w body = body := by
  obtain ⟨-, hmissing, hfrozen⟩ := hl
  unfold withWindow
  rw [hx]
  exact guardAll_open (by simp [hmissing, hfrozen]) _

/-- A quota of a live context, for one unit or for all, is set at the next scheduling epoch (R140). -/
theorem doRuQuota_sets {s : State} {ctx n : Nat} {unit : Option Nat} (hl : Live s ctx) (hu : unit.getD 0 < 8) (hn : n ≤ 48) :
    doRuQuota s ctx unit n = done ((unit.elim (upto 0 8) (fun k => [k])).foldl (fun u k => atEpoch u (.ruQuota k ctx n)) s) := by
  obtain ⟨hle, hmissing, hfrozen⟩ := hl
  unfold doRuQuota
  rw [guardAll_open (by simp [hmissing, hfrozen, hle, hu, hn])]
  cases unit <;> rfl

/-- Settles O19: each command, by what it does in the tick that takes it up. -/
theorem reduceCommands : Obligations.ReduceCommands := by
  refine fun r s src hr => ⟨?_, ?_, ?_, ?_, ?_⟩
  -- REDUCE_CREATE
  · exact fun a w hs hl hcombo hn hn' hc hc' hlast hlast' hp halign hend hq hregion hfree hrsv hrefs =>
      atNextTick_answers hr hs (doReduceCreate_creates (s := accepted s src)
        ⟨hl, hcombo, ⟨hn, hn'⟩, ⟨hc, hc'⟩, ⟨hlast, hlast'⟩, hp, halign, hend, hq, hregion, hfree, hrsv, hrefs⟩)
  -- REDUCE_DESTROY
  · exact fun w x hs hx hl => atNextTick_answers hr hs (withWindow_live (s := accepted s src) hx hl _)
  -- REDUCE_RESET
  · exact fun w x hs hx hl => atNextTick_answers hr hs (withWindow_live (s := accepted s src) hx hl _)
  -- RU_QUOTA
  · exact fun ctx k n hs hl hk hn => atNextTick_answers hr hs
      (doRuQuota_sets (s := accepted s src) (unit := some k) hl hk hn)
  · exact fun ctx n hs hl hn => atNextTick_answers hr hs
      (doRuQuota_sets (s := accepted s src) (unit := none) hl (by decide) hn)

end Sys2Proof.Proofs
end

section
/-! SUPPORT. Contributions: the checks in their order, a waiting line served, refused or applied, a full chunk completed, and the items
that waited linked (R133, R140, R143, R144, R146, R147, R149, R150). -/

namespace Sys2Proof.Proofs
open Sys2Proof Sys2Proof.Machine

/-! The checks (R133) -/

section
variable {s : State} {tag : BitVec 11} {w c o : Nat} {x : RWin}

theorem contribCheck_no_window (h : rwin? s w = none) (e : Option Nat) : contribCheck s tag w c o e = some .owner := by
  rw [contribCheck, h]

theorem contribCheck_owner (hx : rwin? s w = some x) (h : x.ctx ≠ tagCtx tag ∨ x.contribM1 < c) (e : Option Nat) :
    contribCheck s tag w c o e = some .owner := by
  simp only [contribCheck, hx]
  exact if_pos h

/-- The owner's contributor has its offset checked, then its epoch. -/
theorem contribCheck_owned (hx : rwin? s w = some x) (hctx : x.ctx = tagCtx tag) (hc : c ≤ x.contribM1) (e : Nat) :
    contribCheck s tag w c o (some e) =
      if offRange x o = true then some .range else if e % 256 = x.epoch % 256 then none else some .stale := by
  simp only [contribCheck, hx]
  exact if_neg (by simp [hctx, hc])

end

/-! A waiting line (R143, R146, R249, R361) -/

/-- A line leaves the waiting lines. -/
def withoutLine (s : State) (i : Nat) : State := { s with ru := { s.ru with waiting := s.ru.waiting.eraseIdx i } }

/-- The line as it enters its unit, where the staging that it uses had an error or not (R150). -/
def struckLine (ecc : Ecc) (k : Contrib) : Contrib := if ecc = .uncorrectable then { k with poison := true } else k

/-- The error changes neither where the line comes from nor where it goes. -/
theorem struckLine_route (ecc : Ecc) (k : Contrib) :
    (struckLine ecc k).src = k.src ∧ (struckLine ecc k).tag = k.tag ∧ (struckLine ecc k).window = k.window := by
  unfold struckLine
  split <;> exact ⟨rfl, rfl, rfl⟩

/-- A line of a thread, a host or a channel comes from no packet. -/
theorem source_not_weft {src : ContribSource} (h : (∃ n, src = .thread n) ∨ (∃ p f, src = .host p f) ∨ (∃ n, src = .shuttle n))
    (c n : Nat) : src ≠ .weft c n := by
  rintro rfl
  simp at h

/-- The answer to a line that was taken: the port of a line that a host posted is noted with the records of the line (R334). -/
def tookLine (src : ContribSource) (t : State) (was : Nat) : Ans :=
  match src with
  | .host p _ => .next (notePort t p was)
  | _ => .next t

theorem tookLine_of_not_host {src : ContribSource} (h : ∀ p f, src ≠ .host p f) (t : State) (was : Nat) :
    tookLine src t was = .next t := by
  cases src with
  | host p f => exact absurd rfl (h p f)
  | thread | weft | shuttle => rfl

/-- A line of a stale epoch is not accepted (R146). -/
theorem presentLine_stale {s : State} {k : Contrib} {x : RWin} (hx : rwin? s k.window = some x) (he : x.epoch ≠ k.epoch) :
    presentLine s k = .stale := by
  simp only [presentLine, hx]
  exact if_pos he

/-- A line that its unit would not accept passes no arbiter. -/
theorem serveLine_of_not_canEnter {s : State} (i : Nat) {k : Contrib} (h : canEnter s k = false) : serveLine s i k = some s := by
  unfold serveLine
  split
  · rfl
  · rw [h]; rfl

section
variable {s u : State} {i : Nat} {k : Contrib} {ecc : Ecc}

/-- What a served line comes to, by what its presentation comes to. -/
def servedLine (s u : State) (i : Nat) (k : Contrib) (ecc : Ecc) : Ans :=
  let v := stageEcc (withoutLine u i) ecc k.tag k.window
  let j := struckLine ecc k
  match presentLine v j with
  | .took t => tookLine j.src t u.sm.jsnSent
  | .stale =>
    match j.src with
    | .weft _ _ => idle u
    | _ => .next (contribRefuse v j.tag j.window .stale)
  | .wait _ => idle s

/-- Outside safe state, a line that none of its source's lines precedes and that the arbiter serves is presented. -/
theorem execContributionAccept_served (hk : s.ru.waiting[i]? = some k) (ha : aheadOf s.ru.waiting i k = false)
    (hsafe : s.th.safe = false) (hu : serveLine s i k = some u) : execContributionAccept i ecc s = servedLine s u i k ecc := by
  have hs : (if s.th.safe = true then useFree s else s) = s := if_neg (by simp [hsafe])
  unfold execContributionAccept
  simp only [hk]
  rw [if_neg (by simp [ha, hsafe]), if_neg (by simp [hsafe])]
  simp only [hs, hu]
  rfl

/-- A served line that its unit accepts. -/
theorem execContributionAccept_took {t : State} (hk : s.ru.waiting[i]? = some k) (ha : aheadOf s.ru.waiting i k = false)
    (hsafe : s.th.safe = false) (hu : serveLine s i k = some u)
    (hp : presentLine (stageEcc (withoutLine u i) ecc k.tag k.window) (struckLine ecc k) = .took t) :
    execContributionAccept i ecc s = tookLine k.src t u.sm.jsnSent := by
  obtain ⟨hsrc, -⟩ := struckLine_route ecc k
  rw [execContributionAccept_served hk ha hsafe hu]
  simp only [servedLine, hp, hsrc]

/-- A waiting line of an open chunk that the arbiter serves is applied. -/
theorem execContributionAccept_applies {x : RWin} {ch : Chunk} (hk : s.ru.waiting[i]? = some k)
    (ha : aheadOf s.ru.waiting i k = false) (hsafe : s.th.safe = false) (hx : rwin? s k.window = some x) (he : x.epoch = k.epoch)
    (hr : ctxMode s x.ctx = .running) (hc : x.complete.contains (k.offset / 65536) = false)
    (hroom : x.arrival = true → writeRoom s (chunkGranule s x (k.offset / 65536) * granuleBytes) 64 = true)
    (hch : chunk? s k.window (k.offset / 65536) = some ch) (hu : serveLine s i k = some u) :
    execContributionAccept i .ok s =
      tookLine k.src (applyLine (withoutLine u i) k x (k.offset / 65536) ch) s.sm.jsnSent := by
  have hsc := serveLine_sc hu
  have hp : presentLine (withoutLine u i) k = .took (applyLine (withoutLine u i) k x (k.offset / 65536) ch) := by
    rw [hsc]
    exact presentLine_open (s := withoutLine { s with sc := u.sc } i) hx he hr hc hroom hch
  have hjsn : u.sm.jsnSent = s.sm.jsnSent := by rw [hsc]
  rw [← hjsn]
  exact execContributionAccept_took (ecc := .ok) hk ha hsafe hu hp

/-- A waiting line of a thread, a host or a channel whose epoch is over is refused; its arbiter is not asked (R146). -/
theorem execContributionAccept_stale {x : RWin} (hk : s.ru.waiting[i]? = some k) (ha : aheadOf s.ru.waiting i k = false)
    (hsafe : s.th.safe = false) (hx : rwin? s k.window = some x) (he : x.epoch ≠ k.epoch) (hsrc : ∀ c n, k.src ≠ .weft c n) :
    execContributionAccept i .ok s = .next (contribRefuse (withoutLine s i) k.tag k.window .stale) := by
  have hnot : canEnter s k = false := by rw [canEnter, presentLine_stale hx he]
  have hp : presentLine (withoutLine s i) k = .stale := presentLine_stale hx he
  rw [execContributionAccept_served hk ha hsafe (serveLine_of_not_canEnter i hnot)]
  simp only [servedLine, stageEcc, struckLine, reduceCtorEq, if_false, hp]

end

/-! Completion (R147, R149) -/

section
variable {s : State} {w c : Nat} {k : Chunk}

/-- The items of a chunk whose results are written are linked once no ABANDONED item is owed. -/
theorem execCompletionItemLink_items (ho : s.ru.owed = []) (hk : chunk? s w c = some k) (hp : k.phase = .items)
    (hf : ctxMode s (winCtx s w) ≠ .frozen) : execCompletionItemLink w c s = .next (linkItems s w c) := by
  have hs : linkOwed w s.ru.owed s [] = s := by rw [ho, linkOwed, ← ho]
  unfold execCompletionItemLink
  simp only [hs, hk]
  exact if_pos ⟨hp, hf⟩

/-- A chunk that has no results yet has no items: the owed ones alone are linked. -/
theorem execCompletionItemLink_owed (hk : chunk? (linkOwed w s.ru.owed s []) w c = some k) (hp : k.phase ≠ .items) :
    execCompletionItemLink w c s = .next (linkOwed w s.ru.owed s []) := by
  unfold execCompletionItemLink
  simp only [hk]
  exact if_neg fun h => hp h.1

end

/-- Settles O20: the checks, the four outcomes of a waiting line, the completion of a chunk, and the items. -/
theorem contributions : Obligations.Contributions := by
  refine ⟨fun s tag w c o e x => ⟨?_, ?_, ?_, ?_, ?_, ?_⟩, fun s w c => ⟨?_, ?_, ?_, ?_, ?_, ?_, ?_⟩⟩
  -- the checks
  · exact fun h => contribCheck_no_window h _
  · exact fun hx h => contribCheck_owner hx (.inl h) _
  · exact fun hx h => contribCheck_owner hx (.inr h) _
  · intro hx hctx hc ho
    rw [contribCheck_owned hx hctx hc, if_pos ho]
  · intro hx hctx hc ho he
    rw [contribCheck_owned hx hctx hc, if_neg (by simp [ho]), if_neg he]
  · intro hx hctx hc ho he
    rw [contribCheck_owned hx hctx hc, if_neg (by simp [ho]), if_pos he]
  -- a waiting line
  · intro i k x ch hk ha hsafe h0 hx he hr hc harr hch hsrc
    exact (execContributionAccept_applies hk ha hsafe hx he hr hc (by simp [harr]) hch (serveLine_of_sc0 s i h0)).trans
      (tookLine_of_not_host hsrc _ _)
  · intro i k x ch u hk ha hsafe hx he hr hc hroom hch hu t
    rw [show exec (.contributionAccept i .ok) s = _ from execContributionAccept_applies hk ha hsafe hx he hr hc hroom hch hu]
    cases k.src <;> rfl
  · exact fun i k x hk ha hsafe hx he hsrc => execContributionAccept_stale hk ha hsafe hx he (source_not_weft hsrc)
  · rintro i k ecc u t hk ha hsafe ⟨n, hn⟩ hu hp
    exact (execContributionAccept_took hk ha hsafe hu hp).trans (tookLine_of_not_host (by simp [hn]) _ _)
  -- completion
  · intro x k ecc hx hk hp hf hm
    change execChunkComplete w c ecc s = _
    unfold execChunkComplete
    simp only [hx, hk]
    rw [if_neg (by simp [hp, hf]), if_neg (by simp [hm])]
  · exact fun k ho hk hp hf => execCompletionItemLink_items ho hk hp hf
  · exact fun k hk hp => execCompletionItemLink_owed hk hp

end Sys2Proof.Proofs
end

section
/-! SUPPORT. The order of a queue's items: its head, and the items that a push discards (R54, R160, R165). -/

namespace Sys2Proof.Proofs
open Sys2Proof Sys2Proof.Machine

/-! The head (R54, R160) -/

/-- The oldest item of a priority; where there is none, the head of the lower ones stands. -/
def headStep (x : Queue) (below : Option Item) (p : Nat) : Option Item :=
  (x.items.find? (fun i => i.prio == p)).or below

theorem headItem_eq_foldl (x : Queue) : headItem x = (upto 0 8).foldl (headStep x) none := by
  unfold headItem
  congr 1
  funext below p
  unfold headStep
  cases x.items.find? (fun i => i.prio == p) <;> rfl

/-- Over a run of rising priorities: the head of the lower ones stands where the run has no item, or the answer is the oldest item of
its own priority and no item of the run is above it. -/
theorem foldl_headStep {x : Queue} {lo n : Nat} {below : Option Item} {i : Item}
    (h : (upto lo n).foldl (headStep x) below = some i) :
    (below = some i ∧ ∀ j ∈ x.items, j.prio < lo + n → j.prio < lo) ∨
      (x.items.find? (fun j => j.prio == i.prio) = some i ∧ ∀ j ∈ x.items, j.prio < lo + n → j.prio ≤ i.prio) := by
  induction n generalizing lo below with
  | zero => exact .inl ⟨h, fun _ _ hj => hj⟩
  | succ n ih =>
    rw [show lo + (n + 1) = lo + 1 + n by omega]
    rcases ih h with ⟨hlo, habove⟩ | hhead
    · cases hf : x.items.find? (fun j => j.prio == lo) with
      | none =>
        have hno : ∀ j ∈ x.items, j.prio ≠ lo := by simpa using hf
        refine .inl ⟨by simpa [headStep, hf] using hlo, fun j hj hlt => ?_⟩
        have := habove j hj hlt
        have := hno j hj
        omega
      | some k =>
        obtain rfl : k = i := by simpa [headStep, hf] using hlo
        have hk : k.prio = lo := by simpa using List.find?_some hf
        exact .inr ⟨by rw [hk]; exact hf, fun j hj hlt => hk ▸ Nat.lt_succ_iff.mp (habove j hj hlt)⟩
    · exact .inr hhead

/-- Settles O11: the search for the head ends with the oldest item of its priority, and none of the eight is above it. -/
theorem headIsOldestOfHighest : Obligations.HeadIsOldestOfHighest := by
  intro x i hprio hi
  rw [headItem_eq_foldl] at hi
  rcases foldl_headStep hi with ⟨hnone, -⟩ | ⟨hfirst, htop⟩
  · cases hnone
  · obtain ⟨-, pre, post, hsplit, hpre⟩ := List.find?_eq_some_iff_append.mp hfirst
    exact ⟨List.mem_of_find?_eq_some hfirst, fun j hj => htop j hj (by simpa using hprio j hj), pre, post, hsplit,
      by simpa using hpre⟩

/-! The items that a push discards (R165) -/

/-- What a push may discard of a queue, in the order in which it does: for its owner, what the mode gives; for a sender, nothing. -/
def discardable (x : Queue) (ctx prio : Nat) : List Item :=
  if ctx ≠ x.ctx then []
  else
    match x.mode with
    | .hold => []
    | .overwrite => discardOrder x
    | .shed => (discardOrder x).filter (fun i => decide (i.prio < prio))

theorem mem_discardOrder {x : Queue} {i : Item} : i ∈ discardOrder x ↔ i ∈ x.items ∧ tagCtx i.tag = x.ctx ∧ i.prio < 8 := by
  simp only [discardOrder, List.mem_flatMap, mem_upto, List.mem_filter, ownItem, Bool.and_eq_true, beq_iff_eq]
  constructor
  · rintro ⟨p, ⟨-, hp⟩, hi, hown, rfl⟩
    exact ⟨hi, hown, by omega⟩
  · rintro ⟨hi, hown, hp⟩
    exact ⟨i.prio, ⟨Nat.zero_le _, by omega⟩, hi, hown, rfl⟩

theorem upto_pairwise (lo n : Nat) : (upto lo n).Pairwise (· < ·) := by
  induction n generalizing lo with
  | zero => exact .nil
  | succ n ih => exact .cons (fun k hk => ((mem_upto ..).mp hk).1) (ih _)

/-- The lowest priority comes first. -/
theorem discardOrder_rises (x : Queue) : (discardOrder x).Pairwise (fun i j => i.prio ≤ j.prio) := by
  rw [discardOrder, List.pairwise_flatMap]
  refine ⟨fun p _ => List.pairwise_of_forall_mem_list fun i hi j hj => ?_, (upto_pairwise 0 8).imp fun {p r} hlt i hi j hj => ?_⟩
  all_goals
    simp only [List.mem_filter, Bool.and_eq_true, beq_iff_eq] at hi hj
    omega

theorem discardable_sublist (x : Queue) (ctx prio : Nat) : (discardable x ctx prio).Sublist (discardOrder x) := by
  unfold discardable
  split
  · exact List.nil_sublist _
  · split
    · exact List.nil_sublist _
    · exact List.Sublist.refl _
    · exact List.filter_sublist

theorem discardable_shed {x : Queue} {ctx prio : Nat} {i : Item} (hm : x.mode = .shed) (hi : i ∈ discardable x ctx prio) :
    i.prio < prio := by
  unfold discardable at hi
  split at hi
  · cases hi
  · simp only [hm, List.mem_filter, decide_eq_true_eq] at hi
    exact hi.2

/-- Where an item may be discarded, so may the owner's items of a lower priority. -/
theorem discardable_lower {x : Queue} {ctx prio : Nat} {i j : Item} (hi : i ∈ discardable x ctx prio) (hj : j ∈ discardOrder x)
    (hlt : j.prio < i.prio) : j ∈ discardable x ctx prio := by
  unfold discardable at hi ⊢
  split at hi
  · cases hi
  · next hown =>
    rw [if_neg hown]
    cases hm : x.mode with
    | hold => simp [hm] at hi
    | overwrite => exact hj
    | shed =>
      simp only [hm, List.mem_filter, decide_eq_true_eq] at hi ⊢
      exact ⟨hj, hlt.trans hi.2⟩

theorem discardFor_prefix {room : Nat → Bool} {c : List Item} {f : Nat} {acc l : List Item} (h : discardFor room c f acc = some l) :
    ∃ d, d <+: c ∧ l = acc ++ d := by
  induction c generalizing f acc with
  | nil =>
    obtain ⟨-, rfl⟩ : room f = true ∧ acc = l := by simpa [discardFor] using h
    exact ⟨[], List.prefix_rfl, (List.append_nil _).symm⟩
  | cons i t ih =>
    rw [discardFor] at h
    split at h
    · cases h
      exact ⟨[], List.nil_prefix, (List.append_nil _).symm⟩
    · obtain ⟨d, hd, rfl⟩ := ih h
      exact ⟨i :: d, (List.prefix_cons_inj i).mpr hd, by simp⟩

/-- A push discards a first part of what it may discard. -/
theorem discards_prefix {s : State} {q : Nat} {x : Queue} {tag : BitVec 11} {prio n : Nat} {l : List Item}
    (h : discards s q x tag prio n = some l) : l <+: discardable x (tagCtx tag) prio := by
  unfold discards at h
  split at h
  · cases h
  split at h
  · split at h <;> cases h
    exact List.nil_prefix
  · next hown =>
    obtain ⟨d, hd, rfl⟩ := discardFor_prefix h
    rw [discardable, if_neg hown]
    exact hd

/-- A first part of a list of rising priorities holds, with an item, all that is below it. -/
theorem mem_prefix_of_lower {l c : List Item} {i j : Item} (hl : l <+: c) (hc : c.Pairwise (fun i j => i.prio ≤ j.prio)) (hi : i ∈ l)
    (hj : j ∈ c) (hlt : j.prio < i.prio) : j ∈ l := by
  obtain ⟨r, rfl⟩ := hl
  refine (List.mem_append.mp hj).resolve_right fun hr => ?_
  exact absurd ((List.pairwise_append.mp hc).2.2 i hi j hr) (Nat.not_le.mpr hlt)

/-! A push that links (R160, R161) -/

@[simp] theorem raiseEvent_qm (s : State) (kind : EvKind) (source : Nat) (arg : Word) (err : Option Nat) :
    (raiseEvent s kind source arg err).qm = s.qm := by
  unfold raiseEvent
  split
  · rfl
  · dsimp only
    split <;> rfl

@[simp] theorem journalAdd_qm (s : State) (kind : Nat) (tag : BitVec 11) (target aux : Word) (body : Bytes) (poison resync : Bool) :
    (journalAdd s kind tag target aux body poison resync).qm = s.qm := by
  unfold journalAdd
  split
  · dsimp only
    split <;> rfl
  · rfl

@[simp] theorem journalQueue_qm (s : State) (x : Queue) (kind target aux : Nat) : (journalQueue s x kind target aux).qm = s.qm := by
  unfold journalQueue
  split
  · exact journalAdd_qm ..
  · rfl

@[simp] theorem linkRecords_qm (q prio len : Nat) (tag : BitVec 11) (poison resync : Bool) (n : Nat) (b : Bytes) (s : State) :
    (linkRecords q prio len tag poison resync n b s).qm = s.qm := by
  induction n generalizing b s with
  | zero => rfl
  | succ n ih => exact (ih _ _).trans (journalAdd_qm ..)

@[simp] theorem journalLink_qm (s : State) (q ctx prio : Nat) (b : Bytes) (poison resync : Bool) :
    (journalLink s q ctx prio b poison resync).qm = s.qm := linkRecords_qm ..

@[simp] theorem noteLow_qm (s : State) : (noteLow s).qm = s.qm := by
  unfold noteLow
  split
  · exact regSet_qm ..
  · rfl

/-- Queues are read from Bobbin's own state. -/
theorem queue?_of_qm {s t : State} (h : s.qm = t.qm) (q : Nat) : queue? s q = queue? t q := by rw [queue?, queue?, h]

theorem queue?_setQueue_same (s : State) (q : Nat) (x : Queue) : queue? (setQueue s q x) q = some x := by
  rw [queue__setQueue, if_pos rfl]

theorem queue?_takeCell (s : State) (q : Nat) : queue? (takeCell s).2 q = queue? s q := by
  unfold takeCell
  split
  · rfl
  · split <;> rfl

theorem queue?_takeCells (n : Nat) (s : State) (q : Nat) : queue? (takeCells n s).2 q = queue? s q := by
  induction n generalizing s with
  | zero => rfl
  | succ n ih => exact (ih (takeCell s).2).trans (queue?_takeCell s q)

theorem takeCells_length (n : Nat) (s : State) : (takeCells n s).1.length = n := by
  induction n generalizing s with
  | zero => rfl
  | succ n ih => exact congrArg (· + 1) (ih (takeCell s).2)

/-- The end of an opening changes the opening only (R168). -/
theorem settleOpening_eq (x : Queue) :
    ∃ o l c, settleOpening x = { x with openTid := o, sendLimit := l, closing := c } := by
  unfold settleOpening
  split
  · exact ⟨_, _, _, rfl⟩
  · exact ⟨x.openTid, x.sendLimit, x.closing, rfl⟩

@[simp] theorem settleOpening_items (x : Queue) : (settleOpening x).items = x.items := by
  obtain ⟨o, l, c, h⟩ := settleOpening_eq x
  rw [h]

theorem queue?_linkCells {s : State} {q : Nat} {x : Queue} (hq : queue? s q = some x) (prio : Nat) (tag : BitVec 11) (b : Bytes)
    (poison : Bool) (cells : List Nat) :
    queue? (linkCells s q prio tag b poison cells) q =
      some (settleOpening { x with items := x.items ++ [⟨b, prio, poison, tag, cells⟩] }) := by
  simp only [linkCells, hq]
  rw [queue?_of_qm (noteLow_qm _)]
  split
  · rw [queue?_of_qm (journalLink_qm ..), queue?_setQueue_same]
  · exact queue?_setQueue_same ..

/-- The queue after a push that discards nothing: its item is the last. -/
theorem queue?_pushed {s : State} {q : Nat} {x : Queue} (hq : queue? s q = some x) (prio : Nat) (tag : BitVec 11) (b : Bytes)
    (poison : Bool) :
    queue? (pushed s q prio tag b poison) q =
      some (settleOpening { x with items := x.items ++ [⟨b, prio, poison, tag, (takeCells (cellsOf b.length) s).1⟩] }) := by
  rw [pushed, queue?_of_qm (raiseEvent_qm ..)]
  exact queue?_linkCells ((queue?_takeCells ..).trans hq) ..

theorem push_admitted {s : State} {q prio : Nat} {tag : BitVec 11} {b : Bytes} (h : Admits s q prio tag b.length) (poison : Bool) :
    push s q prio tag b poison = (.linked false, pushed s q prio tag b poison) := by
  obtain ⟨x, hq, hm, hd, hr⟩ := h.found
  exact push_links poison hq hm hd hr

theorem push_missing {s : State} {q : Nat} (hq : queue? s q = none) (prio : Nat) (tag : BitVec 11) (b : Bytes) (poison : Bool) :
    push s q prio tag b poison = (.access, qmRefuse s q tag) := by
  rw [push, pushBy]
  simp only [hq]

theorem push_refused {s : State} {q : Nat} {tag : BitVec 11} {x : Queue} (hq : queue? s q = some x)
    (hm : mayPush x (tagCtx tag) = false) (prio : Nat) (b : Bytes) (poison : Bool) :
    push s q prio tag b poison = (.access, qmRefuse s q tag) := by
  rw [push, pushBy]
  simp [hq, hm]

/-- Settles O25: the outcomes of a push, and what a first part of the discardable items holds. -/
theorem queueRules : Obligations.QueueRules := by
  refine ⟨fun s q prio tag b poison => ⟨?_, ?_, ?_, ?_⟩, fun s q x tag prio n l h => ?_⟩
  · exact fun hq => push_missing hq ..
  · exact fun x hq hm => push_refused hq hm ..
  · exact fun x hq hm hd => push_full poison hq hm hd
  · intro x hq ha
    have hp := push_admitted ha poison
    exact ⟨hp, _, _, (congrArg (fun a => queue? a.2 q) hp).trans (queue?_pushed hq ..), settleOpening_items _, rfl, rfl, rfl, rfl,
      takeCells_length _ s⟩
  · have hpre := discards_prefix h
    have hsub : ∀ i ∈ l, i ∈ discardOrder x := fun i hi => (discardable_sublist ..).subset (hpre.subset hi)
    refine ⟨fun hm => ?_, fun ho => ?_, fun i hi => ?_, fun hm i hi => discardable_shed hm (hpre.subset hi),
      fun i hi j hj hown hlt h8 => ?_⟩
    · exact List.prefix_nil.mp (by simpa [discardable, hm] using hpre)
    · exact List.prefix_nil.mp (by simpa [discardable, ho] using hpre)
    · obtain ⟨hmem, hown, -⟩ := mem_discardOrder.mp (hsub i hi)
      exact ⟨hmem, hown⟩
    · have hj' : j ∈ discardOrder x := mem_discardOrder.mpr ⟨hj, hown, hlt.trans h8⟩
      exact mem_prefix_of_lower hpre ((discardOrder_rises x).sublist (discardable_sublist ..)) hi
        (discardable_lower (hpre.subset hi) hj' hlt) hlt

end Sys2Proof.Proofs
end

section
/-! SUPPORT. The queue commands: what each does once no rule refuses it (R159, R167, R169, R171, R174, Table 06-8). -/

namespace Sys2Proof.Proofs
open Sys2Proof Sys2Proof.Machine

/-- A queue that a command finds: its owner is live, and no QUEUE_DESTROY has been taken up for it. -/
structure PresentQueue (s : State) (q : Nat) (x : Queue) : Prop where
  found : queue? s q = some x
  live : Live s x.ctx
  kept : x.destroyed = false
  wanted : x.destroyReq = false

section
variable {s : State} {q : Nat} {x : Queue}

theorem withQueue_present (h : PresentQueue s q x) {more : Queue → List (Bool × Status)} (hm : ∀ e ∈ more x, e.1 = false)
    (body : Queue → Done) : withQueue s q more body = body x := by
  obtain ⟨hq, ⟨-, hmissing, hfrozen⟩, hd, hr⟩ := h
  unfold withQueue
  rw [hq]
  refine guardAll_open (fun e he => ?_) _
  rcases List.mem_append.mp he with he | he
  · revert e
    simp [hmissing, hfrozen, hd, hr]
  · exact hm e he

theorem requestFlush_present (h : PresentQueue s q x) (destroy : Bool) :
    requestFlush s q destroy = setQueue s q { x with flushReq := true, destroyReq := destroy } := by
  unfold requestFlush
  rw [h.found]
  simp only [h.wanted, Bool.false_or]

theorem doQueueDestroy_destroys (h : PresentQueue s q x) (hne : q ≠ mgtQueue) (hu : queueInUse s q = false) :
    doQueueDestroy s q =
      done (journalObject (setQueue s q { x with flushReq := true, destroyReq := true }) (if x.mirrored then x.ctx else mgt) 2 q) := by
  rw [doQueueDestroy, withQueue_present h (by simp [hne, hu]), requestFlush_present h]

theorem doQueueFlush_flushes (h : PresentQueue s q x) : doQueueFlush s q = done (setQueue s q { x with flushReq := true }) := by
  have hx : { x with flushReq := true, destroyReq := false } = { x with flushReq := true } := by rw [← h.wanted]
  rw [doQueueFlush, withQueue_present h (by simp), requestFlush_present h, hx]

/-- A new mode and limit, which covers the set-aside of an opening, wait for the next scheduling epoch (R171). -/
theorem doQueueSet_sets {mode limit : Nat} {m : QMode} (h : PresentQueue s q x) (hm : qmodeOf mode = some m)
    (hl : limitOk limit = true) (ho : 0 < x.sendLimit → x.sendLimit + 64 ≤ limit) (hne : q ≠ mgtQueue) :
    doQueueSet s q mode limit = done (atEpoch s (.queueSet q m limit)) := by
  rw [doQueueSet, withQueue_present h (by simpa [hm, hl, hne] using ho), hm]
  rfl

/-- What R167 asks of a sender and of the set-aside of an opening. -/
structure Openable (s : State) (x : Queue) (sender lim : Nat) : Prop where
  live : Live s sender
  numbered : sender < mgt
  other : sender ≠ x.ctx
  runs : (tenant s sender).st ≠ .quiesced
  least : 64 ≤ lim
  leaves : lim + 64 ≤ x.limit
  unopened : x.openTid = none
  quota : withinQuota s x.ctx lim 0 = true
  shared : (lim : Int) ≤ sharedFree s

theorem doQueueOpen_opens {sender lim : Nat} (h : PresentQueue s q x) (ho : Openable s x sender lim) (hne : q ≠ mgtQueue) :
    doQueueOpen s q sender lim =
      done (journalObject (setQueue s q { x with openTid := some sender, sendLimit := lim }) (if x.mirrored then x.ctx else mgt)
        2 q) := by
  obtain ⟨hq, ⟨-, hmissing, hfrozen⟩, hd, hr⟩ := h
  obtain ⟨⟨-, hsmissing, hsfrozen⟩, hnumbered, hother, hruns, hleast, hleaves, hnone, hquota, hshared⟩ := ho
  unfold doQueueOpen
  rw [hq]
  refine guardAll_open ?_ _
  simp [hmissing, hfrozen, hd, hr, hsmissing, hsfrozen, hnumbered, hother, hruns, hleast, hleaves, hnone, hquota, hshared, hne]

theorem doQueueClose_closes (h : PresentQueue s q x) (hopen : x.openTid.isSome = true) (hc : x.closing = false)
    (hr : x.closeReq = false) : doQueueClose s q = done (setQueue s q { x with closeReq := true }) := by
  obtain ⟨hq, ⟨-, hmissing, hfrozen⟩, hd, hw⟩ := h
  unfold doQueueClose
  rw [hq]
  refine guardAll_open ?_ _
  simpa [hmissing, hfrozen, hd, hw, hc, hr] using hopen

end

section
variable {s : State} {ctx : Nat}

/-- The lowest free handle names the new queue; a mirrored one is announced to the partner. -/
theorem doQueueCreate_creates {mode limit h : Nat} {m : QMode} (mir : Bool) (hl : Live s ctx) (hm : qmodeOf mode = some m)
    (hlim : limitOk limit = true) (hfree : lowestInHalf s s.qm.queues 8192 16383 = some h)
    (hquota : ctxQueues s ctx < queueQuota s ctx) :
    let u := setQueue s h { ctx := ctx, mode := m, limit := limit, mirrored := mir }
    doQueueCreate s ctx mode limit mir = (if mir = true then journalObject u ctx 2 h else u,
      some { status := if mir = true ∧ s.sm.mode ≠ .inSync then .unprotected else .ok, results := [(2, h)] }) := by
  obtain ⟨hle, hmissing, hfrozen⟩ := hl
  unfold doQueueCreate
  rw [hfree, hm]
  dsimp only
  rw [guardAll_open (by simp [hmissing, hfrozen, hle, hlim, hquota])]
  cases mir <;> simp [journalObject_mode]

/-- A quota of a live context is set at the next scheduling epoch (R171). -/
theorem doQmQuota_sets {cells n : Nat} (hl : Live s ctx) (hlow : 64 ≤ cells) (hhigh : cells ≤ 262144) (hn : n ≤ 16383) :
    doQmQuota s ctx cells n = done (atEpoch s (.qmQuota ctx cells n)) := by
  obtain ⟨hle, hmissing, hfrozen⟩ := hl
  exact guardAll_open (by simp [hmissing, hfrozen, hle, hlow, hhigh, hn]) _

end

/-- Settles O23: each command, by what it does in the tick that takes it up. -/
theorem queueCommands : Obligations.QueueCommands := by
  refine fun r s src q x hr => ⟨?_, ?_, ?_, ?_, ?_, ?_, ?_⟩
  -- QUEUE_CREATE
  · exact fun ctx mode m limit mir h hs hl hm hlim hfree hquota =>
      atNextTick_answers hr hs (doQueueCreate_creates (s := accepted s src) mir hl hm hlim hfree hquota)
  -- QUEUE_DESTROY
  · exact fun hs ⟨hq, hl, hd, hw⟩ hne hu =>
      atNextTick_answers hr hs (doQueueDestroy_destroys (s := accepted s src) ⟨hq, hl, hd, hw⟩ hne hu)
  -- QUEUE_FLUSH
  · exact fun hs ⟨hq, hl, hd, hw⟩ => atNextTick_answers hr hs (doQueueFlush_flushes (s := accepted s src) ⟨hq, hl, hd, hw⟩)
  -- QUEUE_SET
  · exact fun mode m limit hs ⟨hq, hl, hd, hw⟩ hm hlim ho hne =>
      atNextTick_answers hr hs (doQueueSet_sets (s := accepted s src) ⟨hq, hl, hd, hw⟩ hm hlim ho hne)
  -- QUEUE_OPEN
  · exact fun sender lim hs ⟨hq, hl, hd, hw⟩ hlive ht hother hruns hleast hleaves hne hnone hquota hshared =>
      atNextTick_answers hr hs (doQueueOpen_opens (s := accepted s src) ⟨hq, hl, hd, hw⟩
        ⟨hlive, ht, hother, hruns, hleast, hleaves, hnone, hquota, hshared⟩ hne)
  -- QUEUE_CLOSE
  · exact fun hs ⟨hq, hl, hd, hw⟩ hopen hc hcr =>
      atNextTick_answers hr hs (doQueueClose_closes (s := accepted s src) ⟨hq, hl, hd, hw⟩ hopen hc hcr)
  -- QM_QUOTA
  · exact fun ctx cells n hs hl hlow hhigh hn =>
      atNextTick_answers hr hs (doQmQuota_sets (s := accepted s src) hl hlow hhigh hn)

end Sys2Proof.Proofs
end

section
/-! SUPPORT. Flushes, sweeps, the last cells of a queue, and the pushes of a host (R162, R163, R168, R174, R176, R178, R179). -/

namespace Sys2Proof.Proofs
open Sys2Proof Sys2Proof.Machine

/-! Flush (R174, R176) -/

theorem mem_mapAll {α : Type} {f : Nat → α → α} {m : Table α} {e : Nat × α} (h : e ∈ Tab.mapAll f m) :
    ∃ a, e.2 = f e.1 a := by
  induction m with
  | nil => cases h
  | cons x t ih =>
    rcases List.mem_cons.mp h with rfl | h
    · exact ⟨x.2, rfl⟩
    · exact ih h

/-- An item in progress after a flush of its queue: it will not link. -/
def flushedProg (g : Prog) : Prog := if g.fate = .link then { g with fate := .flushed } else g

theorem flushedProg_fate (g : Prog) : (flushedProg g).fate ≠ .link := by
  unfold flushedProg
  split
  · exact nofun
  · assumption

/-- A queue as its flush leaves it, but for the end of an opening. -/
def flushedQueue (x : Queue) : Queue :=
  { x with
    items := [], flushReq := false, destroyed := x.destroyed || x.destroyReq
    prog := Tab.mapAll (fun _ => flushedProg) x.prog
    draining := x.draining ++ looseItems x
    flushed := cap32 (x.flushed + x.items.length) }

section
variable {s : State} {q : Nat} {x : Queue}

theorem queue?_flushQueue (hq : queue? s q = some x) : queue? (flushQueue s q) q = some (settleOpening (flushedQueue x)) := by
  unfold flushQueue
  simp only [hq]
  rw [queue?_of_qm (journalQueue_qm ..), queue?_of_qm (countN_qm ..)]
  exact queue?_setQueue_same ..

theorem execFlush_requested (hq : queue? s q = some x) (hf : x.flushReq = true) (hsafe : s.th.safe = false) :
    execFlush q s = .next (flushQueue s q) := by
  simp only [execFlush, hq]
  exact if_pos ⟨hf, by simp [hsafe]⟩

/-! Openings and sweeps (R168, R178, R179) -/

theorem execOpeningClose_requested (hq : queue? s q = some x) (hc : x.closeReq = true) :
    execOpeningClose q s = .next (setQueue s q (settleOpening { x with closeReq := false, closing := true })) := by
  simp only [execOpeningClose, hq]
  exact if_pos hc

theorem execSweepEnd_rebuild {rest : List (Option Nat)} (h : s.qm.sweeps = none :: rest) :
    execSweepEnd s = .next { s with qm := { s.qm with sweeps := rest } } := by
  simp only [execSweepEnd, h]

/-- The sweep of a queue frees the cells of its older generations. -/
theorem execSweepEnd_queue {rest : List (Option Nat)} (hq : queue? s q = some x) (h : s.qm.sweeps = some q :: rest) :
    let u := giveCells (setQueue { s with qm := { s.qm with sweeps := rest } } q
      (settleOpening { x with stale := x.stale.filter (fun g => g.gen == x.gen), blocked := false }))
      ((x.stale.filter (fun g => g.gen != x.gen)).flatMap (fun g => g.cells))
    execSweepEnd s = .next (if x.blocked then resetQueue u q else u) := by
  have hq' : queue? { s with qm := { s.qm with sweeps := rest } } q = some x := hq
  unfold execSweepEnd
  simp only [h, hq']

/-! The last cell freed (R174) -/

/-- The cells of a queue's flushed items return to the free list. -/
def drained (s : State) (q : Nat) (x : Queue) : State :=
  giveCells (setQueue s q { x with draining := [] }) (x.draining.flatMap (fun g => g.cells))

/-- A queue that has been destroyed and holds nothing, linked, in progress, in a sweep or for credit. -/
structure Gone (s : State) (q : Nat) (x : Queue) : Prop where
  destroyed : x.destroyed = true
  items : x.items = []
  prog : x.prog = []
  stale : x.stale = []
  own : creditHeld s q x true = 0
  sender : creditHeld s q x false = 0

/-- The handle of such a queue becomes free. -/
theorem execLastCellFreed_gone (hq : queue? s q = some x) (hg : Gone s q x) (hsafe : s.th.safe = false) :
    execLastCellFreed q s = .next { drained s q x with
      qm := { (drained s q x).qm with queues := Tab.del (drained s q x).qm.queues q } } := by
  obtain ⟨hd, hi, hp, hs, ho, hsend⟩ := hg
  simp only [execLastCellFreed, hq]
  rw [if_neg (by simp [hsafe]), if_pos ⟨hd, hi, hp, hs, ho, hsend⟩]
  rfl

theorem execLastCellFreed_drains (hq : queue? s q = some x) (hd : x.destroyed = false) (hdr : x.draining ≠ [])
    (hsafe : s.th.safe = false) : execLastCellFreed q s = .next (drained s q x) := by
  simp only [execLastCellFreed, hq]
  rw [if_neg (by simp [hsafe]), if_neg (by simp [hd]), if_pos hdr]
  rfl

end

/-! The push page (R162) -/

/-- A posted write of the push page that is received and served. -/
structure PushPageServed (s : State) (w : MemWrite) : Prop where
  page : w.bar = 0 ∧ w.fn ≠ 0 ∧ 0x3000 ≤ w.offset ∧ w.offset < 0x4000
  credit : postedHeld s w.port = false
  served : gate s w.port w.fn 0 w.offset w.bytes.length true = .serve
  plain : w.unsupported = false

theorem through_serve {s : State} {q : Req} {body : State → Ans} (h : gateOf s q = .serve) :
    through s q body = body (leaveL1 s q.port) := by
  unfold through
  rw [h]

/-- What has been served at the page, of a function that a tenant is bound to, is looked at as an item. -/
theorem hostWriteServed_pushPage {s0 s : State} {r : Req} {t : Nat} {d : Bind} (b : Bytes)
    (hpage : r.bar = 0 ∧ r.fn ≠ 0 ∧ 0x3000 ≤ r.offset ∧ r.offset < 0x4000) (hb : boundTo s r.port r.fn = some (t, d)) :
    hostWriteServed r b s0 s = .next (pushPage s r t d.pushClass b) := by
  rw [hostWriteServed, if_neg (by simp [hpage.1]), if_neg (by simp [hpage.1]), if_pos hpage]
  simp only [hb]

theorem execPushPageWrite_served {s : State} {w : MemWrite} {t : Nat} {d : Bind} (h : PushPageServed s w)
    (hb : boundTo s w.port w.fn = some (t, d)) :
    execPushPageWrite w s = .next (pushPage (leaveL1 s w.port) (writeReq w) t d.pushClass w.bytes) := by
  have hgate : gateOf s (writeReq w) = .serve := by
    rw [gateOf, if_neg (by simp [writeReq, h.plain])]
    simpa only [writeReq, h.page.1] using h.served
  rw [execPushPageWrite, if_pos h.page, hostWrite, if_neg (by simp [h.credit]), through_serve hgate]
  exact hostWriteServed_pushPage w.bytes h.page hb

/-- A well-formed write joins the port's push buffer. -/
theorem pushPage_joins {s : State} {r : Req} {t cls : Nat} {b : Bytes} (hshape : pushShape r.offset b = true)
    (hp : r.poisoned = false) :
    pushPage s r t cls b = { s with qm := { s.qm with pushes := Tab.upd [] s.qm.pushes r.port (fun l => l ++
      [⟨r.fn, fld (leAt b 0 8) 0 14, fld (leAt b 0 8) 16 3, b.drop 8, false, mkTag t cls, hostWaits s r.port⟩]) } } := by
  unfold pushPage
  simp [hshape, hp]

/-! The push buffer (R163) -/

/-- The oldest push of a port leaves its buffer. -/
def withoutPush (s : State) (p : Nat) (rest : List HostPush) : State :=
  { s with qm := { s.qm with pushes := Tab.set [] s.qm.pushes p rest } }

/-- What the oldest push comes to, by the outcome a: linked, dropped as an Unsupported Request, or kept waiting. -/
def hostPushed (s : State) (p : Nat) (x : HostPush) (a : Push × State) : Ans :=
  match a with
  | (.linked _, t) => .next (notePort t p s.sm.jsnSent)
  | (.access, t) => .next (aerFor (count t (Reg.hpUr p)) p x.fn true aerUr (some x.tag))
  | (.full, _) => idle s
  | (.wait, _) => .next (journalWait s)

section
variable {s : State} {p : Nat} {x : HostPush} {rest : List HostPush} {a : Push × State}

theorem hostPushed_linked {d : Bool} (h : a.1 = .linked d) : hostPushed s p x a = .next (notePort a.2 p s.sm.jsnSent) := by
  obtain ⟨o, t⟩ := a
  cases h
  rfl

theorem hostPushed_full (h : a.1 = .full) : hostPushed s p x a = .next s := by
  obtain ⟨o, t⟩ := a
  cases h
  rfl

theorem hostPushed_access (h : a.1 = .access) :
    hostPushed s p x a = .next (aerFor (count a.2 (Reg.hpUr p)) p x.fn true aerUr (some x.tag)) := by
  obtain ⟨o, t⟩ := a
  cases h
  rfl

theorem qmChecked_ok (s : State) (q : Nat) : qmChecked s q .ok = s := by
  unfold qmChecked
  split <;> rfl

/-- Outside safe state, once no earlier contribution line of the port waits, the oldest push is pushed. -/
theorem execHostPushLink_pushes (h : Tab.get [] s.qm.pushes p = x :: rest) (hsafe : s.th.safe = false)
    (hw : ∀ k ∈ x.waits, k ∉ s.ru.waiting) :
    execHostPushLink p .ok s = hostPushed s p x (push (withoutPush s p rest) x.queue x.prio x.tag x.bytes x.poison) := by
  have hlines : x.waits.any (fun k => s.ru.waiting.contains k) = false := by simpa using hw
  have hs : (if s.th.safe = true then useFree s else s) = s := if_neg (by simp [hsafe])
  unfold execHostPushLink
  simp only [h, hs, qmChecked_ok]
  rw [if_neg (Bool.eq_false_iff.mp hlines), if_neg (by simp [hsafe])]
  rfl

theorem execHostPushLink_waits {k : Contrib} (h : Tab.get [] s.qm.pushes p = x :: rest) (hk : k ∈ x.waits)
    (hr : k ∈ s.ru.waiting) : execHostPushLink p .ok s = .next s := by
  have hlines : x.waits.any (fun k => s.ru.waiting.contains k) = true :=
    List.any_eq_true.mpr ⟨k, hk, List.contains_iff_mem.mpr hr⟩
  unfold execHostPushLink
  simp only [h]
  exact if_pos hlines

end

/-- Settles O24: each row by what it comes to. -/
theorem queueEvents : Obligations.QueueEvents := by
  refine ⟨fun s q x hq => ⟨?_, ?_, ?_, ?_, ?_, ?_, ?_⟩, fun s p => ⟨?_, ?_, ?_⟩⟩
  -- the rows of a queue
  · exact fun hf hsafe => execFlush_requested hq hf hsafe
  · obtain ⟨o, l, c, hy⟩ := settleOpening_eq (flushedQueue x)
    refine ⟨_, (queue?_flushQueue hq).trans (congrArg some hy), rfl, rfl, rfl, rfl, rfl, fun g hg => ?_⟩
    obtain ⟨b, hb⟩ := mem_mapAll hg
    exact hb ▸ flushedProg_fate b
  · exact fun hc => execOpeningClose_requested hq hc
  · exact fun rest h => execSweepEnd_rebuild h
  · exact fun rest h => execSweepEnd_queue hq h
  · intro hd hi hp hs ho hsend hsafe
    refine ⟨_, execLastCellFreed_gone hq ⟨hd, hi, hp, hs, ho, hsend⟩ hsafe, ?_, rfl⟩
    exact (Tab.find_del _ q q).trans (if_pos rfl)
  · exact fun hd hdr hsafe => execLastCellFreed_drains hq hd hdr hsafe
  -- the push page
  · intro w hbar hvf hlow hhigh hcredit hserved hplain t b hb hshape hp
    refine (execPushPageWrite_served ⟨⟨hbar, hvf, hlow, hhigh⟩, hcredit, hserved, hplain⟩ hb).trans (congrArg _ ?_)
    exact pushPage_joins hshape hp
  -- the push buffer
  · intro x rest h hsafe hw
    have hpush := execHostPushLink_pushes h hsafe hw
    refine ⟨fun ha => ?_, fun d hd => hpush.trans (hostPushed_linked hd), fun hf => hpush.trans (hostPushed_full hf),
      fun ha => hpush.trans (hostPushed_access ha)⟩
    exact hpush.trans (congrArg _ (push_admitted ha x.poison))
  · exact fun x rest k h hk hr => execHostPushLink_waits h hk hr

end Sys2Proof.Proofs
end

section
/-! SUPPORT. The Shuttle's channels: doorbells, PAUSE, RESUME and SKIP (R190, R201, R203), HEAD's advance, and the bounds of a beat
(R193). -/

namespace Sys2Proof.Proofs
open Sys2Proof Sys2Proof.Machine

/-! Doorbells (R190) -/

section
variable {s : State} {c : Nat} {t : BitVec 32}

/-- A doorbell of the owner that neither goes back nor overfills the ring moves TAIL. -/
theorem doorbell_taken (hst : (chan s c).st ≠ .free) (he : (chan s c).engineProd = false) (hsys : (chan s c).system = false)
    (hring : (t - (chan s c).head).toNat ≤ ringSlots (chan s c))
    (hback : ((chan s c).tail - (chan s c).head).toNat ≤ (t - (chan s c).head).toNat) :
    doorbell s (chan s c).ctx c t = setChan s c (setTail (chan s c) t) :=
  if_neg (by simp only [hst, he, hsys, Nat.not_lt.mpr hring, Nat.not_lt.mpr hback]; simp)

theorem doorbell_ignored (h : (chan s c).st = .free ∨ (chan s c).engineProd = true ∨ (chan s c).system = true ∨
      ringSlots (chan s c) < (t - (chan s c).head).toNat ∨
      (t - (chan s c).head).toNat < ((chan s c).tail - (chan s c).head).toNat) :
    doorbell s (chan s c).ctx c t = raiseLimited (count s Reg.shBadDb) Src.shDoorbell (chan s c).ctx
      { tag := some (mkTag (chan s c).ctx 1), object := 4, index := c } :=
  if_pos (h.imp_right .inr)

/-! PAUSE, RESUME and SKIP (R201, R203) -/

/-- PAUSE of an IDLE channel takes effect at once. -/
theorem pauseWrite_idle (hst : (chan s c).st = .idle) (hsys : (chan s c).system = false) :
    pauseWrite s c = journalChan (setChan s c { chan s c with ownerPause := true, st := .paused }) c := by
  simp only [pauseWrite, pauseChan, hst, hsys]
  rfl

/-- A channel that has drained runs from HEAD, or is IDLE where nothing is left. -/
theorem resumeChan_rested {ch : Chan} (h : ch.st ≠ .pausing) :
    resumeChan ch = { ch with st := if ch.head = ch.tail then .idle else .active, stopReq := false } := if_neg h

/-- Outside safe state and without a freeze, RESUME lets a PAUSED or HALTED channel run again. -/
theorem resumeWrite_rested (hst : (chan s c).st = .paused ∨ (chan s c).st = .halted) (hf : (chan s c).freezePause = false)
    (hsafe : s.th.safe = false) : resumeWrite s c = setChan s c { chan s c with
      ownerPause := false, st := if (chan s c).head = (chan s c).tail then .idle else .active, stopReq := false } := by
  unfold resumeWrite
  rcases hst with hst | hst <;> simp [hst, hf, hsafe, resumeChan_rested]

/-- SKIP moves HEAD of a HALTED channel past its descriptor before the channel resumes. -/
theorem chan_skipWrite (hst : (chan s c).st = .halted) (hf : (chan s c).freezePause = false) (hsafe : s.th.safe = false)
    (hne : (chan s c).head ≠ (chan s c).tail) :
    chan (skipWrite s c) c = { chan s c with
      head := (chan s c).head + 1, progress := 0, kept := passKept (chan s c), fetched := [], ownerPause := false
      st := if (chan s c).head + 1 = (chan s c).tail then .idle else .active, stopReq := false } := by
  unfold skipWrite
  rw [if_neg (by simp [hst, hsafe]), if_neg hne, resumeWrite_rested, chan_setChan, if_pos rfl]
  all_goals simp [chan_setChan, hst, hf, hsafe]

end

/-! HEAD passes a descriptor (R206) -/

theorem advanceHead_head (ch : Chan) : (advanceHead ch).head = ch.head + 1 := by
  unfold advanceHead
  dsimp only
  split
  · rfl
  · split <;> rfl
  · rfl

theorem advanceHead_of_ne_stopping {ch : Chan} (h : ch.st ≠ .stopping) :
    (advanceHead ch).progress = 0 ∧ (advanceHead ch).fetched = ch.fetched.drop 1 := by
  unfold advanceHead
  dsimp only
  split
  · next hst => exact absurd hst h
  · split <;> exact ⟨rfl, rfl⟩
  · exact ⟨rfl, rfl⟩

/-! The bounds of a beat (R193) -/

section
variable {s : State} {ch : Chan} {d : Desc}

theorem nextBeat_descending (h : d.issued < d.length) (hd : d.descending = true) :
    0 < (nextBeat s ch d).2 ∧ (nextBeat s ch d).2 ≤ 64 ∧ (nextBeat s ch d).1 + (nextBeat s ch d).2 + d.issued = d.length := by
  rw [nextBeat, if_pos hd]
  dsimp only
  split <;> omega

theorem nextBeat_host (hd : d.descending = false) (hsrc : dSrc d = 0) :
    nextBeat s ch d =
      (d.issued, min (d.length - d.issued) (min (maxReadReq s ch.port) (4096 - (dSrcA d + d.issued) % 4096))) := by
  rw [nextBeat, if_neg (by simp [hd])]
  exact if_pos hsrc

theorem nextBeat_line (hd : d.descending = false) (hsrc : dSrc d ≠ 0) :
    nextBeat s ch d = (d.issued, min (d.length - d.issued) (64 - (dSrcA d + d.issued) % 64)) := by
  rw [nextBeat, if_neg (by simp [hd])]
  exact if_neg hsrc

/-- In an ascending copy the next beat begins where the ones issued end. -/
theorem nextBeat_ascending_fst (hd : d.descending = false) : (nextBeat s ch d).1 = d.issued := by
  by_cases hsrc : dSrc d = 0
  · rw [nextBeat_host hd hsrc]
  · rw [nextBeat_line hd hsrc]

/-- A read of host memory stays within the maximum read request size and a 4 KB block. -/
theorem nextBeat_host_within (hd : d.descending = false) (hsrc : dSrc d = 0) :
    (nextBeat s ch d).2 ≤ maxReadReq s ch.port ∧ (dSrcA d + (nextBeat s ch d).1) % 4096 + (nextBeat s ch d).2 ≤ 4096 := by
  rw [nextBeat_host hd hsrc]
  dsimp only
  omega

/-- A beat of another source stays within a line, and is never empty. -/
theorem nextBeat_line_within (h : d.issued < d.length) (hd : d.descending = false) (hsrc : dSrc d ≠ 0) :
    (dSrcA d + (nextBeat s ch d).1) % 64 + (nextBeat s ch d).2 ≤ 64 ∧ 0 < (nextBeat s ch d).2 := by
  rw [nextBeat_line hd hsrc]
  dsimp only
  omega

/-- A beat ends within its descriptor, whatever the copy's direction and its source. -/
theorem nextBeat_le_length (h : d.issued < d.length) : (nextBeat s ch d).1 + (nextBeat s ch d).2 ≤ d.length := by
  cases hd : d.descending with
  | true =>
    obtain ⟨-, -, hend⟩ := nextBeat_descending (s := s) (ch := ch) h hd
    omega
  | false =>
    by_cases hsrc : dSrc d = 0
    · rw [nextBeat_host hd hsrc]
      dsimp only
      omega
    · rw [nextBeat_line hd hsrc]
      dsimp only
      omega

end

/-- Settles O28: the doorbells, the three control writes, HEAD's advance, then the bounds of a beat by the copy's direction and its
source. -/
theorem channelRules : Obligations.ChannelRules := by
  refine ⟨fun s c t => ⟨?_, ?_, ?_, ?_, ?_, ?_, ?_⟩, fun s ch d h => ⟨?_, fun hd => ?_, ?_⟩⟩
  -- the channel
  · exact fun hst he hsys hring hback => doorbell_taken hst he hsys hring hback
  · exact doorbell_ignored
  · exact pauseWrite_idle
  · exact fun hst hf hsafe => resumeWrite_rested (.inl hst) hf hsafe
  · exact chan_skipWrite
  · exact advanceHead_head _
  · exact advanceHead_of_ne_stopping
  -- the beats of a descriptor
  · exact nextBeat_le_length h
  · exact ⟨nextBeat_ascending_fst hd, nextBeat_host_within hd, nextBeat_line_within h hd⟩
  · exact nextBeat_descending h

end Sys2Proof.Proofs
end

section
/-! SUPPORT. The channel commands: what each does once no rule refuses it (R185, R202, Table 07-8). -/

namespace Sys2Proof.Proofs
open Sys2Proof Sys2Proof.Machine

/-- The channel that CHANNEL_ASSIGN makes: IDLE, with the arguments' fields and, for a tenant, a slot of its channel page (R429). -/
def assignedChan (s : State) (a : ChannelArgs) : Chan :=
  { st := .idle, cls := a.cls, ctx := a.ctx, engineProd := a.engineProducer, ringPool := a.ringPool, base := a.base
    log2 := a.ringLog2, retry := a.retry, port := a.port, fn := a.fn, cq := a.cq, vector := a.vector
    slot := if a.ctx = mgt then none else freeSlot s a.ctx }

section
variable {s : State} {c : Nat}

/-- The lowest free channel is assigned to a context that is below its limit. -/
theorem doChannelAssign_assigns {a : ChannelArgs} {n : Nat} (hl : Live s a.ctx) (hbad : assignBad s a = false)
    (hn : lowestInHalf s s.sh.chans 504 1008 = some n) (hroom : a.ctx < mgt → (chansOf s a.ctx).length < chanLimit s a.ctx) :
    doChannelAssign s a = (journalChan (setChan s n (assignedChan s a)) n, some { status := .ok, results := [(2, n)] }) := by
  obtain ⟨-, hmissing, hfrozen⟩ := hl
  unfold doChannelAssign
  rw [hn]
  exact guardAll_open (by simpa [hmissing, hfrozen, hbad] using hroom) _

/-- An assigned channel of a live context is commanded. -/
theorem withChan_assigned (hst : (chan s c).st ≠ .free) (hl : Live s (chan s c).ctx) {more : List (Bool × Status)}
    (hm : ∀ e ∈ more, e.1 = false) (body : Chan → Done) : withChan s c more body = body (chan s c) := by
  obtain ⟨-, hmissing, hfrozen⟩ := hl
  refine guardAll_open (fun e he => ?_) _
  rcases List.mem_append.mp he with he | he
  · revert e
    simp [hmissing, hfrozen, hst]
  · exact hm e he

/-- An IDLE or HALTED channel that no program is bound to becomes FREE. -/
theorem doChannelRelease_releases (hst : (chan s c).st = .idle ∨ (chan s c).st = .halted) (hl : Live s (chan s c).ctx)
    (hsys : (chan s c).system = false) (hb : bindingOf s .shuttle c = none) : doChannelRelease s c = done (setChan s c {}) := by
  have hassigned : (chan s c).st ≠ .free := by rcases hst with h | h <;> simp [h]
  have hrest : ((chan s c).st == .idle || (chan s c).st == .halted) = true := by simpa using hst
  exact withChan_assigned hassigned hl (by simp [hsys, hb, hrest]) _

end

end Sys2Proof.Proofs
end

section
/-! SUPPORT. The channel registers as the hosts write them: through PF 0 of a manager port, and through the channel page of the owner's
VF (R189, R190, R201, R203, R423, R424, R429). -/

namespace Sys2Proof.Proofs
open Sys2Proof Sys2Proof.Machine

/-! A write to BAR0 that is received and served (R423, R426) -/

/-- A write to BAR0 as its gate sees it. -/
def regReq (who : FnRef) (off n : Nat) : Req := { port := who.port, fn := who.fn, bar := 0, offset := off, length := n, write := true }

section
variable {s u : State} {who : FnRef} {off : Nat} {b : Bytes}

theorem execRegisterWrite_posts (h : Posts s who off b.length) :
    execRegisterWrite who off b s = hostWriteServed (regReq who off b.length) b s (leaveL1 s who.port) := by
  obtain ⟨hcredit, hgate⟩ := h
  have hserved : gateOf s (regReq who off b.length) = .serve := hgate
  unfold execRegisterWrite hostWrite
  rw [if_neg (by simp [hcredit])]
  exact through_serve hserved

theorem hostWriteServed_pf {q : Req} (hbar : q.bar = 0) (hp : q.poisoned = false) (hf : q.fn = 0)
    (hw : waitsPosted u q mgt = false) : hostWriteServed q b s u = .next (writePf u q b) := by
  simp [hostWriteServed, hbar, hp, hf, hw]

/-- Below the push page the registers of the tenant that the VF is bound to are written. -/
theorem hostWriteServed_vf {q : Req} {t : Nat} {d : Bind} (hbar : q.bar = 0) (hp : q.poisoned = false) (hf : q.fn ≠ 0)
    (hoff : q.offset < 0x3000) (hb : boundTo u q.port q.fn = some (t, d)) (hw : waitsPosted u q t = false) :
    hostWriteServed q b s u = .next (writeVf u q t b) := by
  simp [hostWriteServed, hbar, hp, hf, hb, hw, Nat.not_le.mpr hoff]

end

/-! SH_CH_TAIL and SH_CH_CTRL (Tables 07-10, 07-12) -/

/-- Registers take aligned accesses of 4 bytes (R424). -/
theorem regAccess_four {off n : Nat} (h : off % 4 = 0) (hn : n = 4) : regAccess off n = true := by simp [regAccess, h, hn]

/-- A write of 4 bytes to SH_CH_TAIL is a doorbell with the value written. -/
theorem writeChan_tail (s : State) (ctx c old : Nat) (t : BitVec 32) :
    writeChan s ctx c 0x18 (regWriteOf old 0 4 (le (toLe 4 t.toNat))) = doorbell s ctx c t := by
  have hv : le (toLe 4 t.toNat) = t.toNat := by rw [le_toLe, Nat.mod_eq_of_lt t.isLt]
  have hlow : BitVec.ofNat 32 (old / 2 ^ 32 * 2 ^ 32 + t.toNat % 2 ^ 32) = t := by
    apply BitVec.eq_of_toNat_eq
    rw [BitVec.toNat_ofNat, Nat.mul_add_mod', Nat.mod_mod, Nat.mod_eq_of_lt t.isLt]
  rw [hv]
  exact congrArg (doorbell s ctx c) hlow

theorem writeChan_ctrl (s : State) (ctx c old : Nat) {v : Nat} (hv : v < 2 ^ 32) :
    writeChan s ctx c 0x20 (regWriteOf old 0 4 (le (toLe 4 v))) = writeChCtrl s c v := by
  have hact : le (toLe 4 v) % 2 ^ 32 = v := by rw [le_toLe, Nat.mod_mod, Nat.mod_eq_of_lt hv]
  exact congrArg (writeChCtrl s c) hact

/-- A write to register o of channel c need not wait: only SH_CH_TAIL of a pool ring waits for the earlier posted writes of the port
(R274). -/
def BellMayPass (s : State) (p c o : Nat) : Prop := o = 0x18 → (chan s c).ringPool = true → postedAhead s p = false

/-- Writes of 4 bytes to register o of channel c, which a function makes in state s, reach the channel as a context's in state u. -/
def Reaches (s u : State) (who : FnRef) (ctx c o : Nat) : Prop :=
  ∀ v, ∃ old, chanWrite who c o v s = .next (writeChan u ctx c o (regWriteOf old 0 4 (le (toLe 4 v))))

theorem Reaches.tail {s u : State} {who : FnRef} {ctx c : Nat} (h : Reaches s u who ctx c 0x18) (t : BitVec 32) :
    execShChTail who c t s = .next (doorbell u ctx c t) := by
  obtain ⟨old, hw⟩ := h t.toNat
  exact hw.trans (congrArg _ (writeChan_tail ..))

theorem Reaches.ctrl {s u : State} {who : FnRef} {ctx c : Nat} (h : Reaches s u who ctx c 0x20) :
    execPause who c s = .next (pauseWrite u c) ∧ execResume who c s = .next (resumeWrite u c) ∧
      execSkip who c s = .next (skipWrite u c) := by
  have hctrl : ∀ v < 2 ^ 32, chanWrite who c 0x20 v s = .next (writeChCtrl u c v) := by
    intro v hv
    obtain ⟨old, hw⟩ := h v
    exact hw.trans (congrArg _ (writeChan_ctrl _ _ _ _ hv))
  exact ⟨hctrl 1 (by decide), hctrl 2 (by decide), hctrl 4 (by decide)⟩

/-! The SH_ block of PF 0 (R423) -/

section
variable {s : State} {who : FnRef} {c o : Nat}

theorem waitsPosted_pf {q : Req} (hc : c < 1024) (ho : o = 0x18 ∨ o = 0x20) (hq : q.offset = 0x300000 + 0x40 * c + o) (hf : q.fn = 0)
    (hpass : BellMayPass s q.port c o) : waitsPosted s q mgt = false := by
  have hcell : (q.offset / 8 * 8 - 0x300000) / 0x40 = c := by omega
  have hother : q.offset / 8 * 8 ≠ 0x101028 := by omega
  have hpart : q.offset / 8 * 8 % 0x40 = o := by omega
  unfold waitsPosted
  simp only [hf, hcell, hpart, beq_false_of_ne hother, if_true]
  rcases ho with rfl | rfl
  · cases hr : (chan s c).ringPool with
    | true => simp [hpass rfl hr]
    | false => simp
  · simp

theorem writePf_chan {q : Req} {b : Bytes} (hc : c < 1024) (ho : o = 0x18 ∨ o = 0x20) (hq : q.offset = 0x300000 + 0x40 * c + o)
    (hm : managerPort s q.port = true) (hb : b.length = 4) :
    writePf s q b = writeChan s mgt c o (regWriteOf (readCtl s q.offset) 0 4 (le b)) := by
  have hr : q.offset / 8 * 8 = q.offset := by omega
  have hhalf : q.offset % 8 = 0 := by omega
  have hblock : q.offset / 0x80000 = 6 := by omega
  have hin : q.offset % 0x80000 = 0x40 * c + o := by omega
  have hcell : (0x40 * c + o) / 0x40 = c ∧ (0x40 * c + o) % 0x40 = o ∧ 0x40 * c + o < 0x10000 := by omega
  have hpf : pfAnswers s q.port q.offset = true := by
    simp [pfAnswers, hm, reservedOff]
    omega
  have hbuf : bufAt q.port q.offset = none := by
    rw [bufAt, if_neg (by omega), if_neg (by omega)]
  have hacc : regAccess q.offset b.length = true := regAccess_four (by omega) hb
  unfold writePf
  simp only [hpf, hbuf, hacc, Bool.not_true, Bool.false_eq_true, if_false, show ¬ q.offset < 0x4000 by omega]
  simp [writeCtlAt, writeCtl, hr, hhalf, hblock, hin, hcell, hb]

/-- PF 0 of a manager port writes the registers of every channel, for the management context. -/
theorem reaches_pf {off : Nat} (hc : c < 1024) (ho : o = 0x18 ∨ o = 0x20) (hoff : off = 0x300000 + 0x40 * c + o)
    (h : Controls s who off 4) (hpass : BellMayPass s who.port c o) :
    Reaches s (leaveL1 s who.port) who mgt c o := by
  intro v
  obtain ⟨hposts, hf, hm⟩ := h
  have hlen : (toLe 4 v).length = 4 := toLe_length 4 v
  have hreg : chanReg s who c o = some off := by rw [chanReg, if_pos hf, if_pos hc, hoff]
  refine ⟨readCtl (leaveL1 s who.port) off, ?_⟩
  unfold chanWrite
  rw [hreg]
  refine (execRegisterWrite_posts (by rwa [hlen])).trans ((hostWriteServed_pf rfl rfl hf ?_).trans (congrArg _ ?_))
  · exact waitsPosted_pf hc ho hoff hf hpass
  · exact writePf_chan hc ho hoff hm hlen

end

/-! The channel page of a VF (R429, Table 17-6) -/

section
variable {s : State} {who : FnRef} {c o k t : Nat}

theorem waitsPosted_vf {q : Req} (hk : k < 16) (ho : o = 0x18 ∨ o = 0x20) (hq : q.offset = 0x2000 + 0x40 * k + o - 8) (hf : q.fn ≠ 0)
    (hslot : slotChan s t k = some (c, chan s c)) (hpass : BellMayPass s q.port c o) : waitsPosted s q t = false := by
  have hcell : (q.offset / 8 * 8 - 0x2000) / 0x40 = k := by omega
  have hpart : q.offset / 8 * 8 % 0x40 = o - 8 := by omega
  unfold waitsPosted
  simp only [if_neg hf, hcell, hpart, hslot]
  rcases ho with rfl | rfl
  · cases hr : (chan s c).ringPool with
    | true => simp [hpass rfl hr]
    | false => simp [hr]
  · simp

theorem writeVf_chan {q : Req} {b : Bytes} (hk : k < 16) (ho : o = 0x18 ∨ o = 0x20) (hq : q.offset = 0x2000 + 0x40 * k + o - 8)
    (hslot : slotChan s t k = some (c, chan s c)) (hb : b.length = 4) :
    writeVf s q t b = writeChan s t c o (regWriteOf (readVfReg s q.port q.fn t q.offset) 0 4 (le b)) := by
  have hr : q.offset / 8 * 8 = q.offset := by omega
  have hhalf : q.offset % 8 = 0 := by omega
  have hcell : (q.offset - 0x2000) / 0x40 = k := by omega
  have hpart : q.offset % 0x40 = o - 8 := by omega
  have hpage : 0x2000 ≤ q.offset ∧ q.offset < 0x2400 := by omega
  have hacc : regAccess q.offset b.length = true := regAccess_four (by omega) hb
  unfold writeVf writeVfReg
  rw [if_neg (by simp [hacc]; omega)]
  simp only [hr, hhalf, hcell, hpart, hslot, hb, hpage, and_self, if_true, show q.offset ≠ 0 by omega, if_false,
    show ¬ (0x1000 ≤ q.offset ∧ q.offset < 0x1200) by omega]
  rcases ho with rfl | rfl <;> rfl

/-- The channel is in slot k of the channel page of tenant t, whose VF it is. -/
structure OnPage (s : State) (who : FnRef) (c t k : Nat) : Prop where
  vf : who.fn ≠ 0
  bound : ∃ b, boundTo s who.port who.fn = some (t, b)
  assigned : (chan s c).st ≠ .free
  owner : (chan s c).ctx = t
  slot : (chan s c).slot = some k
  lt : k < 16
  found : slotChan s t k = some (c, chan s c)

/-- A VF writes the registers of the channels on its tenant's page, for the tenant. -/
theorem reaches_vf {off : Nat} (hp : OnPage s who c t k) (ho : o = 0x18 ∨ o = 0x20) (hoff : off = 0x2000 + 0x40 * k + o - 8)
    (h : Posts s who off 4) (hpass : BellMayPass s who.port c o) :
    Reaches s (leaveL1 s who.port) who t c o := by
  intro v
  obtain ⟨hf, ⟨b, hb⟩, hst, hctx, hslot, hk, hfound⟩ := hp
  have hlen : (toLe 4 v).length = 4 := toLe_length 4 v
  have hreg : chanReg s who c o = some off := by simp [chanReg, hf, hb, hst, hctx, hslot, hoff]
  have hbelow : off < 0x3000 := by omega
  refine ⟨readVfReg (leaveL1 s who.port) who.port who.fn t off, ?_⟩
  unfold chanWrite
  rw [hreg]
  refine (execRegisterWrite_posts (by rwa [hlen])).trans ((hostWriteServed_vf rfl rfl hf hbelow hb ?_).trans (congrArg _ ?_))
  · exact waitsPosted_vf hk ho hoff hf hfound hpass
  · exact writeVf_chan hk ho hoff hfound hlen

end

/-- Settles O26: each command by what it does in the tick that takes it up, then the register writes through PF 0 and through the
channel page. -/
theorem channelCommands : Obligations.ChannelCommands := by
  refine ⟨fun r s src c hr => ⟨?_, ?_, ?_, ?_⟩, fun s who c tail => ⟨?_, ?_, ?_⟩⟩
  -- CHANNEL_ASSIGN
  · exact fun a n hs hl hbad hn hroom =>
      atNextTick_answers hr hs (doChannelAssign_assigns (s := accepted s src) hl hbad hn hroom)
  -- CHANNEL_RELEASE
  · exact fun hs hst hl hsys hb =>
      atNextTick_answers hr hs (doChannelRelease_releases (s := accepted s src) hst hl hsys hb)
  -- CHANNEL_STOP
  · exact fun hs hst hl => atNextTick_answers hr hs (withChan_assigned (s := accepted s src) hst hl (by simp) _)
  -- CHANNEL_LIMIT
  · intro tid limit hs ht ⟨_, hmissing, hfrozen⟩ hlimit
    exact atNextTick_answers hr hs (guardAll_open (by simp [hmissing, hfrozen, ht, hlimit]) _)
  -- through PF 0
  · exact fun hc h hpass => (reaches_pf hc (.inl rfl) (by omega) h (fun _ => hpass)).tail tail
  · exact fun hc h => (reaches_pf hc (.inr rfl) (by omega) h nofun).ctrl
  -- through the channel page
  · intro t b k hf hb hslot hk hst hctx hfound
    have hp : OnPage s who c t k := ⟨hf, ⟨b, hb⟩, hst, hctx, hslot, hk, hfound⟩
    exact ⟨fun h hpass => (reaches_vf hp (.inl rfl) (by omega) h (fun _ => hpass)).tail tail,
      fun h => (reaches_vf hp (.inr rfl) (by omega) h nofun).ctrl⟩

end Sys2Proof.Proofs
end

section
/-! SUPPORT. The steps of a channel: fetches, the tail buffer, retirement and rest (R186, R189, R191, R192, R201, R202, R206). -/

namespace Sys2Proof.Proofs
open Sys2Proof Sys2Proof.Machine

/-! The head descriptor -/

/-- A head descriptor that is not complete decides nothing. -/
theorem settleHead_of_unfinished {s : State} {c : Nat} {d : Desc} {rest : List Desc} (hf : (chan s c).fetched = d :: rest)
    (h : headComplete (chan s c) d = false) : settleHead s c = s := by
  unfold settleHead
  simp [hf, h]

/-- The head descriptor of a channel that does not pause must have started. -/
theorem headComplete_of_unstarted {ch : Chan} {d : Desc} (hst : ch.st ≠ .pausing) (hd : d.started = false) :
    headComplete ch d = false := by
  rw [headComplete, if_neg (fun h => hst h.1), hd]
  rfl

/-! DESCRIPTOR_FETCH (R186, R191) -/

/-- A channel that fetches its head descriptor, with no fetch that failed before. -/
structure FetchReady (s : State) (ch : Chan) : Prop where
  fetches : fetches s ch = true
  empty : ch.fetched = []
  goes : ch.halting = 0
  more : ch.head ≠ ch.tail
  clean : ch.fetchErr = none

section
variable {s : State} {c : Nat} {host : ReadResult}

theorem execDescriptorFetch_ready (h : FetchReady s (chan s c)) (hh : host ≠ .timeout) :
    execDescriptorFetch c host s = .next (if (chan s c).ringPool then fetchPool s c (chan s c) (chan s c).head.toNat
      else fetchHost s c (chan s c) (chan s c).head.toNat host) := by
  obtain ⟨hfetch, hempty, hgoes, hmore, hclean⟩ := h
  have hpos : ((chan s c).head.toNat + (chan s c).fetched.length) % 2 ^ 32 = (chan s c).head.toNat := by
    rw [hempty]
    exact Nat.mod_eq_of_lt (chan s c).head.isLt
  have htail : (chan s c).head.toNat ≠ (chan s c).tail.toNat := fun e => hmore (BitVec.eq_of_toNat_eq e)
  unfold execDescriptorFetch
  simp only [hpos, hclean]
  exact if_neg (by simp [hfetch, hempty, hgoes, htail, hh])

/-- With nothing in the tail buffer the slot itself is read. -/
theorem fetchPool_slot {ch : Chan} {pos ppa k : Nat} (ht : ch.tailBuf = [])
    (hc : check s (chTag ch) (chPoolAddr ch (slotAddr ch pos)) false = .allow ppa k)
    (hp : poisonAt (eccSpan s ppa 64 (chTag ch)) ppa = false) :
    fetchPool s c ch pos =
      gotDesc (eccSpan s ppa 64 (chTag ch)) c pos (poolBytes (eccSpan s ppa 64 (chTag ch)) ppa 64) := by
  simp [fetchPool, ht, hc, hp]

theorem slice_append_whole {b : Bytes} {n : Nat} (h : b.length = n) (e : Bytes) : slice (b ++ e) 0 n = b := List.take_left' h

/-- The answer of the host gives the tag back. -/
theorem fetchHost_data {ch : Chan} {pos n : Nat} {b : Bytes} {u : State} (hclean : ch.fetchErr = none) (hb : b.length = 64)
    (hr : sendRead s c ch pos (slotAddr ch pos) 64 = some (n, u)) :
    fetchHost s c ch pos (.data b false) = gotDesc (giveTag u ch.port n) c pos b := by
  simp [fetchHost, hr, hclean, slice_append_whole hb]

/-- A sound descriptor joins a channel that has none, and waits to start. -/
theorem gotDesc_joins {pos : Nat} {b : Bytes} (hempty : (chan s c).fetched = [])
    (hst : (chan s c).st = .active ∨ (chan s c).st = .stopping) (hgood : descBad s (chan s c) { pos := pos, bytes := b } = false) :
    gotDesc s c pos b = setChan s c { chan s c with fetched := [{ pos := pos, bytes := b }], fetchErr := none } := by
  have hrun : (chan s c).st ≠ .pausing := by rcases hst with h | h <;> simp [h]
  unfold gotDesc
  simp only [hgood, hempty, List.nil_append]
  refine settleHead_of_unfinished (d := { pos := pos, bytes := b }) (rest := []) ?_ (headComplete_of_unstarted ?_ rfl)
  · rw [chan_setChan, if_pos rfl]
    rfl
  · rw [chan_setChan, if_pos rfl]
    exact hrun

/-! TAIL_BUFFER_WRITE_THROUGH (R189, R192) -/

section
variable {p : Nat} {b : Bytes} {rest : List (Nat × Bytes)} (ht : (chan s c).tailBuf = (p, b) :: rest)
include ht

theorem execTailBufferWriteThrough_writes {ppa k : Nat} (hroom : writeRoom s ppa 64 = true)
    (hc : check s (chTag (chan s c)) (chPoolAddr (chan s c) (slotAddr (chan s c) p)) true = .allow ppa k) :
    execTailBufferWriteThrough c s =
      .next (poolStore (setChan s c { chan s c with tailBuf := rest }) (chTag (chan s c)) ppa b false) := by
  unfold execTailBufferWriteThrough
  simp only [ht, hc]
  exact if_pos hroom

theorem execTailBufferWriteThrough_refused {g : Option Nat} (hst : (chan s c).st ≠ .halted)
    (hc : check s (chTag (chan s c)) (chPoolAddr (chan s c) (slotAddr (chan s c) p)) true = .deny g) :
    execTailBufferWriteThrough c s = .next (errorHalt (poolDenied s (chTag (chan s c)) g) c 0x81 p none) := by
  unfold execTailBufferWriteThrough
  simp only [ht, hc]
  exact if_neg hst

end

/-! DESCRIPTOR_RETIRE (R206) -/

/-- A head descriptor that can retire once the channel is settled: its code is decided without a failure, its beats are complete, and
its slot can be written. -/
structure Retirable (u : State) (ch : Chan) (d : Desc) : Prop where
  head : ∃ rest, ch.fetched = d :: rest
  runs : ch.st = .active ∨ ch.st = .stopping
  decided : 0 < d.code
  good : d.code < 0x80
  complete : headComplete ch d = true
  ready : slotReady u ch d.pos = true

/-- The event and the message of a descriptor that asks for them leave, and HEAD moves on. -/
def retired (s : State) (c : Nat) (ch : Chan) (d : Desc) : State :=
  let w := if dFlag d 0 then chanSignal s c ch (descIndex ch d.pos) false else s
  journalChan (setChan w c (advanceHead (chan w c))) c

/-- Without a DONE item the descriptor retires as soon as its status is in the slot. -/
theorem execDescriptorRetire_retires {u v : State} {d : Desc} (hsafe : s.th.safe = false) (ho : (chan s c).owed = none)
    (hu : settleHead s c = u) (h : Retirable u (chan u c) d) (hw : writeSlot u (chan u c) d = some v) (hd : dFlag d 1 = false) :
    execDescriptorRetire c s = .next (retired v c (chan u c) d) := by
  obtain ⟨⟨rest, hf⟩, hst, hlo, hhi, hcomplete, hready⟩ := h
  have hrun : (chan u c).st ≠ .halted ∧ (chan u c).st ≠ .pausing := by rcases hst with h | h <;> simp [h]
  have hnone : (chan s c).owed.isSome = false := by rw [ho]; rfl
  unfold execDescriptorRetire
  simp only [hsafe, hnone, hu, hf, Bool.false_eq_true, if_false]
  rw [if_neg (by simp [hrun, hcomplete, hready]; omega), hw]
  simp only [hd, Bool.false_and, Bool.false_eq_true, if_false]
  rfl

theorem writeSlot_host {ch : Chan} {d : Desc} (h : ch.ringPool = false) :
    writeSlot s ch d = some (hostTlp ch false false s (slotAddr ch d.pos + 0x28) (slotStatus ch d)) := by
  rw [writeSlot, if_neg (by simp [h])]

/-! PAUSED (R201, R202) -/

/-- A pausing channel with nothing fetched comes to rest: HALTED after a stop, else PAUSED. -/
theorem execPaused_rests {u : State} (hu : settleHead s c = u) (hst : (chan u c).st = .pausing) (hf : (chan u c).fetched = []) :
    execPaused c s = .next (journalChan (setChan u c (if (chan u c).stopReq then haltChan (chan u c) 5
      else { dropFetched (chan u c) with st := .paused })) c) := by
  have hflush : (if portSends u (chan u c).port then (upto 0 (chan u c).fetched.length).foldl (flushDesc c) u else u) = u := by
    rw [hf]
    exact ite_self _
  have hdrained : Machine.drained (chan u c) = true := by
    rw [Machine.drained, hf]
    rfl
  unfold execPaused
  simp only [hu, hst]
  rw [hflush, if_neg (by simp [hdrained, hf])]
  cases (chan u c).stopReq <;> rfl

end

end Sys2Proof.Proofs
end

section
/-! SUPPORT. The beats of a channel: their issue, their completion and their retries (R183, R192, R195, R196). -/

namespace Sys2Proof.Proofs
open Sys2Proof Sys2Proof.Machine

section
variable {s : State} {c : Nat}

/-! BEAT_ISSUE (R183, R192) -/

/-- A started descriptor, in place j, whose next beat may be issued. -/
structure Issuable (s : State) (ch : Chan) (j : Nat) (d : Desc) : Prop where
  next : nextDesc ch.fetched 0 = some (j, d)
  may : mayIssue s ch j d = true
  started : d.started = true
  sound : d.code = 0
  left : d.issued < d.length

theorem transmit_fn (s : State) (p n : Nat) : (transmit s p n).fn = s.fn := by
  unfold transmit
  dsimp only
  split <;> rfl

theorem takeTag_fn {u : State} {p n : Nat} (h : takeTag s p = some (n, u)) : u.fn = s.fn := by
  unfold takeTag at h
  dsimp only at h
  split_ifs at h
  · cases h
    rfl
  · split at h <;> cases h
    rfl

/-- A read request changes nothing of the functions and their configuration. -/
theorem sendRead_fn {u : State} {ch : Chan} {pos addr len n : Nat} (h : sendRead s c ch pos addr len = some (n, u)) :
    u.fn = s.fn := by
  unfold sendRead at h
  split_ifs at h
  split at h
  · cases h
  · next ht =>
    cases h
    rw [← takeTag_fn ht, emit_fn, transmit_fn]
    rfl

theorem issueBeat_host_fn {u : State} {j : Nat} {d : Desc} (hsrc : dSrc d = 0) (h : issueBeat s c j d = some u) : u.fn = s.fn := by
  unfold issueBeat at h
  simp only [hsrc, if_true] at h
  split at h
  · cases h
  · split at h
    · cases h
    · next hr =>
      cases h
      rw [← sendRead_fn hr]
      split <;> rfl

theorem maxReadReq_of_fn {u : State} (h : u.fn = s.fn) (p : Nat) : maxReadReq u p = maxReadReq s p := by
  unfold maxReadReq cfgGet
  rw [h]

/-- Only a read of host memory looks at the state: at the functions' configuration (R193). -/
theorem nextBeat_congr {u : State} {ch : Chan} {d : Desc} (h : dSrc d = 0 → u.fn = s.fn) : nextBeat u ch d = nextBeat s ch d := by
  unfold nextBeat
  by_cases hsrc : dSrc d = 0
  · rw [maxReadReq_of_fn (h hsrc)]
  · simp only [hsrc, if_false]

/-- The beat that is issued is the one that was due, as the arbiter counts its bytes. -/
theorem nextOf_issuable {u : State} {j : Nat} {d : Desc} (h : Issuable s (chan s c) j d) (hu : issueBeat s c j d = some u) :
    nextOf s c = .beat (settleHead u c) (nextBeat s (chan s c) d).2 := by
  obtain ⟨hnext, hmay, hstarted, hsound, hleft⟩ := h
  unfold nextOf
  simp only [hnext, hmay, hstarted, Bool.not_true, Bool.false_eq_true, if_false, if_true]
  rw [if_neg (by simp [hsound, hleft]), hu]
  exact congrArg (fun b => NextBeat.beat (settleHead u c) b.2) (nextBeat_congr (fun hsrc => issueBeat_host_fn hsrc hu))

/-- SC0 is served at once (R248). -/
theorem serve_of_sc0_or {v : State} {point : Nat} {e : Ready} {others : List Ready}
    (h : (tagSc e.tag = 0 ∧ v = s) ∨ serve s point e others = some v) : serve s point e others = some v := by
  rcases h with ⟨h0, rfl⟩ | h
  · exact if_pos h0
  · exact h

/-- A beat that the engine serves is issued; the arbiter keeps its own shares. -/
theorem execBeatIssue_issues {u v : State} {j : Nat} {d : Desc} (h : Issuable s (chan s c) j d) (hu : issueBeat s c j d = some u)
    (hv : serve s (8 + c % 16) { tag := chTag (chan s c), len := (nextBeat s (chan s c) d).2 } (readyBeats s c) = some v) :
    execBeatIssue c s = .next { settleHead u c with sc := v.sc } := by
  unfold execBeatIssue
  simp only [nextOf_issuable h hu, hv]

/-- A beat of a QUEUE source is read from the item at once. -/
theorem issueBeat_item {j : Nat} {d : Desc} {i : Item} (hsrc : dSrc d = 3) (hi : d.item = some i)
    (hroom : readAhead s (c % 16) + (nextBeat s (chan s c) d).2 ≤ 32768) :
    issueBeat s c j d = some (setDesc s c j { d with
      issued := d.issued + (nextBeat s (chan s c) d).2
      beats := d.beats ++ [{
        off := (nextBeat s (chan s c) d).1, len := (nextBeat s (chan s c) d).2, st := .arrived
        parts := [(0, (slice i.bytes (nextBeat s (chan s c) d).1 (nextBeat s (chan s c) d).2, i.poison))] }] }) := by
  unfold issueBeat
  simp only [localRead, hsrc, hi]
  rw [if_neg (Nat.not_lt.mpr hroom), if_neg (by decide)]

/-! A beat among those of its channel -/

/-- Beat b of descriptor d stands in place i of place j. -/
theorem beatAt_eq {ch : Chan} {j i : Nat} {d : Desc} {b : Beat} (hd : ch.fetched[j]? = some d) (hb : d.beats[i]? = some b) :
    (ch.fetched[j]?).bind (fun d => d.beats[i]?.map (fun b => (d, b))) = some (d, b) := by
  rw [hd, Option.bind_some, hb, Option.map_some]

/-! BEAT_COMPLETE (R192, R195) -/

/-- The rest of an answer completes its beat, gives back the tag, and is delivered when it may be. -/
theorem execBeatComplete_data {k j i t : Nat} {d : Desc} {b : Beat} {a : ActiveTag} {x : Bytes} (hsafe : s.th.safe = false)
    (hk : (beatsIn (chan s c) (fun b => b.st == .waiting || b.st == .arrived))[k]? = some (j, i))
    (hd : (chan s c).fetched[j]? = some d) (hb : d.beats[i]? = some b) (hst : b.st = .waiting) (ht : b.tag = some t)
    (ha : Tab.find (port s (chan s c).port).active t = some a) (hx : a.got + x.length = b.len) :
    execBeatComplete c k (.data x false) s = .next (settleHead (tryDeliver
      (pieceArrived (giveTag s (chan s c).port t) c j i d b a.got x false true) c j i) c) := by
  have hwaits : b.st ≠ .arrived := by simp [hst]
  have htag : b.tag.getD 0 = t := by rw [ht]; rfl
  unfold execBeatComplete
  simp only [hsafe, hk, beatAt_eq hd hb, htag, ha, Bool.false_eq_true, if_false]
  rw [if_neg hwaits, if_neg (not_not_intro hx)]

/-! Requests and RETRY (R196, R269) -/

/-- While less than half of the tags are active, a tag never used is taken first. -/
theorem takeTag_fresh {p : Nat} (hhalf : (port s p).active.length < tagSpace s p / 2) (hfresh : (port s p).fresh < tagSpace s p) :
    takeTag s p =
      some ((port s p).fresh, setPort s p { port s p with fresh := (port s p).fresh + 1, l1 := false }) := by
  rw [takeTag, if_pos hhalf, if_pos hfresh]

theorem sendRead_fresh {ch : Chan} (hsends : portSends s ch.port = true)
    (hhalf : (port s ch.port).active.length < tagSpace s ch.port / 2) (hfresh : (port s ch.port).fresh < tagSpace s ch.port)
    (pos addr len : Nat) : ∃ u, sendRead s c ch pos addr len = some ((port s ch.port).fresh, u) := by
  unfold sendRead
  rw [if_neg (by simp [hsends]), takeTag_fresh hhalf hfresh]
  exact ⟨_, rfl⟩

/-- After its back-off a failed beat of an ACTIVE channel is requested again with a new tag. -/
theorem execRetry_sends {k j i n : Nat} {d : Desc} {b : Beat} {u : State}
    (hk : (beatsIn (chan s c) (fun b => b.st == .retry))[k]? = some (j, i)) (hd : (chan s c).fetched[j]? = some d)
    (hb : d.beats[i]? = some b) (hrun : chanRuns s (chan s c) = true) (hst : (chan s c).st = .active)
    (hr : sendRead (passTo s b.due) c (chan s c) d.pos (dSrcA d + b.off) b.len = some (n, u)) :
    execRetry c k s = .next (setDesc (count u Reg.shRetryCnt) c j
      { d with beats := d.beats.set i { b with st := .waiting, tag := some n } }) := by
  have hissues : ¬ (!beatsRun s (chan s c) d ∨ (chan s c).st = .pausing ∧ !descWhole d) := by simp [beatsRun, hrun, hst]
  unfold execRetry
  simp only [hk, beatAt_eq hd hb]
  rw [if_neg hissues, hr]

end

/-- Settles O27: each row by what it comes to. -/
theorem channelSteps : Obligations.ChannelSteps := by
  refine ⟨fun s c => ⟨?_, ?_, ?_, ?_, ?_, ?_, ?_, ?_⟩, fun s c => ⟨?_, ?_, ?_, ?_⟩⟩
  -- DESCRIPTOR_FETCH
  · intro host ppa k ⟨hfetch, hempty, hgoes, hmore, hclean⟩ hring ht hh hc u hp
    rw [← fetchPool_slot ht hc hp]
    exact (execDescriptorFetch_ready ⟨hfetch, hempty, hgoes, hmore, hclean⟩ hh).trans (congrArg _ (if_pos hring))
  · intro b n u ⟨hfetch, hempty, hgoes, hmore, hclean⟩ hring hb hr
    rw [← fetchHost_data hclean hb hr]
    exact (execDescriptorFetch_ready ⟨hfetch, hempty, hgoes, hmore, hclean⟩ (by simp)).trans (congrArg _ (if_neg (by simp [hring])))
  · exact fun k b hempty hst hgood => gotDesc_joins hempty hst hgood
  -- TAIL_BUFFER_WRITE_THROUGH
  · exact fun p b rest ppa k ht hroom hc => execTailBufferWriteThrough_writes ht hroom hc
  · exact fun p b rest g ht hst hc => execTailBufferWriteThrough_refused ht hst hc
  -- DESCRIPTOR_RETIRE
  · intro u v d rest hsafe ho hu hf hst hlo hhi hcomplete hready hv hd
    have hw : writeSlot u (chan u c) d = some v := by
      rcases hv with ⟨hring, rfl⟩ | hw
      · exact writeSlot_host hring
      · exact hw
    exact execDescriptorRetire_retires hsafe ho hu ⟨⟨rest, hf⟩, hst, hlo, hhi, hcomplete, hready⟩ hw hd
  -- PAUSED
  · intro u hu hst hf hstop
    exact (execPaused_rests hu hst hf).trans (by rw [if_neg (by simp [hstop])])
  · intro u hu hst hf hstop
    exact (execPaused_rests hu hst hf).trans (by rw [if_pos hstop])
  -- BEAT_ISSUE
  · intro j d v hnext hmay hstarted hsound hleft hroom hserve
    have h : Issuable s (chan s c) j d := ⟨hnext, hmay, hstarted, hsound, hleft⟩
    have hv := serve_of_sc0_or (e := { tag := chTag (chan s c), len := (nextBeat s (chan s c) d).2 }) hserve
    exact ⟨fun u hu => execBeatIssue_issues h hu hv,
      fun i hsrc hi => execBeatIssue_issues h (issueBeat_item hsrc hi hroom) hv⟩
  -- BEAT_COMPLETE
  · exact fun k j i d b t a x hsafe hk hd hb hst ht ha hx => execBeatComplete_data hsafe hk hd hb hst ht ha hx
  -- RETRY
  · exact fun pos addr len hsends hhalf hfresh => sendRead_fresh hsends hhalf hfresh pos addr len
  · exact fun k j i d b n u hk hd hb hrun hst hr => execRetry_sends hk hd hb hrun hst hr

end Sys2Proof.Proofs
end

section
/-! SUPPORT. The Weft part of a datagram on the wire: what a receiver reads back of the fields that the sender wrote, and the CRC-32C that
it finds good (R214, Tables 08-5 to 08-7). -/

namespace Sys2Proof.Proofs
open Sys2Proof Sys2Proof.Machine

/-! Parts of a string of bytes -/

theorem slice_append_left {a : Bytes} {k n : Nat} (h : k + n ≤ a.length) (b : Bytes) : slice (a ++ b) k n = slice a k n := by
  rw [slice, slice, List.drop_append_of_le_length (by omega), List.take_append_of_le_length (by rw [List.length_drop]; omega)]

/-- A string that is a middle part of another is read back from its place. -/
theorem slice_append_middle {a : Bytes} {k : Nat} (h : a.length = k) (b e : Bytes) : slice (a ++ b ++ e) k b.length = b := by
  rw [slice, List.append_assoc, List.drop_left' h, List.take_left]

/-! A CRC of n bits stays within them -/

section
variable {n poly : Nat}

theorem crcBit_lt (hp : poly < 2 ^ n) {c : Nat} (hc : c < 2 ^ n) : crcBit poly c < 2 ^ n := by
  have hhalf : c / 2 < 2 ^ n := Nat.lt_of_le_of_lt (Nat.div_le_self c 2) hc
  unfold crcBit
  split
  · exact Nat.xor_lt_two_pow hhalf hp
  · exact hhalf

theorem crcByte_lt (h8 : 8 ≤ n) (hp : poly < 2 ^ n) {c : Nat} (hc : c < 2 ^ n) (b : Byte) : crcByte poly c b < 2 ^ n := by
  have hb : b.toNat < 2 ^ n := Nat.lt_of_lt_of_le b.isLt (Nat.pow_le_pow_right (by decide) h8)
  have hstep {x : Nat} : x < 2 ^ n → crcBit poly x < 2 ^ n := crcBit_lt hp
  exact hstep (hstep (hstep (hstep (hstep (hstep (hstep (hstep (Nat.xor_lt_two_pow hc hb))))))))

theorem crcRun_lt (h8 : 8 ≤ n) (hp : poly < 2 ^ n) (b : Bytes) {c : Nat} (hc : c < 2 ^ n) : crcRun poly c b < 2 ^ n := by
  induction b generalizing c with
  | nil => exact hc
  | cons x t ih => exact ih (crcByte_lt h8 hp hc x)

end

theorem crc32c_lt (b : Bytes) : crc32c b < 2 ^ 32 :=
  Nat.xor_lt_two_pow (crcRun_lt (by decide) (by decide) b (by decide)) (by decide)

/-- A string that ends with the CRC-32C of what precedes is good once it can hold a packet. -/
theorem crcGood_append_crc32c {b : Bytes} (h : 32 ≤ b.length) : crcGood (b ++ toLe 4 (crc32c b)) = true := by
  have hlen : (b ++ toLe 4 (crc32c b)).length = b.length + 4 := by rw [List.length_append, toLe_length]
  have hcrc : leAt (b ++ toLe 4 (crc32c b)) b.length 4 = crc32c b := by
    rw [leAt, slice, List.drop_left, List.take_of_length_le (toLe_length ..).le, le_toLe, Nat.mod_eq_of_lt (crc32c_lt b)]
  rw [crcGood, hlen, Nat.add_sub_cancel, List.take_left, hcrc]
  simpa using h

/-! The base header (Table 08-5) -/

/-- The first 16 bytes of a packet with n bytes of payload. -/
def weftHead (kind flags dst psn tag src n : Nat) : Bytes :=
  toLe 1 (1 + 16 * kind) ++ toLe 1 flags ++ toLe 2 dst ++ toLe 4 psn ++ toLe 4 tag ++ toLe 2 src ++ toLe 2 n

section
variable (kind flags dst psn tag src : Nat) (part payload : Bytes)

/-- A packet is its header, the part of its type, the payload and the CRC-32C of these. -/
theorem weftBytes_eq : weftBytes kind flags dst psn tag src part payload =
    weftHead kind flags dst psn tag src payload.length ++ part ++ payload ++
      toLe 4 (crc32c (weftHead kind flags dst psn tag src payload.length ++ part ++ payload)) := rfl

theorem weftHead_length (n : Nat) : (weftHead kind flags dst psn tag src n).length = 16 := rfl

/-- A field of the header is read from the packet as from the header. -/
theorem leAt_weftBytes {k n : Nat} (h : k + n ≤ 16) : leAt (weftBytes kind flags dst psn tag src part payload) k n =
    leAt (weftHead kind flags dst psn tag src payload.length) k n := by
  rw [weftBytes_eq, List.append_assoc, List.append_assoc, leAt, leAt, slice_append_left h]

/-- The payload follows the header and a type part of 16 bytes. -/
theorem slice_weftBytes_payload (hp : part.length = 16) :
    slice (weftBytes kind flags dst psn tag src part payload) 32 payload.length = payload :=
  slice_append_middle (a := weftHead kind flags dst psn tag src payload.length ++ part)
    (by rw [List.length_append, weftHead_length, hp]) ..

theorem weftBytes_length (hp : part.length = 16) :
    (weftBytes kind flags dst psn tag src part payload).length = 36 + payload.length := by
  rw [weftBytes_eq]
  simp only [List.length_append, weftHead_length, toLe_length, hp]
  omega

theorem crcGood_weftBytes (hp : part.length = 16) : crcGood (weftBytes kind flags dst psn tag src part payload) = true := by
  rw [weftBytes_eq]
  refine crcGood_append_crc32c ?_
  rw [List.length_append, List.length_append, weftHead_length, hp]
  omega

/-- Every field of the header is read back at its place, as far as its width holds it. -/
theorem leAt_weftHead (n : Nat) :
    leAt (weftHead kind flags dst psn tag src n) 0 1 = (1 + 16 * kind) % 256 ∧
    leAt (weftHead kind flags dst psn tag src n) 1 1 = flags % 256 ∧
    leAt (weftHead kind flags dst psn tag src n) 2 2 = dst % 65536 ∧
    leAt (weftHead kind flags dst psn tag src n) 4 3 = psn % 2 ^ 24 ∧
    leAt (weftHead kind flags dst psn tag src n) 8 4 = tag % 2 ^ 32 ∧
    leAt (weftHead kind flags dst psn tag src n) 12 2 = src % 65536 ∧
    leAt (weftHead kind flags dst psn tag src n) 14 2 = n % 65536 :=
  ⟨le_toLe 1 _, le_toLe 1 _, le_toLe 2 _, le_toLe 3 _, le_toLe 4 _, le_toLe 2 _, le_toLe 2 _⟩

end

/-- Settles O34: the CRC covers all that precedes it, and every field fits the place from which the receiver reads it. -/
theorem packetFormat : Obligations.PacketFormat := by
  intro w kind flags dst psn tag src part payload hkind hflags hdst hpsn htag hsrc hpart hpayload hw
  obtain ⟨h0, h1, h2, h4, h8, h12, h14⟩ := leAt_weftHead kind flags dst psn tag src payload.length
  simp only [parseWeft, hw, leAt_weftBytes, Nat.reduceAdd, Nat.reduceLeDiff, h0, h1, h2, h4, h8, h12, h14, Nat.mod_eq_of_lt,
    hflags, hdst, hpsn, htag, hsrc, hpayload, BitVec.toNat_ofNat]
  refine ⟨crcGood_weftBytes _ _ _ _ _ _ _ _ hpart, ?_, trivial, trivial, trivial, trivial, trivial, ?_, ?_⟩
  · rw [fld_eq_div_mod]
    omega
  · exact slice_weftBytes_payload _ _ _ _ _ _ _ _ hpart
  · exact weftBytes_length _ _ _ _ _ _ _ _ hpart

end Sys2Proof.Proofs
end

section
/-! SUPPORT. The network commands: what each does once no rule refuses it (R210, R216 to R219, R239, Table 08-13). -/

namespace Sys2Proof.Proofs
open Sys2Proof Sys2Proof.Machine

section
variable {s : State}

/-- With every context FREE or CLOSED an arrangement is applied and kept. -/
theorem doEthArrange_arranges {a : Nat} (ha : a ≤ 3)
    (hidle : s.wt.conns.any (fun e => e.2.st != .free && e.2.st != .closed) = false) (hk : keepBusy s = false) :
    doEthArrange s a = done (keepWrite (applyArrangement s a) Keep.ethArrange (BitVec.ofNat 64 a)) :=
  guardAll_open (by simp [ha, hidle, hk]) _

/-- The listener that WEFT_LISTEN makes. -/
def listenerFor (a : ListenArgs) : Listener :=
  { ctx := a.ctx, service := a.service, portMask := a.portMask, cls := a.cls, rxQ := a.rxQ, reportQ := a.reportQ
    plog := a.payloadLog2, grantLog := grantLogOf a.grantLog2 }

/-- What Table 08-13 asks of the arguments of WEFT_LISTEN. -/
structure Listenable (s : State) (a : ListenArgs) : Prop where
  live : Live s a.ctx
  service : a.service ≤ 65535
  ports : maskOk s a.portMask = true
  cls_pos : 1 ≤ a.cls
  cls_le : a.cls ≤ 3
  rxQ : ownsQueue s a.ctx a.rxQ = true
  reportQ : ownsQueue s a.ctx a.reportQ = true
  payload_ge : 8 ≤ a.payloadLog2
  payload_le : a.payloadLog2 ≤ 13
  grant : grantLogOf a.grantLog2 ≤ 15
  alone : s.wt.listeners.any (fun e => e.2.service == a.service && (e.2.portMask &&& a.portMask) != 0) = false

theorem doWeftListen_listens {a : ListenArgs} {n : Nat} (h : Listenable s a)
    (hn : oneOf s 0 (Tab.freeKeys s.wt.listeners 0 256) = some n) :
    doWeftListen s a = (useFree { s with wt := { s.wt with listeners := Tab.put s.wt.listeners n (listenerFor a) } },
      some { status := .ok, results := [(1, n)] }) := by
  obtain ⟨⟨hctx, hmissing, hfrozen⟩, hservice, hports, hcls, hcls3, hrx, hreport, hpay, hpay13, hgrant, halone⟩ := h
  have hclass : a.cls ≠ 0 := by omega
  unfold doWeftListen
  rw [hn]
  exact guardAll_open (by simp [hctx, hmissing, hfrozen, hservice, hports, hclass, hcls3, hrx, hreport, hpay, hpay13, hgrant, halone]) _

theorem doWeftUnlisten_unlistens {n : Nat} {l : Listener} (hf : Tab.find s.wt.listeners n = some l) (hl : Live s l.ctx) :
    doWeftUnlisten s n = done { s with wt := { s.wt with listeners := Tab.del s.wt.listeners n } } := by
  obtain ⟨-, hmissing, hfrozen⟩ := hl
  unfold doWeftUnlisten
  rw [hf]
  exact guardAll_open (by simp [hmissing, hfrozen]) _

/-- What Table 08-13 asks of the arguments of WEFT_CONNECT. -/
structure Connectable (s : State) (a : ConnectArgs) : Prop where
  live : Live s a.ctx
  port : a.port < etPorts s.et.arrangement
  service : a.service ≤ 65535
  cls_pos : 1 ≤ a.cls
  cls_le : a.cls ≤ 3
  rxQ : ownsQueue s a.ctx a.rxQ = true
  reportQ : ownsQueue s a.ctx a.reportQ = true
  payload_ge : 8 ≤ a.payloadLog2
  payload_le : a.payloadLog2 ≤ 13
  grant : grantLogOf a.grantLog2 ≤ 15
  prio : a.peer.prio ≤ 7
  dscp : a.peer.dscp ≤ 63
  vlan : a.peer.vlan.getD 0 ≤ 4095
  frame : fullFrame a.peer a.payloadLog2 ≤ fld (regNat s (Reg.etMaxFrame a.port)) 0 14
  room : connRoom s a.ctx = true

/-- The lowest free context sends its CONNECT to the peer. -/
theorem doWeftConnect_connects {a : ConnectArgs} {n k : Nat} (h : Connectable s a)
    (hn : lowestInHalf s s.wt.conns 32768 65536 = some n) (hk : peerFor s a.peer = some k) :
    let v := usePeer s k a.peer
    doWeftConnect s a = (journalConn (sendConnect (setConn (useFree (useFree v)) n (connecting v a k)) n) n,
      some { status := .ok, results := [(2, n)] }) := by
  obtain ⟨⟨hctx, hmissing, hfrozen⟩, hport, hservice, hcls, hcls3, hrx, hreport, hpay, hpay13, hgrant, hprio, hdscp, hvlan, hframe,
    hroom⟩ := h
  have hclass : a.cls ≠ 0 := by omega
  unfold doWeftConnect
  rw [hn, hk]
  exact guardAll_open (by simp [hctx, hmissing, hfrozen, hport, hservice, hclass, hcls3, hrx, hreport, hpay, hpay13, hgrant, hprio,
    hdscp, hvlan, hframe, hroom]) _

/-- A context in use of a live owner is commanded. -/
theorem withConn_used {c : Nat} (hfree : (conn s c).st ≠ .free) (hclosed : (conn s c).st ≠ .closed) (hl : Live s (conn s c).ctx)
    {more : Conn → List (Bool × Status)} (hm : ∀ e ∈ more (conn s c), e.1 = false) (body : Conn → Done) :
    withConn s c more body = body (conn s c) := by
  obtain ⟨-, hmissing, hfrozen⟩ := hl
  refine guardAll_open (fun e he => ?_) _
  rcases List.mem_append.mp he with he | he
  · revert e
    simp [hmissing, hfrozen, hfree, hclosed]
  · exact hm e he

/-- An OPEN connection moves to another port and to another way to the same peer. -/
theorem doWeftMove_moves {c port k : Nat} {mac : BitVec 48} {vlan : Option Nat} {e : Peer} (hst : (conn s c).st = .opened)
    (hl : Live s (conn s c).ctx) (hport : port < etPorts s.et.arrangement) (hvlan : vlan.getD 0 ≤ 4095)
    (he : peer? s (conn s c).peer = some e)
    (hk : peerFor (dropPeer s (conn s c).peer) ⟨e.ip, mac, vlan, e.prio, e.dscp⟩ = some k) :
    doWeftMove s c port mac vlan = done (journalConn (setConn
      (usePeer (dropPeer s (conn s c).peer) k ⟨e.ip, mac, vlan, e.prio, e.dscp⟩) c { conn s c with port := port, peer := k }) c) := by
  unfold doWeftMove
  simp only [he, hk]
  exact withConn_used (by simp [hst]) (by simp [hst]) hl (by simp [hst, hport, hvlan]) _

/-- Taking a command up leaves the peer entries as they are. -/
theorem dropPeer_accepted (src p : Nat) : dropPeer (accepted s src) p = accepted (dropPeer s p) src := by
  have hpeer : peer? (accepted s src) p = peer? s p := rfl
  unfold dropPeer
  rw [hpeer]
  cases peer? s p <;> rfl

end

/-- Settles O29: each command, by what it does in the tick that takes it up. -/
theorem networkCommands : Obligations.NetworkCommands := by
  refine fun r s src c hr => ⟨?_, ?_, ?_, ?_, ?_, ?_, ?_⟩
  -- ETH_ARRANGE
  · exact fun a hs ha hidle hk => atNextTick_answers hr hs (doEthArrange_arranges (s := accepted s src) ha hidle hk)
  -- WEFT_LISTEN
  · exact fun a n hs hl hservice hports hcls hcls3 hrx hreport hpay hpay13 hgrant hn halone =>
      atNextTick_answers hr hs (doWeftListen_listens (s := accepted s src)
        ⟨hl, hservice, hports, hcls, hcls3, hrx, hreport, hpay, hpay13, hgrant, halone⟩ hn)
  -- WEFT_UNLISTEN
  · exact fun n l hs hf hl => atNextTick_answers hr hs (doWeftUnlisten_unlistens (s := accepted s src) hf hl)
  -- WEFT_CONNECT
  · exact fun a n k hs hl hport hservice hcls hcls3 hrx hreport hpay hpay13 hgrant hprio hdscp hvlan hframe hn hroom hk =>
      atNextTick_answers hr hs (doWeftConnect_connects (s := accepted s src)
        ⟨hl, hport, hservice, hcls, hcls3, hrx, hreport, hpay, hpay13, hgrant, hprio, hdscp, hvlan, hframe, hroom⟩ hn hk)
  -- WEFT_CLOSE
  · exact fun hs hfree hclosed hl =>
      atNextTick_answers hr hs (withConn_used (s := accepted s src) hfree hclosed hl (by simp) _)
  -- WEFT_MOVE
  · intro port mac vlan e k hs hst hl hport hvlan he hk
    exact atNextTick_answers hr hs (doWeftMove_moves (s := accepted s src) hst hl hport hvlan he
      ((congrArg (peerFor · _) (dropPeer_accepted src _)).trans hk))
  -- WEFT_LIMIT
  · intro tid n hs ht ⟨_, hmissing, hfrozen⟩ hn
    exact atNextTick_answers hr hs (guardAll_open (by simp [hmissing, hfrozen, ht, hn]) _)

end Sys2Proof.Proofs
end

section
/-! SUPPORT. The registers that the network reads stand in places of their own: no counter of a port's frames and no wait for a tag of a
host port changes them (R270, Tables 08-15 and 08-16). -/

namespace Sys2Proof.Proofs
open Sys2Proof Sys2Proof.Machine

theorem regGet_countN_ne (s : State) {r q : Nat} (n : Nat) (h : q ≠ r) : regGet (countN s r n) q = regGet s q := by
  rw [countN, regGet_regSet, if_neg h]

theorem regNat_count_ne (s : State) {r q : Nat} (h : q ≠ r) : regNat (count s r) q = regNat s q :=
  congrArg BitVec.toNat (regGet_countN_ne s 1 h)

section
variable (s : State)

/-- A received frame that is counted leaves the longest frame of its port as it is. -/
theorem regNat_count_etRxFrames_etMaxFrame (p : Nat) :
    regNat (count s (Reg.etRxFrames p)) (Reg.etMaxFrame p) = regNat s (Reg.etMaxFrame p) :=
  regNat_count_ne s (by simp [Reg.etMaxFrame, Reg.etRxFrames, Reg.et])

theorem wtWindow_count_etRxFrames (p : Nat) : wtWindow (count s (Reg.etRxFrames p)) = wtWindow s := by
  have h : Reg.wtCfg ≠ Reg.etRxFrames p := by
    simp only [Reg.wtCfg, Reg.etRxFrames, Reg.et]
    omega
  rw [wtWindow, wtWindow, regNat_count_ne s h]

/-- Cycles in which requests wait for a tag change the counts of these waits only (R270). -/
theorem tagStall_keeps (n : Nat) : (tagStall s n).wt = s.wt ∧ (tagStall s n).et = s.et ∧
    ∀ r, (∀ p, r ≠ Reg.hpTagStall p) → regGet (tagStall s n) r = regGet s r := by
  unfold tagStall
  generalize s.hp.ports = ports
  induction ports generalizing s with
  | nil => exact ⟨rfl, rfl, fun _ _ => rfl⟩
  | cons e l ih =>
    rw [List.foldl_cons]
    split
    · obtain ⟨hwt, het, hreg⟩ := ih (countN s (Reg.hpTagStall e.1) n)
      exact ⟨hwt, het, fun r hr => (hreg r hr).trans (regGet_countN_ne s n (hr e.1))⟩
    · exact ih s

/-- Time that passes leaves the network as it is, and every register but the counts of waits for a tag. -/
theorem passTo_keeps (t : Nat) : (passTo s t).wt = s.wt ∧ (passTo s t).et = s.et ∧
    ∀ r, (∀ p, r ≠ Reg.hpTagStall p) → regNat (passTo s t) r = regNat s r := by
  unfold passTo
  split
  · exact ⟨rfl, rfl, fun _ _ => rfl⟩
  · obtain ⟨hwt, het, hreg⟩ := tagStall_keeps s (cdiv (t - s.now) (cycleLen s))
    exact ⟨hwt, het, fun r hr => congrArg BitVec.toNat (hreg r hr)⟩

theorem lineRate_passTo (t : Nat) : lineRate (passTo s t) = lineRate s := by
  obtain ⟨-, het, -⟩ := passTo_keeps s t
  rw [lineRate, lineRate, het]

theorem regNat_passTo_wtCfg (t : Nat) : regNat (passTo s t) Reg.wtCfg = regNat s Reg.wtCfg := by
  obtain ⟨-, -, hreg⟩ := passTo_keeps s t
  refine hreg _ fun p => ?_
  simp only [Reg.wtCfg, Reg.hpTagStall, Reg.hp]
  omega

theorem wtRetryMax_passTo (t : Nat) : wtRetryMax (passTo s t) = wtRetryMax s := by
  rw [wtRetryMax, wtRetryMax, regNat_passTo_wtCfg]

theorem wtRtoMin_passTo (t : Nat) : wtRtoMin (passTo s t) = wtRtoMin s := by
  rw [wtRtoMin, wtRtoMin, regNat_passTo_wtCfg]

theorem wtRateStep_passTo (t : Nat) : wtRateStep (passTo s t) = wtRateStep s := by
  obtain ⟨-, -, hreg⟩ := passTo_keeps s t
  rw [wtRateStep, wtRateStep, hreg]
  intro p
  simp only [Reg.wtCfg2, Reg.hpTagStall, Reg.hp]
  omega

end

end Sys2Proof.Proofs
end

section
/-! SUPPORT. The steps of an Ethernet port: what a frame received or sent comes to, the changes of its link, and the end of a pause (R211
to R213, R237). -/

namespace Sys2Proof.Proofs
open Sys2Proof Sys2Proof.Machine

section
variable {s : State} {f : EthFrame}

/-- A frame received with the link up, outside safe state: counted as bad, or classified (R212). -/
theorem execFrameReceive_up (hlink : (etPort s f.port).link = true) (hsafe : s.th.safe = false) :
    execFrameReceive f s = if f.fcsOk = false then
      .next (portViolation (count s (Reg.etRxFrames f.port)) f.port (Reg.etFcsErr f.port)) else classify s f := by
  simp [execFrameReceive, hlink, hsafe]

/-- A frame of a length that the port takes, with at most one tag and no fragment, that is a MAC control frame is taken as one (R211). -/
theorem classify_macControl (hlen : f.bytes.length + 4 ≤ fld (regNat s (Reg.etMaxFrame f.port)) 0 14)
    (htags : (parseFrame f.bytes).tags ≠ 2) (hfrag : (parseFrame f.bytes).fragment = false)
    (htype : (parseFrame f.bytes).etherType = 0x8808) :
    classify s f = .next (takePause (count s (Reg.etRxFrames f.port)) f.port f.bytes (parseFrame f.bytes)) := by
  unfold classify
  dsimp only
  rw [regNat_count_etRxFrames_etMaxFrame, if_neg (by simp [hlen, htags, hfrag]), if_pos htype]

/-- The head item of ET_MGT_TXQ, a sound frame item for a port whose link is up, leaves (R213). -/
theorem execFrameTransmit_sends {p : Nat} {x : Queue} {i : Item} {b : Bytes} (hq : queue? s s.et.queue = some x)
    (hi : headItem x = some i) (hctx : x.ctx = mgt) (hsafe : s.th.safe = false) (hpoison : i.poison = false)
    (hmin : 16 ≤ i.bytes.length) (hlen : i.bytes.length = 16 + leAt i.bytes 2 2) (hp : p = leAt i.bytes 0 1 % 16)
    (hb : b = slice i.bytes 16 (leAt i.bytes 2 2)) (hlink : (etPort s p).link = true)
    (hpause : prioPaused s p (parseFrame b).prio = false) :
    let u := count (emit (unlinkItem s s.et.queue x i 0) (.frame p b)) (Reg.etTxFrames p)
    execFrameTransmit p s = .next (if bit (leAt i.bytes 0 1) 5 then recordStamp u p b else u) := by
  have hsound : ¬ (i.bytes.length < 16 ∨ i.bytes.length ≠ 16 + leAt i.bytes 2 2 ∨ i.poison = true) := by
    simp [hpoison, ← hlen, hmin]
  unfold execFrameTransmit
  simp only [hq, hi, ← hp, ← hb]
  rw [if_neg (by simp [hctx, hsafe]), if_neg hsound, if_neg (by simp [hlink, hpause])]

/-- The link of a port of the arrangement in effect changes; none comes up with a lane in test or in safe state (R361, R398). -/
theorem execEtLink_changes {p : Nat} {up : Bool} (hp : p < etPorts s.et.arrangement) (hlink : (etPort s p).link ≠ up)
    (happlied : s.et.applied = true)
    (hup : up = true → s.th.safe = false ∧ anyTest s (portLanes s p).1 (portLanes s p).2 = false) :
    execEtLink p up s = .next (linkChange s p up) := by
  have hmay : ¬ (up = true ∧ (anyTest s (portLanes s p).1 (portLanes s p).2 = true ∨ s.th.safe = true)) := by
    rintro ⟨h, hbad⟩
    obtain ⟨hsafe, htest⟩ := hup h
    simp [hsafe, htest] at hbad
  unfold execEtLink
  rw [if_neg (by simp [hp, hlink, happlied]), if_neg hmay]

end

/-- Settles O30: each row by what it comes to at its port. -/
theorem frameSteps : Obligations.FrameSteps := by
  refine fun s p => ⟨?_, ?_, ?_, ?_, ?_, ?_, ?_⟩
  -- FRAME_RECEIVE
  · exact fun f hlink hsafe hfcs => (execFrameReceive_up hlink hsafe).trans (if_pos hfcs)
  · exact fun f hlink hsafe hfcs => (execFrameReceive_up hlink hsafe).trans (if_neg (by simp [hfcs]))
  · exact fun f hlink hsafe hfcs hlen htags hfrag htype =>
      ((execFrameReceive_up hlink hsafe).trans (if_neg (by simp [hfcs]))).trans (classify_macControl hlen htags hfrag htype)
  -- FRAME_TRANSMIT
  · exact fun x i b hq hi hctx hsafe hpoison hmin hlen hp hb hlink hpause =>
      execFrameTransmit_sends hq hi hctx hsafe hpoison hmin hlen hp hb hlink hpause
  -- ET_LINK
  · exact fun up hp hlink happlied hup => execEtLink_changes hp hlink happlied hup
  -- ET_TX_TS_ID
  · rfl
  -- PAUSE_QUANTA_EXPIRY
  · exact fun prio h => if_pos (List.contains_iff_mem.mpr h)

end Sys2Proof.Proofs
end

section
/-! SUPPORT. The packets of Weft: a packet that passes the checks of every packet reaches its row, one of a connection's peer reaches the
connection; what each row then does (R216, R218, R222 to R228, R230, R234, R236). -/

namespace Sys2Proof.Proofs
open Sys2Proof Sys2Proof.Machine

/-! The checks of every packet (R222, R236) -/

/-- Data and control packets pass for an OPEN and for a CLOSING context. -/
theorem beq_opened_or_closing {m : ConnMode} (h : m = .opened ∨ m = .closing) : (m == .opened || m == .closing) = true := by
  simpa using h

section
variable {s : State} {w : WeftPacket} {kind : Nat}

/-- A packet that arrives is counted at its port and left to its row. -/
theorem receive_arrives (h : Arrives s w kind) (body : State → WPkt → State) :
    receive s w kind body = .next (body (count s (Reg.etRxFrames w.port)) (parseWeft w)) := by
  obtain ⟨hkind, hlink, hsafe, hcrc, hshape⟩ := h
  simp [receive, hkind, hlink, hsafe, hcrc, hshape]

/-- A packet of the peer of a connection is left to the connection. -/
theorem receive_forConn (h : ForConn s w kind) (body : State → WPkt → State → Conn → State) :
    receive s w kind (fun u p => forConn u p (body u p)) =
      .next (body (count s (Reg.etRxFrames w.port)) (parseWeft w) (count s (Reg.etRxFrames w.port)) (conn s (parseWeft w).dst)) := by
  obtain ⟨harrives, hst, hpeer, htag⟩ := h
  have hfrom : fromPeer (count s (Reg.etRxFrames w.port)) (conn s (parseWeft w).dst) (parseWeft w) = true := hpeer
  rw [receive_arrives harrives]
  simp [forConn, beq_opened_or_closing hst, hfrom, htag]

end

/-! Data packets (R222, R225) -/

section
variable {s : State} {w : WeftPacket} {kind : Nat}

/-- The rows of the data packets are one. -/
theorem exec_data {i : Instr} (hi : (i, kind) ∈ [(Instr.send w, 1), (.write w, 2), (.reduce w, 3)]) :
    exec i s = receive s w kind receiveData := by
  simp only [List.mem_cons, Prod.mk.injEq, List.not_mem_nil, or_false] at hi
  rcases hi with ⟨rfl, rfl⟩ | ⟨rfl, rfl⟩ | ⟨rfl, rfl⟩ <;> rfl

/-- A well-formed data packet of the peer: outside the window it is a violation; behind it, or held already, it is acknowledged again;
inside, what the 64 PSNs and the credit give. -/
theorem receive_data (h : ForConn s w kind) (hshape : dataShape (conn s (parseWeft w).dst).plog (parseWeft w) = true)
    (hline : lineShape (parseWeft w) = true) :
    let p := parseWeft w
    let x := conn s p.dst
    let u := count s (Reg.etRxFrames w.port)
    let d := psnDiff p.psn x.expPsn
    receive s w kind receiveData = .next (
      if wtWindow s ≤ d ∧ d < 2 ^ 24 - wtWindow s then violation u p.dst Reg.wtOow
      else if 2 ^ 24 - wtWindow s ≤ d ∨ (d < 64 ∧ x.rxPkts.any (fun k => k.psn == p.psn)) then
        sendAck (count u Reg.wtDup) p.dst false
      else if 64 ≤ d then count u Reg.wtReorderDrop
      else if (x.rxLimit - x.rxCount).toNat < units p.payload.length then violation u p.dst Reg.wtCreditViol
      else acceptData u p x) := by
  obtain ⟨harrives, hst, hpeer, htag⟩ := h
  have hfrom : fromPeer (count s (Reg.etRxFrames w.port)) (conn s (parseWeft w).dst) (parseWeft w) = true := hpeer
  rw [receive_arrives harrives, ← wtWindow_count_etRxFrames s w.port]
  unfold receiveData
  rw [count_at_conn, if_neg (by simp [beq_opened_or_closing hst, hfrom]), if_neg (by simp [hshape, hline])]
  dsimp only
  rw [if_neg (not_not.mpr htag)]

end

/-! Held packets (R228, R230) -/

/-- What follows the delivery of a held packet: the messages advance, and the packet is acknowledged unless it is still held. -/
def afterHeld (c : Nat) (k : RxPkt) (s : State) : State :=
  let u := advanceMsgs c 66 s
  if (conn u c).rxPkts.any (fun j => j.psn == k.psn && !j.delivered) then u else sendAck (journalConn u c) c false

section
variable {s : State} {c : Nat} {k : RxPkt} {m : RxMsg}

theorem execHeldPacketDelivery_send (hsafe : s.th.safe = false)
    (hk : (conn s c).rxPkts.find? (fun p => p.psn.toNat == k.psn.toNat && !p.delivered) = some k)
    (hm : (conn s c).rxMsgs.find? (fun n => n.num == k.msg) = some m) (hkind : m.kind = WType.send) :
    execHeldPacketDelivery c k.psn.toNat s = .next (afterHeld c k s) := by
  unfold execHeldPacketDelivery
  simp only [hk, hm, hsafe, hkind, Bool.false_eq_true, if_false, if_true]
  rfl

theorem execHeldPacketDelivery_write {t : State} (hsafe : s.th.safe = false)
    (hk : (conn s c).rxPkts.find? (fun p => p.psn.toNat == k.psn.toNat && !p.delivered) = some k)
    (hm : (conn s c).rxMsgs.find? (fun n => n.num == k.msg) = some m) (hkind : m.kind = WType.write)
    (ht : takeWrite s (conn s c) m k.off (Tab.get [] m.parts k.off) k.poison = .took t) :
    execHeldPacketDelivery c k.psn.toNat s = .next (afterHeld c k (markDelivered t c k.psn)) := by
  have hsend : m.kind ≠ WType.send := by rw [hkind]; decide
  unfold execHeldPacketDelivery
  simp only [hk, hm, hsafe, Bool.false_eq_true, if_false]
  rw [if_neg hsend, if_pos hkind, ht]
  rfl

end

/-- Settles O31: a data packet by where its PSN lies, a held packet by the kind of its message. -/
theorem dataPackets : Obligations.DataPackets := by
  refine ⟨fun s w kind i hi h hshape hline => ?_, fun s c k m hsafe hk hm => ⟨?_, ?_⟩⟩
  -- SEND, WRITE, REDUCE
  · rw [exec_data hi, receive_data h hshape hline]
    refine ⟨fun hnear hwin hmax hnew hcredit => ?_, fun hmax hbehind => ?_, fun hlo hhi => congrArg _ (if_pos ⟨hlo, hhi⟩)⟩
    · have hdup : (conn s (parseWeft w).dst).rxPkts.any (fun k => k.psn == (parseWeft w).psn) = false := by simpa using hnew
      rw [if_neg (by omega), if_neg (not_or.mpr ⟨by omega, by simp [hdup]⟩), if_neg (by omega), if_neg (Nat.not_lt.mpr hcredit)]
    · rw [if_neg (by omega), if_pos (.inl hbehind)]
  -- HELD_PACKET_DELIVERY
  · exact execHeldPacketDelivery_send hsafe hk hm
  · exact fun t => execHeldPacketDelivery_write hsafe hk hm

end Sys2Proof.Proofs
end

section
/-! SUPPORT. The control packets: what each row does with a packet that has passed its checks (R216, R218, R224, R226, R227, R234). -/

namespace Sys2Proof.Proofs
open Sys2Proof Sys2Proof.Machine

/-! NAK (R234) -/

section
variable {s : State} {p : WPkt}

theorem takeNak_noConn (h : nakNoConnOk s (conn s p.dst) p = true) :
    takeNak s p = enterClosed (failMsg s p.dst (BitVec.ofNat 16 p.w1) 1 p.w2) p.dst CloseReason.peer := by
  rw [takeNak, if_pos h]

/-- A NAK(ACCESS) fails its message and nothing else. -/
theorem takeNak_access (hno : nakNoConnOk s (conn s p.dst) p = false) (hok : nakOk s (conn s p.dst) p = true)
    (hreason : fld p.w0 24 8 = 2) :
    takeNak s p = trySendClose (failMsg (journalConn s p.dst) p.dst (BitVec.ofNat 16 p.w1) 2 p.w2) p.dst := by
  unfold takeNak
  rw [if_neg (by simp [hno]), if_pos ⟨hok, .inl hreason⟩, hreason]
  rfl

end

/-! CONNECT (R216, R217) -/

/-- A CONNECT that repeats no accepted one and keeps the rules of its fields. -/
structure NewConnect (s : State) (p : WPkt) (b : Bytes) : Prop where
  first : acceptedBefore s p = none
  clear : reservedSet p b = false
  payload_ge : 8 ≤ fld p.w0 16 4
  payload_le : fld p.w0 16 4 ≤ 13

section
variable {s : State} {p : WPkt} {b : Bytes}

theorem NewConnect.not_bad (h : NewConnect s p b) : ¬ (reservedSet p b = true ∨ fld p.w0 16 4 < 8 ∨ 13 < fld p.w0 16 4) := by
  obtain ⟨-, hclear, hge, hle⟩ := h
  simp [hclear, hge, hle]

/-- A listener, a free context within the limit and a peer entry: the connection is accepted. -/
theorem takeConnect_accepts {li c n : Nat} {l : Listener} (h : NewConnect s p b)
    (hl : listenerOf s p.port (fld p.w0 0 16) = some (li, l)) (hc : lowestInHalf s s.wt.conns 32768 65536 = some c)
    (hn : peerFor s (sourceAddr p) = some n) (hroom : connRoom s l.ctx = true) : takeConnect s p b = acceptConn s p c n li l := by
  unfold takeConnect
  rw [h.first]
  dsimp only
  rw [if_neg h.not_bad, hl]
  dsimp only
  rw [hc, hn]
  exact if_pos hroom

theorem takeConnect_rejects (h : NewConnect s p b) (hl : listenerOf s p.port (fld p.w0 0 16) = none) :
    takeConnect s p b = rejectTo (portViolation s p.port Reg.wtReject) p 2 := by
  unfold takeConnect
  rw [h.first]
  dsimp only
  rw [if_neg h.not_bad, hl]

end

/-! ACCEPT and REJECT (R216) -/

section
variable {s : State} {w : WeftPacket}

/-- An ACCEPT with the context's tag that answers its CONNECT opens it. -/
theorem execAccept_opens (h : Arrives s w WType.accept) (ha : answersConnect s (conn s (parseWeft w).dst) (parseWeft w) = true)
    (ht : (parseWeft w).tag = (conn s (parseWeft w).dst).localTag) :
    let p := parseWeft w
    let x := conn s p.dst
    execAccept w s = .next (report (journalConn (setConn (count s (Reg.etRxFrames w.port)) p.dst { x with
      st := .opened, peerConn := p.src, peerTag := BitVec.ofNat 32 p.w1, expPsn := BitVec.ofNat 24 p.w2,
      plog := min x.plog (fld p.w0 16 4), connectDue := none, lastData := s.now }) p.dst) p.dst 1 0 0 0 0) := by
  refine (receive_arrives h _).trans (congrArg _ ?_)
  dsimp only
  rw [count_at_conn, if_neg (by simp [show answersConnect (count s _) _ _ = true from ha]), if_neg (not_not.mpr ht)]
  rfl

/-- A REJECT with the context's tag that answers its CONNECT closes it, with a report. -/
theorem execReject_closes (h : Arrives s w WType.reject) (ha : answersConnect s (conn s (parseWeft w).dst) (parseWeft w) = true)
    (ht : (parseWeft w).tag = (conn s (parseWeft w).dst).localTag) :
    let p := parseWeft w
    execReject w s = .next (enterClosed (report (count s (Reg.etRxFrames w.port)) p.dst 3 (fld p.w0 16 8) 0 0 0) p.dst
      CloseReason.peer) := by
  refine (receive_arrives h _).trans (congrArg _ ?_)
  dsimp only
  rw [count_at_conn, if_neg (by simp [show answersConnect (count s _) _ _ = true from ha]), if_neg (not_not.mpr ht)]

end

/-! CREDRET and CLOSE_ACK (R218, R224) -/

section
variable {s : State} {w : WeftPacket}

/-- Credit that comes back while a reclaim runs leaves the larger of the lowered limit and ISSUED. -/
theorem execCredret_returns {l : BitVec 32} (h : ForConn s w WType.credret) (hl : (conn s (parseWeft w).dst).reclaim = some l) :
    let p := parseWeft w
    let x := conn s p.dst
    execCredret w s = .next (journalConn (setConn (count s (Reg.etRxFrames w.port)) p.dst { x with
      rxLimit := serialMax l (BitVec.ofNat 32 p.w0), reclaim := none, reclaimDue := none }) p.dst) := by
  unfold execCredret
  rw [receive_forConn h, hl]

theorem execCloseAck_closes (h : ForConn s w WType.closeAck) (hsent : (conn s (parseWeft w).dst).closeSent = true) :
    execCloseAck w s = .next (enterClosed (count s (Reg.etRxFrames w.port)) (parseWeft w).dst
      (conn s (parseWeft w).dst).closeReason) := by
  unfold execCloseAck
  rw [receive_forConn h, if_pos hsent]

end

/-- Settles O32: each packet passes the checks of its type, and its row has its effect. -/
theorem controlPackets : Obligations.ControlPackets := by
  refine fun s w => ⟨?_, ?_, ?_, ?_, ?_, ?_, ?_, ?_, ?_, ?_⟩
  -- ACK
  · exact fun h => receive_forConn h (fun _ p u x => takeAck u p x)
  -- NAK
  · exact fun h hno => (receive_arrives h takeNak).trans (congrArg _ (takeNak_noConn hno))
  · exact fun h hno hok hreason => (receive_arrives h takeNak).trans (congrArg _ (takeNak_access hno hok hreason))
  -- CREDRET
  · exact fun l h hl => execCredret_returns h hl
  -- CONNECT
  · exact fun li l c n ⟨h, hfirst, hclear, hge, hle⟩ hl hc hn hroom => (receive_arrives h (fun u p => takeConnect u p w.bytes)).trans
      (congrArg _ (takeConnect_accepts ⟨hfirst, hclear, hge, hle⟩ hl hc hn hroom))
  · exact fun ⟨h, hfirst, hclear, hge, hle⟩ hl => (receive_arrives h (fun u p => takeConnect u p w.bytes)).trans
      (congrArg _ (takeConnect_rejects ⟨hfirst, hclear, hge, hle⟩ hl))
  -- ACCEPT, REJECT
  · exact execAccept_opens
  · exact execReject_closes
  -- CLOSE, CLOSE_ACK
  · exact fun h => receive_forConn h (fun _ p u _ =>
      enterClosed (sendControl u p.dst WType.closeAck 0 (words 0 0 0 0)) p.dst CloseReason.peer)
  · exact execCloseAck_closes

end Sys2Proof.Proofs
end

section
/-! SUPPORT. The sending side of a connection: transmission, retransmission and the rate (R225, R227, R229, R235, R240). -/

namespace Sys2Proof.Proofs
open Sys2Proof Sys2Proof.Machine

/-- A connection may send: it is open, the device is not in safe state, the link is up and its priority is not stopped. -/
structure MaySend (s : State) (x : Conn) : Prop where
  st : x.st = .opened ∨ x.st = .closing
  safe : s.th.safe = false
  link : (etPort s x.port).link = true
  flows : txPaused s x = false

section
variable {s : State} {c : Nat}

theorem MaySend.not_blocked {x : Conn} (h : MaySend s x) :
    ¬ ((!(x.st == .opened || x.st == .closing)) = true ∨ s.th.safe = true ∨ (!(etPort s x.port).link) = true ∨
      txPaused s x = true) := by
  obtain ⟨hst, hsafe, hlink, hflows⟩ := h
  simp [beq_opened_or_closing hst, hsafe, hlink, hflows]

/-- A packet to be sent again goes first. -/
theorem execPacketTransmit_again {k : TxPkt} (h : MaySend s (conn s c)) (hk : (conn s c).txPkts.find? (fun k => k.again) = some k) :
    execPacketTransmit c s = .next (resend s c k.psn) := by
  unfold execPacketTransmit
  simp only [if_neg h.not_blocked, hk]

/-- A packet on the wire takes no time. -/
theorem emitWeft_now (p : Nat) (r : Route) (b : Bytes) : (emitWeft s p r b).now = s.now := by
  unfold emitWeft
  split
  · dsimp only
    split <;> rfl
  · rfl

theorem emitData_now (x : Conn) (m : TxMsg) (i : Nat) (psn : BitVec 24) : (emitData s c x m i psn).now = s.now := by
  unfold emitData
  split
  · rfl
  · exact emitWeft_now ..

/-- The connection after its next packet was sent: packet i of message m, where i packets of it went before. -/
def sentNext (s : State) (x : Conn) (m : TxMsg) : Conn :=
  { x with
    nextPsn := x.nextPsn + 1
    txPkts := x.txPkts ++ [{ psn := x.nextPsn, msg := m.num, idx := m.sent, sentAt := s.now, due := some (s.now + us x.rto) }]
    txMsgs := x.txMsgs.map (fun n => if n.num = m.num then { n with sent := n.sent + 1 } else n) }

theorem execPacketTransmit_next {m : TxMsg} (h : MaySend s (conn s c)) (hagain : (conn s c).txPkts.find? (fun k => k.again) = none)
    (hm : nextMsg (conn s c) = some m) (hrun : ctxMode s (conn s c).ctx = .running)
    (hroom : (conn s c).txPkts.length < wtWindow s) :
    execPacketTransmit c s = .next (journalConn (setConn (emitData s c (conn s c) m m.sent (conn s c).nextPsn) c
      (sentNext s (conn s c) m)) c) := by
  have hgoes : ¬ ((ctxMode s (conn s c).ctx ≠ .running ∧ ctxMode s (conn s c).ctx ≠ .removed) ∨
      wtWindow s ≤ (conn s c).txPkts.length) := by simp [hrun, hroom]
  unfold execPacketTransmit
  simp only [if_neg h.not_blocked, hagain, hm, emitData_now]
  exact if_neg hgoes

/-- After RETRY_MAX silences the connection gives up. -/
theorem execRetransmissionTimeout_givesUp {k : TxPkt} {d : Nat} (hsafe : s.th.safe = false)
    (hk : (conn s c).txPkts.find? (fun j => j.psn.toNat == k.psn.toNat) = some k) (hd : k.due = some d)
    (hmax : wtRetryMax s ≤ (conn s c).timeouts) :
    execRetransmissionTimeout c k.psn.toNat s = .next (giveUp (passTo s d) c CloseReason.timeout) := by
  unfold execRetransmissionTimeout
  simp only [hk, hd, hsafe, Bool.false_eq_true, if_false, wtRetryMax_passTo]
  rw [if_pos hmax]

/-- The connection after one more silence of its only packet outstanding, whose timer ran to d: RTO is doubled and the timer
restarts. -/
def timedOut (u : State) (x : Conn) (k : TxPkt) (d : Nat) : Conn :=
  { x with
    timeouts := x.timeouts + 1, rto := min 1000 (2 * x.rto)
    txPkts := [{ k with due := some (us (min 1000 (2 * x.rto)) + u.now), again := k.again || decide (d ≤ u.now) }] }

theorem execRetransmissionTimeout_again {k : TxPkt} {d : Nat} (hsafe : s.th.safe = false) (hk : (conn s c).txPkts = [k])
    (hd : k.due = some d) (hmax : (conn s c).timeouts < wtRetryMax s) :
    let v := setConn (passTo s d) c (timedOut (passTo s d) (conn s c) k d)
    execRetransmissionTimeout c k.psn.toNat s = .next (if txPaused v (conn s c) then v else resend v c k.psn) := by
  have hfound : [k].find? (fun j => j.psn.toNat == k.psn.toNat) = some k := by simp
  unfold execRetransmissionTimeout
  simp only [hk, hfound, hd, hsafe, Bool.false_eq_true, if_false, wtRetryMax_passTo]
  rw [if_neg (Nat.not_le.mpr hmax)]
  simp only [List.map_cons, List.map_nil, hd]
  rfl

/-- Every 10 µs without a CE echo the rate of an open connection rises, to the line rate at most. -/
theorem execRateStep_rises (hst : (conn s c).st = .opened ∨ (conn s c).st = .closing) (hrate : (conn s c).rate < lineRate s) :
    let x := conn s c
    execRateStep c s = .next (setConn (passTo s x.rateDue) c { x with
      rate := min (lineRate s) (x.rate + wtRateStep s), rateDue := (passTo s x.rateDue).now + us 10 }) := by
  unfold execRateStep
  dsimp only
  rw [if_neg (by simp [beq_opened_or_closing hst, hrate]), lineRate_passTo, wtRateStep_passTo]

end

end Sys2Proof.Proofs
end

section
/-! SUPPORT. Credit and the timers of a connection (R216, R218, R221, R224, R226, R228). -/

namespace Sys2Proof.Proofs
open Sys2Proof Sys2Proof.Machine

section
variable {s : State} {c : Nat}

/-- Where the port's set-aside covers all that its connections want, a connection is granted what it wants. -/
theorem execCreditGrant_grants (hgrants : grants s (conn s c) = true) (hwant : 0 < grantWant s (conn s c))
    (hroom : grantWant s (conn s c) + ((wanting s c (conn s c)).map (fun e => e.2.1)).sum ≤ asideLeft s (conn s c).port) :
    execCreditGrant c s = .next (sendAck (journalConn (raiseLimit s c (grantWant s (conn s c))) c) c false) := by
  have hunits : grantUnits s c (conn s c) = (grantWant s (conn s c), s) := if_pos hroom
  obtain ⟨n, hn⟩ := Nat.exists_eq_add_one.mpr hwant
  unfold execCreditGrant
  simp only [hgrants, hunits, hn, Bool.not_true, Bool.false_eq_true, if_false]

/-- Idle credit of a connection within its quota is reclaimed: the limit is lowered to RX_COUNT. -/
theorem execIdleReclaim_reclaims (hst : (conn s c).st = .opened ∨ (conn s c).st = .closing) (hsafe : s.th.safe = false)
    (hlimit : (conn s c).rxLimit ≠ (conn s c).rxCount) (hnone : (conn s c).reclaim = none)
    (hquota : overQuota s (conn s c) = false) :
    let x := conn s c
    let u := passTo s (x.lastData + us (wtIdle s))
    execIdleReclaim c s = .next (sendAck
      (setConn u c { x with reclaim := some x.rxCount, reclaimDue := some (u.now + us x.rto) }) c true) := by
  unfold execIdleReclaim
  dsimp only
  rw [if_neg (by simp [beq_opened_or_closing hst, hsafe, hlimit, hnone])]
  simp only [hquota, Bool.false_eq_true, if_false]

theorem execReclaimRepeat_repeats {d : Nat} (hsafe : s.th.safe = false) (hd : (conn s c).reclaimDue = some d) :
    execReclaimRepeat c s = .next (sendAck (setConn (passTo s d) c { conn s c with
      reclaimDue := some ((passTo s d).now + us (conn s c).rto) }) c true) := by
  unfold execReclaimRepeat
  simp only [hd, hsafe, Bool.false_eq_true, if_false]

theorem execAckTimer_acks {d : Nat} (hsafe : s.th.safe = false) (hd : (conn s c).ackDue = some d) :
    execAckTimer c s = .next (sendAck (passTo s d) c false) := by
  unfold execAckTimer
  simp only [hd, hsafe, Bool.false_eq_true, if_false]

/-- While the packet at CUM_PSN + 1 waits, a HELD ACK goes every RTO_MIN. -/
theorem execHeldAckTimer_acks {d : Nat} (hsafe : s.th.safe = false) (hd : (conn s c).heldDue = some d)
    (hheld : heldNext (conn s c) = true) :
    execHeldAckTimer c s = .next (sendAck (setConn (passTo s d) c { conn s c with
      heldDue := some ((passTo s d).now + us (wtRtoMin s)) }) c false) := by
  unfold execHeldAckTimer
  simp only [hd, hsafe, Bool.false_eq_true, if_false, hheld, if_true, wtRtoMin_passTo]

/-- 100 µs without an answer: CONNECT goes again; the eighth silence closes the context. -/
theorem execConnectRetry_eq {d : Nat} (hsafe : s.th.safe = false) (hd : (conn s c).connectDue = some d) :
    execConnectRetry c s = if 8 ≤ (conn s c).tries then .next (enterClosed (passTo s d) c CloseReason.timeout)
      else .next (sendConnect (setConn (passTo s d) c { conn s c with
        tries := (conn s c).tries + 1, connectDue := some ((passTo s d).now + us 100) }) c) := by
  unfold execConnectRetry
  simp only [hd, hsafe, Bool.false_eq_true, if_false]

theorem execClosingTimeout_closes {d : Nat} (hd : (conn s c).closeDue = some d) :
    execClosingTimeout c s = .next (enterClosed (passTo s d) c (conn s c).closeReason) := by
  unfold execClosingTimeout
  simp only [hd]

theorem execClosedHoldExpiry_frees (hst : (conn s c).st = .closed) :
    execClosedHoldExpiry c s =
      .next (setConn (dropPeer (passTo s ((conn s c).closedAt + ms 10)) (conn s c).peer) c {}) := by
  unfold execClosedHoldExpiry
  exact if_neg (not_not.mpr hst)

end

/-- Settles O33: the sending side row by row, then each timer of the receiver and of set-up and close. -/
theorem transmissionAndTimers : Obligations.TransmissionAndTimers := by
  refine ⟨fun s c => ⟨?_, ?_, ?_, ?_, ?_⟩, fun s c => ⟨?_, ?_, ?_, ?_, ?_, ?_, ?_, ?_, ?_⟩⟩
  -- PACKET_TRANSMIT
  · exact fun k ⟨hst, hsafe, hlink, hflows⟩ hk => execPacketTransmit_again ⟨hst, hsafe, hlink, hflows⟩ hk
  · exact fun m ⟨hst, hsafe, hlink, hflows⟩ hagain hm hrun hroom =>
      execPacketTransmit_next ⟨hst, hsafe, hlink, hflows⟩ hagain hm hrun hroom
  -- RETRANSMISSION_TIMEOUT
  · exact fun k d hsafe hk hd hmax => execRetransmissionTimeout_givesUp hsafe hk hd hmax
  · exact fun k d hsafe hk hd hmax => execRetransmissionTimeout_again hsafe hk hd hmax
  -- RATE_STEP
  · exact execRateStep_rises
  -- CREDIT_GRANT
  · exact execCreditGrant_grants
  -- IDLE_RECLAIM, RECLAIM_REPEAT
  · exact fun ⟨hst, hsafe⟩ hlimit hnone hquota => execIdleReclaim_reclaims hst hsafe hlimit hnone hquota
  · exact fun d ⟨_, hsafe⟩ hd => execReclaimRepeat_repeats hsafe hd
  -- ACK_TIMER, HELD_ACK_TIMER
  · exact fun d ⟨_, hsafe⟩ hd => execAckTimer_acks hsafe hd
  · exact fun d ⟨_, hsafe⟩ hd hheld => execHeldAckTimer_acks hsafe hd hheld
  -- CONNECT_RETRY
  · exact fun d hsafe hd htries => (execConnectRetry_eq hsafe hd).trans (if_neg (Nat.not_le.mpr htries))
  · exact fun d hsafe hd htries => (execConnectRetry_eq hsafe hd).trans (if_pos htries)
  -- CLOSING_TIMEOUT, CLOSED_HOLD_EXPIRY
  · exact fun d hd => execClosingTimeout_closes hd
  · exact execClosedHoldExpiry_frees

end Sys2Proof.Proofs
end

section
/-! SUPPORT. Service classes (chapter 09): the class commands and the scheduling epoch, and what admission does to a function's bucket and
to the buckets of the others (R245, R246, R249, R254). -/

namespace Sys2Proof.Proofs
open Sys2Proof Sys2Proof.Machine

/-! The class commands (Table 09-4) -/

section
variable {r s : State} {src : Nat}

/-- A bucket's RATE and DEPTH wait for the scheduling epoch; the sum of RATE counts the changes that wait already (R245, R254). -/
theorem execScAdmit_waits {p f rate depth : Nat} (hr : Rings r src s) (hs : Served s src 0x26) (hp : p < 8) (hf : f < 256)
    (hbound : fnBound s p f = true) (hlow : 64 ≤ depth) (hhigh : depth ≤ 4096)
    (hsum : rateSumAfter s p - rateAfter s p f + rate ≤ rateLimit s p) :
    exec (.scAdmit src p f rate depth) r = .next (tickRest src (answered s src 0x26 [] (fun u =>
      { u with epochs := u.epochs ++ [.setBucket p f rate depth] }))) := by
  have hb : fnBound (accepted s src) p f = true := hbound
  have hfits : rateSumAfter (accepted s src) p - rateAfter (accepted s src) p f + rate ≤ rateLimit (accepted s src) p := hsum
  exact atNextTick_answers hr hs (guardAll_open (by simp [hb, hfits, hp, hf, hlow, hhigh]) _)

/-- The weight of a live tenant waits for the scheduling epoch (R249, R254). -/
theorem execScShare_waits {tid w : Nat} (hr : Rings r src s) (hs : Served s src 0x27) (ht : tid < mgt) (hl : Live s tid) (hlow : 1 ≤ w)
    (hhigh : w ≤ 255) :
    exec (.scShare src tid w) r = .next (tickRest src (answered s src 0x27 [] (fun u =>
      { u with epochs := u.epochs ++ [.share tid w] }))) := by
  obtain ⟨-, hmissing, hfrozen⟩ := hl
  have hw : w ≠ 0 := by omega
  exact atNextTick_answers hr hs (guardAll_open (by simp [hmissing, hfrozen, ht, hw, hhigh]) _)

/-- The weights of the classes wait for the scheduling epoch (R249, R254). -/
theorem execScClassWeights_waits {a b c : Nat} (hr : Rings r src s) (hs : Served s src 0x28) (ha : 1 ≤ a) (ha' : a ≤ 255) (hb : 1 ≤ b)
    (hb' : b ≤ 255) (hc : 1 ≤ c) (hc' : c ≤ 255) :
    exec (.scClassWeights src a b c) r = .next (tickRest src (answered s src 0x28 [] (fun u =>
      { u with epochs := u.epochs ++ [.classWeights a b c] }))) :=
  atNextTick_answers hr hs (guardAll_open (by simp [weightOk, ha, ha', hb, hb', hc, hc']) _)

end

/-! The scheduling epoch and the latency probe (R254, R256) -/

/-- Requests that wait for a tag are counted; the cycle count stands. -/
@[simp] theorem tagStall_cycle (s : State) (n : Nat) : (tagStall s n).cycle = s.cycle := by
  unfold tagStall
  generalize s.hp.ports = ports
  induction ports generalizing s with
  | nil => rfl
  | cons e l ih =>
    rw [List.foldl_cons, ih]
    split <;> rfl

@[simp] theorem passCycles_cycle (s : State) (n : Nat) : (passCycles s n).cycle = s.cycle + n :=
  congrArg (· + n) (tagStall_cycle s n)

/-- The boundary at which the waiting changes apply, in their order, is the next multiple of 1,600 cycles. -/
theorem execSchedulingEpoch_applies (v : State) :
    let u := passCycles v (1600 - v.cycle % 1600)
    exec .schedulingEpoch v = .next (u.epochs.foldl applyChange { u with epochs := [] }) ∧ u.cycle % 1600 = 0 ∧
      v.cycle < u.cycle ∧ u.cycle ≤ v.cycle + 1600 := by
  have hcycle := passCycles_cycle v (1600 - v.cycle % 1600)
  exact ⟨rfl, by omega, by omega, by omega⟩

theorem execClearMax_zeroes {p : Nat} (v : State) (hp : p < 8) : exec (.clearMax p) v = .next (regSet v (Reg.scLatMax p) 0) :=
  if_pos hp

/-! Token buckets (R245, R246) -/

theorem bucket_setBucket (s : State) (p f q g : Nat) (x : Bucket) :
    bucket (setBucket s p f x) q g = if fnKey q g = fnKey p f then x else bucket s q g := by
  simp only [bucket, setBucket, Tab.get_set]

@[simp] theorem bucket_count (s : State) (r : Nat) : bucket (count s r) = bucket s := rfl

theorem creditBucket_tokens_le (cycle : Nat) (b : Bucket) : (creditBucket cycle b).tokens ≤ 64 * b.depth := Nat.min_le_left ..

section
variable {s : State} {p f len : Nat}

/-- A request of a function whose RATE is not 0 that finds its bytes is SC0 and is charged. -/
theorem admitBytes_admits (hrate : (creditBucket s.cycle (bucket s p f)).rate ≠ 0)
    (hfinds : 64 * len ≤ (creditBucket s.cycle (bucket s p f)).tokens) :
    (admitBytes s p f len).1 = 0 ∧ bucket (admitBytes s p f len).2 p f = { creditBucket s.cycle (bucket s p f) with
      tokens := (creditBucket s.cycle (bucket s p f)).tokens - 64 * len } := by
  unfold admitBytes
  rw [if_pos ⟨hrate, hfinds⟩, bucket_count, bucket_setBucket, if_pos rfl]
  exact ⟨rfl, rfl⟩

/-- Any other request is SC1 and takes nothing; the count of the function's demotions saturates. -/
theorem admitBytes_demotes (h : (creditBucket s.cycle (bucket s p f)).rate = 0 ∨
      (creditBucket s.cycle (bucket s p f)).tokens < 64 * len) :
    (admitBytes s p f len).1 = 1 ∧ bucket (admitBytes s p f len).2 p f = { creditBucket s.cycle (bucket s p f) with
      demoted := satInc 4294967295 (bucket s p f).demoted } := by
  have hnot : ¬((creditBucket s.cycle (bucket s p f)).rate ≠ 0 ∧ 64 * len ≤ (creditBucket s.cycle (bucket s p f)).tokens) :=
    fun ⟨hrate, hfinds⟩ => h.elim hrate (Nat.not_lt.mpr hfinds)
  unfold admitBytes
  rw [if_neg hnot, bucket_count, bucket_setBucket, if_pos rfl]
  exact ⟨rfl, rfl⟩

/-- Admission leaves the bucket of every other function as it is. -/
theorem bucket_admitBytes_ne {q g : Nat} (h : fnKey q g ≠ fnKey p f) : bucket (admitBytes s p f len).2 q g = bucket s q g := by
  simp only [admitBytes]
  split <;> rw [bucket_count, bucket_setBucket, if_neg h]

/-- A saturating count is the cut-off successor exactly while it is within its limit: a count above the limit stands where it is. -/
theorem satInc_eq_min_iff (limit n : Nat) : satInc limit n = min (n + 1) limit ↔ n ≤ limit := by
  unfold satInc
  split <;> omega

/-- The DEMOTED field after a demotion is the cut-off successor exactly when 32 bits held it before (Table 09-7). -/
theorem admitBytes_demoted_eq_min_iff (h : (creditBucket s.cycle (bucket s p f)).rate = 0 ∨
      (creditBucket s.cycle (bucket s p f)).tokens < 64 * len) :
    (bucket (admitBytes s p f len).2 p f).demoted = min ((creditBucket s.cycle (bucket s p f)).demoted + 1) (2 ^ 32 - 1) ↔
      (bucket s p f).demoted ≤ 2 ^ 32 - 1 := by
  obtain ⟨-, hbucket⟩ := admitBytes_demotes h
  rw [hbucket]
  exact satInc_eq_min_iff 4294967295 _

end

/-- A state in which function 0 of port 0, whose RATE is 0, has a DEMOTED count that its 32 bits cannot hold. -/
def overcounted : State := setBucket State.reset 0 0 { demoted := 2 ^ 32 }

theorem bucket_overcounted : bucket overcounted 0 0 = { demoted := 2 ^ 32 } := by
  rw [overcounted, bucket_setBucket, if_pos rfl]

/-- Refutes O35: the statement ranges over every state, also over those whose demotion count is above the 32 bits of DEMOTED. Of such a
count it asks that a demotion bring it down to 2^32 - 1, where the model's saturating count stands still. The clause holds for every
count of 32 bits (`admitBytes_demoted_eq_min_iff`), and the statement's other clauses hold: they are the lemmas above. -/
theorem not_serviceClasses : ¬ Obligations.ServiceClasses := by
  rintro ⟨-, admission⟩
  obtain ⟨-, -, demotes, -⟩ := admission overcounted 0 0 0
  have hrate : (creditBucket overcounted.cycle (bucket overcounted 0 0)).rate = 0 := by
    rw [bucket_overcounted]
    rfl
  obtain ⟨-, -, hcount⟩ := demotes (.inl hrate)
  have hfits := (admitBytes_demoted_eq_min_iff (.inl hrate)).mp hcount
  rw [bucket_overcounted] at hfits
  exact absurd hfits (by decide)

end Sys2Proof.Proofs
end

section
/-! SUPPORT. Tags of a host port: which tag is given, what a completion without an active tag comes to, timeouts and the end of a
quarantine (R269, R271, R272, R276). -/

namespace Sys2Proof.Proofs
open Sys2Proof Sys2Proof.Machine

/-! Time that passes -/

@[simp] theorem tagStall_hp (s : State) (n : Nat) : (tagStall s n).hp = s.hp := by
  unfold tagStall
  generalize s.hp.ports = ports
  induction ports generalizing s with
  | nil => rfl
  | cons e l ih =>
    rw [List.foldl_cons, ih]
    split <;> rfl

/-- Time that passes leaves the host ports as they are. -/
theorem port_passTo (s : State) (due p : Nat) : port (passTo s due) p = port s p := by
  unfold passTo
  split
  · rfl
  · exact congrArg (fun h : HpState => Tab.get {} h.ports p) (tagStall_hp s _)

/-! The giving of tags (R269) -/

section
variable {s t : State} {p n : Nat}

/-- A tag is given while fewer than half of the tags are active: one of the space that was never given, or one that has become free. -/
theorem takeTag_some (h : takeTag s p = some (n, t)) :
    (port s p).active.length < tagSpace s p / 2 ∧ n < tagSpace s p ∧ (n = (port s p).fresh ∨ n ∈ (port s p).freed) ∧
      (port t p).active = (port s p).active := by
  unfold takeTag at h
  dsimp only at h
  split_ifs at h with hhalf hfresh
  · cases h
    exact ⟨hhalf, hfresh, .inl rfl, by rw [port_setPort, if_pos rfl]⟩
  · split at h
    next k hk =>
      cases h
      have hspace := List.find?_some hk
      exact ⟨hhalf, of_decide_eq_true hspace, .inr (List.mem_of_find?_eq_some hk), by rw [port_setPort, if_pos rfl]⟩
    next => cases h

/-- Where no free tag is active or in quarantine, the tag given is neither. -/
theorem takeTag_apart
    (hfreed : ∀ k, k ∈ (port s p).freed →
      Tab.find (port s p).active k = none ∧ Tab.find (port s p).quarantine k = none ∧ k < (port s p).fresh)
    (hfresh : ∀ k, (port s p).fresh ≤ k → Tab.find (port s p).active k = none ∧ Tab.find (port s p).quarantine k = none)
    (h : takeTag s p = some (n, t)) : Tab.find (port s p).active n = none ∧ Tab.find (port s p).quarantine n = none := by
  obtain ⟨-, -, hn | hn, -⟩ := takeTag_some h
  · exact hfresh n hn.ge
  · obtain ⟨hactive, hquarantine, -⟩ := hfreed n hn
    exact ⟨hactive, hquarantine⟩

end

/-! Completions, timeouts and quarantine (R271, R272) -/

section
variable {s : State} {p t : Nat}

theorem execCompletion_active {a : ActiveTag} (hlink : (port s p).link = true) (ha : Tab.find (port s p).active t = some a) (fn : Nat)
    (x : CplHead) (b : Bytes) (poison : Bool) :
    execCompletion p fn t x b poison s = .next (takeCompletion s p t a x.status x.byteCount x.lowerAddr b poison) := by
  unfold execCompletion
  simp only [hlink, ha, Bool.not_true, Bool.false_eq_true, if_false]

/-- A completion for a quarantined tag is counted and logged as late, while the log has room. -/
theorem execCompletion_late {e : Nat × Nat} (hlink : (port s p).link = true) (ha : Tab.find (port s p).active t = none)
    (hq : Tab.find (port s p).quarantine t = some e) (hlog : (port s p).lateLog.length < 16) (fn : Nat) (x : CplHead) (b : Bytes)
    (poison : Bool) :
    execCompletion p fn t x b poison s = .next (raiseSrc
      (setPort (count s (Reg.hpLateCpl p)) p { port s p with lateLog := (port s p).lateLog ++ [(t, e.2)] }) Src.hpLateCpl
      { object := 2, index := e.2 + 256 * p }) := by
  unfold execCompletion
  simp only [hlink, ha, hq, hlog, Bool.not_true, Bool.false_eq_true, if_false, if_true]

theorem execCompletion_unexpected (hlink : (port s p).link = true) (ha : Tab.find (port s p).active t = none)
    (hq : Tab.find (port s p).quarantine t = none) (fn : Nat) (x : CplHead) (b : Bytes) (poison : Bool) :
    execCompletion p fn t x b poison s = .next (aer (count s (Reg.hpUnexpCpl p)) p fn true aerUnexpCpl) := by
  unfold execCompletion
  simp only [hlink, ha, hq, Bool.not_true, Bool.false_eq_true, if_false]

theorem execCompletionTimeout_fails {a : ActiveTag} {n : Nat} (ha : Tab.find (port s p).active t = some a)
    (hn : cplTimeout s p = some n) :
    execCompletionTimeout p t s = .next (failBeat (tagTimeout (passTo s (a.sent + n)) p t a.fn) t a) := by
  unfold execCompletionTimeout
  simp only [ha, hn]

theorem execQuarantineEnd_frees {d f : Nat} (hq : Tab.find (port s p).quarantine t = some (d, f)) :
    execQuarantineEnd p t s = .next (setPort (passTo s d) p { port s p with
      quarantine := Tab.del (port s p).quarantine t, freed := (port s p).freed ++ [t] }) := by
  unfold execQuarantineEnd
  simp only [hq, port_passTo]

end

/-- Settles O38: each row of a tag by what the tables of its port hold of it, then the tag that is given. -/
theorem completionsAndTags : Obligations.CompletionsAndTags := by
  refine ⟨fun s p fn t => ⟨?_, ?_, ?_, ?_, ?_, ?_⟩, ?_⟩
  -- COMPLETION
  · exact fun a st bc la b hlink ha => execCompletion_active hlink ha fn ⟨st, bc, la⟩ b false
  · exact fun st bc la b poison e hlink ha hq hlog => execCompletion_late hlink ha hq hlog fn ⟨st, bc, la⟩ b poison
  · exact fun st bc la b poison hlink ha hq => execCompletion_unexpected hlink ha hq fn ⟨st, bc, la⟩ b poison
  -- COMPLETION_TIMEOUT, QUARANTINE_END, HP_LATE_LOG
  · exact fun a n => execCompletionTimeout_fails
  · exact fun d f => execQuarantineEnd_frees
  · rfl
  -- the tag that is given
  · intro s t p n _ hfreed hfresh htaken
    obtain ⟨hhalf, hspace, -, hactive⟩ := takeTag_some htaken
    obtain ⟨hna, hnq⟩ := takeTag_apart hfreed hfresh htaken
    exact ⟨hspace, hhalf, hna, hnq, hactive⟩

end Sys2Proof.Proofs
end

section
/-! SUPPORT. The gate of a host's request: what meets a request before its BAR is looked into (Table 10-8, R264, R279, R305, Table
13-4). -/

namespace Sys2Proof.Proofs
open Sys2Proof Sys2Proof.Machine

/-- A function that its port presents over a link that is up. -/
structure Presented (s : State) (p f : Nat) : Prop where
  port_lt : p < 8
  link : (port s p).link = true
  lower : mergedUpper s p = false
  shown : f = 0 ∨ vfPresented s p f = true
  fn_lt : f < 256

/-- A request of n bytes within a BAR of a presented function. -/
structure Within (s : State) (p f bar off n : Nat) : Prop where
  presented : Presented s p f
  pos : 0 < n
  le : off + n ≤ barSize s p f bar

/-- A request that crosses no 4 KB boundary and, as a write, keeps to the maximum payload. -/
structure Formed (s : State) (p off n : Nat) (wr : Bool) : Prop where
  page : off % 4096 + n ≤ 4096
  payload : wr = true → n ≤ maxPayload s p

/-- The answer that the state of a function and of its tenant gives, outside D3hot and safe state (R279, R305). -/
def fnGate (s : State) (p f bar off : Nat) : Gate :=
  if f = 0 then .serve
  else
    match boundTo s p f with
    | none => .unsupported false
    | some (t, _) =>
      if inFlr s p f then .unsupported false
      else if bar = 0 ∧ off < 0x1000 then .serve
      else if ctxMode s t = .frozen then .unsupported true
      else if ctxMode s t ≠ .running ∨ (tenant s t).quiescing then .unsupported false
      else .serve

section
variable {s : State} {p f bar off n : Nat} {wr : Bool}

/-- Of a presented function only a further reason r keeps a request from arriving. -/
theorem Presented.absent_iff (h : Presented s p f) (r : Prop) :
    (8 ≤ p ∨ (!(port s p).link) = true ∨ mergedUpper s p = true ∨ (f ≠ 0 ∧ (!vfPresented s p f) = true) ∨ 256 ≤ f ∨ r) ↔ r := by
  obtain ⟨hp, hlink, hlower, hshown, hf⟩ := h
  have hvf : ¬ (f ≠ 0 ∧ (!vfPresented s p f) = true) := fun ⟨hne, hnot⟩ => by simp [hshown.resolve_left hne] at hnot
  simp only [Nat.not_le.mpr hp, hlink, hlower, hvf, Nat.not_le.mpr hf, Bool.not_true, Bool.false_eq_true, false_or]

/-- A request within its BAR is not absent: it breaks the format rules, or it goes on to the state of its port. -/
theorem gate_within (h : Within s p f bar off n) :
    gate s p f bar off n wr =
      if 4096 < off % 4096 + n ∨ (wr = true ∧ maxPayload s p < n) then .malformed
      else if (port s p).d3 = true ∨ (port s p).step = .enter then .unsupported false
      else if s.th.safe = true ∧ (!safeServed s p f bar off wr) = true then .abort
      else fnGate s p f bar off := by
  obtain ⟨hpresented, hpos, hle⟩ := h
  unfold gate
  rw [if_neg ((hpresented.absent_iff _).not.mpr (by omega))]
  rfl

theorem gate_malformed (h : Within s p f bar off n) (hpage : 4096 < off % 4096 + n) : gate s p f bar off n wr = .malformed :=
  (gate_within h).trans (if_pos (.inl hpage))

theorem gate_formed (h : Within s p f bar off n) (hform : Formed s p off n wr) :
    gate s p f bar off n wr =
      if (port s p).d3 = true ∨ (port s p).step = .enter then .unsupported false
      else if s.th.safe = true ∧ (!safeServed s p f bar off wr) = true then .abort
      else fnGate s p f bar off := by
  obtain ⟨hpage, hpayload⟩ := hform
  refine (gate_within h).trans (if_neg ?_)
  rintro (hc | ⟨hw, hc⟩)
  · omega
  · exact Nat.not_lt.mpr (hpayload hw) hc

/-- D3hot is looked at before safe state (log entry 43). -/
theorem gate_d3 (h : Within s p f bar off n) (hform : Formed s p off n wr) (hd3 : (port s p).d3 = true) :
    gate s p f bar off n wr = .unsupported false :=
  (gate_formed h hform).trans (if_pos (.inl hd3))

/-- The port is in D0 and no change of its PowerState is under way. -/
structure Awake (h : HPort) : Prop where
  d0 : h.d3 = false
  step : h.step = .none

theorem gate_awake (h : Within s p f bar off n) (hform : Formed s p off n wr) (hawake : Awake (port s p)) :
    gate s p f bar off n wr =
      if s.th.safe = true ∧ (!safeServed s p f bar off wr) = true then .abort else fnGate s p f bar off := by
  obtain ⟨hd0, hstep⟩ := hawake
  exact (gate_formed h hform).trans (if_neg (by simp [hd0, hstep]))

theorem gate_safe (h : Within s p f bar off n) (hform : Formed s p off n wr) (hawake : Awake (port s p)) (hsafe : s.th.safe = true)
    (hserved : safeServed s p f bar off wr = false) : gate s p f bar off n wr = .abort :=
  (gate_awake h hform hawake).trans (if_pos (by simp [hsafe, hserved]))

theorem gate_unsafe (h : Within s p f bar off n) (hform : Formed s p off n wr) (hawake : Awake (port s p))
    (hsafe : s.th.safe = false) : gate s p f bar off n wr = fnGate s p f bar off :=
  (gate_awake h hform hawake).trans (if_neg (by simp [hsafe]))

theorem fnGate_unbound (hf : f ≠ 0) (hb : boundTo s p f = none) : fnGate s p f bar off = .unsupported false := by
  simp [fnGate, hf, hb]

theorem fnGate_frozen {t : Nat} {b : Bind} (hf : f ≠ 0) (hb : boundTo s p f = some (t, b)) (hflr : inFlr s p f = false)
    (hbar : bar ≠ 0) (hfrozen : ctxMode s t = .frozen) : fnGate s p f bar off = .unsupported true := by
  simp [fnGate, hf, hb, hflr, hbar, hfrozen]

/-- A request of a feature that the port lacks (Table 10-1). -/
theorem gateOf_foreign {q : Req} (h : Presented s q.port q.fn) (hq : q.foreign = true) : gateOf s q = .unsupported false := by
  rw [gateOf, if_pos hq, if_neg]
  simpa only [or_false] using (h.absent_iff False).not.mpr not_false

end

/-- Settles O37: the refusals in the order in which the gate makes them, then a request that the port does not know. -/
theorem requestGate : Obligations.RequestGate := by
  intro s p f bar off n wr there formed
  have within : there → Within s p f bar off n := fun ⟨hp, hlink, hlower, hshown, hf, hpos, hle⟩ =>
    ⟨⟨hp, hlink, hlower, hshown, hf⟩, hpos, hle⟩
  have shape : formed → Formed s p off n wr := fun ⟨hpage, hpayload⟩ => ⟨hpage, hpayload⟩
  refine ⟨?_, ?_, ?_, ?_, ?_, ?_, ?_⟩
  · exact fun ht => gate_malformed (within ht)
  · exact fun ht hf => gate_d3 (within ht) (shape hf)
  · exact fun ht hf hd0 hstep => gate_safe (within ht) (shape hf) ⟨hd0, hstep⟩
  · exact fun ht hf hd0 hstep hsafe hvf hb =>
      (gate_unsafe (within ht) (shape hf) ⟨hd0, hstep⟩ hsafe).trans (fnGate_unbound hvf hb)
  · exact fun t b ht hf hd0 hstep hsafe hvf hb hflr hbar hfrozen =>
      (gate_unsafe (within ht) (shape hf) ⟨hd0, hstep⟩ hsafe).trans (fnGate_frozen hvf hb hflr hbar hfrozen)
  · exact fun ht hf hd0 hstep hsafe hpf => (gate_unsafe (within ht) (shape hf) ⟨hd0, hstep⟩ hsafe).trans (if_pos hpf)
  · rintro ht q rfl rfl hq
    exact gateOf_foreign (within ht).presented hq

end Sys2Proof.Proofs
end

section
/-! SUPPORT. Memory requests that are served: reads and writes through a window (R295), of the MSI-X table (R431) and of the registers
of BAR0 (R423, R426), and the Expansion ROM (R291). -/

namespace Sys2Proof.Proofs
open Sys2Proof Sys2Proof.Machine

/-! Reads -/

section
variable {s s0 : State} {r : MemRead} {q : Req} {ups : Upsets} {lat : Option Nat}

/-- A read that its gate serves goes to its BAR once the port has left L1. -/
theorem execMemoryRead_serve (hk : r.kind = .memoryRead) (hg : gate s r.port r.fn r.bar r.offset r.length false = .serve) :
    execMemoryRead r ups lat s = hostReadServed (readReq r) lat s (disturb (leaveL1 s r.port) ups) := by
  have hgate : gateOf s (readReq r) = .serve := by
    rw [gateOf, if_neg (by simp [readReq, hk])]
    exact hg
  exact through_serve hgate

theorem hostReadServed_window (hbar : q.bar = 2) : hostReadServed q lat s0 s = .next (readWindow s0 s q lat) := if_pos hbar

theorem hostReadServed_table (hbar : q.bar = 4) (hacc : regAccess q.offset q.length = true) :
    hostReadServed q lat s0 s =
      .next (answerWord s q (halfOf (readBar4 s q.port q.fn (q.offset / 8 * 8)) q.offset q.length)) := by
  simp [hostReadServed, hbar, hacc]

theorem hostReadServed_vf {t : Nat} {b : Bind} (hbar : q.bar = 0) (hf : q.fn ≠ 0) (hb : boundTo s q.port q.fn = some (t, b)) :
    hostReadServed q lat s0 s = readVf s0 s q t := by
  simp [hostReadServed, hbar, hf, hb]

/-- Below the push page a VF's registers answer at once, but for its pair fence (R334, R426). -/
theorem readVf_answers {t : Nat} (hoff : q.offset < 0x3000) (hacc : regAccess q.offset q.length = true)
    (hfence : q.offset / 8 * 8 ≠ 0x18) :
    readVf s0 s q t = .next (answerWord s q
      (halfOf (readVfReg s q.port q.fn t (q.offset / 8 * 8) % 2 ^ 64) q.offset q.length)) := by
  unfold readVf
  dsimp only
  rw [if_neg (by omega), if_neg (by omega), if_neg (by simp [hacc]), if_neg (fun hc => hfence hc.1)]

/-- Only SC0 is charged at admission (R246). -/
theorem admitted_uncharged {w : Window} (h : wClass w.live ≠ 0) (p f n : Nat) : admitted s p f n w = (wClass w.live, s) := if_neg h

/-- A read that its window allows and the access check lets through is answered with the bytes of the pool, each line checked on its
way (R117). -/
theorem readWindow_answers {k x a : Nat} {w : Window} {key : Nat} (hw : windowAt s q.port q.fn q.offset = some (k, w, x))
    (hall : windowAllows w x q.length false = true) (hc : wClass w.live ≠ 0)
    (hcheck : windowCheck s w (mkTag w.ctx (wClass w.live)) x false = .allow a key) :
    let v := eccSpan s a q.length (mkTag w.ctx (wClass w.live))
    readWindow s0 s q none = answerData v q (poolBytes v a q.length) (fun o n => spanPoison v (a + (o - q.offset)) n) := by
  unfold readWindow
  simp only [hw, hall, admitted_uncharged hc, hcheck, Bool.not_true, Bool.false_eq_true, if_false]

end

/-! Posted writes -/

section
variable {s s0 : State} {w : MemWrite} {q : Req} {b : Bytes}

/-- A posted write that the port has credit for, and that its gate serves, goes to its BAR once the port has left L1. -/
theorem hostWrite_serve (hplain : w.unsupported = false) (hcredit : postedHeld s w.port = false)
    (hg : gate s w.port w.fn w.bar w.offset w.bytes.length true = .serve) :
    hostWrite w s = hostWriteServed (writeReq w) w.bytes s (leaveL1 s w.port) := by
  have hgate : gateOf s (writeReq w) = .serve := by
    rw [gateOf, if_neg (by simp [writeReq, hplain])]
    exact hg
  rw [hostWrite, if_neg (by simp [hcredit])]
  exact through_serve hgate

theorem hostWriteServed_window {t : State} (hbar : q.bar = 2) (hw : writeWindow s0 s q b = .next t) :
    hostWriteServed q b s0 s = .next (notePort t q.port s0.sm.jsnSent) := by
  unfold hostWriteServed
  rw [if_pos hbar, hw]

theorem hostWriteServed_table (hbar : q.bar = 4) (hp : q.poisoned = false) (hacc : regAccess q.offset b.length = true) :
    hostWriteServed q b s0 s = .next (writeBar4 s q.port q.fn q.offset b) := by
  simp [hostWriteServed, hbar, hp, hacc]

/-- Beside the push page the registers of the tenant that the VF is bound to are written. -/
theorem hostWriteServed_vf_beside {t : Nat} {d : Bind} (hbar : q.bar = 0) (hp : q.poisoned = false) (hf : q.fn ≠ 0)
    (hoff : q.offset < 0x3000 ∨ 0x4000 ≤ q.offset) (hb : boundTo s q.port q.fn = some (t, d)) (hw : waitsPosted s q t = false) :
    hostWriteServed q b s0 s = .next (writeVf s q t b) := by
  have hpage : ¬ (0x3000 ≤ q.offset ∧ q.offset < 0x4000) := by omega
  simp [hostWriteServed, hbar, hp, hf, hb, hw, hpage]

/-- A write that its window allows and the access check lets through is stored; one to a REDUCE window is none of these. -/
theorem writeWindow_stores {k x a key : Nat} {win : Window} (hw : windowAt s q.port q.fn q.offset = some (k, win, x))
    (hall : windowAllows win x b.length true = true) (hkind : wKind win.live ≠ 2) (hc : wClass win.live ≠ 0)
    (hcheck : windowCheck s win (mkTag win.ctx (wClass win.live)) x true = .allow a key) (hroom : writeRoom s a b.length = true)
    (hp : q.poisoned = false) :
    writeWindow s0 s q b = .next (poolStore s (mkTag win.ctx (wClass win.live)) a b false) := by
  unfold writeWindow
  simp only [hw, hall, hkind, admitted_uncharged hc, hcheck, hroom, hp, storedMark, Bool.not_true, Bool.false_eq_true, if_false]

end

/-! The Expansion ROM (R291) -/

/-- Before the images stand in the pool the ROM is read from flash. -/
theorem execExpansionRomRead_flash {s : State} {p off n : Nat} (hg : gate s p 0 6 off n false = .serve) (hrom : romPlace s p = none) :
    execExpansionRomRead p off n s = .next (answerData (leaveL1 s p)
      { port := p, fn := 0, bar := 6, offset := off, length := n, write := false } (romBytes (leaveL1 s p) p off n)
      (fun _ _ => false)) := by
  have hplace : romPlace (leaveL1 s p) p = none := hrom
  have hgate : gateOf s { port := p, fn := 0, bar := 6, offset := off, length := n, write := false } = .serve := hg
  unfold execExpansionRomRead
  refine (through_serve hgate).trans (congrArg _ ?_)
  unfold readRom
  simp only [hplace]

end Sys2Proof.Proofs
end

section
/-! SUPPORT. Configuration requests: retried until the port is configured and during the function's FLR, then a read or a write of the
register (R261, R275, R286, R307). -/

namespace Sys2Proof.Proofs
open Sys2Proof Sys2Proof.Machine

/-- A port that leaves L1 is in the same reset or FLR as before. -/
theorem inFlr_leaveL1 (s : State) (p q f : Nat) : inFlr (leaveL1 s p) q f = inFlr s q f := by
  unfold inFlr leaveL1
  split
  · rw [port_setPort]
    split
    next h => rw [h]
    next => rfl
  · rfl

/-- A request for a double word of the configuration space of a presented function. -/
structure CfgArrives (s : State) (who : FnRef) (off : Nat) : Prop where
  presented : Presented s who.port who.fn
  aligned : off % 4 = 0
  lt : off < 4096

/-- The function answers configuration requests: firmware has loaded the port's configuration, which it has once the clock runs from
its PLL (log entry 29), and no FLR of the function runs. -/
def CfgReady (s : State) (who : FnRef) : Prop := s.pw.clkPll = true ∧ inFlr s who.port who.fn = false

section
variable {s : State} {who : FnRef} {off : Nat}

theorem CfgArrives.not_absent (h : CfgArrives s who off) :
    ¬ (8 ≤ who.port ∨ (!(port s who.port).link) = true ∨ mergedUpper s who.port = true ∨
      (who.fn ≠ 0 ∧ (!vfPresented s who.port who.fn) = true) ∨ 256 ≤ who.fn ∨ off % 4 ≠ 0 ∨ 4096 ≤ off) := by
  obtain ⟨hpresented, haligned, hlt⟩ := h
  exact (hpresented.absent_iff _).not.mpr (by omega)

/-- A request is retried exactly while its function is not ready, also as the port that has left L1 sees it. -/
theorem retried_iff_not_ready :
    ((!(leaveL1 s who.port).pw.clkPll) = true ∨ inFlr (leaveL1 s who.port) who.port who.fn = true) ↔ ¬ CfgReady s who := by
  rw [inFlr_leaveL1, show (leaveL1 s who.port).pw = s.pw from rfl, CfgReady]
  cases s.pw.clkPll <;> simp

theorem execConfigurationRequest_retries (h : CfgArrives s who off) (hr : ¬ CfgReady s who) (w : Option (BitVec 32)) :
    execConfigurationRequest who off w s =
      .next (emit (transmit (leaveL1 s who.port) who.port 0) (.cplRetry who.port who.fn)) := by
  unfold execConfigurationRequest
  dsimp only
  rw [if_neg h.not_absent, if_pos (retried_iff_not_ready.mpr hr)]

theorem execConfigurationRequest_reads (h : CfgArrives s who off) (hr : CfgReady s who) :
    let u := leaveL1 s who.port
    execConfigurationRequest who off none s = .next (emit (transmit u who.port 4) (.cplData who.port who.fn 4 (off % 128)
      (toLe 4 (readCfg u who.port who.fn off)) false false (idoCompletion u who.port))) := by
  unfold execConfigurationRequest
  dsimp only
  rw [if_neg h.not_absent, if_neg (fun hc => retried_iff_not_ready.mp hc hr)]

theorem execConfigurationRequest_writes (h : CfgArrives s who off) (hr : CfgReady s who) (w : BitVec 32) :
    let u := leaveL1 s who.port
    let v := if who.fn = 0 then writePfCfg u who.port off w.toNat else writeOwnCfg u who.port who.fn off w.toNat
    execConfigurationRequest who off (some w) s =
      .next (emit (transmit v who.port 0) (.cplStatus who.port who.fn .sc false (idoCompletion v who.port))) := by
  unfold execConfigurationRequest
  dsimp only
  rw [if_neg h.not_absent, if_neg (fun hc => retried_iff_not_ready.mp hc hr)]

end

/-- Settles O36: reads and writes BAR by BAR, then the ROM and the configuration space. -/
theorem memoryAndConfiguration : Obligations.MemoryAndConfiguration := by
  refine ⟨fun s => ⟨?_, ?_, ?_, ?_, ?_, ?_, fun who off b => ⟨?_, ?_⟩⟩, fun s who off => ?_⟩
  -- reads through a window
  · intro r ups lat hbar hk hg
    exact (execMemoryRead_serve hk (by rwa [hbar])).trans (hostReadServed_window hbar)
  · rintro r ups k w x c a key hbar hk hg rfl hc u tag hw hall hcheck
    exact (execMemoryRead_serve hk (by rwa [hbar])).trans
      ((hostReadServed_window hbar).trans (congrArg _ (readWindow_answers hw hall hc hcheck)))
  -- reads of the MSI-X table and of a VF's registers
  · intro r ups lat hbar hk hg hacc
    exact (execMemoryRead_serve hk (by rwa [hbar])).trans (hostReadServed_table hbar hacc)
  · intro r ups lat t b hbar hf hk hg hb hoff hacc hfence
    exact (execMemoryRead_serve hk (by rwa [hbar])).trans
      ((hostReadServed_vf hbar hf hb).trans (readVf_answers hoff hacc hfence))
  -- writes through a window and of the MSI-X table
  · rintro w k x win off ppa key hbar hp hplain hcredit hg u hw hall hkind rfl hc hcheck hroom
    exact (hostWrite_serve hplain hcredit (by rwa [hbar])).trans
      (hostWriteServed_window hbar (writeWindow_stores hw hall hkind hc hcheck hroom hp))
  · intro w hbar hp hplain hcredit hg hacc
    exact (hostWrite_serve hplain hcredit (by rwa [hbar])).trans (hostWriteServed_table hbar hp hacc)
  -- writes of the registers of BAR0
  · exact fun hf hposts hwaits => (execRegisterWrite_posts hposts).trans (hostWriteServed_pf rfl rfl hf hwaits)
  · exact fun t d hf hposts hb hoff hwaits =>
      (execRegisterWrite_posts hposts).trans (hostWriteServed_vf_beside rfl rfl hf hoff hb hwaits)
  -- the Expansion ROM and the configuration space
  · intro u here ready
    have arrives : here → CfgArrives s who off := fun ⟨hp, hlink, hlower, hshown, haligned, hlt⟩ =>
      ⟨⟨hp, hlink, hlower, hshown.imp_right And.left, by rcases hshown with h | h <;> omega⟩, haligned, hlt⟩
    refine ⟨?_, ?_, ?_, ?_⟩
    · exact fun p n hg hrom => execExpansionRomRead_flash hg hrom
    · exact fun hh hr => execConfigurationRequest_retries (arrives hh) hr
    · exact fun hh hr => execConfigurationRequest_reads (arrives hh) hr
    · exact fun w hh hr => execConfigurationRequest_writes (arrives hh) hr w

end Sys2Proof.Proofs
end

section
/-! SUPPORT. PowerState and link power of a host port: the steps of a change of PowerState, L1, L0p and posted credit (R262 to R266). -/

namespace Sys2Proof.Proofs
open Sys2Proof Sys2Proof.Machine

/-! A port stored twice -/

theorem put_put {α : Type} (m : Table α) (k : Nat) (a b : α) : Tab.put (Tab.put m k a) k b = Tab.put m k b := by
  induction m with
  | nil => simp [Tab.put]
  | cons e l ih =>
    obtain ⟨j, v⟩ := e
    simp only [Tab.put]
    split_ifs with hlt heq
    · simp [Tab.put]
    · simp [Tab.put]
    · rw [Tab.put, if_neg hlt, if_neg heq, ih]

/-- Of two ports stored one after the other the second stands, where neither is the port of the reset state, which is stored by listing
nothing. -/
theorem setPort_setPort (s : State) (p : Nat) {x y : HPort} (hx : x ≠ {}) (hy : y ≠ {}) :
    setPort (setPort s p x) p y = setPort s p y := by
  simp only [setPort, Tab.set, if_neg hx, if_neg hy, put_put]

/-! PowerState (R264 to R266, Table 10-2) -/

/-- The bound of a step. -/
def stepBound : PmStep → Nat
  | .none => 0
  | .drain => ms 8
  | .enter => us 1
  | .resume => us 10

theorem pmStep_begins (s : State) (p : Nat) {st : PmStep} (h : st ≠ .none) :
    pmStep s p st = setPort s p { port s p with step := st, stepDue := s.now + stepBound st } := by
  cases st with
  | none => exact absurd rfl h
  | _ => rfl

section
variable {s : State} {p : Nat}

theorem execPowerstateWrite_pending (d3 : Bool) (hp : p < 8) (hstep : (port s p).step ≠ .none) :
    execPowerstateWrite p d3 s = .next (setPort s p { port s p with latestD3 := d3 }) := by
  unfold execPowerstateWrite
  dsimp only
  rw [if_neg (Nat.not_le.mpr hp), if_pos hstep]

/-- A step begins with its bound on a port that was just stored. -/
theorem pmStep_setPort {x : HPort} {st : PmStep} (hx : x ≠ {}) (hst : st ≠ .none) :
    pmStep (setPort s p x) p st = setPort s p { x with step := st, stepDue := s.now + stepBound st } := by
  rw [pmStep_begins _ _ hst, port_setPort, if_pos rfl, setPort_now]
  exact setPort_setPort s p hx (fun h => hst (congrArg HPort.step h))

/-- A change starts: towards D3hot by draining, towards D0 by resuming. -/
theorem execPowerstateWrite_starts {d3 : Bool} (hp : p < 8) (hstep : (port s p).step = .none) (hd3 : (port s p).d3 = !d3) :
    let first : PmStep := if d3 then .drain else .resume
    execPowerstateWrite p d3 s = .next (setPort s p { port s p with
      latestD3 := d3, startD3 := !d3, step := first, stepDue := s.now + stepBound first }) := by
  have hwritten : ({ port s p with latestD3 := d3, startD3 := (port s p).d3 } : HPort) ≠ {} := by
    intro h
    have hlatest : d3 = false := congrArg HPort.latestD3 h
    have hstart : (port s p).d3 = false := congrArg HPort.startD3 h
    simp [hlatest, hstart] at hd3
  have hfirst : (if d3 = true then PmStep.drain else .resume) ≠ .none := by cases d3 <;> decide
  unfold execPowerstateWrite
  dsimp only
  rw [if_neg (Nat.not_le.mpr hp), if_neg (not_not.mpr hstep), if_neg (by simp [hd3]), pmStep_setPort hwritten hfirst, hd3]

theorem execPowerstateStepEnd_drained (hstep : (port s p).step = .drain) (hidle : (port s p).active = [])
    (hlatest : (port s p).latestD3 = true) :
    execPowerstateStepEnd p s = .next (setPort s p { port s p with step := .enter, stepDue := s.now + us 1 }) := by
  unfold execPowerstateStepEnd
  simp [hstep, hidle, hlatest, pmStep_begins, stepBound]

theorem execPowerstateStepEnd_entered (hstep : (port s p).step = .enter) (hlatest : (port s p).latestD3 = true) :
    execPowerstateStepEnd p s = .next (pmSettle s p true) := by
  unfold execPowerstateStepEnd
  simp [hstep, hlatest]

theorem execPowerstateStepEnd_resumed (hstep : (port s p).step = .resume) (hlatest : (port s p).latestD3 = false) :
    execPowerstateStepEnd p s =
      .next (pmSettle (sendHeld (setPort s p { port s p with d3 := false, step := .none }) p) p false) := by
  unfold execPowerstateStepEnd
  simp [hstep, hlatest]

/-! Link power (R262, R263) -/

theorem execL1Idle_enters (hlink : (port s p).link = true) (hl1 : (port s p).l1 = false)
    (haspm : cfgBit s p 0 Cfg.linkCtl 1 = true) (hidle : fld (regNat s (Reg.hpLinkCfg p)) 3 10 ≠ 0) (hmay : l1Refused s p = false) :
    execL1Idle p s = .next (enterL1 s p) :=
  if_pos (by simp [hlink, hl1, haspm, hidle, hmay])

/-- The width halves at each step of the port's own (log entry 48). -/
theorem execL0pNarrow_halves (hlink : (port s p).link = true) (hflit : (port s p).flit = true) (hl1 : (port s p).l1 = false)
    (hinit : bit (regNat s (Reg.hpLinkCfg p)) 13 = true) (hwidth : 4 ≤ (port s p).l0pWidth) :
    execL0pNarrow p s = .next (setPort s p { port s p with l0pWidth := (port s p).l0pWidth / 2, txQueued := 0 }) :=
  if_pos (by simp [hlink, hflit, hl1, hinit, hwidth])

theorem execPartnerL1Request_state (l1 : Bool) (hlink : (port s p).link = true) :
    execPartnerL1Request p l1 none s =
      .next (if l1 = true ∧ l1Refused s p = false then enterL1 s p else setPort s p { port s p with l1 := false }) := by
  unfold execPartnerL1Request
  simp [hlink]

theorem execPartnerL1Request_width (l1 : Bool) {w : Nat} (hlink : (port s p).link = true) (hflit : (port s p).flit = true)
    (hw : w ∈ [2, 4, 8, 16]) (hle : w ≤ (port s p).width) :
    execPartnerL1Request p l1 (some w) s = .next (setPort s p { port s p with l0pWidth := w, txQueued := 0 }) := by
  have hok : (port s p).flit = true ∧ [2, 4, 8, 16].contains w = true ∧ w ≤ (port s p).width :=
    ⟨hflit, List.contains_iff_mem.mpr hw, hle⟩
  unfold execPartnerL1Request
  dsimp only
  rw [if_neg (by simp [hlink]), if_pos hok]

theorem execPostedCredit_sends (hlink : (port s p).link = true) :
    let u := transmit s p (4 * (port s p).creditWait.length)
    execPostedCredit p s = .next (sendHeld (emitAll (setPort u p { port u p with creditWait := [] })
      ((port s p).creditWait.map (fun f => Output.msix p f 0))) p) :=
  if_neg (by simp [hlink])

end

end Sys2Proof.Proofs
end

section
/-! SUPPORT. Resets, link changes and containment of a host port (R260, R261, R265, R267, R268, R277 to R282). -/

namespace Sys2Proof.Proofs
open Sys2Proof Sys2Proof.Machine

/-! Resets and the link -/

section
variable {s : State} {p : Nat}

/-- Outside D3 a fundamental reset resets the functions of the port and contains it (R267, R279). -/
theorem execPerstAssert_resets (hp : p < 8) (hlower : mergedUpper s p = false) (hperst : (port s p).perst = false)
    (hcold : (port s p).d3cold = false) (hd3 : (port s p).d3 = false) :
    execPerstAssert p s =
      .next (containPort (resetFns (dropLink (setPort s p { port s p with perst := true }) p) p false) p 2) := by
  unfold execPerstAssert
  dsimp only
  rw [if_neg (by simp [hlower, hperst, hp]), if_neg (by simp [hcold]), if_neg (by simp [hd3])]

theorem execPerstDeassert_releases (hlower : mergedUpper s p = false) (hperst : (port s p).perst = true)
    (hcold : (port s p).d3cold = false) :
    execPerstDeassert p s = .next (setPort s p { port s p with perst := false }) := by
  unfold execPerstDeassert
  dsimp only
  rw [if_neg (by simp [hlower, hperst]), if_neg (by simp [hcold])]

theorem execHotReset_resets (hlower : mergedUpper s p = false) (hlink : (port s p).link = true) (hd3 : (port s p).d3 = false) :
    execHotReset p s = .next (containPort (resetFns (dropLink s p) p false) p 3) := by
  unfold execHotReset
  dsimp only
  rw [if_neg (by simp [hlower, hlink]), if_neg (by simp [hd3])]

/-- The port and its lanes can train: out of reset, not held in Detect, powered, and no lane taken for test (R259, R261, R281). -/
structure MayTrain (s : State) (p : Nat) : Prop where
  port_lt : p < 8
  down : (port s p).link = false
  perst : (port s p).perst = false
  free : (port s p).ltssmHeld = false
  lower : mergedUpper s p = false
  powered : (dom s p).st = .on
  untested : anyTest s (8 * p) (portWidth s p) = false

theorem execLinkUp_trains {speed width : Nat} (flit rev : Bool) (h : MayTrain s p) (hspeed : 0 < speed) (hcap : speed ≤ speedCap s p)
    (hwidth : width ∈ [1, 2, 4, 8, 16]) (hlanes : width ≤ portWidth s p) :
    execLinkUp p speed width flit rev s = .next (sendHeld (adaptLanes (setPort s p { port s p with
      link := true, flit := flit || speed == 6, speed := speed, width := width, l0pWidth := width, l1 := false,
      reversed := rev, d3cold := false, wake := false }) (8 * p) width) p) := by
  obtain ⟨hp, hdown, hperst, hfree, hlower, hpowered, huntested⟩ := h
  have hlisted : [1, 2, 4, 8, 16].contains width = true := List.contains_iff_mem.mpr hwidth
  unfold execLinkUp
  dsimp only
  rw [hlisted, if_neg (by simp [hdown, hperst, hfree, hlower, hpowered, huntested, hspeed.ne', hcap, hlanes, hp])]

/-- Surprise removal holds the LTSSM in Detect and contains the port (R279, R281). -/
theorem execLinkDown_removes (hlink : (port s p).link = true) (hd3 : (port s p).d3 = false) :
    execLinkDown p s = .next (containPort
      (setPort (dropLink s p) p { port (dropLink s p) p with ltssmHeld := true, inserted := false }) p 4) := by
  unfold execLinkDown
  dsimp only
  rw [if_neg (by simp [hlink]), if_neg (by simp [hd3])]

theorem execPartnerDetected_raises (hheld : (port s p).ltssmHeld = true) (hperst : (port s p).perst = false)
    (hnew : (port s p).inserted = false) (hlower : mergedUpper s p = false) :
    execPartnerDetected p s = .next (raiseSrc (switchOn (setPort s p { port s p with inserted := true }) (portDomains s p))
      Src.hpInserted { object := 1, index := p }) :=
  if_pos (by simp [hheld, hperst, hnew, hlower])

theorem execLinkError_reports {e : LinkErr} (hlink : (port s p).link = true) (he : e ≠ .malformedTlp) :
    execLinkError p e s = .next (aer s p 0 (linkErrBit e).1 (linkErrBit e).2) := by
  unfold execLinkError
  dsimp only
  rw [if_neg (by simp [hlink]), if_neg he]

end

/-! PORT_RELEASE and PORT_MERGE (R260, R282) -/

section
variable {r s : State} {src p : Nat}

theorem execPortRelease_releases (hr : Rings r src s) (hs : Served s src 0x29) (hp : p < 8) (hheld : (port s p).contained = true)
    (hlower : mergedUpper s p = false) :
    exec (.portRelease src p) r = .next (tickRest src (answered s src 0x29 [] (fun u =>
      let v := sendHeld (setPort u p { port s p with contained := false, ltssmHeld := false, inserted := false }) p
      (boundOn v p).foldl uncontain v))) := by
  have hl : mergedUpper (accepted s src) p = false := hlower
  exact atNextTick_answers hr hs (guardAll_open (by simp [hl, hheld, hp]) _)

/-- The merge is kept for the next device reset. -/
theorem execPortMerge_keeps {pair : Nat} (on : Bool) (hr : Rings r src s) (hs : Served s src 0x2A) (hpair : pair < 4)
    (hbusy : keepBusy s = false) :
    exec (.portMerge src pair on) r = .next (tickRest src (answered s src 0x2A [] (fun u =>
      keepWrite u Keep.portMerge (BitVec.ofNat 64 (putBit (keepNat u Keep.portMerge) pair on))))) := by
  have hb : keepBusy (accepted s src) = false := hbusy
  exact atNextTick_answers hr hs (guardAll_open (by simp [hb, hpair]) _)

end

/-- Settles O39, row by row: the power of the port and its link, then its resets, its link and its containment. -/
theorem portPowerAndResets : Obligations.PortPowerAndResets := by
  refine ⟨fun s p => ⟨?_, ?_, ?_, ?_, ?_, ?_, ?_, ?_, ?_, ?_, ?_⟩, fun s p => ⟨?_, ?_, ?_, ?_, ?_, ?_, ?_, ?_, ?_⟩⟩
  -- POWERSTATE_WRITE, POWERSTATE_STEP_END
  · exact fun d3 => execPowerstateWrite_pending d3
  · exact fun hp hstep hd3 => execPowerstateWrite_starts (d3 := true) hp hstep hd3
  · exact fun hp hstep hd3 => execPowerstateWrite_starts (d3 := false) hp hstep hd3
  · exact execPowerstateStepEnd_drained
  · exact execPowerstateStepEnd_entered
  · exact execPowerstateStepEnd_resumed
  -- L1_IDLE, L0P_NARROW, PARTNER_L1_REQUEST, POSTED_CREDIT
  · exact execL1Idle_enters
  · exact execL0pNarrow_halves
  · exact fun l1 => execPartnerL1Request_state l1
  · exact fun l1 w => execPartnerL1Request_width l1
  · exact execPostedCredit_sends
  -- PERST_ASSERT, PERST_DEASSERT, HOT_RESET
  · exact execPerstAssert_resets
  · exact execPerstDeassert_releases
  · exact execHotReset_resets
  -- LINK_UP, LINK_DOWN, PARTNER_DETECTED, LINK_ERROR
  · exact fun speed width flit rev hp hdown hperst hfree hlower hpowered hspeed hcap hwidth hlanes huntested =>
      execLinkUp_trains flit rev ⟨hp, hdown, hperst, hfree, hlower, hpowered, huntested⟩ hspeed hcap hwidth hlanes
  · exact execLinkDown_removes
  · exact execPartnerDetected_raises
  · exact fun e => execLinkError_reports
  -- PORT_RELEASE, PORT_MERGE
  · exact fun r src => execPortRelease_releases
  · exact fun r src pair on => execPortMerge_keeps on

end Sys2Proof.Proofs
end

section
/-! SUPPORT. Packing and reading of a payload's fields (R413): each field is read back from where it was packed. -/

namespace Sys2Proof.Proofs
open Sys2Proof Sys2Proof.Machine

theorem allZero_fill (n : Nat) : allZero (fill n 0) = true := by simp [allZero, fill]

theorem padTo_length (n : Nat) (b : Bytes) : (padTo n b).length = b.length + (n - b.length % n) % n := by
  simp [padTo, fill]

/-- What has been packed stays where it is. -/
theorem prefix_packFields (l : List (Nat × Nat)) (b : Bytes) : b <+: packFields l b := by
  induction l generalizing b with
  | nil => exact List.prefix_rfl
  | cons f t ih =>
    have hfield : b <+: padTo f.1 b ++ toLe f.1 f.2 := by rw [padTo, List.append_assoc]; exact List.prefix_append ..
    exact hfield.trans (ih _)

/-- One field is read at the next multiple of its width, behind zero padding. -/
theorem readFields_cons {w v : Nat} (hv : v < 2 ^ (8 * w)) (ws : List Nat) (b e : Bytes) (acc : List Nat) :
    readFields (w :: ws) b.length (padTo w b ++ toLe w v ++ e) acc =
      readFields ws (padTo w b ++ toLe w v).length (padTo w b ++ toLe w v ++ e) (v :: acc) := by
  have hgap : slice (padTo w b ++ toLe w v ++ e) b.length ((w - b.length % w) % w) = fill ((w - b.length % w) % w) 0 := by
    have h := slice_append_middle (a := b) rfl (fill ((w - b.length % w) % w) 0) (toLe w v ++ e)
    rwa [fill, List.length_replicate, ← fill, ← padTo, ← List.append_assoc] at h
  have hfield : leAt (padTo w b ++ toLe w v ++ e) (b.length + (w - b.length % w) % w) w = v := by
    have h := slice_append_middle (padTo_length w b) (toLe w v) e
    rw [toLe_length] at h
    rw [leAt, h, le_toLe, Nat.mod_eq_of_lt hv]
  rw [readFields, if_neg, hfield, List.length_append, padTo_length, toLe_length]
  simp only [hgap, allZero_fill, List.length_append, padTo_length, toLe_length]
  simp

/-- The fields packed behind b are read from there on, and what follows them does not matter. -/
theorem readFields_packFields {l : List (Nat × Nat)} (hl : ∀ f ∈ l, FieldFits f) (b tail : Bytes) (acc : List Nat) :
    readFields (l.map (fun f => f.1)) b.length (packFields l b ++ tail) acc =
      some (acc.reverse ++ l.map (fun f => f.2), (packFields l b).length) := by
  induction l generalizing b acc with
  | nil => simp [readFields, packFields]
  | cons f t ih =>
    obtain ⟨w, v⟩ := f
    obtain ⟨-, hv⟩ : FieldFits (w, v) := hl _ (List.mem_cons_self ..)
    obtain ⟨e, he⟩ := prefix_packFields t (padTo w b ++ toLe w v)
    have hstep := readFields_cons hv (t.map (fun f => f.1)) b (e ++ tail) acc
    rw [← List.append_assoc, he] at hstep
    rw [List.map_cons, packFields, hstep, ih (fun f hf => hl f (List.mem_cons_of_mem _ hf))]
    simp

/-- Settles O58, by induction on the fields: each is read from where it was packed. -/
theorem packedFieldsReadBack : Obligations.PackedFieldsReadBack :=
  fun _ tail hl => readFields_packFields hl [] tail []

end Sys2Proof.Proofs
end

section
/-! SUPPORT. The response of a mailbox command, and the commands that are not taken up, are kept out or are refused (R412 to R414,
R451). -/

namespace Sys2Proof.Proofs
open Sys2Proof Sys2Proof.Machine

/-! The response buffer (Table 16-4) -/

theorem padTo_length_mod (n : Nat) (hn : 0 < n) (b : Bytes) : (padTo n b).length % n = 0 := by
  rw [padTo_length, Nat.add_mod, Nat.mod_mod]
  rcases Nat.eq_zero_or_pos (b.length % n) with h | h
  · simp [h]
  · have hlt := Nat.mod_lt b.length hn
    rw [Nat.mod_eq_of_lt (a := n - b.length % n) (by omega), show b.length % n + (n - b.length % n) = n by omega, Nat.mod_self]

/-- Results and data are padded to a multiple of 8 (R413). -/
theorem replyPayload_length_mod (r : Reply) : (replyPayload r).length % 8 = 0 := by
  unfold replyPayload
  split <;> exact padTo_length_mod 8 (by decide) _

theorem statusCode_lt (st : Status) : statusCode st < 256 := by cases st <;> decide

/-- The header takes 64 bytes. -/
theorem replyBytes_length (m : Mbox) (code : Nat) (r : Reply) :
    (replyBytes m code r).length = 64 + (replyPayload r).length := by
  simp only [replyBytes, Mem.read, List.length_append, List.length_map, upto_length, toLe_length, fill, List.length_replicate]

section
variable (m : Mbox) (r : Reply) {code : Nat}

theorem leAt_replyBytes_code (hc : code < 256) : leAt (replyBytes m code r) 0 1 = code :=
  (le_toLe 1 code).trans (Nat.mod_eq_of_lt hc)

theorem leAt_replyBytes_status : leAt (replyBytes m code r) 1 1 = statusCode r.status :=
  (le_toLe 1 _).trans (Nat.mod_eq_of_lt (statusCode_lt _))

theorem leAt_replyBytes_length (h : (replyPayload r).length ≤ 4032) :
    leAt (replyBytes m code r) 4 4 = (replyPayload r).length :=
  (le_toLe 4 _).trans (Nat.mod_eq_of_lt (by omega))

theorem leAt_replyBytes_detail : leAt (replyBytes m code r) 8 8 = r.detail.toNat :=
  (le_toLe 8 _).trans (Nat.mod_eq_of_lt r.detail.isLt)

end

/-- The interrupt to the BMC leaves the mailboxes as they are. -/
theorem mbox_answer (s : State) (src code : Nat) (r : Reply) :
    mbox (answer s src code r) src = { mbox s src with
      rsp := Mem.write (Mem.clear (mbox s src).rsp 0 4096) 0 (replyBytes (mbox s src) code r),
      pending := false, running := none, ready := true } := by
  have h := mbox_setMbox s src src { mbox s src with
      rsp := Mem.write (Mem.clear (mbox s src).rsp 0 4096) 0 (replyBytes (mbox s src) code r),
      pending := false, running := none, ready := true }
  rw [if_pos rfl] at h
  unfold answer
  dsimp only
  split <;> exact h

/-- The response stands in the buffer. -/
theorem read_answer (s : State) (src code : Nat) (r : Reply) :
    Mem.read (mbox (answer s src code r) src).rsp 0 (64 + (replyPayload r).length) = replyBytes (mbox s src) code r := by
  have h := Mem.read_write (replyBytes (mbox s src) code r) (Mem.clear (mbox s src).rsp 0 4096) 0
  rw [replyBytes_length] at h
  rw [mbox_answer, h]

/-! Commands that have no effect of their own -/

/-- A command that a condition refuses answers the status of the first one that does. -/
theorem takeUp_refused {s : State} {src code : Nat} (c : Option Running) {l : List (Bool × Status)} {st : Status} (d : Done)
    (h : Served s src code) (hl : firstRefusal l = some st) :
    takeUp s src code c (fun u => guardAll u l d) = answer (accepted s src) src code { status := st } :=
  takeUp_served s src code c _ _ _ h (by simp only [guardAll, hl, refuse])

/-- A doorbell during a command of the source sets OVERRUN. -/
theorem atNextTick_overrun {s : State} {src : Nat} (f : State → Ans) (hs : sourceServed s src = true)
    (hr : (mbox s src).running ≠ none) : atNextTick s src f = .next (setMbox s src { mbox s src with overrun := true }) := by
  have hsome : (mbox s src).running.isSome = true := Option.isSome_iff_ne_none.mpr hr
  have hmay : mayRing s src = false := by simp [mayRing, hsome]
  rw [atNextTick, if_neg (by simp [hmay]), if_pos ⟨hs, hsome⟩]

/-- Settles O56: the response byte by byte, then the ways in which a command has no effect of its own. -/
theorem mailboxAnswers : Obligations.MailboxAnswers := by
  refine ⟨fun s src code r hcode hlen => ?_, fun s src code c body => ⟨?_, ?_, ?_, ?_⟩⟩
  · dsimp only
    rw [read_answer, mbox_answer]
    exact ⟨rfl, rfl, rfl, rfl, leAt_replyBytes_code _ r hcode, leAt_replyBytes_status _ r, leAt_replyBytes_length _ r hlen,
      leAt_replyBytes_detail _ r, replyPayload_length_mod r⟩
  · exact fun h => if_neg (by simp [h])
  · exact takeUp_busy s src code c body
  · exact fun hs l st d hl => takeUp_refused c d hs hl
  · exact fun f => atNextTick_overrun f

end Sys2Proof.Proofs
end

section
/-! SUPPORT. Tacks: what the checks and the commit point do to the windows of a function (R297, R299). -/

namespace Sys2Proof.Proofs
open Sys2Proof Sys2Proof.Machine

/-! Entries of a table in rising order -/

theorem mem_of_find {α : Type} {m : Table α} {k : Nat} {a : α} (h : Tab.find m k = some a) : (k, a) ∈ m := by
  induction m with
  | nil => cases h
  | cons e t ih =>
    obtain ⟨j, v⟩ := e
    rw [Tab.find] at h
    split_ifs at h with hj
    · subst hj
      cases h
      exact List.mem_cons_self ..
    · exact List.mem_cons_of_mem _ (ih h)

theorem le_of_mem_sortedFrom {α : Type} {m : Table α} {lo k : Nat} {a : α} (hs : Tab.sortedFrom lo m = true) (h : (k, a) ∈ m) :
    lo ≤ k := by
  induction m generalizing lo with
  | nil => cases h
  | cons e t ih =>
    rw [Tab.sortedFrom, Bool.and_eq_true, decide_eq_true_eq] at hs
    obtain ⟨hlo, ht⟩ := hs
    rcases List.mem_cons.mp h with rfl | h
    · exact hlo
    · have := ih ht h
      omega

/-- Each key is listed once. -/
theorem find_of_mem_sortedFrom {α : Type} {m : Table α} {lo k : Nat} {a : α} (hs : Tab.sortedFrom lo m = true)
    (h : (k, a) ∈ m) : Tab.find m k = some a := by
  induction m generalizing lo with
  | nil => cases h
  | cons e t ih =>
    rw [Tab.sortedFrom, Bool.and_eq_true, decide_eq_true_eq] at hs
    obtain ⟨-, ht⟩ := hs
    rcases List.mem_cons.mp h with rfl | h
    · simp [Tab.find]
    · have := le_of_mem_sortedFrom ht h
      rw [Tab.find, if_neg (by omega), ih ht h]

/-! The checks of a tack (R299) -/

/-- A count in REFS is an entry of the pool's state. -/
theorem addRefs_fn {s u : State} {l : List Nat} (h : addRefs s l = some u) : u.fn = s.fn := by
  induction l generalizing s with
  | nil => cases h; rfl
  | cons g t ih =>
    rw [addRefs] at h
    split_ifs at h
    exact ih (s := addRef true s g) h

/-- One window of a tack: it is left alone, it refuses the whole, or the references of its granules rise. -/
theorem tackChecks_cons (s0 s : State) (p f : Nat) (e : Nat × Window) (t : List (Nat × Window)) :
    (∃ u, u.fn = s.fn ∧ tackChecks s0 p f (e :: t) s = tackChecks s0 p f t u) ∨
      ∃ res i, res ≠ 0 ∧ tackChecks s0 p f (e :: t) s = .error (res, i) := by
  simp only [tackChecks]
  split_ifs
  · exact .inl ⟨s, rfl, rfl⟩
  · exact .inr ⟨1, _, by decide, rfl⟩
  · split
    · exact .inr ⟨2, _, by decide, rfl⟩
    · exact .inl ⟨_, addRefs_fn ‹_›, rfl⟩

theorem tackChecks_ok_fn {s0 s u : State} {p f : Nat} {l : List (Nat × Window)} (h : tackChecks s0 p f l s = .ok u) :
    u.fn = s.fn := by
  induction l generalizing s with
  | nil => cases h; rfl
  | cons e t ih =>
    rcases tackChecks_cons s0 s p f e t with ⟨v, hv, heq⟩ | ⟨res, i, -, heq⟩
    · exact (ih (heq ▸ h)).trans hv
    · rw [heq] at h
      cases h

theorem tackChecks_error_ne_zero {s0 s : State} {p f res i : Nat} {l : List (Nat × Window)}
    (h : tackChecks s0 p f l s = .error (res, i)) : res ≠ 0 := by
  induction l generalizing s with
  | nil => cases h
  | cons e t ih =>
    rcases tackChecks_cons s0 s p f e t with ⟨v, -, heq⟩ | ⟨res', i', hne, heq⟩
    · exact ih (heq ▸ h)
    · rw [heq] at h
      cases h
      exact hne

/-! The commit point (R297) -/

theorem wakeL1_fn (s : State) (p : Nat) : (wakeL1 s p).fn = s.fn := by
  unfold wakeL1
  split <;> rfl

/-- The window is among those committed, or it stood before. -/
theorem window?_commit {s : State} {g : Window → Window} {i : Nat} {w : Window} {l : List (Nat × Window)}
    (hone : ∀ w', (i, w') ∈ l → w' = w) (h : (i, w) ∈ l ∨ window? s i = some (g w)) :
    window? (l.foldl (fun t e => setWindow t e.1 (g e.2)) s) i = some (g w) := by
  induction l generalizing s with
  | nil => simpa using h
  | cons e t ih =>
    obtain ⟨j, v⟩ := e
    refine ih (fun w' hw' => hone w' (List.mem_cons_of_mem _ hw')) ?_
    dsimp only
    rw [window__setWindow]
    by_cases hj : i = j
    · subst hj
      rw [hone v (List.mem_cons_self ..), if_pos rfl]
      exact .inr rfl
    · rw [if_neg hj]
      refine h.imp_left fun hm => (List.mem_cons.mp hm).resolve_left fun he => hj (congrArg Prod.fst he)

/-- A committed window lives by its staged copy, where one was staged. -/
theorem commitWindow_live (s : State) (w : Window) :
    (commitWindow s w).stagedFlag = false ∧ (commitWindow s w).live = if w.stagedFlag then w.staged else w.live := by
  unfold commitWindow
  cases h : w.stagedFlag <;> simp [h]

/-- A tack that is refused leaves the windows and the pool as they are. -/
theorem applyTack_refused {s : State} {p f res i : Nat} (h : tackChecks s p f (fnWindows s p f) s = .error (res, i)) :
    (tack (applyTack s p f) p f).last ≠ 0 ∧ (∀ k, window? (applyTack s p f) k = window? s k) ∧ (applyTack s p f).mp = s.mp := by
  simp only [applyTack, h]
  refine ⟨?_, fun _ => rfl, rfl⟩
  have hlast := tackChecks_error_ne_zero h
  simpa only [tack, setTack, Tab.get_set_eq] using hlast

/-- A tack that passes its checks commits every window of its function. -/
theorem applyTack_commits {s v : State} {p f : Nat} (h : tackChecks s p f (fnWindows s p f) s = .ok v) :
    (tack (applyTack s p f) p f).last = 0 ∧ ∀ k, window? (applyTack s p f) k =
      window? ((fnWindows s p f).foldl (fun t e => setWindow t e.1 (commitWindow s e.2)) v) k := by
  simp only [applyTack, h]
  constructor
  · simp only [tack, wakeL1_fn, setTack, Tab.get_set_eq]
  · intro k
    simp only [window?, wakeL1_fn, setTack]

/-- Settles O41: the checks refuse the whole tack, or every window of the function is committed. -/
theorem tackIsAtomic : Obligations.TackIsAtomic := by
  intro s p f i w hw hp hf hsorted u
  cases h : tackChecks s p f (fnWindows s p f) s with
  | error e =>
    obtain ⟨hlast, hwin, hmp⟩ := applyTack_refused (res := e.1) (i := e.2) h
    exact ⟨fun h0 => absurd h0 hlast, fun _ => ⟨(hwin i).trans hw, hmp.symm⟩⟩
  | ok v =>
    obtain ⟨hlast, hwin⟩ := applyTack_commits h
    refine ⟨fun _ => ⟨commitWindow s w, ?_, commitWindow_live s w⟩, fun h0 => absurd hlast h0⟩
    have hmem : (i, w) ∈ fnWindows s p f := List.mem_filter.mpr ⟨mem_of_find hw, by simp [hp, hf]⟩
    have hone : ∀ w', (i, w') ∈ fnWindows s p f → w' = w := fun w' hw' =>
      Option.some.inj ((find_of_mem_sortedFrom hsorted (List.mem_filter.mp hw').1).symm.trans hw)
    exact (hwin i).trans (window?_commit hone (.inl hmem))

end Sys2Proof.Proofs
end

section
/-! SUPPORT. The window commands and registers: what each does once no rule refuses it (R296 to R301, Table 11-9). -/

namespace Sys2Proof.Proofs
open Sys2Proof Sys2Proof.Machine

/-! The window commands -/

section
variable {s : State} {i p f : Nat} {w : Window}

/-- The lowest free index is taken with an entry that names the function alone (R301). -/
theorem doWindowAlloc_takes {ctx n : Nat} (hl : Live s ctx) (hp : p < 8) (ho : fnOwned s ctx p f = true)
    (hm : managerPort s p = true ∨ ctx ≠ mgt) (hu : mergedUpper s p = false)
    (hn : Tab.lowestFree s.fn.windows 0 16384 = some n) (hlim : winHeld s ctx < winLimit s ctx) :
    let e := BitVec.ofNat 128 (2 ^ 7 * p + 2 ^ 10 * f)
    doWindowAlloc s ctx p f =
      (setWindow s n { ctx := ctx, port := p, fn := f, live := e, staged := e }, some { status := .ok, results := [(2, n)] }) := by
  obtain ⟨hle, hmissing, hfrozen⟩ := hl
  have hmgt : (ctx == mgt && !managerPort s p) = false := by
    rcases hm with h | h <;> simp [h]
  intro e
  unfold doWindowAlloc
  rw [hn]
  exact guardAll_open (by simp [hmissing, hfrozen, hle, hp, ho, hmgt, hu, hlim]) _

/-- A command finds the window that it names, of an owner that is not frozen. -/
theorem withWin_found (hw : window? s i = some w) (hf : ctxFrozen s w.ctx = false) (body : Window → Done) :
    withWin s i body = body w := by
  unfold withWin
  rw [hw]
  exact guardAll_open (by simp [hf]) _

theorem doWindowFree_frees (hw : window? s i = some w) (hf : ctxFrozen s w.ctx = false) (hv : wValid w.live = false)
    (hd : (tack s w.port w.fn).draining = none) :
    doWindowFree s i = done { s with fn := { s.fn with windows := Tab.del s.fn.windows i } } :=
  (withWin_found hw hf _).trans (guardAll_open (by simp [hv, hd]) _)

theorem doWindowStage_stages {e : BitVec 128} (h0 : fld e.toNat 54 10 = 0) (h1 : fld e.toNat 88 40 = 0)
    (hw : window? s i = some w) (hf : ctxFrozen s w.ctx = false) (hh : (tack s w.port w.fn).held = false) :
    doWindowStage s i e =
      done (setWindow s i (stageHalf (stageHalf w false (fld e.toNat 0 64)) true (fld e.toNat 64 64))) :=
  (withWin_found hw hf _).trans (guardAll_open (by simp [h0, h1, hh]) _)

/-- A tack is applied where none is held and no old mapping drains (R298). -/
theorem tryTack_applies (hh : (tack s p f).held = false) (hd : (tack s p f).draining = none) :
    tryTack s p f = .applied (applyTack s p f) := by
  unfold tryTack
  simp [hh, hd]

theorem doWindowTack_tacks (hp : p < 8) (hf : f < 256) (hu : mergedUpper s p = false) (hb : boundTo s p f = none)
    (hh : (tack s p f).held = false) (hd : (tack s p f).draining = none) (hlast : (tack (applyTack s p f) p f).last = 0) :
    doWindowTack s p f = done (applyTack s p f) := by
  unfold doWindowTack
  rw [tryTack_applies hh hd, guardAll_open (by simp [hp, hf, hu, hb])]
  simp only [tackAnswer, hlast]

theorem doWindowLimit_limits {tid n : Nat} (ht : tid < mgt) (hl : Live s tid) (hn : n ≤ 16384) :
    doWindowLimit s tid n = done (journalObject (setTenant s tid { tenant s tid with windows := n }) tid 1 tid) := by
  obtain ⟨-, hmissing, hfrozen⟩ := hl
  exact guardAll_open (by simp [hmissing, hfrozen, ht, hn]) _

/-! The registers, and the end of an old mapping -/

theorem execBasting_stages {q : Nat} (half : Bool) (v : Word) (hm : managerPort s q = true)
    (hw : window? s (regNat s Reg.fnWinSel) = some w) (hh : (tack s w.port w.fn).held = false) :
    execBasting q half v s = .next (setWindow s (regNat s Reg.fnWinSel) (stageHalf w half v.toNat)) := by
  unfold execBasting basteWrite
  simp [hm, hw, hh]

theorem execFnTack_tacks {q : Nat} (v : Word) (hm : managerPort s q = true) (ha : postedAhead s q = false)
    (hh : (tack s (fld v.toNat 0 3) (fld v.toNat 3 8)).held = false)
    (hd : (tack s (fld v.toNat 0 3) (fld v.toNat 3 8)).draining = none) :
    execFnTack q v s = .next (applyTack s (fld v.toNat 0 3) (fld v.toNat 3 8)) := by
  unfold execFnTack tackWrite
  rw [if_pos (by simp [hm, ha]), tryTack_applies hh hd]

/-- The references of the old mapping fall and a held tack follows, once no line resolved under it waits (R300). -/
theorem execOldMappingDrained_releases {l : List Nat} (hd : (tack s p f).draining = some l)
    (hw : (tack s p f).waits.any (fun k => s.ru.waiting.contains k) = false) :
    let u := setTack (l.foldl (addRef false) s) p f { tack s p f with draining := none, waits := [], held := false }
    execOldMappingDrained p f s = .next (if (tack s p f).held then applyTack u p f else u) := by
  unfold execOldMappingDrained
  dsimp only
  rw [hd]
  dsimp only
  rw [if_neg (by rw [hw]; decide)]

end

/-- Settles O40, command by command, then the registers and the end of an old mapping. -/
theorem windowCommands : Obligations.WindowCommands := by
  refine ⟨fun r s src i hr => ⟨?_, ?_, ?_, ?_, ?_⟩, fun s => ⟨?_, ?_, ?_⟩⟩
  -- WINDOW_ALLOC, WINDOW_FREE, WINDOW_STAGE
  · exact fun ctx p f n hs hl hp ho hm hu hn hlim =>
      atNextTick_answers hr hs (doWindowAlloc_takes (s := accepted s src) hl hp ho hm hu hn hlim)
  · exact fun w hs hw hf hv hd => atNextTick_answers hr hs (doWindowFree_frees (s := accepted s src) hw hf hv hd)
  · exact fun w e hs h0 h1 hw hf hh => atNextTick_answers hr hs (doWindowStage_stages (s := accepted s src) h0 h1 hw hf hh)
  -- WINDOW_TACK, WINDOW_LIMIT
  · exact fun p f hs hp hf hu hb hh hd hlast =>
      atNextTick_answers hr hs (doWindowTack_tacks (s := accepted s src) hp hf hu hb hh hd hlast)
  · exact fun tid n hs ht hl hn => atNextTick_answers hr hs (doWindowLimit_limits (s := accepted s src) ht hl hn)
  -- BASTING, FN_TACK, OLD_MAPPING_DRAINED
  · exact fun p half v w => execBasting_stages half v
  · exact fun p v => execFnTack_tacks v
  · exact fun p f l => execOldMappingDrained_releases

end Sys2Proof.Proofs
end

section
/-! SUPPORT. What messages, freezes and raises reach (R264, R303 to R305, R349 to R361): the parts of the state that each can change, and
the tenants and threads that it leaves. -/

namespace Sys2Proof.Proofs
open Sys2Proof Sys2Proof.Machine

/-! Messages and notices (R264, R303) -/

/-- Nothing differs but what messages and notices of the functions change: their NOTICE and pending bits, PME in their configuration
space, the ports, what has been sent and the free values used. -/
def OnlyNotifies (s u : State) : Prop :=
  u = { s with freeCtr := u.freeCtr, out := u.out, hp := u.hp,
               fn := { s.fn with notice := u.fn.notice, pend := u.fn.pend, cfg := u.fn.cfg } }

theorem OnlyNotifies.trans {s u v : State} (h : OnlyNotifies s u) (h' : OnlyNotifies u v) : OnlyNotifies s v := by
  unfold OnlyNotifies at *
  rw [h', h]

theorem OnlyNotifies.foldl {α : Type} {f : State → α → State} (h : ∀ s x, OnlyNotifies s (f s x)) (l : List α) (s : State) :
    OnlyNotifies s (l.foldl f s) := by
  induction l generalizing s with
  | nil => rfl
  | cons x t ih => exact (h s x).trans (ih _)

theorem onlyNotifies_pmeRaise (s : State) (p : Nat) : OnlyNotifies s (pmeRaise s p) := by
  unfold pmeRaise
  dsimp only
  split_ifs <;> rfl

theorem onlyNotifies_pendSet (s : State) (p f v : Nat) (b : Bool) : OnlyNotifies s (pendSet s p f v b) := rfl

theorem onlyNotifies_transmit (s : State) (p n : Nat) : OnlyNotifies s (transmit s p n) := by
  unfold transmit
  dsimp only
  split_ifs <;> rfl

theorem onlyNotifies_emit (s : State) (o : Output) : OnlyNotifies s (emit s o) := rfl

theorem onlyNotifies_emitAll (s : State) (o : List Output) : OnlyNotifies s (emitAll s o) := rfl

theorem onlyNotifies_sendMsix (s : State) (p f v : Nat) : OnlyNotifies s (sendMsix s p f v) := by
  unfold sendMsix
  split_ifs
  · exact (onlyNotifies_transmit s p 4).trans (onlyNotifies_emit ..)
  · exact (onlyNotifies_pendSet s p f v true).trans (onlyNotifies_pmeRaise ..)
  · exact onlyNotifies_pendSet ..

theorem onlyNotifies_noticeSet (s : State) (p f : Nat) (b : BitVec 5) : OnlyNotifies s (noticeSet s p f b) := rfl

theorem onlyNotifies_notify (c : Cause) (s : State) (pf : Nat × Nat) : OnlyNotifies s (notify c s pf) := by
  unfold notify
  dsimp only
  split_ifs
  · exact (onlyNotifies_noticeSet s _ _ _).trans (onlyNotifies_sendMsix ..)
  · exact onlyNotifies_noticeSet ..

theorem onlyNotifies_notifyTenant (c : Cause) (s : State) (t : Nat) : OnlyNotifies s (notifyTenant c s t) :=
  OnlyNotifies.foldl (onlyNotifies_notify c) _ s

theorem onlyNotifies_deviceFailed (s : State) (pf : Nat × Nat) : OnlyNotifies s (deviceFailed s pf) := by
  unfold deviceFailed
  dsimp only
  split_ifs
  · rfl
  · exact (onlyNotifies_noticeSet s _ _ _).trans ((onlyNotifies_pendSet ..).trans (onlyNotifies_pmeRaise ..))
  · rfl

theorem OnlyNotifies.tenant {s u : State} (h : OnlyNotifies s u) : tenant u = tenant s := by rw [h]; rfl
theorem OnlyNotifies.thread {s u : State} (h : OnlyNotifies s u) : thread u = thread s := by rw [h]; rfl
theorem OnlyNotifies.th {s u : State} (h : OnlyNotifies s u) : u.th = s.th := by rw [h]
theorem OnlyNotifies.sm {s u : State} (h : OnlyNotifies s u) : u.sm = s.sm := by rw [h]

/-! What a raise can change -/

/-- Nothing differs but what the reaction to a raise changes: besides messages and notices the counters, Thimble, the tenants' states,
their threads and channels, the lanes under test, the items in progress that the Shuttle abandons, and the frame that tells the
partner. -/
def OnlyReacts (s u : State) : Prop :=
  u = { s with freeCtr := u.freeCtr, out := u.out, regs := u.regs, hp := u.hp, qm := u.qm, th := u.th, ln := u.ln,
               ne := { s.ne with threads := u.ne.threads }, sh := { s.sh with chans := u.sh.chans },
               sm := { s.sm with txFsn := u.sm.txFsn },
               fn := { s.fn with notice := u.fn.notice, pend := u.fn.pend, cfg := u.fn.cfg, tenants := u.fn.tenants } }

theorem OnlyReacts.trans {s u v : State} (h : OnlyReacts s u) (h' : OnlyReacts u v) : OnlyReacts s v := by
  unfold OnlyReacts at *
  rw [h', h]

theorem OnlyReacts.foldl {α : Type} {f : State → α → State} (h : ∀ s x, OnlyReacts s (f s x)) (l : List α) (s : State) :
    OnlyReacts s (l.foldl f s) := by
  induction l generalizing s with
  | nil => rfl
  | cons x t ih => exact (h s x).trans (ih _)

theorem OnlyNotifies.reacts {s u : State} (h : OnlyNotifies s u) : OnlyReacts s u := by
  unfold OnlyNotifies at h
  unfold OnlyReacts
  rw [h]

theorem onlyReacts_setTenant (s : State) (t : Nat) (x : Tenant) : OnlyReacts s (setTenant s t x) := rfl

theorem onlyReacts_freezeBlocks (s : State) (t : Nat) : OnlyReacts s (freezeBlocks s t) := rfl

theorem onlyReacts_count (s : State) (r : Nat) : OnlyReacts s (count s r) := rfl

theorem onlyReacts_th (s : State) (x : ThState) : OnlyReacts s { s with th := x } := rfl

theorem onlyReacts_freezeIfCause (s : State) (t : Nat) : OnlyReacts s (freezeIfCause s t) := by
  unfold freezeIfCause
  dsimp only
  split_ifs
  · exact (onlyReacts_setTenant s t _).trans ((onlyReacts_freezeBlocks ..).trans (onlyNotifies_notifyTenant ..).reacts)
  · rfl

theorem onlyReacts_freezeByManager (s : State) (t : Nat) : OnlyReacts s (freezeByManager s t) := by
  have hfreeze := (onlyReacts_setTenant s t { tenant s t with mgrCause := true }).trans (onlyReacts_freezeIfCause _ t)
  unfold freezeByManager
  dsimp only
  split_ifs
  · rfl
  · exact hfreeze
  · exact hfreeze.trans (onlyNotifies_notifyTenant ..).reacts

theorem onlyReacts_thIntake (s : State) (r : ThRec) : OnlyReacts s (thIntake s r) := by
  unfold thIntake
  split_ifs <;> rfl

theorem onlyReacts_abandonProg (s : State) (q key : Nat) : OnlyReacts s (abandonProg s q key) := by
  unfold abandonProg dropProg
  (repeat' split) <;> rfl

theorem onlyReacts_abandonShuttle (s : State) : OnlyReacts s (abandonShuttle s) :=
  OnlyReacts.foldl (f := fun s (e : Nat × Nat) => abandonProg s e.1 e.2) (fun s e => onlyReacts_abandonProg s e.1 e.2) _ s

theorem onlyReacts_seamSend (s : State) (code : Nat) (ws : List Word) : OnlyReacts s (seamSend s code ws) := rfl

/-- Safe state halts the threads and the channels and quietens the lanes under test (Table 13-4). -/
def haltAll (s : State) (source : Nat) (fence : Bool) : State := { s with
  th := { s.th with safe := true, safeSource := source, safeFence := fence, safeAt := s.cycle, alert := true }
  ne := { s.ne with threads := Tab.mapAll (fun k th => if k < 512 then haltThread th else th) s.ne.threads }
  sh := { s.sh with chans := Tab.mapAll (fun _ ch => if ch.st = .free then ch else haltChan ch 6) s.sh.chans }
  ln := { s.ln with lanes := Tab.mapAll (fun _ l =>
    if l.test then { l with gen := false, loop := 0, txSleep := true } else l) s.ln.lanes } }

theorem onlyReacts_haltAll (s : State) (source : Nat) (fence : Bool) : OnlyReacts s (haltAll s source fence) := rfl

/-- The messages of safe state: the device-failed message of each function, local fault on the Ethernet ports. -/
def failMessages (s : State) : State :=
  emitAll ((safeFns s).foldl deviceFailed s) ((upto 0 (etPorts ((safeFns s).foldl deviceFailed s).et.arrangement)).map Output.localFault)

theorem onlyNotifies_failMessages (s : State) : OnlyNotifies s (failMessages s) :=
  (OnlyNotifies.foldl onlyNotifies_deviceFailed _ s).trans (onlyNotifies_emitAll ..)

theorem enterSafe_eq {s : State} (h : s.th.safe = false) (source : Nat) (fence : Bool) :
    let u := failMessages (abandonShuttle (haltAll s source fence))
    enterSafe s source fence = if u.sm.linkUp then seamSend u 4 [] else u := by
  unfold enterSafe
  rw [if_neg (by simp [h])]
  rfl

theorem enterSafe_again {s : State} (h : s.th.safe = true) (source : Nat) (fence : Bool) :
    ∃ n, enterSafe s source fence = { s with th := { s.th with safeSource := n } } := by
  unfold enterSafe
  rw [if_pos h]
  split_ifs
  · exact ⟨_, rfl⟩
  · exact ⟨s.th.safeSource, rfl⟩

theorem onlyReacts_enterSafe (s : State) (source : Nat) (fence : Bool) : OnlyReacts s (enterSafe s source fence) := by
  cases h : s.th.safe with
  | true =>
    obtain ⟨n, hn⟩ := enterSafe_again h source fence
    rw [hn]
    rfl
  | false =>
    have hfail := (onlyReacts_haltAll s source fence).trans
      ((onlyReacts_abandonShuttle _).trans (onlyNotifies_failMessages _).reacts)
    rw [enterSafe_eq h]
    split_ifs
    · exact hfail.trans (onlyReacts_seamSend ..)
    · exact hfail

/-! The steps of a raise (R350 to R356) -/

/-- The count and the record of a raise; NOTIFY and above set PENDING. -/
def raiseNoted (s : State) (n : Nat) (r : Raise) : State :=
  let u := thIntake (count s (Reg.thSrcCount n)) (thRecord s n r)
  if 2 ≤ thLive s n then { u with th := { u.th with pending := Tab.set false u.th.pending n true } } else u

/-- CONTAIN and above freeze the tenant that the tag names. -/
def raiseContained (s : State) (n : Nat) (r : Raise) : State :=
  if 3 ≤ thLive s n then
    match r.tag with
    | some t => if tagCtx t = mgt then raiseNoted s n r else freezeByManager (raiseNoted s n r) (tagCtx t)
    | none => raiseNoted s n r
  else raiseNoted s n r

theorem raiseSrc_unused {s : State} {n : Nat} (r : Raise) (h : Src.used n = false) : raiseSrc s n r = s := by
  unfold raiseSrc
  rw [if_neg (by simp [h])]

theorem raiseSrc_ignored {s : State} {n : Nat} (r : Raise) (hu : Src.used n = true) (h : thLive s n = 0) :
    raiseSrc s n r = count s (Reg.thSrcCount n) := by
  unfold raiseSrc
  rw [if_pos hu]
  exact if_pos h

theorem raiseSrc_taken {s : State} {n : Nat} (r : Raise) (hu : Src.used n = true) (h : thLive s n ≠ 0) :
    raiseSrc s n r = if 4 ≤ thLive s n then enterSafe (raiseContained s n r) n false else raiseContained s n r := by
  unfold raiseSrc
  rw [if_pos hu]
  exact if_neg h

theorem onlyReacts_raiseNoted (s : State) (n : Nat) (r : Raise) : OnlyReacts s (raiseNoted s n r) := by
  have hnoted := (onlyReacts_count s (Reg.thSrcCount n)).trans (onlyReacts_thIntake _ (thRecord s n r))
  unfold raiseNoted
  dsimp only
  split_ifs
  · exact hnoted.trans (onlyReacts_th ..)
  · exact hnoted

theorem onlyReacts_raiseContained (s : State) (n : Nat) (r : Raise) : OnlyReacts s (raiseContained s n r) := by
  have hnoted := onlyReacts_raiseNoted s n r
  unfold raiseContained
  split_ifs
  · split
    · split_ifs
      · exact hnoted
      · exact hnoted.trans (onlyReacts_freezeByManager ..)
    · exact hnoted
  · exact hnoted

theorem onlyReacts_raiseSrc (s : State) (n : Nat) (r : Raise) : OnlyReacts s (raiseSrc s n r) := by
  cases hu : Src.used n with
  | false => rw [raiseSrc_unused r hu]; rfl
  | true =>
    by_cases h : thLive s n = 0
    · rw [raiseSrc_ignored r hu h]
      exact onlyReacts_count ..
    · rw [raiseSrc_taken r hu h]
      split_ifs
      · exact (onlyReacts_raiseContained ..).trans (onlyReacts_enterSafe ..)
      · exact onlyReacts_raiseContained ..

theorem onlyReacts_raiseLimited (s : State) (n who : Nat) (r : Raise) : OnlyReacts s (raiseLimited s n who r) := by
  unfold raiseLimited
  split_ifs
  · exact (onlyReacts_th s _).trans (onlyReacts_raiseSrc ..)
  · rfl

end Sys2Proof.Proofs
end

section
/-! SUPPORT. Dirty-page logs: the commands, the lines written to the host, and the page that a device write marks (R316, R317). -/

namespace Sys2Proof.Proofs
open Sys2Proof Sys2Proof.Machine

/-! The commands, and a changed line -/

section
variable {s : State} {tid p : Nat} {l : DirtyLog}

theorem doDirtyLogStart_starts {low span a b : Nat} {u : State} {g : List Nat} (ht : tid < mgt) (hl : Live s tid)
    (hb : logBad s tid p low span a b = false) (hd : dirtyLog? s tid p = none) (hm : mayPost s p = true)
    (hs : takeShadow (cdiv span (2 ^ 36)) s [] = some (u, g)) :
    doDirtyLogStart s tid p low span a b = done (zeroBitmap (zeroBitmap
      (setDirtyLog u tid p { low := low, span := span, bitmapA := a, bitmapB := b, granules := g }) p a (span / 32768))
        p b (span / 32768)) := by
  obtain ⟨-, hmissing, hfrozen⟩ := hl
  unfold doDirtyLogStart
  rw [hs, guardAll_open (by simp [hmissing, hfrozen, ht, hb, hd]), if_neg (by simp [hm])]

/-- A command finds the log of a live tenant on a port that can take writes. -/
theorem withLog_found (hl : Live s tid) (hd : dirtyLog? s tid p = some l) (hm : mayPost s p = true) (body : DirtyLog → Done) :
    withLog s tid p body = body l := by
  obtain ⟨-, hmissing, hfrozen⟩ := hl
  unfold withLog
  rw [hd, guardAll_open (by simp [hmissing, hfrozen])]
  exact if_pos hm

theorem execDirtyLineWrite_writes {n : Nat} {rest : List Nat} (hd : dirtyLog? s tid p = some l) (hn : l.lines = n :: rest)
    (hm : mayPost s p = true) :
    execDirtyLineWrite tid p s = .next (dirtyLine p l (setDirtyLog s tid p { l with lines := rest }) n) := by
  unfold execDirtyLineWrite
  rw [hd]
  dsimp only
  rw [hn]
  exact if_pos hm

end

/-! A page that a device write touches (R316) -/

/-- A byte lies in one line, which its write covers in part. -/
theorem linesOf_one (a : Nat) : linesOf a 1 = [a / 64] := by
  have h : (a + 1 - 1) / 64 - a / 64 + 1 = 1 := by omega
  rw [linesOf, if_neg one_ne_zero, h]
  rfl

/-- A store of one byte, of a class other than SC0 and to a line whose bits have not flipped, is its write alone. -/
theorem poolStore_byte {s : State} {tag : BitVec 11} {a : Nat} {x : Byte} (poison : Bool) (ht : tagSc tag ≠ 0)
    (hu : Tab.get [] s.mp.upsets (a / 64) = []) : poolStore s tag a [x] poison = poolWrite s a [x] poison := by
  have hpart : wholeLine a 1 (a / 64) = false := by
    simp only [wholeLine, decide_eq_false_iff_not]
    omega
  have harrive : sc0Arrive s tag (a / 64) = s := if_neg ht
  have hread : eccRead s (64 * (a / 64)) (some tag) = s := by
    unfold eccRead
    dsimp only
    rw [Nat.mul_div_cancel_left _ (by decide), hu]
    rfl
  simp only [poolStore, List.length_singleton, linesOf_one, List.foldl_cons, List.foldl_nil, harrive, eccMerge, hpart,
    Bool.not_false, List.filter_cons_of_pos, List.filter_nil, hread]

/-- A bit set in a byte leaves a byte. -/
theorem le_setBit (b : Byte) (k : Nat) : le [BitVec.ofNat 8 (le [b] ||| 2 ^ (k % 8))] = le [b] ||| 2 ^ (k % 8) := by
  have hb : le [b] < 2 ^ 8 := b.isLt
  have hk : 2 ^ (k % 8) < 2 ^ 8 := Nat.pow_lt_pow_right (by decide) (Nat.mod_lt _ (by decide))
  have hlt := Nat.or_lt_two_pow hb hk
  have hmod := (BitVec.toNat_ofNat (le [b] ||| 2 ^ (k % 8)) 8).trans (Nat.mod_eq_of_lt hlt)
  rw [le, hmod]
  rfl

section
variable {s : State} {tag : BitVec 11} {p page : Nat} {l : DirtyLog} (hd : dirtyLog? s (tagCtx tag) p = some l)
include hd

/-- The line of a page in the bitmap waits to be written. -/
def logLine (l : DirtyLog) (i : Nat) : DirtyLog :=
  { l with lines := if l.lines.contains (i / 512) then l.lines else l.lines ++ [i / 512] }

omit hd in
theorem mem_logLine (l : DirtyLog) (i : Nat) : i / 512 ∈ (logLine l i).lines := by
  unfold logLine
  dsimp only
  split_ifs with h
  · exact List.contains_iff_mem.mp h
  · simp

/-- Inside the span the page's bit is written to the shadow. -/
theorem markPage_inside {i a : Nat} (hi : page - l.low / 4096 = i) (ha : shadowAt l (i / 8) = a)
    (hlo : l.low ≤ 4096 * page) (hhi : 4096 * page < l.low + l.span) (hu : Tab.get [] s.mp.upsets (a / 64) = []) :
    markPage tag p s page = poolWrite (setDirtyLog s (tagCtx tag) p (logLine l i)) a
      [BitVec.ofNat 8 (le (poolBytes s a 1) ||| 2 ^ (i % 8))] false := by
  subst hi ha
  have hfind : Tab.find s.fn.logs (8 * tagCtx tag + p) = some l := hd
  simp only [markPage, hfind]
  rw [if_pos ⟨hlo, hhi⟩]
  exact poolStore_byte (s := setDirtyLog s (tagCtx tag) p (logLine l (page - l.low / 4096))) false (by decide) hu

omit hd in
theorem dirtyLog?_setDirtyLog (s : State) (t p : Nat) (l : DirtyLog) : dirtyLog? (setDirtyLog s t p l) t p = some l := by
  simp [dirtyLog?, setDirtyLog, Tab.find_put]

/-- Of the shadow the page's bit alone changes, and its line waits to be written. -/
theorem markPage_sets {i a : Nat} (hi : page - l.low / 4096 = i) (ha : shadowAt l (i / 8) = a)
    (hlo : l.low ≤ 4096 * page) (hhi : 4096 * page < l.low + l.span) (hmir : mirrors s a = false)
    (hu : Tab.get [] s.mp.upsets (a / 64) = []) :
    (∃ m, dirtyLog? (markPage tag p s page) (tagCtx tag) p = some m ∧ i / 512 ∈ m.lines ∧ m.overflow = l.overflow ∧
      m.granules = l.granules) ∧
    le (poolBytes (markPage tag p s page) a 1) = (le (poolBytes s a 1) ||| 2 ^ (i % 8)) ∧
    ∀ b, b ≠ a → poolBytes (markPage tag p s page) b 1 = poolBytes s b 1 := by
  have hmir' : mirrors (setDirtyLog s (tagCtx tag) p (logLine l i)) a = false := hmir
  have hbyte := poolByte_poolWrite (poison := false) (List.cons_ne_nil (BitVec.ofNat 8 (le (poolBytes s a 1) ||| 2 ^ (i % 8))) []) hmir'
  have hsame := sameOutsidePool_poolWrite (poison := false)
    (List.cons_ne_nil (BitVec.ofNat 8 (le (poolBytes s a 1) ||| 2 ^ (i % 8))) []) hmir'
  rw [← markPage_inside hd hi ha hlo hhi hu] at hbyte hsame
  refine ⟨⟨logLine l i, ?_, mem_logLine l i, rfl, rfl⟩, ?_, fun b hb => ?_⟩
  · rw [hsame]
    exact dirtyLog?_setDirtyLog s _ _ _
  · rw [poolBytes_one, hbyte, if_pos (by simp), Nat.sub_self, List.getD_cons_zero, poolBytes_one, le_setBit]
  · rw [poolBytes_one, poolBytes_one, hbyte, if_neg (by simp; omega)]
    rfl

omit hd in
theorem poolBytes_congr {s u : State} (h : u.mp = s.mp) (a n : Nat) : poolBytes u a n = poolBytes s a n := by
  have hline : lineData u = lineData s := by
    funext k
    simp only [lineData, lineKey, storedLine, gran, h]
  rw [poolBytes, hline, poolBytes]

/-- Outside the span OVERFLOW alone is set. -/
theorem markPage_outside (hout : 4096 * page < l.low ∨ l.low + l.span ≤ 4096 * page) :
    dirtyLog? (markPage tag p s page) (tagCtx tag) p = some { l with overflow := true } ∧
      (markPage tag p s page).mp = s.mp := by
  have hfind : Tab.find s.fn.logs (8 * tagCtx tag + p) = some l := hd
  have hmark : markPage tag p s page = raiseLimited (count (setDirtyLog s (tagCtx tag) p { l with overflow := true }) Reg.fnDirtyOor)
      Src.fnDirtyOor 0 { tag := some tag, object := 1, index := p } := by
    simp only [markPage, hfind]
    rw [if_neg (by omega)]
    rfl
  have hreacts := onlyReacts_raiseLimited (count (setDirtyLog s (tagCtx tag) p { l with overflow := true }) Reg.fnDirtyOor)
    Src.fnDirtyOor 0 { tag := some tag, object := 1, index := p }
  rw [← hmark] at hreacts
  rw [hreacts]
  exact ⟨dirtyLog?_setDirtyLog s _ _ _, rfl⟩

end

/-- Settles O43: the commands and the line written, then the page inside the span and outside it. -/
theorem dirtyLogs : Obligations.DirtyLogs := by
  refine ⟨⟨fun r s src tid p hr => ⟨?_, ?_, ?_⟩, ?_⟩, fun s tag p page l hd _ => ⟨?_, ?_⟩⟩
  -- DIRTY_LOG_START, DIRTY_LOG_SWAP, DIRTY_LOG_STOP
  · exact fun low span a b u l hs ht hl hb hd hm hsh =>
      atNextTick_answers hr hs (doDirtyLogStart_starts (s := accepted s src) ht hl hb hd hm hsh)
  · exact fun l hs hl hd hm => atNextTick_answers hr hs (withLog_found (s := accepted s src) hl hd hm _)
  · exact fun l hs hl hd hm => atNextTick_answers hr hs (withLog_found (s := accepted s src) hl hd hm _)
  -- DIRTY_LINE_WRITE
  · exact fun s tid p n l rest => execDirtyLineWrite_writes
  -- a page inside the span, and one outside
  · exact fun hlo hhi hmir hu => markPage_sets hd rfl rfl hlo hhi hmir hu
  · intro hout
    obtain ⟨hlog, hmp⟩ := markPage_outside hd hout
    exact ⟨hlog, fun b => poolBytes_congr hmp b 1⟩

end Sys2Proof.Proofs
end

section
/-! SUPPORT. The tenant commands: creation, binding, start and thaw, and the states in which they leave a tenant (R302, R304, R305, R323,
Table 11-9). -/

namespace Sys2Proof.Proofs
open Sys2Proof Sys2Proof.Machine

/-! The commands -/

section
variable {s : State} {t p f : Nat}

theorem doTenantCreate_creates {cells queues granules channels windows contexts : Option Nat} (ht : freeTid s = some t)
    (h1 : outOf 64 262144 cells = false) (h2 : outOf 0 16383 queues = false) (h3 : outOf 0 131072 granules = false)
    (h4 : outOf 0 16 channels = false) (h5 : outOf 0 16384 windows = false) (h6 : outOf 0 65536 contexts = false) :
    doTenantCreate s cells queues granules channels windows contexts =
      (newTenant (useFree s) t (cells.getD 4096) (queues.getD 64) (granules.getD 512) (channels.getD 4) (windows.getD 64)
        (contexts.getD 256), some { status := .ok, results := [(1, t)] }) := by
  unfold doTenantCreate
  rw [ht]
  exact guardAll_open (by simp [h1, h2, h3, h4, h5, h6]) _

theorem doTenantBind_binds {vf rep old : Option Nat} {vectors cls : Nat} (hm : ctxMissing s t = false)
    (hf : ctxFrozen s t = true → rep.isSome = true) (hold : (if rep = some p then vfOn s t p else none) = old)
    (hbad : bindBad s t p vf vectors cls rep old = false) (hpick : pickVf s p vf old = some f)
    (hroom : vectors ≤ ivFree s p + (old.map (fnVectors s p)).getD 0)
    (hnamed : ∀ k, rep = some k → fnNamed s k ((vfOn s t k).getD 0) = false) :
    let w := rep.elim s (unbindAt s t)
    let v := setTenant (useFree w) t { tenant w t with binds := addBind ⟨p, f, vectors, cls⟩ (tenant w t).binds }
    doTenantBind s t p vf vectors cls rep =
      (uncontain (journalObject (zeroRate v p f true) t 1 t) t, some { status := .ok, results := [(1, f)] }) := by
  unfold doTenantBind
  dsimp only
  rw [hold, hpick]
  cases rep with
  | none =>
    have hfrozen : ctxFrozen s t = false := by simpa using hf
    cases old <;> exact guardAll_open (by simpa [hm, hfrozen, hbad] using hroom) _
  | some k =>
    have hbusy := hnamed k rfl
    cases old <;> exact guardAll_open (by simpa [hm, hbad, hbusy] using hroom) _

theorem doTenantUnbind_unbinds (ht : t < mgt) (hl : Live s t) (hv : vfOn s t p = some f) (hn : fnNamed s p f = false) :
    doTenantUnbind s t p = done (journalObject (uncontain (unbindAt s t p) t) t 1 t) := by
  obtain ⟨-, hmissing, hfrozen⟩ := hl
  exact guardAll_open (by simp [hmissing, hfrozen, ht, hv, hn]) _

/-- No condition of a command on a tenant refuses it. -/
theorem withTenant_open {l : List (Bool × Status)} (ht : t < mgt) (hm : ctxMissing s t = false) (hl : ∀ e ∈ l, e.1 = false)
    (body : Done) : withTenant s t l body = body :=
  guardAll_open (by simpa [hm, ht] using hl) _

theorem doTenantStart_starts (ht : t < mgt) (hl : Live s t) (hst : (tenant s t).st = .bound ∨ (tenant s t).st = .quiesced) :
    doTenantStart s t = done (freezeIfCause (setTenant s t { tenant s t with st := .running }) t) := by
  obtain ⟨-, hmissing, hfrozen⟩ := hl
  refine withTenant_open ht hmissing ?_ _
  rcases hst with h | h <;> simp [hfrozen, h]

theorem doTenantThaw_thaws (ht : t < mgt) (hm : ctxMissing s t = false) (hc : (tenant s t).mgrCause = true) :
    let v := (s.ru.windows.filter (fun e => e.2.ctx == t)).foldl thawWindow s
    doTenantThaw s t = done (thawIfFree (setTenant v t { tenant v t with mgrCause := false }) t) :=
  withTenant_open ht hm (by simp [hc]) _

end

/-! The states of a tenant -/

/-- A tenant that is created is BOUND; the others keep what they are. -/
theorem tenant_newTenant (s : State) (t c q g ch w x n : Nat) : tenant (newTenant s t c q g ch w x) n =
    if n = t then { st := .bound, granules := g, windows := w, contexts := x } else tenant s n :=
  tenant_setTenant ..

/-- A tenant freezes at once only where a freeze cause is recorded. -/
theorem freezeIfCause_free {s : State} {t : Nat} (hm : (tenant s t).mgrCause = false) (hc : (tenant s t).containCause = false) :
    freezeIfCause s t = s :=
  if_neg (by simp [hm, hc])

/-- Settles O44: each command by what it does in the tick that takes it up, then the states that they leave. -/
theorem tenantCommands : Obligations.TenantCommands := by
  refine ⟨fun r s src t hr => ⟨?_, ?_, ?_, ?_, ?_⟩, fun s t => ⟨?_, ?_, ?_, ?_⟩⟩
  -- TENANT_CREATE, TENANT_BIND, TENANT_UNBIND
  · exact fun cells queues granules channels windows contexts hs ht h1 h2 h3 h4 h5 h6 =>
      atNextTick_answers hr hs (doTenantCreate_creates (s := accepted s src) ht h1 h2 h3 h4 h5 h6)
  · exact fun p vf vectors cls rep f hs hm hf hbad hpick hroom hnamed =>
      atNextTick_answers hr hs (doTenantBind_binds (s := accepted s src) hm hf rfl hbad hpick hroom hnamed)
  · exact fun p f hs ht hl hv hn => atNextTick_answers hr hs (doTenantUnbind_unbinds (s := accepted s src) ht hl hv hn)
  -- TENANT_START, TENANT_THAW
  · exact fun hs ht hl hst => atNextTick_answers hr hs (doTenantStart_starts (s := accepted s src) ht hl hst)
  · exact fun hs ht hm hc => atNextTick_answers hr hs (doTenantThaw_thaws (s := accepted s src) ht hm hc)
  -- the TID drawn, a created tenant, a started one
  · exact fun h => mem_freeTids.mp (mem_of_oneOf h)
  · intro h ht hhalf hfree
    have hne : freeTids s ≠ [] := List.ne_nil_of_mem (mem_freeTids.mpr ⟨hfree, ht, hhalf⟩)
    obtain ⟨x, -, hx⟩ := oneOf_mem (s := s) (k := 0) hne
    exact Option.some_ne_none x (hx.symm.trans h)
  · exact fun c q g ch w x => ⟨by rw [tenant_newTenant, if_pos rfl], fun n hn => by rw [tenant_newTenant, if_neg hn]⟩
  · intro hm hc
    have hself := tenant_setTenant s t t { tenant s t with st := .running }
    rw [if_pos rfl] at hself
    rw [freezeIfCause_free (by rw [hself]; exact hm) (by rw [hself]; exact hc), hself]

end Sys2Proof.Proofs
end

section
/-! SUPPORT. Function-level resets, VF Enable and the notices to the management queue (R307 to R310, R318). -/

namespace Sys2Proof.Proofs
open Sys2Proof Sys2Proof.Machine

section
variable {s : State} {p f tid : Nat}

/-- A VF that is bound to no tenant is reset at once (R307). -/
theorem execInitiateFlr_resets (h0 : 0 < f) (hf : f < 256) (hv : vfPresented s p f = true) (hb : boundTo s p f = none) :
    execInitiateFlr p f s = .next (resetFn (refillBucket s p f) (p, f)) := by
  unfold execInitiateFlr
  rw [if_neg (by simp [h0.ne', hf, hv]), hb]

/-- The FLR of a bound VF begins a quiesce of its tenant, or joins one (R307, R308). -/
theorem execInitiateFlr_starts {b : Bind} (h0 : 0 < f) (hf : f < 256) (hv : vfPresented s p f = true)
    (hb : boundTo s p f = some (tid, b)) : execInitiateFlr p f s = .next (startFlr s tid (p, f)) := by
  unfold execInitiateFlr
  rw [if_neg (by simp [h0.ne', hf, hv]), hb]

/-- The FLR of PF 0: requests of PF 0 are dropped, the port is in FLR, and every bound VF of the port is reset (R267, R268, R273, log
entry 79). -/
theorem execPfFlr_starts (hp : p < 8) (hu : mergedUpper s p = false) :
    let w := setMbox s p { mbox s p with ready := false, rsp := [] }
    let v := (pfChans w p).foldl flrChannel (retireTags (refillBucket w p 0) p (fun a => a.fn == 0) false)
    let u := setPort v p { port v p with flr := true }
    let vfs := (boundOn u p).flatMap (fun t =>
      ((tenant u t).binds.filter (fun b => b.port == p && vfPresented u p b.vf)).map (fun b => (t, b.vf)))
    execPfFlr p s = .next (finishPfFlr (vfs.foldl (fun x e => startFlr x e.1 (p, e.2)) u) p) :=
  if_neg (by simp [hp, hu])

/-- The quiesce ends: the functions are reset, those that went away are reported, and the tenant's others hear of it (R308 to R310). -/
theorem execFlrComplete_ends {x : Flr} (hx : flr? s tid = some x) (hq : quiesced s tid = true) (hsafe : s.th.safe = false) :
    let u := x.disable.foldl (disableDone tid)
      (x.fns.foldl (flrDone tid) { s with fn := { s.fn with flrs := Tab.del s.fn.flrs tid } })
    execFlrComplete tid s = .next ((upto 0 8).foldl finishPfFlr
      (((tenantFns u tid).filter (fun pf => !x.fns.contains pf && !x.disable.contains pf)).foldl (notify .quiesce) u)) := by
  unfold execFlrComplete
  rw [hx]
  exact if_neg (by simp [hq, hsafe])

/-- With no VF bound on the port, nothing but the VFs' own state goes with VF Enable (R309). -/
theorem execVfEnableClear_resets (hp : p < 8) (he : cfgBit s p 0 Cfg.sriovCtl 0 = true) (hb : boundOn s p = []) :
    let u := cfgSet s p 0 Cfg.sriovCtl (cfgGet s p 0 Cfg.sriovCtl &&& 0xFFFFFFFE)
    execVfEnableClear p s = .next ((upto 1 255).foldl (fun v g => resetFn v (p, g))
      { u with fn := { u.fn with ariMissing := Tab.set false u.fn.ariMissing p false } }) := by
  unfold execVfEnableClear
  rw [if_neg (by simp [hp, he]), hb]
  simp only [List.flatMap_nil, List.foldl_nil]

/-- The oldest notice goes to the management queue once it finds room there (R318). -/
theorem execNoticePush_pushes {b : Bytes} {rest : List Bytes} (hn : s.fn.notices = b :: rest)
    (ha : Admits s mgtQueue 7 (mkTag mgt 1) b.length) :
    let u := pushed s mgtQueue 7 (mkTag mgt 1) b false
    execNoticePush s = .next { u with fn := { u.fn with notices := rest } } := by
  unfold execNoticePush
  rw [hn]
  dsimp only
  rw [push_admitted ha]

end

/-- Settles O42, row by row. -/
theorem functionResets : Obligations.FunctionResets :=
  fun _ _ _ _ => ⟨execInitiateFlr_resets, fun _ => execInitiateFlr_starts, execPfFlr_starts, fun _ => execFlrComplete_ends,
    execVfEnableClear_resets, fun _ _ => execNoticePush_pushes⟩

end Sys2Proof.Proofs
end

section
/-! SUPPORT. Freeze, quiesce, removal, save and restore of a tenant: what each comes to when what it waits for has happened (R304, R310 to
R314). -/

namespace Sys2Proof.Proofs
open Sys2Proof Sys2Proof.Machine

/-! A command that runs on after its tick (R412) -/

theorem atNextTick_runs {r s t : State} {src code : Nat} {c : Option Running} {body : State → Done} (hr : Rings r src s)
    (hs : Served s src code) (hb : body (accepted s src) = (t, none)) :
    atNextTick r src (fun u => .next (takeUp u src code c body)) =
      .next (tickRest src (setMbox t src { mbox t src with running := c })) :=
  atNextTick_rings hr (congrArg _ (takeUp_runs s src code c body t hs hb))

/-! Freeze, quiesce and removal (R304, R310, R311) -/

section
variable {s : State} {t : Nat}

/-- A tenant that is neither FREE nor REMOVED is found. -/
theorem ctxMissing_of_mode {m : TenMode} (h : (tenant s t).st = m) (hm : m ≠ .free ∧ m ≠ .removed) : ctxMissing s t = false := by
  obtain ⟨hfree, hremoved⟩ := hm
  simp [ctxMissing, h, hfree, hremoved]

/-- A running or frozen tenant gets the manager's freeze cause; what follows depends on its channels. -/
theorem doTenantFreeze_polls (ht : t < mgt) (hst : (tenant s t).st = .running ∨ (tenant s t).st = .frozen) :
    doTenantFreeze s t = pollTenantFreeze (freezeByManager s t) t := by
  rcases hst with h | h
  all_goals exact withTenant_open ht (ctxMissing_of_mode h (by decide)) (by simp [h]) _

theorem pollTenantFreeze_paused (h : chansPaused s t = true) : pollTenantFreeze s t = done s := if_pos h

theorem pollTenantFreeze_waits (h : chansPaused s t = false) : pollTenantFreeze s t = (s, none) := if_neg (by simp [h])

/-- A quiesce whose queues have passed their boundaries ends in its own tick. -/
theorem doTenantQuiesce_quiesces (ht : t < mgt) (hst : (tenant s t).st = .running ∨ (tenant s t).st = .frozen)
    (hn : (tenant s t).quiescing = false) :
    let q := quiesceTenant ((tenantFns s t).foldl dropPushes (setTenant s t { tenant s t with quiescing := true })) t
    quiesced q t = true → q.th.safe = false →
    doTenantQuiesce s t =
      done (notifyTenant .quiesce (setTenant q t { tenant q t with st := .quiesced, quiescing := false }) t) := by
  intro q hq hsafe
  have hpoll : pollTenantQuiesce q t =
      done (notifyTenant .quiesce (setTenant q t { tenant q t with st := .quiesced, quiescing := false }) t) :=
    if_pos (by simp [hq, hsafe])
  rw [← hpoll]
  rcases hst with h | h
  all_goals exact guardAll_open (by simp [hn, ht, h, ctxMissing_of_mode h]) _

/-- A removal whose connections have closed ends in its own tick. -/
theorem doTenantRemove_removes (ht : t < mgt) (hst : (tenant s t).st = .bound ∨ (tenant s t).st = .quiesced)
    (hn : (tenant s t).removing = false) :
    let c := closeAll (setTenant s t { tenant s t with st := .removed, removing := true }) t
    connsOpen c t = false → doTenantRemove s t = done (removeTenant c t) := by
  intro c hc
  have hpoll : pollTenantRemove c t = done (removeTenant c t) := if_neg (by simp [hc])
  rw [← hpoll]
  rcases hst with h | h
  all_goals exact guardAll_open (by simp [hn, ht, h, ctxMissing_of_mode h]) _

/-! Save and restore (R312 to R314, log entry 12) -/

/-- An image that fits the buffer is written to the host and remembered. -/
theorem pollTenantSave_writes {p a n : Nat} (hsaving : (tenant s t).saving = true) (hm : mayPost s p = true) :
    let img := saveImage t (savedOf s t) (freeWord s).toNat
    img.length ≤ n →
    pollTenantSave s t p a n = ((cutAt (maxPayload s p) (img.length + 1) a img).foldl (fun u w => streamWrite u p w.1 w.2)
      (keepImage (useFree (setTenant s t { tenant s t with saving := false })) img (savedOf s t)),
        some { status := .ok, results := [(8, img.length)] }) := by
  intro img hlen
  unfold pollTenantSave
  dsimp only
  rw [if_neg (by simp [hsaving]), if_neg (by simp [hm])]
  exact if_neg (Nat.not_lt.mpr hlen)

theorem doTenantSave_saves {p a n : Nat} (ht : t < mgt) (hst : (tenant s t).st = .frozen) (hn : (tenant s t).saving = false)
    (hh : hostNameable s p = true) (hsafe : s.th.safe = false) (hf : flr? s t = none) (hm : mayPost s p = true) :
    let b := setTenant s t { tenant s t with saving := true }
    let img := saveImage t (savedOf b t) (freeWord b).toNat
    img.length ≤ n →
    doTenantSave s t p a n = ((cutAt (maxPayload b p) (img.length + 1) a img).foldl (fun u w => streamWrite u p w.1 w.2)
      (keepImage (useFree (setTenant b t { tenant b t with saving := false })) img (savedOf b t)),
        some { status := .ok, results := [(8, img.length)] }) := by
  intro b img hlen
  have hsaving : (tenant b t).saving = true := by rw [tenant_setTenant, if_pos rfl]
  unfold doTenantSave
  rw [guardAll_open (by simp [hn, ht, hst, hh, ctxMissing_of_mode hst]), if_neg (by simp [hsafe]), if_neg (by simp [hf])]
  exact pollTenantSave_writes hsaving hm hlen

/-- A sound image of objects that the target can take is installed. -/
theorem doTenantRestore_restores {p : Nat} {slots : List Nat} {b : Bytes} {u : State} (ht : t < mgt)
    (hst : (tenant s t).st = .bound) (hh : hostNameable s p = true) (hsafe : s.th.safe = false)
    (hok : saveImageOk b b.length = true) (hmap : mappingBad s t (savedIn s b) slots = false)
    (hu : installTenant s t (savedIn s b) slots = some u) : doTenantRestore s t p b.length slots (some b) = done u := by
  unfold doTenantRestore
  rw [guardAll_open (by simp [ht, hh, ctxMissing_of_mode hst, ctxFrozen, hst]), if_neg (by simp [hsafe])]
  dsimp only
  rw [if_neg (by simp [hok]), guardAll_open (by simp [hst, hmap]), hu]

end

/-- Clearing the admission rates of the functions leaves the tenants as they are. -/
theorem tenant_zeroRates (l : List (Nat × Nat)) (s : State) :
    tenant (l.foldl (fun s pf => zeroRate s pf.1 pf.2 false) s) = tenant s :=
  foldl_keeps tenant (f := fun s (pf : Nat × Nat) => zeroRate s pf.1 pf.2 false) (fun _ _ => rfl) l s

/-- A tenant without objects of its own finds room on every target, and stands FROZEN by the manager. -/
theorem installTenant_empty {x : SavedTenant} (hp : x.programs = []) (hi : x.insts = []) (hb : x.bindings = [])
    (hq : x.queueTab = []) (hc : x.chans = []) (hr : x.rwins = []) (hw : x.windows = []) (s : State) (t : Nat) (slots : List Nat) :
    ∃ u, installTenant s t x slots = some u ∧ (tenant u t).st = .frozen ∧ (tenant u t).mgrCause = true := by
  unfold installTenant
  simp only [hp, hi, hb, hq, hc, hr, hw, List.foldl_nil, Option.map_some]
  refine ⟨_, rfl, ?_⟩
  rw [tenant_zeroRates, tenant_setTenant, if_pos rfl]
  exact ⟨rfl, rfl⟩

/-- Settles O45, command by command. -/
theorem tenantTransitions : Obligations.TenantTransitions := by
  refine ⟨fun s src t b hp hi hb hq hc hr hw slots => installTenant_empty hp hi hb hq hc hr hw _ t slots,
    fun r s src t hr => ⟨?_, ?_, ?_, ?_, ?_, ?_⟩⟩
  -- TENANT_FREEZE
  · exact fun hs ht hst hpaused => atNextTick_answers hr hs
      ((doTenantFreeze_polls (s := accepted s src) ht hst).trans (pollTenantFreeze_paused hpaused))
  · exact fun hs ht hst hpaused => atNextTick_runs hr hs
      ((doTenantFreeze_polls (s := accepted s src) ht (.inl hst)).trans (pollTenantFreeze_waits hpaused))
  -- TENANT_QUIESCE, TENANT_REMOVE
  · exact fun hs ht hst hn hq hsafe => atNextTick_answers hr hs (doTenantQuiesce_quiesces (s := accepted s src) ht hst hn hq hsafe)
  · exact fun hs ht hst hn hc => atNextTick_answers hr hs (doTenantRemove_removes (s := accepted s src) ht hst hn hc)
  -- TENANT_SAVE, TENANT_RESTORE
  · exact fun p a n hs ht hst hn hh hsafe hf hm hlen =>
      atNextTick_answers hr hs (doTenantSave_saves (s := accepted s src) ht hst hn hh hsafe hf hm hlen)
  · rintro p a n slots b u hs ht - hst hh hsafe rfl hok hmap hu
    exact atHostData_rings hr (congrArg _ (takeUp_served s src 0x34 _ _ _ _ hs
      (doTenantRestore_restores (s := accepted s src) ht hst hh hsafe hok hmap hu)))

end Sys2Proof.Proofs
end

section
/-! SUPPORT. Program doorbells of a VF, and the reads of the pair fence (R334, R428). -/

namespace Sys2Proof.Proofs
open Sys2Proof Sys2Proof.Machine

/-! Program doorbells (R428) -/

section
variable {s : State} {who : FnRef} {n t : Nat}

/-- A program doorbell takes an access of 8 bytes and needs no earlier write of the port. -/
theorem writeVf_doorbell {q : Req} (hn : n < 64) (hq : q.offset = 0x1000 + 8 * n) (v : Word) :
    writeVf s q t (toLe 8 v.toNat) = ringProgram s t n v.toNat := by
  have hr : q.offset / 8 * 8 = q.offset := by omega
  have hslot : (q.offset - 0x1000) / 8 = n := by omega
  have hacc : regAccess q.offset (toLe 8 v.toNat).length = true := by
    simp [regAccess, toLe_length]
    omega
  have hv : le (toLe 8 v.toNat) % 2 ^ 64 = v.toNat := by rw [le_toLe, Nat.mod_mod, Nat.mod_eq_of_lt v.isLt]
  unfold writeVf
  rw [if_neg (by simp [hacc]; omega)]
  simp only [hr, writeVfReg, show q.offset ≠ 0 by omega, if_false, show 0x1000 ≤ q.offset ∧ q.offset < 0x1200 by omega, and_self,
    if_true, toLe_length, regWriteOf, hv, hslot]

theorem execProgramDoorbell_raises {b : Bind} (hf : who.fn ≠ 0) (hn : n < 64) (h : Posts s who (0x1000 + 8 * n) 8)
    (hb : boundTo s who.port who.fn = some (t, b)) (v : Word) :
    execProgramDoorbell who n v s = .next (raiseEvent (leaveL1 s who.port) .doorbell (sourceKey t .doorbell n)
      (BitVec.ofNat 64 (v.toNat % 2 ^ 32)) none) := by
  have hwaits : waitsPosted (leaveL1 s who.port) (regReq who (0x1000 + 8 * n) (toLe 8 v.toNat).length) t = false := by
    have hpage : ¬ 0x2000 ≤ (0x1000 + 8 * n) / 8 * 8 := by omega
    simp [waitsPosted, regReq, hf, hpage]
  unfold execProgramDoorbell
  rw [if_neg (by omega), execRegisterWrite_posts (by rwa [toLe_length]),
    hostWriteServed_vf rfl rfl hf (show 0x1000 + 8 * n < 0x3000 by omega) hb hwaits, writeVf_doorbell hn rfl]
  rfl

end

/-! The pair fence (R334) -/

section
variable {s : State} {who : FnRef} {off t : Nat}

/-- A register read that its gate serves. -/
theorem readAt_serve (hg : gate s who.port who.fn 0 off 8 false = .serve) :
    readAt who off s = hostReadServed (readReq { port := who.port, fn := who.fn, bar := 0, offset := off, length := 8 }) none s
      (leaveL1 s who.port) :=
  execMemoryRead_serve (ups := []) rfl hg

/-- A VF's fence is ready outside IN_SYNC, or once the partner holds the records of the port's writes. -/
theorem vfFenceReady_of {p : Nat} (h : s.sm.mode ≠ .inSync ∨ (Tab.get 0 s.sm.portJsn p ≤ s.sm.jsnAcked ∧ mirrorWaits s p = false)) :
    vfFenceReady s p = true := by
  rcases h with h | ⟨hacked, hmirror⟩
  · simp [vfFenceReady, fenceReady, h]
  · simp [vfFenceReady, hacked, hmirror]

/-- The fence of the whole device is ready outside IN_SYNC, or once the partner holds every record and no port keeps a push back. -/
theorem fenceReady_of (h : s.sm.mode ≠ .inSync ∨ (s.sm.jsnAcked = s.sm.jsnSent ∧ ∀ p, p < 8 → mirrorWaits s p = false)) :
    fenceReady s = true := by
  rcases h with h | ⟨hacked, hmirror⟩
  · simp [fenceReady, h]
  · simp only [fenceReady, hacked, Bool.or_eq_true, Bool.and_eq_true, decide_true, List.all_eq_true, true_and]
    exact .inr fun p hp => by rw [hmirror p (by have := (mem_upto 0 8 p).mp hp; omega)]; rfl

/-- A truth value fits a register. -/
theorem b2n_mod (b : Bool) : b2n b % 2 ^ 64 = b2n b := by cases b <;> rfl

/-- A VF's fence that is ready answers. -/
theorem readVf_fence {s0 : State} {q : Req} (ho : q.offset = 0x18) (hl : q.length = 8) (hready : vfFenceReady s q.port = true) :
    readVf s0 s q t = .next (answerWord s q (b2n (s.sm.mode == .inSync))) := by
  unfold readVf
  simp only [ho, hl]
  rw [if_neg (by decide), if_neg (by decide), if_neg (by decide), if_neg (by simp [hready]), ← b2n_mod]
  rfl

theorem execSmVfPairFence_answers {b : Bind} (hf : who.fn ≠ 0) (hg : gate s who.port who.fn 0 0x18 8 false = .serve)
    (hb : boundTo s who.port who.fn = some (t, b))
    (hready : s.sm.mode ≠ .inSync ∨ (Tab.get 0 s.sm.portJsn who.port ≤ s.sm.jsnAcked ∧ mirrorWaits s who.port = false)) :
    execSmVfPairFence who s = .next (answerWord (leaveL1 s who.port)
      (readReq { port := who.port, fn := who.fn, bar := 0, offset := 0x18, length := 8 }) (b2n (s.sm.mode == .inSync))) := by
  have hfence : vfFenceReady (leaveL1 s who.port) who.port = true := vfFenceReady_of hready
  unfold execSmVfPairFence
  rw [if_neg hf, readAt_serve hg, hostReadServed_vf rfl hf hb]
  exact readVf_fence rfl rfl hfence

/-- SM_PAIR_FENCE is no counter, and its read changes no register. -/
theorem afterRead_pairFence (u : State) : afterRead u 0x700070 = u := rfl

theorem readCtl_pairFence (u : State) : readCtl u 0x700070 = b2n (u.sm.mode == .inSync) :=
  (show readCtl u 0x700070 = b2n (u.sm.mode == .inSync) % 2 ^ 64 from rfl).trans (b2n_mod _)

/-- The device's fence that is ready answers through a manager port. -/
theorem readPf_fence {s0 : State} {q : Req} (ho : q.offset = 0x700070) (hl : q.length = 8) (hm : managerPort s q.port = true)
    (hready : fenceReady s = true) : readPf s0 s q = .next (answerWord s q (b2n (s.sm.mode == .inSync))) := by
  have hpf : pfAnswers s q.port 0x700070 = true := by simp [pfAnswers, reservedOff, hm]
  have hbuf : bufAt q.port 0x700070 = none := rfl
  unfold readPf
  simp only [ho, hl, hpf, hbuf]
  rw [if_neg (by decide), if_neg (by decide), if_neg (by simp [hready]), if_neg (by decide), readCtl_pairFence, afterRead_pairFence]
  rfl

theorem execSmPairFence_answers {p : Nat} (hg : gate s p 0 0 0x700070 8 false = .serve) (hm : managerPort s p = true)
    (hready : s.sm.mode ≠ .inSync ∨ (s.sm.jsnAcked = s.sm.jsnSent ∧ ∀ p, p < 8 → mirrorWaits s p = false)) :
    execSmPairFence p s = .next (answerWord (leaveL1 s p)
      (readReq { port := p, fn := 0, bar := 0, offset := 0x700070, length := 8 }) (b2n (s.sm.mode == .inSync))) := by
  have hfence : fenceReady (leaveL1 s p) = true := fenceReady_of hready
  unfold execSmPairFence
  rw [readAt_serve (who := { port := p, fn := 0 }) hg]
  exact readPf_fence rfl rfl hm hfence

end

/-- Settles O46: the doorbell, then the fence of a VF and of the device. -/
theorem doorbellsAndFences : Obligations.DoorbellsAndFences := by
  refine fun s who t b => ⟨?_, ?_, ?_⟩
  · exact fun n v hf hn h hb => execProgramDoorbell_raises hf hn h hb v
  · exact fun hf hg hb hready => execSmVfPairFence_answers hf hg hb hready
  · exact fun _ hg hm hready => execSmPairFence_answers hg hm hready

end Sys2Proof.Proofs
end

section
/-! SUPPORT. The pair commands: what each comes to when no rule refuses it, and the end of the wait for the partner (R322, R340 to R346,
Table 12-11). -/

namespace Sys2Proof.Proofs
open Sys2Proof Sys2Proof.Machine

theorem objectRecord_mode (s : State) (ctx kind index : Nat) (resync : Bool) :
    (objectRecord s ctx kind index resync).sm.mode = s.sm.mode := journalAdd_mode ..

theorem firstRefusal_cons_true {b : Bool} {st : Status} {l : List (Bool × Status)} (h : b = true) :
    firstRefusal ((b, st) :: l) = some st := if_pos h

/-- The first condition that stands refuses the command. -/
theorem guardAll_refused {s : State} {l : List (Bool × Status)} {st : Status} (h : firstRefusal l = some st) (body : Done) :
    guardAll s l body = refuse s st := by
  unfold guardAll
  rw [h]

/-! The commands -/

section
variable {s : State} {src t : Nat}

theorem doPairTenant_open (ht : t < mgt) (hm : ctxMissing s t = false) :
    doPairTenant s src t = if s.sm.mode ≠ .inSync then refuse (enrol s t) .unprotected
      else if (tenant s t).enrolled then done s else awaitReply (objectRecord s t 1 t false) src 0x3F t :=
  guardAll_open (by simp [ht, hm]) _

/-- A tenant enrolled already is paired at once. -/
theorem doPairTenant_enrolled (ht : t < mgt) (hm : ctxMissing s t = false) (hmode : s.sm.mode = .inSync)
    (he : (tenant s t).enrolled = true) : doPairTenant s src t = done s := by
  rw [doPairTenant_open ht hm, if_neg (by simp [hmode]), if_pos he]

/-- In IN_SYNC the command waits for the partner's shadow. -/
theorem doPairTenant_waits (ht : t < mgt) (hm : ctxMissing s t = false) (hmode : s.sm.mode = .inSync)
    (he : (tenant s t).enrolled = false) :
    doPairTenant s src t = awaitReply (objectRecord s t 1 t false) src 0x3F t := by
  rw [doPairTenant_open ht hm, if_neg (by simp [hmode]), if_neg (by simp [he])]

/-- Without protection the tenant is enrolled for the next resync. -/
theorem doPairTenant_unprotected (ht : t < mgt) (hm : ctxMissing s t = false) (hmode : s.sm.mode ≠ .inSync) :
    doPairTenant s src t = (enrol s t, some { status := .unprotected }) := by
  rw [doPairTenant_open ht hm, if_pos hmode]
  rfl

theorem doPairUntenant_unprotected (ht : t < mgt) (hm : ctxMissing s t = false) (he : (tenant s t).enrolled = true)
    (hmode : s.sm.mode ≠ .inSync) :
    doPairUntenant s src t = done (setTenant s t { tenant s t with enrolled := false }) := by
  unfold doPairUntenant
  rw [guardAll_open (by simp [ht, hm, he]), if_neg hmode]
  exact if_neg hmode

/-- In IN_SYNC the partner hears of the end of the shadow, and the command waits for its REPLY. -/
theorem doPairUntenant_waits (ht : t < mgt) (hm : ctxMissing s t = false) (he : (tenant s t).enrolled = true)
    (hmode : s.sm.mode = .inSync) :
    let v := objectRecord s t 1 t false
    doPairUntenant s src t = awaitReply (setTenant v t { tenant v t with enrolled := false }) src 0x40 t := by
  unfold doPairUntenant
  rw [guardAll_open (by simp [ht, hm, he]), if_pos hmode]
  exact if_pos ((objectRecord_mode s t 1 t false).trans hmode)

/-- A join that may begin has not begun. -/
theorem mode_ne_joining_of_mayJoin (h : mayJoin s = true) : s.sm.mode ≠ .joining := by
  intro hm
  simp [mayJoin, hm] at h

/-- PAIR_SHADOW within a shadow tenant goes by the partner's BUILD_ID. -/
theorem cmdPairShadow_eq {i pi : Nat} {x : Inst} (hs : Served s src 0x41) (hx : inst? s i = some x) (hpi : pi < 512) :
    let p := program? s x.program
    shadowCtx s ((p.map (fun p => p.ctx)).getD mgt) = true →
    cmdPairShadow src i pi s = .next (
      if partnerBuild s ((p.map (fun p => p.ctx)).getD mgt) pi = p.map (fun p => p.buildId) then
        answered s src 0x41 [] (fun u => { u with ne := { u.ne with insts := Tab.put u.ne.insts i { x with shadowOf := some pi } } })
      else answer (accepted s src) src 0x41 { status := .badArg }) := by
  intro p hshadow
  have hacc : inst? (accepted s src) i = some x := hx
  have hshadow' : shadowCtx (accepted s src) ((p.map (fun p => p.ctx)).getD mgt) = true := hshadow
  unfold cmdPairShadow
  refine congrArg _ ?_
  split
  next hb =>
    refine takeUp_served s src 0x41 none _ _ _ hs ?_
    rw [hacc]
    have hb' : partnerBuild (accepted s src) ((p.map (fun p => p.ctx)).getD mgt) pi = p.map (fun p => p.buildId) := hb
    exact guardAll_open (by simp [p, hshadow', hpi, hb'] ) _
  next hb =>
    refine takeUp_served s src 0x41 none _ _ _ hs ?_
    rw [hacc]
    have hb' : (partnerBuild (accepted s src) ((p.map (fun p => p.ctx)).getD mgt) pi != p.map (fun p => p.buildId)) = true :=
      bne_iff_ne.mpr hb
    exact guardAll_refused (firstRefusal_cons_true ((Bool.or_eq_true ..).mpr (.inr hb'))) _

/-! The end of the wait -/

theorem execReply_answers {code status : Nat} {w : PairWait} (hup : s.sm.linkUp = true)
    (hw : s.sm.replies.find? (fun w => w.code == code && w.tid == t && w.status.isNone) = some w) :
    let u := setSm s (fun m => { m with replies := m.replies.map (fun x => if x = w then { x with status := some status } else x) })
    execReply code status t s = .next (if code = 0x3F ∧ status = 0 then enrol u t else u) := by
  unfold execReply
  rw [if_neg (by simp [hup]), hw]

theorem execPartnerReplyTimeout_answers {w : PairWait}
    (hw : s.sm.replies.find? (fun w => w.src == src && w.status.isNone) = some w) :
    let u := setSm (passTo s w.due) (fun m =>
      { m with replies := m.replies.map (fun x => if x = w then { x with status := some (statusCode .unprotected) } else x) })
    execPartnerReplyTimeout src s =
      .next (if w.code = 0x3F then setTenant u w.tid { tenant u w.tid with enrolled := true } else u) := by
  unfold execPartnerReplyTimeout
  rw [hw]

end

/-- Settles O47, command by command. -/
theorem pairCommands : Obligations.PairCommands := by
  refine ⟨fun r s src t hr => ⟨?_, ?_, ?_, ?_, ?_, ?_, ?_, ?_, ?_, ?_⟩, fun s src t => ⟨?_, ?_⟩⟩
  -- PAIR_CONFIG, PAIR_RESYNC
  · intro enable role hs hk
    have hbusy : keepBusy (accepted s src) = false := keepBusy_eq_false hk
    exact atNextTick_answers hr hs (guardAll_open (by simp [hbusy]) _)
  · intro hs hj hup hhello
    have hacc : mayJoin (accepted s src) = true := hj
    exact atNextTick_answers hr hs (guardAll_open (by simp [hacc, mode_ne_joining_of_mayJoin hj, hup, hhello]) _)
  -- PAIR_TENANT
  · exact fun hs ht hm hmode he => atNextTick_answers hr hs (doPairTenant_enrolled (s := accepted s src) ht hm hmode he)
  · exact fun hs ht hm hmode he => atNextTick_runs hr hs (doPairTenant_waits (s := accepted s src) ht hm hmode he)
  · exact fun hs ht hm hmode => atNextTick_answers hr hs (doPairTenant_unprotected (s := accepted s src) ht hm hmode)
  -- PAIR_UNTENANT
  · exact fun hs ht hm he hmode =>
      atNextTick_answers hr hs (doPairUntenant_unprotected (s := accepted s src) ht hm he hmode)
  · exact fun hs ht hm he hmode => atNextTick_runs hr hs (doPairUntenant_waits (s := accepted s src) ht hm he hmode)
  -- PAIR_SHADOW
  · exact fun i pi x hs hx hpi hshadow => atNextTick_rings hr (cmdPairShadow_eq hs hx hpi hshadow)
  -- PAIR_PROMOTE, PAIR_UNFENCE
  · exact fun hs hmode => atNextTick_answers hr hs (guardAll_open (by simp [hmode]) _)
  · exact fun hs hf => atNextTick_answers hr hs (guardAll_open (by simp [hf]) _)
  -- the end of the wait
  · exact fun code status w hup hw => execReply_answers hup hw
  · exact fun w hw => execPartnerReplyTimeout_answers hw

end Sys2Proof.Proofs
end

section
/-! SUPPORT. The records of the Seam journal: one in JSN order is applied whole, kind by kind, and one out of order changes only the
counts of bad records (R331 to R336, Table 12-5). -/

namespace Sys2Proof.Proofs
open Sys2Proof Sys2Proof.Machine

/-! A control message, and records out of order (R331, R332) -/

/-- A control message moves the frame number of the link alone. -/
theorem sendCtl_sm (s : State) (code : Nat) (ws : List Word) :
    (sendCtl s code ws).sm = { s.sm with txFsn := (sendCtl s code ws).sm.txFsn } := by
  unfold sendCtl
  split <;> rfl

theorem sendResend_sm (s : State) (j : Nat) :
    (sendResend s j).sm = { s.sm with txFsn := (sendResend s j).sm.txFsn } := sendCtl_sm ..

/-- A pair state that a change leaves as it is. -/
theorem setSm_eq_of_sm {s : State} {f g : SmState → SmState} (h : f s.sm = g s.sm) : setSm s f = setSm s g := by
  unfold setSm
  rw [h]

/-- A record other than the next, with no RESEND under way, is counted, and the third ends the protection. -/
theorem badRecord_outOfOrder {s : State} {j : Nat} (hres : s.sm.resending = false) (hj : j ≠ s.sm.jsnApplied + 1) :
    let v := setSm (sendResend (count s Reg.smBadRecord) j) (fun m => { m with badRow := m.badRow + 1 })
    badRecord s j = if s.sm.badRow + 1 < 3 then v
      else unprotect (raiseSrc (setSm v (fun m => { m with badRow := 0 })) Src.smJournalBad {}) := by
  intro v
  have hsm : (sendResend (count s Reg.smBadRecord) j).sm =
      { s.sm with txFsn := (sendResend (count s Reg.smBadRecord) j).sm.txFsn } := sendResend_sm (count s Reg.smBadRecord) j
  have hv : setSm (sendResend (count s Reg.smBadRecord) j) (fun m =>
      { m with badRow := m.badRow + 1, resending := m.resending || decide (j = m.jsnApplied + 1) }) = v := by
    refine setSm_eq_of_sm ?_
    rw [hsm]
    simp [hres, hj]
  have hrow : v.sm.badRow = s.sm.badRow + 1 := congrArg (·.badRow + 1) hsm
  unfold badRecord
  dsimp only
  rw [hv, hrow]

/-- The record is the next in JSN order, of a length that a record has, on a link that receives. -/
structure InOrder (s : State) (r : SeamRecord) : Prop where
  receives : receiving s = true
  isNext : r.jsn = s.sm.jsnApplied + 1
  fits : r.body.length ≤ 4096

section
variable {s : State} {r : SeamRecord} {apply : State → Option State}

/-- A record in order that is not malformed is applied whole. -/
theorem takeRecord_applies {u : State} (hin : InOrder s r) (h : apply s = some u) : takeRecord s r apply = .next (applied u r.jsn) := by
  obtain ⟨hr, hj, hl⟩ := hin
  unfold takeRecord
  rw [if_neg (by simp [hr]), if_neg (fun h => h.2 hj), if_neg (by simp [hj, hl]), h]

theorem takeRecord_outOfOrder (hr : receiving s = true) (hres : s.sm.resending = false) (hj : r.jsn ≠ s.sm.jsnApplied + 1) :
    takeRecord s r apply = .next (badRecord s r.jsn) := by
  unfold takeRecord
  rw [if_neg (by simp [hr]), if_neg (by simp [hres]), if_pos (.inl hj)]

end

/-- The ten kinds of record are all taken by the same rule. -/
theorem exec_takesRecord (s : State) (r : SeamRecord) :
    ∀ c ∈ [Instr.lineWrite r, .granuleZero r, .granuleMap r, .queueLink r, .queueUnlink r, .queueReset r, .object r, .thread r,
      .scratch r, .mark r], ∃ apply, exec c s = takeRecord s r apply := by
  simp only [List.forall_mem_cons, List.not_mem_nil, false_imp_iff, implies_true, and_true]
  exact ⟨⟨_, (rfl : execLineWrite r s = _)⟩, ⟨_, (rfl : execGranuleZero r s = _)⟩, ⟨_, (rfl : execGranuleMap r s = _)⟩,
    ⟨_, (rfl : execQueueLink r s = _)⟩, ⟨_, (rfl : execQueueUnlink r s = _)⟩, ⟨_, (rfl : execQueueReset r s = _)⟩,
    ⟨_, (rfl : execObject r s = _)⟩, ⟨_, (rfl : execThread r s = _)⟩, ⟨_, (rfl : execScratch r s = _)⟩,
    ⟨_, (rfl : execMark r s = _)⟩⟩

/-! What each kind of record applies (Table 12-5) -/

section
variable {s : State} {r : SeamRecord}

theorem execLineWrite_lands {g : Nat} (hin : InOrder s r) (hg : Tab.find s.sm.granMap (r.target.toNat / granuleBytes) = some g)
    (hb : r.body ≠ []) (hfit : r.target.toNat % granuleBytes + r.body.length ≤ granuleBytes) :
    let ppa := g * granuleBytes + r.target.toNat % granuleBytes
    execLineWrite r s = .next (applied ((linesOf ppa r.body.length).zipIdx.foldl (setMarks r.aux)
      (poolStore s r.tag ppa r.body false)) r.jsn) := by
  refine takeRecord_applies hin ?_
  unfold applyLineWrite
  dsimp only
  rw [hg]
  exact if_neg (by simp [hb, Nat.not_lt.mpr hfit])

theorem execGranuleZero_zeroes {g : Nat} (hin : InOrder s r) (hg : Tab.find s.sm.granMap r.target.toNat = some g)
    (ha : r.target.toNat < 2 ^ 17) (haux : r.aux = 0) (hb : r.body = []) :
    execGranuleZero r s = .next (applied (setGran (zeroGranule s g) g { gran s g with poisoned := false }) r.jsn) := by
  unfold execGranuleZero
  refine takeRecord_applies hin ?_
  dsimp only
  rw [if_neg (by simp [haux, hb]; omega), hg]
  rfl

/-! GRANULE_MAP -/

/-- A GRANULE_MAP record of a shadow tenant has a granule and an index in range. -/
theorem granuleMap_wellFormed (ha : r.target.toNat < 2 ^ 18) (haux : r.aux.toNat < 2 ^ 17) (hb : r.body = [])
    (hs : shadowCtx s (tagCtx r.tag) = true) :
    ¬(2 ^ 18 ≤ r.target.toNat ∨ 2 ^ 17 ≤ r.aux.toNat ∨ (!r.body.isEmpty) = true ∨ (!shadowCtx s (tagCtx r.tag)) = true) := by
  simp [hb, hs]
  omega

theorem execGranuleMap_maps (hin : InOrder s r) (ha : r.target.toNat < 2 ^ 18) (haux : r.aux.toNat < 2 ^ 17) (hb : r.body = [])
    (hs : shadowCtx s (tagCtx r.tag) = true) (hbit : bit r.target.toNat 17 = true) :
    execGranuleMap r s = .next (applied (mapGranule (fld r.target.toNat 0 17) (tagCtx r.tag) r.aux.toNat s) r.jsn) := by
  unfold execGranuleMap
  refine takeRecord_applies hin ?_
  dsimp only
  rw [if_neg (granuleMap_wellFormed ha haux hb hs), if_pos hbit]

theorem execGranuleMap_unmaps {own : Nat} (hin : InOrder s r) (ha : r.target.toNat < 2 ^ 18) (haux : r.aux.toNat < 2 ^ 17)
    (hb : r.body = []) (hs : shadowCtx s (tagCtx r.tag) = true) (hbit : bit r.target.toNat 17 = false)
    (hown : Tab.find s.sm.granMap (fld r.target.toNat 0 17) = some own) :
    execGranuleMap r s = .next (applied (unmapGranule s (fld r.target.toNat 0 17) own) r.jsn) := by
  unfold execGranuleMap
  refine takeRecord_applies hin ?_
  dsimp only
  rw [if_neg (granuleMap_wellFormed ha haux hb hs), if_neg (by simp [hbit]), hown]
  rfl

/-! Shadow queues -/

/-- The shadow queue that the record names. -/
theorem shadowQueue_found {x : Queue} (hx : queue? s (fld r.target.toNat 0 14) = some x) (hc : x.ctx = tagCtx r.tag)
    (hs : shadowCtx s x.ctx = true) : shadowQueue s r = some (fld r.target.toNat 0 14, x) := by
  unfold shadowQueue
  dsimp only
  rw [hx]
  exact if_pos ⟨hc, hs⟩

/-- A piece that nothing was held for is the item's bytes. -/
theorem linkBytes_free (h : s.sm.linkHeld = none) : linkBytes s r = r.body := by
  unfold linkBytes
  rw [h]

theorem setSm_noLinkHeld (h : s.sm.linkHeld = none) : setSm s (fun m => { m with linkHeld := none }) = s :=
  setSm_eq_of_sm (g := id) (by dsimp only [id]; rw [← h])

section
variable {q : Nat} {x : Queue}

/-- An item in one piece is linked at once. -/
theorem execQueueLink_links (hin : InOrder s r) (hq : shadowQueue s r = some (q, x)) (ha : r.target.toNat < 2 ^ 17)
    (haux : r.aux.toNat = r.body.length) (hb : r.body ≠ []) (hroom : cellsOf r.body.length ≤ freeCells s)
    (hheld : s.sm.linkHeld = none) :
    execQueueLink r s = .next (applied (linkItem s q (fld r.target.toNat 14 3) r.tag r.body r.poison) r.jsn) := by
  have hlen := hin.fits
  unfold execQueueLink
  refine takeRecord_applies hin ?_
  rw [hq]
  dsimp only
  rw [linkBytes_free hheld, if_neg (by simp [hb, haux]; omega), if_neg (by omega), setSm_noLinkHeld hheld]

theorem execQueueUnlink_unlinks {i : Item} (hin : InOrder s r) (hq : shadowQueue s r = some (q, x)) (ha : r.target.toNat < 2 ^ 17)
    (haux : r.aux.toNat < 4) (hb : r.body = []) (hi : x.items.find? (fun i => i.prio == fld r.target.toNat 14 3) = some i) :
    let y := { x with
      displaced := if r.aux = 2 then cap32 (x.displaced + 1) else x.displaced,
      flushed := if r.aux = 3 then cap32 (x.flushed + 1) else x.flushed }
    execQueueUnlink r s = .next (applied (unlinkItem s q y i r.aux.toNat) r.jsn) := by
  unfold execQueueUnlink
  refine takeRecord_applies hin ?_
  rw [hq]
  dsimp only
  rw [if_neg (by simp [hb]; omega), hi]
  rfl

/-- AUX 0 flushes the queue, AUX 1 resets it. -/
theorem execQueueReset_applies (hin : InOrder s r) (hq : shadowQueue s r = some (q, x)) (ha : r.target.toNat < 2 ^ 14)
    (haux : r.aux.toNat < 2) (hb : r.body = []) :
    let u := setQueue s q (emptied x)
    execQueueReset r s = .next (applied
      (if r.aux = 0 then flushQueue s q else { u with qm := { u.qm with sweeps := u.qm.sweeps ++ [some q] } }) r.jsn) := by
  unfold execQueueReset
  refine takeRecord_applies hin ?_
  rw [hq]
  dsimp only
  rw [if_neg (by simp [hb]; omega)]
  split <;> rfl

end

/-! OBJECT (Table 12-6) -/

/-- The fields of an OBJECT record's target. -/
theorem objectTarget_fields {kind n : Nat} (hk : kind ≤ 8) (hn : n < 65536) :
    fld (kind + 65536 * n) 0 8 = kind ∧ fld (kind + 65536 * n) 8 8 = 0 ∧ fld (kind + 65536 * n) 16 16 = n := by
  simp only [fld_eq_div_mod]
  omega

/-- An OBJECT record of a kind of Table 12-6 whose number is free or its copy's. -/
theorem execObject_applies {kind n : Nat} (hin : InOrder s r) (ha : r.target.toNat = kind + 65536 * n) (hn : n < 65536)
    (haux : r.aux = 0) (hfree : numberTaken s kind n = false) (h1 : 1 ≤ kind) (h8 : kind ≤ 8)
    (hs : kind = 1 ∨ kind = 6 ∨ kind = 8 ∨ shadowCtx s (tagCtx r.tag) = true) :
    execObject r s = .next (applied (
      if kind = 1 then setSm (applyTenant (seen s 1 n) n r.body) (fun m => { m with objects := Tab.put m.objects (65536 + n) (n, r.body) })
      else if kind = 2 then applyQueue (seen s 2 n) (tagCtx r.tag) n r.body r.resync
      else setSm (seen s kind n) (fun m => { m with objects := Tab.put m.objects (65536 * kind + n) (tagCtx r.tag, r.body) })) r.jsn) := by
  obtain ⟨hkind, hzero, hnum⟩ := objectTarget_fields h8 hn
  unfold execObject
  refine takeRecord_applies hin ?_
  dsimp only
  rw [ha, hkind, hzero, hnum, if_neg (by simp [haux, hfree]; omega)]
  by_cases hten : kind = 1
  · rw [if_pos hten, if_pos hten]
  · have howned : ¬((!decide (kind = 6 ∨ kind = 8)) = true ∧ (!shadowCtx s (tagCtx r.tag)) = true) := by
      simp
      tauto
    rw [if_neg hten, if_neg hten, if_neg howned]
    by_cases hqueue : kind = 2
    · rw [if_pos hqueue, if_pos hqueue, hqueue]
    · rw [if_neg hqueue, if_neg hqueue]

/-! SCRATCH and THREAD -/

theorem execScratch_holds (hin : InOrder s r) (ha : r.target.toNat < 2 ^ 29) (hline : fld r.target.toNat 12 6 = 0) (hb : r.body ≠ [])
    (hfit : fld r.target.toNat 12 17 + r.body.length ≤ 131072) :
    execScratch r s = .next (applied (setSm s (fun m => { m with scratchHeld := m.scratchHeld ++ [r] })) r.jsn) := by
  unfold execScratch
  exact takeRecord_applies hin (if_neg (by simp [hline, hb]; omega))

/-- A THREAD record takes with it the scratch held for its thread. -/
theorem execThread_applies (hin : InOrder s r) (ha : r.target.toNat < 2 ^ 12) (haux : r.aux = 0) (hlen : r.body.length = 1280) :
    let mine : SeamRecord → Bool := fun x => x.target.toNat % 4096 == r.target.toNat
    let k := 8 * fld r.target.toNat 0 9 + fld r.target.toNat 9 3
    let u := setSm s (fun m => { m with scratchHeld := m.scratchHeld.filter (fun x => !mine x) })
    let th := (s.sm.scratchHeld.filter mine).foldl applyScratch (recordThread r.body (Tab.get {} s.sm.threads k))
    execThread r s = .next (applied (if linked s (fld r.target.toNat 0 9) then
      setSm u (fun m => { m with threads := Tab.set {} m.threads k th }) else count u Reg.smShadowMiss) r.jsn) := by
  intro mine k u th
  unfold execThread
  refine takeRecord_applies hin ?_
  dsimp only
  rw [if_neg (by simp [haux, hlen]; omega)]
  have hsame : linked u (fld r.target.toNat 0 9) = linked s (fld r.target.toNat 0 9) := rfl
  by_cases hlinked : linked s (fld r.target.toNat 0 9) = true
  · rw [if_pos hlinked]
    exact if_pos (hsame.trans hlinked)
  · rw [if_neg hlinked]
    exact if_neg (hsame ▸ hlinked)

/-! MARK -/

theorem execMark_begins (hin : InOrder s r) (hmode : s.sm.mode = .joining) (hb : r.body = []) (ha : r.target.toNat = 0) :
    execMark r s = .next (applied (setSm s (fun m => { m with seen := [], markApplied := false })) r.jsn) := by
  unfold execMark
  refine takeRecord_applies hin ?_
  rw [if_neg (by simp [hb, hmode, ha]), if_pos (BitVec.eq_of_toNat_eq ha)]

theorem execMark_ends (hin : InOrder s r) (hmode : s.sm.mode = .joining) (hb : r.body = []) (ha : r.target.toNat = 1) :
    execMark r s = .next (applied (checkInSync (setSm (dropUnseen s) (fun m => { m with markApplied := true }))) r.jsn) := by
  unfold execMark
  refine takeRecord_applies hin ?_
  rw [if_neg (by simp [hb, hmode, ha]), if_neg (fun h => by simp [h] at ha)]

end

/-- Settles O48, kind by kind. -/
theorem seamRecords : Obligations.SeamRecords := by
  refine ⟨fun s r hr hj hl => ?_, fun s r hr hres hj => ?_⟩
  · have hin : InOrder s r := ⟨hr, hj, hl⟩
    refine ⟨fun g => execLineWrite_lands hin, fun g => execGranuleZero_zeroes hin, fun ha haux hb hs =>
      ⟨execGranuleMap_maps hin ha haux hb hs, fun own => execGranuleMap_unmaps hin ha haux hb hs⟩, fun x hx hc hs => ?_,
      fun kind n ha hn haux hfree => ⟨?_, ?_, ?_⟩, execScratch_holds hin, execThread_applies hin,
      fun hmode hb => ⟨execMark_begins hin hmode hb, execMark_ends hin hmode hb⟩⟩
    -- the shadow queues
    · have hq := shadowQueue_found hx hc hs
      refine ⟨execQueueLink_links hin hq, fun i => execQueueUnlink_unlinks hin hq, fun ha haux hb => ?_, fun ha haux hb => ?_⟩
      · exact (execQueueReset_applies hin hq ha (by simp [haux]) hb).trans (by rw [if_pos haux])
      · exact (execQueueReset_applies hin hq ha (by simp [haux]) hb).trans (by rw [if_neg (by simp [haux])])
    -- the objects: a tenant, a queue, an image
    · rintro rfl
      exact execObject_applies hin ha hn haux hfree (by decide) (by decide) (by simp)
    · rintro rfl hs
      exact execObject_applies hin ha hn haux hfree (by decide) (by decide) (by simp [hs])
    · intro hlo hhi hs
      exact (execObject_applies hin ha hn haux hfree (by omega) hhi (by tauto)).trans
        (by rw [if_neg (by omega), if_neg (by omega)])
  -- out of order
  · intro u v w c hc
    obtain ⟨apply, happly⟩ := exec_takesRecord s r c hc
    exact happly.trans ((takeRecord_outOfOrder hr hres hj).trans (congrArg _ (badRecord_outOfOrder hres hj)))

end Sys2Proof.Proofs
end

section
/-! SUPPORT. What a raise does to safe state, to PENDING, to the threads and to the tenants (R350 to R361). -/

namespace Sys2Proof.Proofs
open Sys2Proof Sys2Proof.Machine

/-! A halted thread does not run (R361) -/

theorem find_mapAll {α : Type} (f : Nat → α → α) (m : Table α) (k : Nat) :
    Tab.find (Tab.mapAll f m) k = (Tab.find m k).map (f k) := by
  induction m with
  | nil => rfl
  | cons e t ih =>
    obtain ⟨j, v⟩ := e
    simp only [Tab.mapAll, Tab.find]
    split
    next h => rw [h]; rfl
    next => exact ih

theorem mayRun_eq_false {th : Thread} (h : th.mode = .free ∨ th.mode = .frozen ∨ th.mode = .halted) : mayRun th = false := by
  rcases h with h | h | h <;> simp [mayRun, h]

theorem freezeNow_mode (th : Thread) : (freezeNow th).mode = .free ∨ (freezeNow th).mode = .frozen ∨ (freezeNow th).mode = .halted := by
  unfold freezeNow
  split
  next h => exact .inl h
  next h => exact .inr (.inl h)
  next => exact .inr (.inl rfl)
  next => exact .inr (.inl rfl)

theorem haltNow_mode (th : Thread) : (haltNow th).mode = .free ∨ (haltNow th).mode = .frozen ∨ (haltNow th).mode = .halted := by
  unfold haltNow setMode
  split_ifs with hfree hfrozen
  · exact .inl hfree
  · exact .inr (.inl hfrozen)
  · exact .inr (.inr rfl)

/-- A thread that halts runs no further: it waits for its loads, or is HALTED, FROZEN or FREE. -/
theorem mayRun_haltThread (th : Thread) : mayRun (haltThread th) = false := by
  unfold haltThread settleThread
  dsimp only
  by_cases hfree : th.mode = .free
  · have hdue : (th.mode != .free) = false := by simp [hfree]
    simp only [hdue, Bool.false_eq_true, if_false]
    split_ifs
    · exact mayRun_eq_false (freezeNow_mode _)
    · exact mayRun_eq_false (.inl hfree)
    · exact mayRun_eq_false (.inl hfree)
  · have hdue : (th.mode != .free) = true := bne_iff_ne.mpr hfree
    simp only [hdue, if_true]
    split_ifs
    · exact mayRun_eq_false (freezeNow_mode _)
    · exact mayRun_eq_false (haltNow_mode _)
    · simp [mayRun]

/-- Safe state halts every thread of the engines. -/
theorem mayRun_haltAll (s : State) (source : Nat) (fence : Bool) {t : Nat} (ht : t < 512) :
    mayRun (thread (haltAll s source fence) t) = false := by
  have hfind : Tab.find (haltAll s source fence).ne.threads t = (Tab.find s.ne.threads t).map haltThread := by
    refine (find_mapAll _ _ _).trans ?_
    simp only [if_pos ht]
  unfold thread Tab.get
  rw [hfind]
  cases Tab.find s.ne.threads t with
  | none => rfl
  | some th => exact mayRun_haltThread th

/-! The parts that a step of a raise leaves -/

theorem thIntake_th (s : State) (r : ThRec) :
    (thIntake s r).th = { s.th with lowQ := (thIntake s r).th.lowQ, highQ := (thIntake s r).th.highQ } := by
  unfold thIntake
  split_ifs <;> rfl

theorem thIntake_tenant (s : State) (r : ThRec) : tenant (thIntake s r) = tenant s := by
  unfold thIntake
  split_ifs <;> rfl

theorem raiseNoted_tenant (s : State) (n : Nat) (r : Raise) : tenant (raiseNoted s n r) = tenant s := by
  have h : tenant (thIntake (count s (Reg.thSrcCount n)) (thRecord s n r)) = tenant s := thIntake_tenant _ _
  unfold raiseNoted
  dsimp only
  split_ifs
  · exact h
  · exact h

/-- Noting a raise changes the intake queues and PENDING. -/
theorem raiseNoted_th (s : State) (n : Nat) (r : Raise) :
    (raiseNoted s n r).th = { s.th with lowQ := (raiseNoted s n r).th.lowQ, highQ := (raiseNoted s n r).th.highQ,
                                        pending := (raiseNoted s n r).th.pending } := by
  have h := thIntake_th (count s (Reg.thSrcCount n)) (thRecord s n r)
  unfold raiseNoted
  dsimp only
  split_ifs
  · rw [h]; rfl
  · rw [h]; rfl

theorem raiseNoted_pending {s : State} {n : Nat} (r : Raise) (h : 2 ≤ thLive s n) :
    Tab.get false (raiseNoted s n r).th.pending n = true := by
  unfold raiseNoted
  rw [if_pos h]
  exact Tab.get_set_eq false _ n true

theorem freezeIfCause_th (s : State) (t : Nat) : (freezeIfCause s t).th = s.th := by
  unfold freezeIfCause
  dsimp only
  split_ifs
  · exact (onlyNotifies_notifyTenant ..).th
  · rfl

theorem freezeByManager_th (s : State) (t : Nat) : (freezeByManager s t).th = s.th := by
  have h : (freezeIfCause (setTenant s t { tenant s t with mgrCause := true }) t).th = s.th := freezeIfCause_th _ t
  unfold freezeByManager
  dsimp only
  split_ifs
  · rfl
  · exact h
  · exact (onlyNotifies_notifyTenant ..).th.trans h

theorem raiseContained_th (s : State) (n : Nat) (r : Raise) : (raiseContained s n r).th = (raiseNoted s n r).th := by
  unfold raiseContained
  split_ifs
  · split
    · split_ifs
      · rfl
      · exact freezeByManager_th ..
    · rfl
  · rfl

/-- The raise alone leaves safe state, its source and the mark of the partner's fence. -/
theorem raiseContained_safe (s : State) (n : Nat) (r : Raise) :
    (raiseContained s n r).th.safe = s.th.safe ∧ (raiseContained s n r).th.safeFence = s.th.safeFence := by
  rw [raiseContained_th, raiseNoted_th]
  exact ⟨rfl, rfl⟩

/-! Entry into safe state -/

theorem abandonProg_keeps {β : Type} (g : State → β) (hg : ∀ s x, g { s with qm := x } = g s) (hc : ∀ s r, g (count s r) = g s)
    (s : State) (q key : Nat) : g (abandonProg s q key) = g s := by
  have hdrop : g (dropProg s q key) = g s := by
    unfold dropProg
    split
    · rfl
    · split
      · rfl
      · exact (hg _ _).trans (hg _ _)
  unfold abandonProg
  split
  · rfl
  · split_ifs
    · exact (hc _ _).trans hdrop
    · rfl

/-- The items that the Shuttle abandons are of the queues alone, and counted. -/
theorem abandonShuttle_keeps {β : Type} (g : State → β) (hg : ∀ s x, g { s with qm := x } = g s) (hc : ∀ s r, g (count s r) = g s)
    (s : State) : g (abandonShuttle s) = g s :=
  foldl_keeps g (f := fun s (e : Nat × Nat) => abandonProg s e.1 e.2) (fun s e => abandonProg_keeps g hg hc s e.1 e.2) _ s

section
variable {s : State}

/-- What the message to the partner leaves of an entry into safe state. -/
theorem enterSafe_keeps {β : Type} (g : State → β) (hg : ∀ s x, g { s with qm := x } = g s) (hc : ∀ s r, g (count s r) = g s)
    (hn : ∀ {s u}, OnlyNotifies s u → g u = g s) (hm : ∀ s, g (seamSend s 4 []) = g s) (h : s.th.safe = false) (source : Nat)
    (fence : Bool) : g (enterSafe s source fence) = g (haltAll s source fence) := by
  have hfail : g (failMessages (abandonShuttle (haltAll s source fence))) = g (haltAll s source fence) :=
    (hn (onlyNotifies_failMessages _)).trans (abandonShuttle_keeps g hg hc _)
  rw [enterSafe_eq h]
  split_ifs
  · exact (hm _).trans hfail
  · exact hfail

theorem enterSafe_th (h : s.th.safe = false) (source : Nat) (fence : Bool) :
    (enterSafe s source fence).th = (haltAll s source fence).th :=
  enterSafe_keeps (fun u => u.th) (fun _ _ => rfl) (fun _ _ => rfl) (fun h => h.th) (fun _ => rfl) h source fence

theorem enterSafe_thread (h : s.th.safe = false) (source : Nat) (fence : Bool) :
    thread (enterSafe s source fence) = thread (haltAll s source fence) :=
  enterSafe_keeps thread (fun _ _ => rfl) (fun _ _ => rfl) (fun h => h.thread) (fun _ => rfl) h source fence

theorem enterSafe_tenant (s : State) (source : Nat) (fence : Bool) : tenant (enterSafe s source fence) = tenant s := by
  cases h : s.th.safe with
  | true =>
    obtain ⟨n, hn⟩ := enterSafe_again h source fence
    rw [hn]
    rfl
  | false =>
    exact enterSafe_keeps tenant (fun _ _ => rfl) (fun _ _ => rfl) (fun h => h.tenant) (fun _ => rfl) h source fence

theorem enterSafe_safe (s : State) (source : Nat) (fence : Bool) : (enterSafe s source fence).th.safe = true := by
  cases h : s.th.safe with
  | true =>
    obtain ⟨n, hn⟩ := enterSafe_again h source fence
    rw [hn]
    exact h
  | false =>
    rw [enterSafe_th h]
    rfl

theorem enterSafe_pending (s : State) (source : Nat) (fence : Bool) : (enterSafe s source fence).th.pending = s.th.pending := by
  cases h : s.th.safe with
  | true =>
    obtain ⟨n, hn⟩ := enterSafe_again h source fence
    rw [hn]
  | false =>
    rw [enterSafe_th h]
    rfl

/-! A raise by its live severity (R352 to R356) -/

variable {n : Nat}

theorem raiseSrc_contained (r : Raise) (hu : Src.used n = true) (h : thLive s n ≠ 0) (h4 : thLive s n < 4) :
    raiseSrc s n r = raiseContained s n r := by
  rw [raiseSrc_taken r hu h, if_neg (Nat.not_le.mpr h4)]

theorem raiseSrc_safe (r : Raise) (hu : Src.used n = true) (h4 : 4 ≤ thLive s n) :
    raiseSrc s n r = enterSafe (raiseContained s n r) n false := by
  rw [raiseSrc_taken r hu (by omega), if_pos h4]

/-- A device in safe state stays in it, for the cause that it had. -/
theorem raiseSrc_keepsSafe (r : Raise) (h : s.th.safe = true) :
    (raiseSrc s n r).th.safe = true ∧ (raiseSrc s n r).th.safeFence = s.th.safeFence := by
  obtain ⟨hsafe, hfence⟩ := raiseContained_safe s n r
  cases hu : Src.used n with
  | false => rw [raiseSrc_unused r hu]; exact ⟨h, rfl⟩
  | true =>
    by_cases h0 : thLive s n = 0
    · rw [raiseSrc_ignored r hu h0]
      exact ⟨h, rfl⟩
    · rw [raiseSrc_taken r hu h0]
      split_ifs
      · obtain ⟨m, hm⟩ := enterSafe_again (hsafe.trans h) n false
        rw [hm]
        exact ⟨hsafe.trans h, hfence⟩
      · exact ⟨hsafe.trans h, hfence⟩

end

end Sys2Proof.Proofs
end

section
/-! SUPPORT. The Seam link: its bring-up, its frames and the control messages of Table 12-4 (R324 to R328, R332, R335, R343). -/

namespace Sys2Proof.Proofs
open Sys2Proof Sys2Proof.Machine

section
variable {s : State}

/-- Waits for a tag are counted, and nothing else. -/
theorem tagStall_keeps_of_count {β : Type} (g : State → β) (hg : ∀ s r n, g (countN s r n) = g s) (s : State) (n : Nat) :
    g (tagStall s n) = g s := by
  unfold tagStall
  refine foldl_keeps g (fun u e => ?_) _ s
  dsimp only
  split
  · exact hg ..
  · rfl

/-- The passing of time leaves the pair. -/
theorem passTo_sm (s : State) (due : Nat) : (passTo s due).sm = s.sm := by
  unfold passTo
  split
  · rfl
  · exact tagStall_keeps_of_count (fun u => u.sm) (fun _ _ _ => rfl) s _

theorem passTo_th (s : State) (due : Nat) : (passTo s due).th = s.th := by
  unfold passTo
  split
  · rfl
  · exact tagStall_keeps_of_count (fun u => u.th) (fun _ _ _ => rfl) s _

/-! Bring-up (R325) -/

theorem execSeamRetry_starts (he : s.sm.enable = true) (hup : s.sm.linkUp = false) (ht : s.sm.trying = 0)
    (hc : s.sm.conflict = false) (hon : seamOn s = true) (htest : anyTest s seamLane 16 = false) :
    execSeamRetry s = .next (sendHello (alignLanes (trySeam (passTo s s.sm.retryDue) 1)) 0) :=
  if_neg (by rw [he, hup, ht, hc, hon, htest]; decide)

/-- A step that passes on a link that is up is the link's; the next one is tried while there is one. -/
theorem execSeamStepPass_steps {k : Nat} (hk : s.sm.trying = k) (hpos : 1 ≤ k) (hhello : s.sm.hello = true)
    (hsent : s.sm.helloSent = true) (hup : s.sm.linkUp = true) :
    let u := setSm (passTo s s.sm.passDue) (fun m => { m with linkUp := true, step := k, trying := 0 })
    execSeamStepPass s = if k < 3 ∧ k < s.sm.partnerHighest then .next (trySeam (sendHello u (stepFsn u)) (k + 1))
      else .next (if k < 3 then raiseSrc u Src.smLink {} else u) := by
  have hwas : (passTo s s.sm.passDue).sm.linkUp = true := (congrArg SmState.linkUp (passTo_sm ..)).trans hup
  have hhigh : (passTo s s.sm.passDue).sm.partnerHighest = s.sm.partnerHighest := congrArg SmState.partnerHighest (passTo_sm ..)
  unfold execSeamStepPass
  rw [if_neg (by simp [hk, hhello, hsent]; omega)]
  dsimp only
  rw [hk, hwas, ← hhigh]
  rfl

theorem execSeamStepFail_stays {k : Nat} (hk : s.sm.trying = k) (h1 : 1 < k) :
    execSeamStepFail s = .next (raiseSrc (setSm (passTo s s.sm.retryDue) (fun m => { m with trying := 0 })) Src.smLink {}) := by
  unfold execSeamStepFail
  dsimp only
  rw [if_neg (by omega), if_neg (by omega)]

/-! HELLO (R326) -/

/-- The partner's HELLO on a link that is up. -/
theorem execHello_up (h : HelloMsg) (he : s.sm.enable = true) (hup : s.sm.linkUp = true) :
    execHello h s =
      if h.role = s.sm.role ∨ h.arrange ≠ s.et.arrangement ∨ h.merge ≠ s.hp.merge.toNat then
        .next (setSm (seamDown (raiseSrc s Src.smConflict {})) (fun m => { m with conflict := true }))
      else
        let u := sendHello (setSm s (fun m => { m with hello := true, partnerHighest := h.highest })) 0
        if h.stepFsn ≠ 0 ∧ u.sm.trying = 0 ∧ 0 < u.sm.step ∧ u.sm.step < 3 then .next (trySeam u (u.sm.step + 1)) else .next u :=
  if_neg (by simp [he, hup])

theorem execHello_agrees {h : HelloMsg} (he : s.sm.enable = true) (hup : s.sm.linkUp = true) (hrole : h.role ≠ s.sm.role)
    (harr : h.arrange = s.et.arrangement) (hmerge : h.merge = s.hp.merge.toNat) (hfsn : h.stepFsn = 0) :
    execHello h s = .next (sendHello (setSm s (fun m => { m with hello := true, partnerHighest := h.highest })) 0) := by
  rw [execHello_up h he hup, if_neg (by simp [hrole, harr, hmerge])]
  exact if_neg (by simp [hfsn])

theorem execHello_conflicts {h : HelloMsg} (he : s.sm.enable = true) (hup : s.sm.linkUp = true)
    (hc : h.role = s.sm.role ∨ h.arrange ≠ s.et.arrangement) :
    execHello h s = .next (setSm (seamDown (raiseSrc s Src.smConflict {})) (fun m => { m with conflict := true })) := by
  rw [execHello_up h he hup, if_pos (by tauto)]

/-! Frames (R328, R332, R335) -/

theorem execSeamFrame_inOrder {f : SeamFrame} (he : s.sm.enable = true) (hup : s.sm.linkUp = true) (hcrc : f.crcOk = true)
    (hfsn : f.fsn = (s.sm.rxFsn + 1) % 65536) (hok : f.malformed = false) :
    execSeamFrame f s = .next (ackTo (setSm s (fun m => { m with rxFsn := f.fsn, rxFsnKnown := true })) f.ackJsn) := by
  unfold execSeamFrame
  rw [if_neg (by simp [he, hup]), if_neg (by simp [hcrc]), if_neg (fun h => h.2 hfsn)]
  exact if_neg (by simp [hok])

theorem execSeamFrame_badCrc {f : SeamFrame} (he : s.sm.enable = true) (hup : s.sm.linkUp = true) (hcrc : f.crcOk = false) :
    execSeamFrame f s = .next (dropFrame s ((s.sm.rxFsn + 1) % 65536)) := by
  unfold execSeamFrame
  rw [if_neg (by simp [he, hup]), if_pos (by simp [hcrc])]

/-! The end of a resync (R343) -/

theorem execResyncCopyDone_marks :
    let u := resyncPump s
    u.th.safe = false → u.sm.mode = .joining → u.sm.objQ = [] → u.sm.copyQ = [] → u.sm.markSent = false →
    journalRoom u 1 0 = true →
    execResyncCopyDone s = .next (setSm (journalAdd u 10 0 1 0 [] false true)
      (fun m => { m with markSent := true, markJsn := m.jsnSent })) := by
  intro u hsafe hmode hobj hcopy hmark hroom
  unfold execResyncCopyDone
  exact (if_neg (by rw [hsafe]; decide)).trans (if_pos ⟨hmode, hobj, hcopy, by rw [hmark]; rfl, hroom⟩)

end

/-- Settles O49, instruction by instruction. -/
theorem seamLink : Obligations.SeamLink := by
  refine fun s => ⟨execSeamRetry_starts, ?_, ?_, fun k hk h1 => execSeamStepFail_stays hk h1, fun hup => if_pos (.inl hup),
    fun h he hup hrole harr hmerge hfsn => execHello_agrees he hup hrole harr hmerge hfsn,
    fun h he hup hc => execHello_conflicts he hup hc, fun f he hup hcrc hfsn hok => execSeamFrame_inOrder he hup hcrc hfsn hok,
    fun f he hup hcrc => execSeamFrame_badCrc he hup hcrc, ?_, ?_, ?_, ?_, execResyncCopyDone_marks⟩
  -- SEAM_STEP_PASS of the last step, and of one before it
  · intro hk hhello hsent hup
    exact (execSeamStepPass_steps hk (by decide) hhello hsent hup).trans (if_neg (by omega))
  · intro k hk hpos h3 hhigh hhello hsent hup
    exact (execSeamStepPass_steps hk hpos hhello hsent hup).trans (if_pos ⟨h3, hhigh⟩)
  -- RESEND, MAP_FAIL, RESYNC
  · exact fun j hup hsafe => if_neg (by simp [hup, hsafe])
  · exact fun g hup => if_neg (by simp [hup])
  · exact fun hup hjoin => (if_neg (by simp [hup])).trans ((if_pos rfl).trans (if_pos hjoin))
  · exact fun hup hmode => (if_neg (by simp [hup])).trans ((if_neg (by decide)).trans (if_pos hmode))

end Sys2Proof.Proofs
end

section
/-! SUPPORT. Heartbeats, fencing and promotion (R337 to R341, Figure 12-1). -/

namespace Sys2Proof.Proofs
open Sys2Proof Sys2Proof.Machine

/-! A change of the pair state (R337) -/

/-- The new pair state; IN_SYNC ends the loss of the heartbeat. -/
def pairMoved (s : State) (m : PairMode) : State :=
  setSm s (fun x => { x with mode := m, hbLost := if m = .inSync then false else x.hbLost })

/-- The pair state before its raise of SM_STATE: the journal stops where it no longer runs. -/
def pairChanged (s : State) (m : PairMode) : State :=
  if journalling s && !journalling (pairMoved s m) then stopJournal (pairMoved s m) else pairMoved s m

theorem setPair_eq {s : State} {m : PairMode} (h : s.sm.mode ≠ m) : setPair s m = raiseSrc (pairChanged s m) Src.smState {} :=
  if_neg h

theorem pairChanged_keeps (s : State) (m : PairMode) :
    (pairChanged s m).sm.mode = m ∧ (pairChanged s m).sm.fenceIn = s.sm.fenceIn ∧ (pairChanged s m).sm.promo = s.sm.promo ∧
      (pairChanged s m).th = s.th := by
  unfold pairChanged
  split <;> exact ⟨rfl, rfl, rfl, rfl⟩

/-- A change of the pair state leaves FENCE_IN, the promotion and safe state. -/
theorem setPair_keeps {s : State} (m : PairMode) (h : s.th.safe = true) :
    (setPair s m).sm.mode = m ∧ (setPair s m).sm.fenceIn = s.sm.fenceIn ∧ (setPair s m).sm.promo = s.sm.promo ∧
      (setPair s m).th.safe = true ∧ (setPair s m).th.safeFence = s.th.safeFence := by
  by_cases hm : s.sm.mode = m
  · rw [show setPair s m = s from if_pos hm]
    exact ⟨hm, rfl, rfl, h, rfl⟩
  · obtain ⟨hmode, hfence, hpromo, hth⟩ := pairChanged_keeps s m
    obtain ⟨hsafe, hsafeFence⟩ := raiseSrc_keepsSafe (s := pairChanged s m) (n := Src.smState) {} (hth ▸ h)
    have hsm : (raiseSrc (pairChanged s m) Src.smState {}).sm = { (pairChanged s m).sm with
        txFsn := (raiseSrc (pairChanged s m) Src.smState {}).sm.txFsn } := congrArg State.sm (onlyReacts_raiseSrc ..)
    rw [setPair_eq hm, hsm]
    exact ⟨hmode, hfence, hpromo, hsafe, hsafeFence.trans (congrArg ThState.safeFence hth)⟩

section
variable {s : State}

/-! Heartbeats (R338) -/

theorem execHeartbeatSend_beats (hup : s.sm.linkUp = true) (hsafe : s.th.safe = false) :
    execHeartbeatSend s = .next (sendCtl (setSm (passTo s s.sm.hbSendDue) (fun m =>
      { m with hbCount := m.hbCount + 1, hbSendDue := m.hbSendDue + ns 500 })) 2
        [BitVec.ofNat 64 (s.sm.hbCount % 2 ^ 32 + 2 ^ 32 * pairCode s.sm.mode)]) := by
  have hth : (passTo s s.sm.hbSendDue).th.safe = false := (congrArg ThState.safe (passTo_th ..)).trans hsafe
  unfold execHeartbeatSend
  rw [if_neg (by simp [hup])]
  dsimp only
  rw [if_neg (by simp [hth]), passTo_sm]

/-- In safe state FAILOVER goes in the heartbeat's place. -/
theorem execHeartbeatSend_fails (hup : s.sm.linkUp = true) (hsafe : s.th.safe = true) :
    execHeartbeatSend s = .next (sendCtl (setSm (passTo s s.sm.hbSendDue) (fun m => { m with hbSendDue := m.hbSendDue + ns 500 })) 4 []) := by
  have hth : (passTo s s.sm.hbSendDue).th.safe = true := (congrArg ThState.safe (passTo_th ..)).trans hsafe
  unfold execHeartbeatSend
  rw [if_neg (by simp [hup])]
  exact if_pos hth

/-! The loss of the heartbeat (R339) -/

/-- The loss is marked, and no more misses are counted. -/
def heartbeatGone (s : State) : State := setSm s (fun m => { m with hbLost := true, hbMiss := 0 })

theorem loseHeartbeat_eq (s : State) (failover : Bool) : loseHeartbeat s failover =
    if s.sm.mode = .inSync then
      if s.sm.promo = .settle ∨ s.sm.promo = .promote then heartbeatGone s
      else if failover = true ∨ (!s.sm.role) = true then assertFence (heartbeatGone s)
      else if s.sm.promo = .none then setSm (heartbeatGone s) (fun m => { m with promo := .fenceWait, promoDue := s.now + us 2 })
      else heartbeatGone s
    else alone (heartbeatGone s) := rfl

theorem loseHeartbeat_fences {failover : Bool} (hmode : s.sm.mode = .inSync) (hpromo : s.sm.promo = .none)
    (h : failover = true ∨ s.sm.role = false) : loseHeartbeat s failover = assertFence (heartbeatGone s) := by
  rw [loseHeartbeat_eq, if_pos hmode, if_neg (by simp [hpromo]), if_pos (by simpa using h)]

/-- ROLE 1 waits before it fences. -/
theorem loseHeartbeat_waits (hmode : s.sm.mode = .inSync) (hpromo : s.sm.promo = .none) (hrole : s.sm.role = true) :
    loseHeartbeat s false = setSm (heartbeatGone s) (fun m => { m with promo := .fenceWait, promoDue := s.now + us 2 }) := by
  rw [loseHeartbeat_eq, if_pos hmode, if_neg (by simp [hpromo]), if_neg (by simp [hrole]), if_pos hpromo]

/-- A device that was not in step with its partner is alone. -/
theorem loseHeartbeat_alone (hmode : s.sm.mode = .joining ∨ s.sm.mode = .unprotected) (failover : Bool) :
    loseHeartbeat s failover = setPair (heartbeatGone s) .solo := by
  have hne : s.sm.mode ≠ .inSync := by
    rcases hmode with h | h <;> simp [h]
  rw [loseHeartbeat_eq, if_neg hne]
  exact if_pos hmode

/-! Fencing and promotion (R339 to R341) -/

theorem execFenceWaitEnd_decides (h : s.sm.promo = .fenceWait) :
    let u := passTo s s.sm.promoDue
    execFenceWaitEnd s = .next (if s.sm.fenceIn then setSm u (fun m => { m with promo := .none }) else assertFence u) := by
  intro u
  have hu : u.sm.fenceIn = s.sm.fenceIn := congrArg SmState.fenceIn (passTo_sm ..)
  unfold execFenceWaitEnd
  rw [if_pos h, ← hu]

/-- FENCE_IN that is acted on brings safe state and FENCED. -/
theorem execFenceIn_fences (he : s.sm.enable = true) (hmode : s.sm.mode ≠ .fenced) (hign : ignoresFence s = false)
    (hsafe : s.th.safe = false) :
    ∃ t, execFenceIn true s = .next t ∧ t.sm.fenceIn = true ∧ t.sm.mode = .fenced ∧ t.th.safe = true ∧ t.th.safeFence = true ∧
      t.sm.promo = .none := by
  let u := setSm s (fun m => { m with fenceIn := true })
  let v := enterSafe (raiseSrc u Src.smFenceIn {}) Src.smFenceIn true
  let w := setSm { v with th := { v.th with safeFence := true } } (fun m => { m with promo := .none })
  have hv : v.sm = { u.sm with txFsn := v.sm.txFsn } :=
    congrArg State.sm ((onlyReacts_raiseSrc ..).trans (onlyReacts_enterSafe (raiseSrc u Src.smFenceIn {}) Src.smFenceIn true))
  have hw : w.sm.fenceIn = true := congrArg SmState.fenceIn hv
  obtain ⟨hfenced, hfence, hpromo, hsafe', hsafeFence⟩ := setPair_keeps (s := w) .fenced (enterSafe_safe ..)
  refine ⟨setPair w .fenced, ?_, hfence.trans hw, hfenced, hsafe', hsafeFence, hpromo⟩
  have hopen : ¬((!true) = true ∨ u.sm.mode = .fenced ∨ ignoresFence u = true) := by
    rintro (h | h | h)
    · exact absurd h (by decide)
    · exact hmode h
    · exact absurd (hign.symm.trans h) (by decide)
  unfold execFenceIn
  rw [if_neg (by simp [he])]
  refine (if_neg hopen).trans ?_
  have hwas : u.th.safe = false := hsafe
  show Host.Outcome.next (setPair (setSm (if u.th.safe = true then v else { v with th := { v.th with safeFence := true } }) _) _) = _
  rw [if_neg (by simp [hwas])]

theorem execSettleEnd_promotes (h : s.sm.promo = .settle) :
    execSettleEnd s = .next (setSm (passTo s s.sm.promoDue) (fun m =>
      { m with promo := .promote, promoDue := (passTo s s.sm.promoDue).now, scratchHeld := [] })) := if_pos h

end

/-- Settles O50, instruction by instruction. -/
theorem heartbeatAndFencing : Obligations.HeartbeatAndFencing := by
  refine fun s => ⟨execHeartbeatSend_beats, execHeartbeatSend_fails, fun n st hup => if_neg (by simp [hup]),
    fun ha hm => if_pos ⟨ha, hm⟩, ⟨?_, ?_, ?_, ?_⟩, execFenceWaitEnd_decides, execFenceIn_fences, ?_, execSettleEnd_promotes, ?_⟩
  -- HEARTBEAT_LOST, FAILOVER
  · exact fun h8 hmode hpromo hrole => (if_pos h8).trans (congrArg _ (loseHeartbeat_fences hmode hpromo (.inr hrole)))
  · exact fun h8 hmode hpromo hrole => (if_pos h8).trans (congrArg _ (loseHeartbeat_waits hmode hpromo hrole))
  · exact fun h8 hmode => (if_pos h8).trans (congrArg _ (loseHeartbeat_alone hmode false))
  · exact fun hup hmode hpromo => (if_pos hup).trans (congrArg _ (loseHeartbeat_fences hmode hpromo (.inl rfl)))
  -- the end of FENCE_IN, PROMOTED
  · exact fun he => (if_neg (by simp [he])).trans (if_pos (.inl rfl))
  · exact fun hpromo hsafe => if_pos ⟨hpromo, by rw [hsafe]; rfl⟩

end Sys2Proof.Proofs
end

section
/-! SUPPORT. Faults: raises with what their blocks do, the records and the history, severities, and the reaction to a raise by its live
severity (R349 to R358, R364, R365). -/

namespace Sys2Proof.Proofs
open Sys2Proof Sys2Proof.Machine

section
variable {s : State} {n : Nat}

/-! SOURCE_RAISE (R349, R350) -/

/-- The sources whose records carry what the raise says in EXTRA. -/
theorem keepsExtra_iff (n : Nat) :
    (n == Src.neProgFault || n == Src.mcCe || n == Src.mcUe || n == Src.hpViolation || n == Src.hpContained) = true ↔
      n ∈ [Src.neProgFault, Src.mcCe, Src.mcUe, Src.hpViolation, Src.hpContained] := by
  simp only [Bool.or_eq_true, beq_iff_eq, List.mem_cons, List.not_mem_nil, or_false, or_assoc]

/-- A raise of a used source by a block that is on, other than the two that raise by what they do. -/
theorem execSourceRaise_raises {tag : Option (BitVec 11)} {object index : Nat} {extra : BitVec 40} (hu : Src.used n = true)
    (hr : raisable s n index = true) (hq : ¬(n = Src.qmPtrMismatch ∧ (queue? s index).isSome = true))
    (hp : ¬(n = Src.hpContained ∧ 1 ≤ fld (BitVec.toNat extra) 0 3 ∧ fld (BitVec.toNat extra) 0 3 ≤ 4)) :
    let u := blockAction s n index extra.toNat
    let r : Raise :=
      { tag := tag, object := object % 16, index := index % 2 ^ 20,
        extra := if n ∈ [Src.neProgFault, Src.mcCe, Src.mcUe, Src.hpViolation, Src.hpContained] then extra else 0 }
    execSourceRaise n tag object index extra s = .next (
      if limited n then raiseLimited u n (limitWho u n tag index) r else raiseSrc u n r) := by
  refine (if_neg (by simp [hu, hr])).trans ((if_neg hq).trans ((if_neg hp).trans ?_))
  simp only [keepsExtra_iff]
  cases limited n <;> rfl

theorem execSourceRaise_mismatch {tag : Option (BitVec 11)} {object q : Nat} {extra : BitVec 40} {x : Queue}
    (hx : queue? s q = some x) (hr : raisable s Src.qmPtrMismatch q = true) :
    execSourceRaise Src.qmPtrMismatch tag object q extra s = .next (mismatch s q) := by
  have hu : Src.used Src.qmPtrMismatch = true := by decide
  unfold execSourceRaise
  rw [if_neg (by simp [hu, hr]), if_pos ⟨rfl, by simp [hx]⟩]

/-- Containment is raised by no block in a domain: nothing keeps it back. -/
theorem execSourceRaise_contains {tag : Option (BitVec 11)} {object p : Nat} {extra : BitVec 40} (hp : p < 8)
    (h1 : 1 ≤ fld (BitVec.toNat extra) 0 3) (h4 : fld extra.toNat 0 3 ≤ 4) :
    execSourceRaise Src.hpContained tag object p extra s = .next (containPort s p (fld extra.toNat 0 3)) := by
  have hu : Src.used Src.hpContained = true := by decide
  have hr : raisable s Src.hpContained p = true := rfl
  unfold execSourceRaise
  rw [if_neg (by simp [hu, hr]), if_neg (fun h => absurd h.1 (by decide)), if_pos ⟨rfl, h1, h4⟩, Nat.mod_eq_of_lt hp]

/-! Records and the history (R354, R357, R358, R364) -/

theorem execRecordForm_high {r : ThRec} {rest : List ThRec} (h : s.th.highQ = r :: rest) :
    let u := logRecord { s with th := { s.th with highQ := rest } } r
    execRecordForm s = .next (notifyRecord u.1 u.2) := by
  unfold execRecordForm
  rw [h]

/-- A LOG record waits for those of NOTIFY and above, and for the budget of the tick. -/
theorem execRecordForm_low {r : ThRec} {rest : List ThRec} (hh : s.th.highQ = []) (hl : s.th.lowQ = r :: rest) :
    execRecordForm s =
      if s.th.logTick < 1024 then
        .next (logRecord { s with th := { s.th with lowQ := rest, logTick := s.th.logTick + 1 } } r).1
      else .next (count { s with th := { s.th with lowQ := rest } } Reg.thLogLost) := by
  unfold execRecordForm
  rw [hh]
  dsimp only
  rw [hl]

theorem execHistoryWrite_writes {r : ThRec} {rest : List ThRec} (h : s.th.histQ = r :: rest) :
    let w := { s with th := { s.th with histQ := rest } }
    let i := keepNat w Keep.thHead % 32
    let u := (upto 0 4).foldl (fun u j => keepSet u (histWord i j) (BitVec.ofNat 64 (leAt (recordBytes r) (8 * j) 8))) w
    let v := keepSet u Keep.thHead (BitVec.ofNat 64 ((i + 1) % 32))
    execHistoryWrite s = .next (keepSet v Keep.thTotal (BitVec.ofNat 64 (satInc (2 ^ 32 - 1) (keepNat v Keep.thTotal)))) := by
  unfold execHistoryWrite
  rw [h]

/-! The reaction (R352 to R356) -/

theorem tenant_freezeIfCause_running {t : Nat} (hst : (tenant s t).st = .running) (hc : (tenant s t).mgrCause = true) :
    (tenant (freezeIfCause s t) t).st = .frozen := by
  unfold freezeIfCause
  dsimp only
  rw [if_pos (by simp [hst, hc]), (onlyNotifies_notifyTenant ..).tenant]
  show (tenant (setTenant s t { tenant s t with st := .frozen }) t).st = .frozen
  rw [tenant_setTenant, if_pos rfl]

/-- The manager's cause freezes a running tenant. -/
theorem tenant_freezeByManager_running {t : Nat} (hst : (tenant s t).st = .running) :
    (tenant (freezeByManager s t) t).st = .frozen := by
  have hfrozen : (tenant (freezeIfCause (setTenant s t { tenant s t with mgrCause := true }) t) t).st = .frozen :=
    tenant_freezeIfCause_running (by rw [tenant_setTenant, if_pos rfl]; exact hst) (by rw [tenant_setTenant, if_pos rfl])
  unfold freezeByManager
  dsimp only
  rw [if_neg (by simp [hst]), if_pos (by simp [hst])]
  exact hfrozen

/-- CONTAIN and above freeze the running tenant that the tag names. -/
theorem raiseContained_freezes {r : Raise} {tag : BitVec 11} (h3 : 3 ≤ thLive s n) (hr : r.tag = some tag) (ht : tagCtx tag < mgt)
    (hst : (tenant s (tagCtx tag)).st = .running) : (tenant (raiseContained s n r) (tagCtx tag)).st = .frozen := by
  unfold raiseContained
  rw [if_pos h3, hr]
  dsimp only
  rw [if_neg (Nat.ne_of_lt ht)]
  exact tenant_freezeByManager_running (by rw [raiseNoted_tenant]; exact hst)

/-- After the raise, the tenants are as containment left them, in safe state or not. -/
theorem raiseSrc_tenant (r : Raise) (hu : Src.used n = true) (h : thLive s n ≠ 0) :
    tenant (raiseSrc s n r) = tenant (raiseContained s n r) := by
  rw [raiseSrc_taken r hu h]
  split_ifs
  · exact enterSafe_tenant ..
  · rfl

theorem raiseSrc_pending (r : Raise) (hu : Src.used n = true) (h2 : 2 ≤ thLive s n) :
    Tab.get false (raiseSrc s n r).th.pending n = true := by
  have hnoted : Tab.get false (raiseContained s n r).th.pending n = true := by
    rw [raiseContained_th]
    exact raiseNoted_pending r h2
  rw [raiseSrc_taken r hu (by omega)]
  split_ifs
  · rw [enterSafe_pending]
    exact hnoted
  · exact hnoted

/-- Below SAFE the device stays in the state that it was in. -/
theorem raiseSrc_safe_same (r : Raise) (h4 : thLive s n < 4) : (raiseSrc s n r).th.safe = s.th.safe := by
  obtain ⟨hsafe, -⟩ := raiseContained_safe s n r
  cases hu : Src.used n with
  | false => rw [raiseSrc_unused r hu]
  | true =>
    by_cases h0 : thLive s n = 0
    · rw [raiseSrc_ignored r hu h0]
      rfl
    · rw [raiseSrc_contained r hu h0 h4]
      exact hsafe

/-- The first SAFE raise names the cause, asserts ALERT# and halts the threads. -/
theorem raiseSrc_entersSafe (r : Raise) (hu : Src.used n = true) (h4 : 4 ≤ thLive s n) (hs : s.th.safe = false) :
    (raiseSrc s n r).th.safeSource = n ∧ (raiseSrc s n r).th.alert = true ∧
      ∀ t, t < 512 → mayRun (thread (raiseSrc s n r) t) = false := by
  obtain ⟨hsafe, -⟩ := raiseContained_safe s n r
  rw [raiseSrc_safe r hu h4, enterSafe_th (hsafe.trans hs), enterSafe_thread (hsafe.trans hs)]
  exact ⟨rfl, rfl, fun t ht => mayRun_haltAll _ n false ht⟩

/-- Below CONTAIN no tenant changes. -/
theorem raiseSrc_tenant_same (r : Raise) (h3 : thLive s n < 3) : tenant (raiseSrc s n r) = tenant s := by
  cases hu : Src.used n with
  | false => rw [raiseSrc_unused r hu]
  | true =>
    by_cases h0 : thLive s n = 0
    · rw [raiseSrc_ignored r hu h0]
      rfl
    · rw [raiseSrc_tenant r hu h0, show raiseContained s n r = raiseNoted s n r from if_neg (Nat.not_le.mpr h3)]
      exact raiseNoted_tenant s n r

end

/-- Settles O51: the rows of Thimble one by one, then the reaction to a raise by its live severity. -/
theorem faultEvents : Obligations.FaultEvents := by
  refine ⟨⟨fun s n => ⟨?_, ?_, ?_, ?_, ?_, ?_, ?_, rfl, ?_, fun _ => rfl, fun _ => rfl⟩, fun r s src n hr => ⟨?_, ?_, ?_⟩⟩,
    fun s n r => ⟨raiseSrc_unused r, raiseSrc_ignored r, raiseSrc_pending r, raiseSrc_safe_same r, ?_, ?_, ?_⟩⟩
  -- SOURCE_RAISE
  · exact fun tag object index extra hu hr hq hp => execSourceRaise_raises hu hr hq hp
  · exact fun tag object q extra x hx hr => execSourceRaise_mismatch hx hr
  · exact fun tag object p extra hp h1 h4 => execSourceRaise_contains hp h1 h4
  -- RECORD_FORM, HISTORY_WRITE, TH_SRC_CFG
  · exact fun r rest h => execRecordForm_high h
  · exact fun r rest hh hl htick => (execRecordForm_low hh hl).trans (if_pos htick)
  · exact fun r rest hh hl htick => (execRecordForm_low hh hl).trans (if_neg (Nat.not_lt.mpr htick))
  · exact fun r rest h => execHistoryWrite_writes h
  · exact fun w hu => congrArg _ (if_pos hu)
  -- FAULT_SEVERITY, FAULT_ACK
  · intro l hs hlen hl
    have hok : l.any (fun e => !Src.used e.1 || decide (4 < e.2)) = false := by
      simp only [List.any_eq_false]
      exact fun e he => by simp [hl e he]
    exact atNextTick_answers hr hs (guardAll_open (by simp [hlen, hok]) _)
  · intro i hs hi hw
    have hacc : histWritten (accepted s src) i = true := hw
    exact atNextTick_answers hr hs (guardAll_open (by simp [hi, hacc]) _)
  · exact fun hs hu => atNextTick_answers hr hs (guardAll_open (by simp [hu]) _)
  -- the reaction
  · refine fun hu h4 => ⟨?_, raiseSrc_entersSafe r hu h4⟩
    rw [raiseSrc_safe r hu h4]
    exact enterSafe_safe ..
  · exact fun h3 t => congrFun (raiseSrc_tenant_same r h3) t
  · intro tag hu h3 hr ht hst
    rw [raiseSrc_tenant r hu (by omega)]
    exact raiseContained_freezes h3 hr ht hst

end Sys2Proof.Proofs
end

section
/-! SUPPORT. Power, clocks, memory and sensors: the rows of chapter 14 that no rule refuses (R371 to R376, R438, R442, R447). -/

namespace Sys2Proof.Proofs
open Sys2Proof Sys2Proof.Machine

section
variable {s : State} {d k : Nat}

/-! Domains (R373 to R376) -/

/-- A domain that may switch and is not switching begins at once. -/
theorem doDomainPower_begins (on : Bool) (hd : d < 150) (hfree : domFree s d = true) (hmoving : (domGroup s d).any (domMoving s) = false)
    (hphase : s.pw.phase ≠ .stopEntry) (hkeep : s.mg.keepDue ≤ s.now) :
    let a := keepDomain s d (!on)
    doDomainPower s d on = pollDomain (if on then switchOn a (domGroup s d) else (domGroup s d).foldl switchOff a) d on := by
  have hbusy : keepBusy s = false := keepBusy_eq_false hkeep
  have hstop : (s.pw.phase == .stopEntry) = false := beq_eq_false_iff_ne.mpr hphase
  exact guardAll_open (by simp only [hfree, hmoving, hstop, hbusy]; simp [hd]) _

theorem pollDomain_done {on : Bool}
    (h : (domGroup s d).all (fun k => (dom s k).st == (if on then DomMode.on else DomMode.off)) = true) :
    pollDomain s d on = done s := if_pos h

theorem pollDomain_waits {on : Bool}
    (h : ¬(domGroup s d).all (fun k => (dom s k).st == (if on then DomMode.on else DomMode.off)) = true) :
    pollDomain s d on = (s, none) := if_neg h

theorem execDomainSwitchDone_on (ht : (dom s d).timedOut = false) (h : (dom s d).st = .switchingOn) :
    execDomainSwitchDone d s = .next (domPump 8 (setDom s d { dom s d with st := .on, clamped := false })) := by
  unfold execDomainSwitchDone
  dsimp only
  rw [if_neg (by simp [ht]), if_pos h]

theorem execDomainSwitchDone_off (ht : (dom s d).timedOut = false) (h : (dom s d).st = .switchingOff) (hq : quadOf d = none) :
    execDomainSwitchDone d s = .next (setDom s d { dom s d with st := .off }) := by
  unfold execDomainSwitchDone
  dsimp only
  rw [if_neg (by simp [ht]), if_neg (by simp [h]), if_pos h, hq]

/-- The lanes of a quad that has switched off lose what they held. -/
theorem execDomainSwitchDone_quadOff {q : Nat} (ht : (dom s d).timedOut = false) (h : (dom s d).st = .switchingOff)
    (hq : quadOf d = some q) :
    let u := (upto (4 * q) 4).foldl resetLane (setDom s d { dom s d with st := .off })
    execDomainSwitchDone d s = .next { u with ln := { u.ln with
      pll := BitVec.ofNat 24 (putBit u.ln.pll.toNat q false), rate := Tab.del u.ln.rate q, inEffect := Tab.del u.ln.inEffect q } } := by
  unfold execDomainSwitchDone
  dsimp only
  rw [if_neg (by simp [ht]), if_neg (by simp [h]), if_pos h, hq]

theorem execPwDomainTimeout_raises (ht : (dom s d).timedOut = false) (h : (dom s d).st = .switchingOn ∨ (dom s d).st = .switchingOff) :
    execPwDomainTimeout d s = .next (raiseSrc (setDom
      (passTo s ((dom s d).since + us (if (dom s d).st = .switchingOn then 80 else 8))) d { dom s d with timedOut := true })
      Src.pwDomainTimeout { object := 12, index := d }) := by
  have hmoving : domMoving s d = true := by
    rcases h with h | h <;> simp [domMoving, h]
  exact if_pos ⟨hmoving, by rw [ht]; rfl⟩

/-! PLLs and clocks (R371, R372) -/

theorem execPllLock_clock (hk : k < 12) (hon : (dom s (pllDomain k)).st = .on) (hrun : k < 2 → s.mg.running = true) :
    execPllLock k s = .next { s with pw := { s.pw with plls := BitVec.ofNat 12 (putBit s.pw.plls.toNat k true) } } := by
  have hopen : ¬(36 ≤ k ∨ (dom s (pllDomain k)).st ≠ .on ∨ k < 2 ∧ (!s.mg.running) = true) := by
    rintro (h | h | ⟨h, hr⟩)
    · omega
    · exact h hon
    · simp [hrun h] at hr
  exact (if_neg hopen).trans (if_pos hk)

/-- A quad's transmit PLL locks without the firmware. -/
theorem execPllLock_quad {q : Nat} (hq : q < 24) (hon : (dom s (pllDomain (q + 12))).st = .on) :
    execPllLock (q + 12) s = .next { s with ln := { s.ln with pll := BitVec.ofNat 24 (putBit s.ln.pll.toNat q true) } } := by
  have hopen : ¬(36 ≤ q + 12 ∨ (dom s (pllDomain (q + 12))).st ≠ .on ∨ q + 12 < 2 ∧ (!s.mg.running) = true) := by
    rintro (h | h | ⟨h, -⟩)
    · omega
    · exact h hon
    · omega
  exact (if_neg hopen).trans (if_neg (by omega))

theorem execCkClkSel_switches {w : Word} (hw : bit w.toNat 0 = true) (hclk : s.pw.clkPll = false) (hon : (dom s 146).st = .on) :
    let u := rebuildTime { s with pw := { s.pw with clkPll := true } }
    let v := { u with et := { u.et with applied := true } }
    execCkClkSel w s = .next (switchOn v ((upto 0 150).filter (fun d => !heldOff v d))) :=
  if_neg (by simp [hw, hclk, hon])

theorem execCkPllUnlock_unlocks (hk : k < 12) (hlocked : bit s.pw.plls.toNat k = true) :
    let u := count { s with pw := { s.pw with plls := BitVec.ofNat 12 (putBit s.pw.plls.toNat k false) } } Reg.ckUnlocks
    execCkPllUnlock k s = .next (if s.pw.phase = .boot then u else raiseSrc u Src.ckPllUnlock {}) :=
  if_neg (by simp [hlocked]; omega)

/-! Sensors of the device (R438, R442, R447) -/

theorem execPwSupplyUv_raises (r : Rail) (hstop : s.pw.inStop = false) (hen : s.pw.mainEn = true) (hpg : s.pw.mainPg = true) :
    execPwSupplyUv r s = .next (raiseSrc { s with pw := { s.pw with supplyLost := true, mainPg := r != .mainPg } } Src.pwSupplyUv {}) := by
  have hgood : (s.pw.mainPg && r != .mainPg) = (r != .mainPg) := by rw [hpg]; rfl
  rw [← hgood]
  exact if_neg (by simp [hstop, hen, hpg])

/-! Memory at power-up -/

theorem execMcHot_rises (t : Nat) (hk : k < 8) (hon : (dom s (102 + k)).st = .on) (hcool : (stk s k).hot = false) :
    execMcHot k true t s =
      .next (raiseSrc (setStk s k { stk s k with hot := true, temp := t % 256 }) Src.mcHot { object := 10, index := 16 * k }) :=
  if_neg (by simp [hon, hcool]; omega)

theorem execMcHot_falls (t : Nat) (hk : k < 8) (hon : (dom s (102 + k)).st = .on) (hhot : (stk s k).hot = true) :
    execMcHot k false t s = .next (setStk s k { stk s k with hot := false, temp := t % 256 }) :=
  if_neg (by simp [hon, hhot]; omega)

theorem execZeroFillComplete_runs (hz : s.pw.zeroFilled = false) (hrun : s.mg.running = true) (hclk : s.pw.clkPll = true)
    (ht : ∀ k, k < 8 → (stk s k).trained = true) :
    let u := (upto 0 8).foldl copyRom (assignRom 4
      { s with mp := { s.mp with pool := [], poison := [], written := [], granules := [], lists := [] } })
    execZeroFillComplete s = .next { u with pw := { u.pw with zeroFilled := true, phase := .run } } := by
  have hall : (upto 0 8).all (fun k => (stk s k).trained) = true := by
    simp only [List.all_eq_true, mem_upto]
    exact fun k hk => ht k (by omega)
  exact if_neg (by rw [hz, hrun, hclk, hall]; decide)

end

/-- Settles O52, row by row. -/
theorem powerAndClocks : Obligations.PowerAndClocks := by
  refine ⟨fun r s src d hr on hs hd hfree hmoving hphase hkeep => ?_, fun s d k => ⟨fun ht => ⟨?_, ?_, ?_, ?_⟩, execPllLock_clock,
    fun q => execPllLock_quad, fun w => execCkClkSel_switches, execCkPllUnlock_unlocks, ?_, execPwSupplyUv_raises, ?_, rfl, rfl,
    ?_, ?_, ?_, ?_, execZeroFillComplete_runs⟩⟩
  -- DOMAIN_POWER
  · intro a u
    have hbegin : doDomainPower (accepted s src) d on = pollDomain u d on :=
      doDomainPower_begins (s := accepted s src) on hd hfree hmoving hphase hkeep
    by_cases h : (domGroup u d).all (fun k => (dom u k).st == (if on then DomMode.on else DomMode.off)) = true
    · rw [if_pos h]
      exact atNextTick_answers hr hs (hbegin.trans (pollDomain_done h))
    · rw [if_neg h]
      exact atNextTick_runs hr hs (hbegin.trans (pollDomain_waits h))
  -- DOMAIN_SWITCH_DONE, PW_DOMAIN_TIMEOUT
  · exact execDomainSwitchDone_on ht
  · exact execDomainSwitchDone_off ht
  · exact fun q h hq => execDomainSwitchDone_quadOff ht h hq
  · exact execPwDomainTimeout_raises ht
  -- CK_FREQ, PW_OVERTEMP, HOLDOVER
  · exact fun hk hstop => if_neg (by simp [hstop]; omega)
  · exact fun hstop => if_neg (by simp [hstop])
  · exact fun hptp hrun hhold => if_pos ⟨hptp, hrun, by rw [hhold]; rfl⟩
  -- HBM_TRAINED, MC_TRAIN_FAIL, MC_HOT
  · exact fun r hk h1 h2 h3 => if_neg (by simp [h1, h2, h3]; omega)
  · exact fun hk hon => if_neg (by simp [hon]; omega)
  · exact fun t hk hon => ⟨execMcHot_rises t hk hon, execMcHot_falls t hk hon⟩

end Sys2Proof.Proofs
end

section
/-! SUPPORT. Serial lanes: the equalisation table, lanes taken for test and returned, word boundaries, PRBS and the receive lock (R392 to
R402). -/

namespace Sys2Proof.Proofs
open Sys2Proof Sys2Proof.Machine

/-! The equalisation table (R392, R393) -/

/-- An entry that is taken has its fields in the ranges of Table 15-2, and magnitudes that add up to 63. -/
theorem eqEntryOk_ranges {e : EqEntry} (h : eqEntryOk e = true) :
    let main := fld e.toNat 16 8
    24 ≤ main ∧ main ≤ 63 ∧ main + (eqSigned e 0).natAbs + (eqSigned e 1).natAbs + (eqSigned e 3).natAbs = 63 ∧
    -8 ≤ eqSigned e 0 ∧ -24 ≤ eqSigned e 1 ∧ -24 ≤ eqSigned e 3 ∧ -32 ≤ eqSigned e 6 ∧ eqSigned e 6 ≤ 31 := by
  simp only [eqEntryOk, Bool.and_eq_true, decide_eq_true_eq] at h
  omega

section
variable {s : State} {l : Nat}

/-! OWNER (R398, R399) -/

/-- LN_LANE_CTRL of a lane whose quad is powered. -/
theorem execLnLaneCtrl_powered (v : Word) (hl : l < 96) (hp : lanePowered s l = true) :
    execLnLaneCtrl l v s =
      if bit v.toNat 0 then
        if !(serialLane s l).test ∧ !testAllowed s l then .next (count s Reg.lnCtrlRefused)
        else .next (dropDeaf (withRate (if (serialLane s l).test then s else absentLane s l) (l / 4)
          (fun u => retuneQuad (l / 4) (quadRate s (l / 4)) (laneFields u l v.toNat))) l)
      else if (serialLane s l).test then
        let u := withRate s (l / 4) (fun u => retuneQuad (l / 4) (quadRate s (l / 4)) (laneFields u l v.toNat))
        .next (if anyTest u (laneGroup s l).1 (laneGroup s l).2 then u else (upto (laneGroup s l).1 (laneGroup s l).2).foldl laneDefaults u)
      else .next (if fld v.toNat 1 4 = 0 then s else count s Reg.lnCtrlRefused) :=
  (if_neg (Nat.not_le.mpr hl)).trans (if_neg (by simp [hp]))

/-! PRBS (R400) -/

theorem execClear_zeroes (hl : l < 96) (hp : lanePowered s l = true) (ht : (serialLane s l).test = true) :
    execClear l s = .next (setSerialLane s l { serialLane s l with
      bits := 0, errs := 0, since := (serialLane s l).since.map (fun _ => s.now) }) := by
  unfold execClear
  rw [if_neg (Nat.not_le.mpr hl), if_neg (by simp [hp, ht])]
  rfl

theorem execInject_test (hl : l < 96) (hp : lanePowered s l = true) (ht : (serialLane s l).test = true) :
    execInject l s = .next (injectBit s l) := by
  unfold execInject
  rw [if_neg (Nat.not_le.mpr hl), if_neg (by simp [hp, ht])]

/-- The generator and a locked checker run on the lane. -/
theorem injectBit_running (hg : (serialLane s l).gen = true) (hc : (serialLane s l).check = true)
    (hk : (serialLane s l).prbsLock = true) :
    injectBit s l =
      if (serialLane s l).loop = 0 then
        useFree (setSerialLane s l { serialLane s l with errs := (serialLane s l).errs + fld (freeWord s).toNat 0 1 })
      else if (serialLane s l).loop = 3 then s
      else setSerialLane s l { serialLane s l with errs := (serialLane s l).errs + 1 } :=
  if_pos (by rw [hg, hc, hk]; rfl)

/-- Without generator, checker or lock, and in far-end loopback, no bit error is counted. -/
theorem injectBit_nothing (h : (serialLane s l).gen = false ∨ (serialLane s l).check = false ∨ (serialLane s l).prbsLock = false ∨
    (serialLane s l).loop = 3) : injectBit s l = s := by
  by_cases hrun : ((serialLane s l).gen && (serialLane s l).check && (serialLane s l).prbsLock) = true
  · simp only [Bool.and_eq_true] at hrun
    obtain ⟨⟨hg, hc⟩, hk⟩ := hrun
    have h3 : (serialLane s l).loop = 3 := by simpa [hg, hc, hk] using h
    rw [injectBit_running hg hc hk, if_neg (by omega), if_pos h3]
  · exact if_neg hrun

end

/-- Settles O54, instruction by instruction. -/
theorem laneCommands : Obligations.LaneCommands := by
  refine ⟨⟨fun r s src hr first es hs hne hfirst hlen hok hkeep => ?_, fun s l hl => ⟨?_, ?_, ?_, ?_, ?_, ?_, ?_, ?_, ?_, ?_⟩⟩,
    fun e he => eqEntryOk_ranges he⟩
  -- LANE_EQ_WRITE
  · have hbusy : keepBusy (accepted s src) = false := keepBusy_eq_false hkeep
    have hentries : es.any (fun e => !eqEntryOk e) = false := by
      simp only [List.any_eq_false]
      exact fun e he => by simp [hok e he]
    exact atNextTick_answers hr hs (guardAll_open (by simp [hbusy, hentries, hne]; omega) _)
  -- LN_LANE_CTRL
  · exact fun v hp hown ht => (execLnLaneCtrl_powered v hl hp).trans (by rw [if_pos hown, if_neg (by simp [ht]), if_pos ht])
  · exact fun v hp hown ht hallowed =>
      (execLnLaneCtrl_powered v hl hp).trans (by rw [if_pos hown, if_neg (by simp [hallowed]), if_neg (by simp [ht])])
  · exact fun v hp hown ht hallowed =>
      (execLnLaneCtrl_powered v hl hp).trans (by rw [if_pos hown, if_pos ⟨by rw [ht]; rfl, by rw [hallowed]; rfl⟩])
  · exact fun v hp hown ht => (execLnLaneCtrl_powered v hl hp).trans (by rw [if_neg (by simp [hown]), if_pos ht])
  -- LN_SLIP, CLEAR, INJECT
  · exact fun v hp ht h1 h39 => (if_neg (Nat.not_le.mpr hl)).trans ((if_neg (by simp [hp, ht])).trans (if_neg (by omega)))
  · exact fun hp ht => execClear_zeroes hl hp ht
  · intro hp ht
    have hinject := execInject_test hl hp ht
    refine ⟨fun hg hc hk h3 h0 => ?_, fun hg hc hk h0 => ?_, fun h => ?_⟩
    · exact hinject.trans (by rw [injectBit_running hg hc hk, if_neg h0, if_neg h3])
    · exact hinject.trans (by rw [injectBit_running hg hc hk, if_pos h0])
    · exact hinject.trans (by rw [injectBit_nothing h])
  -- PRBS_LOCK, PRBS_LOCK_LOSS, LN_LOCK_LOST
  · exact fun h => if_pos h
  · exact fun h => if_pos h
  · exact fun ht hk hu => if_neg (by simp [ht, hk, hu]; omega)

end Sys2Proof.Proofs
end

section
/-! SUPPORT. The management plane: the tick, the mailbox registers, the management commands and the transfers of the BMC (R405 to R412,
R418, R420, R421). -/

namespace Sys2Proof.Proofs
open Sys2Proof Sys2Proof.Machine

section
variable {s : State} {src : Nat}

/-! Doorbells (R412, R421) -/

theorem ringMailbox_rings (hs : sourceServed s src = true) (hp : (mbox s src).pending = false) (hr : (mbox s src).running = none) :
    ringMailbox s src = setMbox s src { mbox s src with pending := true, overrun := false } := by
  unfold ringMailbox
  rw [if_neg (by simp [hs])]
  exact if_neg (by simp [hp, hr])

/-- A doorbell while a command of the source is outstanding. -/
theorem ringMailbox_overruns (hs : sourceServed s src = true) (h : (mbox s src).pending = true ∨ (mbox s src).running ≠ none) :
    ringMailbox s src = setMbox s src { mbox s src with overrun := true } := by
  have hbusy : ((mbox s src).pending || (mbox s src).running.isSome) = true := by
    simpa [Option.isSome_iff_ne_none] using h
  unfold ringMailbox
  rw [if_neg (by simp [hs])]
  exact if_pos hbusy

/-! Writes of the flash (R410, log entry 54) -/

theorem writeBank_bank (s : State) (b : Bytes) : (writeBank s b).mg.bank = s.mg.bank := by
  unfold writeBank
  split <;> rfl

theorem writeHeader_bank (s : State) (bank : Bool) : (writeHeader s bank).mg.bank = s.mg.bank := by
  unfold writeHeader
  split <;> rfl

/-- A package that verifies is named by the newer header copy, and FLASH_WRITE answers. -/
theorem execFlashWriteComplete_ok {b : Bytes} (hf : s.mg.flash = some (src, b)) :
    let u := writeHeader (writeBank { s with mg := { s.mg with flash := none } } b) (!s.mg.bank)
    execFlashWriteComplete true s = .next (answer u src 0x52
      { status := .ok, results := [(1, b2n (!s.mg.bank)), (8, pkgFirmware b)] }) := by
  intro u
  have hbank : u.mg.bank = s.mg.bank := (writeHeader_bank ..).trans (writeBank_bank ..)
  rw [← hbank]
  unfold execFlashWriteComplete
  rw [hf]
  rfl

theorem execFlashWriteComplete_failed {b : Bytes} (hf : s.mg.flash = some (src, b)) :
    let u := { s with mg := { s.mg with flash := none } }
    execFlashWriteComplete false s = .next (answer (raiseSrc (useFree u) Src.mgFlash {}) src 0x52
      { status := .badImage, detail := BitVec.ofNat 64 (1 + (freeWord u).toNat % 3) }) := by
  unfold execFlashWriteComplete
  rw [hf]
  rfl

theorem doFlashWrite_begins {from_ : ImageSource} {n : Nat} {host : Option Bytes} {b : Bytes} {v : State} (hf : s.mg.flash = none)
    (hr : readImage s mgt from_ n host = (.ok b, v)) (hok : flashFault v b = none) :
    doFlashWrite s src from_ n host = ({ v with mg := { v.mg with flash := some (src, b.take (pkgLength b)) } }, none) := by
  unfold doFlashWrite
  rw [if_neg (by simp [hf]), hr]
  dsimp only
  rw [hok]

/-! KEEP_WRITE, QUEUE_PUSH and QUEUE_POP (R418, Table 16-7) -/

/-- What KEEP_WRITE writes to each field. -/
def keepWritten (s : State) (field : Nat) (v : Word) (off : Nat) (b : Bytes) : State :=
  if field = 0 then keepWrite s Keep.mgrPorts v
  else if field = 1 then keepWrite s Keep.vfBar2 v
  else if field = 2 then keepWrite s Keep.subsys v
  else writeUser s off b

theorem keepWrite_answers {r : State} {field off : Nat} {v : Word} {b : Bytes} (hr : Rings r src s) (hs : Served s src 0x53)
    (hk : s.mg.keepDue ≤ s.now) (harg : keepArgBad field v off b = false) :
    execKeepWrite src field v off b r = .next (tickRest src (answered s src 0x53 [] (fun u => keepWritten u field v off b))) := by
  have hbusy : keepBusy (accepted s src) = false := keepBusy_eq_false hk
  exact atNextTick_answers hr hs (guardAll_open (by simp [harg, hbusy]) _)

/-- Taking a command up leaves the queues as they are. -/
theorem admits_accepted {q prio n : Nat} {tag : BitVec 11} (h : Admits s q prio tag n) : Admits (accepted s src) q prio tag n :=
  ⟨h.found⟩

theorem doQueuePush_links {q prio : Nat} {b : Bytes} {x : Queue} (hx : queue? s q = some x) (hc : x.ctx = mgt)
    (hd : x.destroyed = false) (hp : prio ≤ 7) (hb : b ≠ []) (hlen : b.length ≤ 4032) (hsafe : s.th.safe = false)
    (ha : Admits s q prio (mkTag mgt 1) b.length) : doQueuePush s q prio b = done (pushed s q prio (mkTag mgt 1) b false) := by
  have hthere : queueGone s q = false := by
    unfold queueGone
    rw [hx]
    exact hd
  have hown : mgtOwned s q = true := by
    unfold mgtOwned
    rw [hx]
    exact beq_iff_eq.mpr hc
  unfold doQueuePush
  rw [guardAll_open (by simp [hthere, hown, hb]; omega), if_neg (by simp [hsafe]), push_admitted ha]

theorem doQueuePop_takes {q : Nat} {x : Queue} {i : Item} (hx : queue? s q = some x) (hi : headItem x = some i) (hc : x.ctx = mgt)
    (hlen : i.bytes.length ≤ 4032) :
    doQueuePop s q = (unlinkItem s q x i 0,
      some { status := .ok, detail := BitVec.ofNat 64 (b2n i.poison), results := [(1, i.prio)], data := i.bytes }) := by
  unfold doQueuePop
  rw [hx]
  dsimp only
  rw [hi]
  dsimp only
  rw [if_neg (by simp [hc]), if_neg (Nat.not_lt.mpr hlen)]

/-! The BMC (R406, R411) -/

/-- A CCC of I3C mode on a device in that mode. -/
theorem ccc_acknowledged {body : State} (hup : bmcUp s = true) (h : s.mg.i3c = true) : ccc s body = .next body :=
  (if_neg (by simp [hup])).trans (if_pos h)

end

/-- Settles O55: the rows of the mailbox, the commands, then the transfers of the BMC. -/
theorem managementCommands : Obligations.ManagementCommands := by
  refine ⟨⟨fun s src => ⟨?_, ?_, ?_, ?_, ?_, fun b => execFlashWriteComplete_ok, fun b => execFlashWriteComplete_failed⟩,
    fun r s src q hr => ⟨?_, ?_, ?_, ?_, ?_, ?_⟩⟩, fun s hup => ⟨?_, ?_, ?_, ?_, ?_, ?_, ?_, ?_, ?_, ?_⟩⟩
  -- MANAGEMENT_TICK, MG_MB_DOORBELL, FLASH_WRITE with the host's bytes, MG_MB_RSP
  · exact fun h => if_neg (by simp [h])
  · exact fun p hp hs hpend hrun => (if_pos hp).trans (congrArg _ (ringMailbox_rings hs hpend hrun))
  · exact fun p hp hs hbusy => (if_pos hp).trans (congrArg _ (ringMailbox_overruns hs hbusy))
  · exact fun from_ n host hrun => if_pos hrun
  · exact fun p hp => if_pos hp
  -- DEVICE_INFO, FLASH_WRITE
  · exact fun hs => atNextTick_answers hr hs rfl
  · intro from_ n host b v hs hf hread hok
    exact atHostData_rings hr (congrArg _ (takeUp_runs s src 0x52 _ _ _ hs
      (doFlashWrite_begins (s := accepted s src) hf hread hok)))
  -- KEEP_WRITE
  · intro v off b hs hk
    refine ⟨fun h => ?_, fun hlo hhi => ?_, fun h => ?_, fun hb h => ?_⟩
    · exact keepWrite_answers hr hs hk (by simp [keepArgBad]; omega)
    · exact keepWrite_answers hr hs hk (by simp [keepArgBad]; omega)
    · exact keepWrite_answers hr hs hk (by simp [keepArgBad]; omega)
    · exact keepWrite_answers hr hs hk (by simp [keepArgBad, hb]; omega)
  -- TIME_SET, QUEUE_PUSH, QUEUE_POP
  · intro m p d st hs hm hp hd
    cases st <;> exact atNextTick_answers hr hs (guardAll_open (by simp; omega) _)
  · exact fun prio b x hs hx hc hd hp hb hlen hsafe ha => atNextTick_answers hr hs
      (doQueuePush_links (s := accepted s src) hx hc hd hp hb hlen hsafe (admits_accepted ha))
  · exact fun x i hs hx hi hc hlen => atNextTick_answers hr hs (doQueuePop_takes (s := accepted s src) hx hi hc hlen)
  -- REQUEST_BUFFER_WRITE, RESPONSE_BUFFER_READ
  · exact fun off b h => (if_neg (by simp [hup])).trans (if_neg (Nat.not_lt.mpr h))
  · exact fun off b h => (if_neg (by simp [hup])).trans (if_pos h)
  · exact fun off n h => (if_neg (by simp [hup])).trans (if_neg (Nat.not_lt.mpr h))
  · exact fun off n h => (if_neg (by simp [hup])).trans (if_pos h)
  -- BMC_DOORBELL, STATUS_READ, the addresses and the mode
  · intro hpend hrun
    have hserved : sourceServed s 8 = true := rfl
    exact (if_pos hup).trans (congrArg _ (ringMailbox_rings hserved hpend hrun))
  · exact if_neg (by simp [hup])
  · exact fun a => if_pos hup
  · exact fun a => if_pos hup
  · exact if_pos hup
  · exact fun h => ⟨ccc_acknowledged hup h, ccc_acknowledged hup h, ccc_acknowledged hup h, ccc_acknowledged hup h,
      ccc_acknowledged hup h, ccc_acknowledged hup h, ccc_acknowledged hup h⟩

end Sys2Proof.Proofs
end
